-- ==== Sys2Proof/Word.lean ====
section
/-! DEFINITION. The words of the block, byte strings, and sparse tables in one canonical form. -/

namespace Sys2Proof

abbrev Byte := BitVec 8
/-- A byte string, byte 0 first (spec/00 R4). -/
abbrev Bytes := List (BitVec 8)
abbrev Word32 := BitVec 32
/-- A 64-byte line; byte k in bits [8k+7:8k] (spec/02 R34). -/
abbrev Line := BitVec 512
/-- A 40-bit line number, DPA[45:6] (spec/07, Storage cipher and line MAC). -/
abbrev LineNo := BitVec 40
/-- A 56-bit counter field (spec/08 R203). -/
abbrev Ctr := BitVec 56
/-- A 48-bit TREF timestamp (spec/02 R81). -/
abbrev Stamp := BitVec 48

/-- A sparse table: pairs of index and value. An index that is not listed holds `default`. -/
abbrev Tab (α : Type) := List (Nat × α)

namespace Tab

/-- The value at an index: what is listed, else the type's default. -/
def get {α : Type} [Inhabited α] : Tab α → Nat → α
  | [], _ => default
  | (k, v) :: r, i => if k = i then v else get r i

/-- Write an index, keeping the canonical form: indices strictly rising, no entry equal to the default. -/
def put {α : Type} [Inhabited α] [DecidableEq α] : Tab α → Nat → α → Tab α
  | [], i, v => if v = default then [] else [(i, v)]
  | (k, w) :: r, i, v =>
    if i < k then (if v = default then (k, w) :: r else (i, v) :: (k, w) :: r)
    else if i = k then (if v = default then r else (i, v) :: r)
    else (k, w) :: put r i v

/-- Apply a function to the value at an index. -/
def upd {α : Type} [Inhabited α] [DecidableEq α] (t : Tab α) (i : Nat) (f : α → α) : Tab α :=
  put t i (f (get t i))

/-- Apply a function to every listed entry, keeping the canonical form. -/
def mapAll {α : Type} [Inhabited α] [DecidableEq α] (t : Tab α) (f : Nat → α → α) : Tab α :=
  (t.map fun p => (p.1, f p.1 p.2)).filter fun p => p.2 ≠ default

/-- The canonical form. -/
def wf {α : Type} [Inhabited α] [DecidableEq α] (t : Tab α) : Bool :=
  decide (t.Pairwise (fun p q => p.1 < q.1)) && t.all (fun p => decide (p.2 ≠ default))

end Tab

/-- Byte `i` of a line or beat (spec/02 R34). -/
def lineByte (x : Line) (i : Nat) : Byte := x.extractLsb' (8 * i) 8

/-- The bytes of a word of `n` bytes, least significant first (spec/00 R4). -/
def leBytes (n : Nat) (v : Nat) : Bytes :=
  (List.range n).map fun i => BitVec.ofNat 8 (v / 2 ^ (8 * i))

/-- The bytes of a word of `n` bytes, most significant first. -/
def beBytes (n : Nat) (v : Nat) : Bytes := (leBytes n v).reverse

/-- The number a byte string holds, least significant byte first. -/
def leNat : Bytes → Nat
  | [] => 0
  | b :: r => b.toNat + 256 * leNat r

/-- The number a byte string holds, most significant byte first. -/
def beNat (bs : Bytes) : Nat := leNat bs.reverse

/-- `n` bytes of `bs` from offset `o`, padded with zeros. -/
def slice (bs : Bytes) (o n : Nat) : Bytes :=
  let t := (bs.drop o).take n
  t ++ List.replicate (n - t.length) 0

/-- The little-endian number in `n` bytes at offset `o`. -/
def field (bs : Bytes) (o n : Nat) : Nat := leNat (slice bs o n)

def lineBytes (x : Line) : Bytes := leBytes 64 x.toNat
def bytesLine (bs : Bytes) : Line := BitVec.ofNat 512 (leNat (slice bs 0 64))

/-- Bits `[hi:lo]` of a 32-bit register value as a number (spec/00 R3). -/
def bits (v : Word32) (hi lo : Nat) : Nat := (v.toNat / 2 ^ lo) % 2 ^ (hi - lo + 1)
/-- Bit `i` of a 32-bit register value. -/
def bit (v : Word32) (i : Nat) : Bool := v.getLsbD i
/-- A flag as a number. -/
def flag (b : Bool) : Nat := if b then 1 else 0

/-- Counters that stop at a maximum (spec/04 R126 and its like). -/
def satAdd (mx n k : Nat) : Nat := min mx (n + k)

/-- A value kept within bounds (the clamp rules of the register chapters). -/
def clamp (lo hi n : Nat) : Nat := max lo (min hi n)

end Sys2Proof
end

