-- ==== Sys2Proof/Config.lean ====
section
/-! DEFINITION. The free values (opaque: nothing can evaluate them) and the fixed sizes of the block. -/

namespace Sys2Proof
namespace Config

/-- How many CORE cycles pass before the n-th draw of a replacement way: the spec steps each bank's LFSR once
per CORE cycle (spec/09 R239) and the model counts no CORE cycles. Free value (log 2). -/
opaque coreCycles : Nat → Nat

/-- The value that follows a value of a lane's audit LFSR, at the n-th draw: the spec does not give its polynomial
(spec/07 R192). Free value (log 2). -/
opaque auditLfsr : Nat → Word32 → Word32

/-- TAG and bytes that a READ by set and way returns for a line that holds no node: the spec gives them only after ZERO
(spec/09 R247). Free values, at the n-th such read (log 2). -/
opaque heldTag : Nat → BitVec 27
opaque heldLine : Nat → Line

def ports : Nat := 8
def channels : Nat := 16
def lanes : Nat := 36
/-- Reads and writes in flight at most (spec/01 R18). -/
def maxReads : Nat := 4096
def maxWrites : Nat := 2048
/-- Service accesses in flight at most, of each kind (spec/14 R381). -/
def maxSvc : Nat := 512
/-- Parked requests at most (spec/04 R105). -/
def maxParked : Nat := 512
/-- Streams on the reject list at most (spec/05 R136). -/
def maxReject : Nat := 256
/-- Initial credits of a receive-side channel pair (spec/02 R41). -/
def initReq : Nat := 32
def initWdat : Nat := 32
def initWlpc : Nat := 16
def initRlpc : Nat := 16
def initDb : Nat := 16
/-- TREF cycles in one microsecond, at 100 MHz (spec/02 R81). -/
def trefPerUs : Nat := 100
/-- The largest count M (spec/08 R203) and the ancestor limit T (spec/08 R205). -/
def maxCount : Nat := 0xFDFFFFFFFFFFFF
def ancestorLimit : Nat := 0xFDFFFFFF000000
/-- Slots of the entry cache, in all and for one queue (spec/12 R327). -/
def cacheSlots : Nat := 2048
def cachePerQueue : Nat := 8
/-- Lines of an image copy (spec/10 R259). -/
def imageLines : Nat := 8194
/-- Cells of the boundary-scan chain (spec/17 R459), one for each bit of the signals of spec/02 that have one. -/
def chainBits : Nat := 18844

/-- The test keys, test data and the place of the test line that are built into the engine for its known-answer sets
(spec/07 R189): the spec gives no values. Free values (log 96). -/
opaque katKey : BitVec 256
opaque katMacKey : BitVec 256
opaque katLink : BitVec 256
opaque katTag : Byte
opaque katLine : LineNo
opaque katCtr : Ctr
opaque katIv : BitVec 96
opaque katAad : BitVec 96
opaque katData : Line

end Config
end Sys2Proof
end

