-- ==== Sys2Proof/Syntax.lean ====
section
/-! DEFINITION. The commands of the block: one constructor per row of spec/opcode_table.json. -/

namespace Sys2Proof

/-- A 72-byte data or metadata beat: bytes 0-63, the MAC of bytes 64-70 (byte 64 its most significant byte),
and byte 71 (spec/02 R50, spec/07 R182). -/
structure Beat where
  data : Line
  mac : BitVec 56
  ktag : BitVec 8
  deriving DecidableEq, Repr, Inhabited

/-- What the audit of a sampled pass shows: both lanes agree, the lane that took the pass is the odd one,
the auditor is the odd one, or no two of three agree (spec/07 R194). -/
inductive Audit where
  | agree | laneFaulty | auditorFaulty | diverge
  deriving DecidableEq, Repr, Inhabited

/-- The channels on which a peer returns credits to the engine (spec/02 R32). -/
inductive CreditCh where
  | rsp (p : Fin 8) | rdat (p : Fin 8) | wchk (p : Fin 8) | rtag (p : Fin 8)
  | mcmd (ch : Fin 16) | mwd (ch : Fin 16) | hdmaWr | hdmaRd
  deriving DecidableEq, Repr

/-- The source registers of event records (spec/12 R491). -/
inductive EvSrc where
  | stl | frs | per | svc | flt | del
  deriving DecidableEq, Repr, Inhabited

/-- The registers of a stream table written under spec/05 R146. -/
inductive GeomReg where
  | geom | seed0 | seed1
  deriving DecidableEq, Repr

/-- Who takes a service step: the Front of a region index, Drizzle, or the running service command of a queue
entry (spec/14 R380). -/
inductive SvcWho where
  | front (index : Nat) | drizzle | cmd (q : Nat) (pos : Nat)
  deriving DecidableEq, Repr, Inhabited

/-- What the check bits show when the Canopy is read: an error in the data of a line, or in the tag store; each
corrected or uncorrectable (spec/09 R237, R238); or a corrected error of the Zenith store or the ceiling store (spec/08
R230). -/
inductive CanErr where
  | data (line : Nat) (uncorrectable : Bool) | tag (uncorrectable : Bool) | zenith
  deriving DecidableEq, Repr

/-- An entry of the key store (spec/11 R285): a KSLOT, a session key register, a KEK slot, a zone metadata key, a derived
device key, the DRBG working state. -/
inductive KeyRef where
  | slot (i : BitVec 16) | reg (i : BitVec 10) | kek (i : BitVec 4) | zone (z : BitVec 13) | derived (i : Fin 4) | drbg
  deriving DecidableEq, Repr

/-- An error that the check bits of a table show when a lookup reads it: in a stream table slot (spec/05 R130) or in a
region entry (spec/06 R154), corrected or uncorrectable; or a corrected error of the Zenith entry that holds the state of the
zone (spec/08 R212, R230). -/
inductive Chk where
  | slot (i : BitVec 17) (uncorrectable : Bool)
  | region (i : BitVec 12) (uncorrectable : Bool)
  | zenith
  deriving DecidableEq, Repr, Inhabited

/-- A frame whose check has passed, less its type (spec/16 R436). -/
structure Frame where
  bcast : Bool
  origin : BitVec 6
  dest : BitVec 6
  ttl : BitVec 6
  oseq : Word32
  payload : List Word32
  deriving DecidableEq, Repr, Inhabited

/-- One step of the block. An admin or I/O command row names the entry in execution by its queue and position;
its operands are that entry's bytes (spec/13 R354). A doorbell row gives the slot, bits [29:0] of the value (its
OP is the row's) and the byte enables (spec/12 R320). An operand `err`, `key` or `chk` says what the check bits of a memory
that the step reads show: `err` for the Canopy and the Zenith store (`CanErr`; CANOPY_MAINT_READ, true for uncorrectable), a
corrected error of an in-flight buffer (RESPONSE_TRANSFER), an error in a parked request (PARKING_TIMEOUT), in a queue's
context or cached entry (ENTRY_CONSUMPTION, true for uncorrectable); `key` for a key entry, true for uncorrectable, and `drbg` for the DRBG working state alone; `zenith` for a corrected
error of the Zenith store or the ceiling store; `chk` for slots, region entries and zone states that a lookup reads, with the
access where the row looks up several. The `samples` of an entropy
source are raw bits, the first in bit 7 of byte 0 (spec/11 R305). A row of the TAP is a whole scan; TRST_N takes a level. -/
inductive Instr where
  /-- FABRIC_REQUEST (spec R104): A REQ transfer reaches CORE; the operation, stream, port, region, key-index, key-slot and zone checks run and the request is admitted, parked or refused. -/
  | fabricRequest (p : Fin 8) (op : BitVec 2) (tag : BitVec 12) (sid kid : BitVec 16) (line : LineNo) (sess : BitVec 5) (chk : List Chk)
  /-- WRITE_PAYLOAD (spec R37): A WDAT transfer arrives, is paired with the k-th write request of its port and is taken into its session's write window. -/
  | writePayload (p : Fin 8) (data : Line) (mask : BitVec 64)
  /-- WLPC_OPEN (spec R43): An OPEN entry on WLPC opens a write window for its session, or is a FORMAT error if one is already open. -/
  | wlpcOpen (p : Fin 8) (e : BitVec 128)
  /-- WLPC_AAD (spec R43): An AAD entry on WLPC is consumed by the session's open write window, or is a FORMAT error. -/
  | wlpcAad (p : Fin 8) (e : BitVec 128)
  /-- WLPC_CLOSE (spec R43): A CLOSE entry on WLPC carries the received tag of the session's open write window, or is a FORMAT error. -/
  | wlpcClose (p : Fin 8) (e : BitVec 128)
  /-- WLPC_RESERVED_TYPE (spec R42): A WLPC entry with reserved TYPE or malformed fields is a FORMAT error of the named session. -/
  | wlpcReservedType (p : Fin 8) (ty : BitVec 2) (e : BitVec 128)
  /-- WINDOW_RESULT (spec R45): A complete write window's tag check finishes; WCHK reports PASS, TAG_FAIL, SESSION_FAILED or FORMAT and its writes proceed or complete LINK_ERROR. -/
  | windowResult (sess : BitVec 8)
  /-- WRITE_WINDOW_TIMEOUT (spec R43): A write window is not complete within the window timeout and ends with RESULT FORMAT. -/
  | writeWindowTimeout (sess : BitVec 8)
  /-- RLPC_OPEN (spec R46): An OPEN entry on RLPC queues a read window for its session. -/
  | rlpcOpen (p : Fin 8) (e : BitVec 128)
  /-- RLPC_AAD (spec R46): An AAD entry on RLPC is taken by the session's read window that lacks it, or is a FORMAT error that fails the transmit direction. -/
  | rlpcAad (p : Fin 8) (e : BitVec 128)
  /-- RLPC_FORMAT_ERROR (spec R46): A reserved TYPE, CLOSE or malformed entry on RLPC fails the session's transmit direction and ends its read windows. -/
  | rlpcFormatError (p : Fin 8) (ty : BitVec 2) (e : BitVec 128)
  /-- RTAG (spec R46): After a read window's COUNT-th payload and all its AAD entries, the engine sends the window's computed tag on RTAG. -/
  | rtag (sess : BitVec 8)
  /-- READ_WINDOW_WAIT_TIMEOUT (spec R46): A read waiting for a read window, or a window waiting for AAD, passes the window timeout and completes LINK_ERROR or ends as a FORMAT error. -/
  | readWindowWaitTimeout (sess : BitVec 8) (read : Option Nat)
  /-- ACCESS_GRANT (spec R110): An access becomes the oldest for its line and starts work: Canopy probe, key selection, and the read, write or partial-write flow. -/
  | accessGrant (id : Nat) (err : Option CanErr)
  /-- LADDER_VERIFY_DONE (spec R219): The beats of a ladder fetch down to the lowest live rung have arrived and the rungs verify bottom up, giving the counter or a node error. -/
  | ladderVerifyDone (id : Nat) (err : Option CanErr) (key : Option (KeyRef × Bool))
  /-- MEDIA_READ_BEAT (spec R52): An MRD transfer returns a beat for a data, metadata or anchor read and the engine acts on its MRD_ECC. -/
  | mediaReadBeat (ch : Fin 16) (tag : BitVec 10) (beat : Beat) (ecc : BitVec 2) (zenith : Bool) (key : Option (KeyRef × Bool))
  /-- LANE_PASS_DONE (spec R175): A lane finishes a write, read, partial, zero-read, retry or service pass and its output, audited if sampled, leaves the lane. -/
  | lanePassDone (id : Nat) (lane : Fin 36) (audit : Audit) (err : Option CanErr) (key : Option (KeyRef × Bool))
  /-- MEDIA_WRITE_COMPLETION (spec R53): An MCPL transfer reports a data, metadata, open-map or image write PERSISTENT or FAILED. -/
  | mediaWriteCompletion (ch : Fin 16) (tag : BitVec 10) (status : BitVec 2) (zenith : Bool)
  /-- RESPONSE_TRANSFER (spec R39): The engine drives an RSP or RDAT completion once it holds a credit, and the access leaves the line gate. -/
  | responseTransfer (id : Nat) (err : Bool)
  /-- CREDIT_RETURN (spec R32): A peer returns one credit on a valid/credit channel and the engine adds it to its counter. -/
  | creditReturn (c : CreditCh)
  /-- MCN_FAIL (spec R55): A high level on MCn_FAIL retires channel n and outstanding commands complete as retired-channel errors. -/
  | mcnFail (ch : Fin 16)
  /-- TRANSIENT_BUCKET_LEAK (spec R421): A channel's leak period expires and its transient bucket falls by 1. -/
  | transientBucketLeak (ch : Fin 16)
  /-- PARKING_TIMEOUT (spec R140): A parked request passes STL_PARK_TIMEOUT and completes ACCESS_ERROR. -/
  | parkingTimeout (id : Nat) (err : Bool)
  /-- PARKED_RELEASE (spec R139): Parked requests of a stream, or all of them after a swap, are released in parking order and repeat the admission checks. -/
  | parkedRelease (chk : List (Nat × Chk))
  /-- AGEING_TICK (spec R137): Every STL_AGE_PERIOD the AGE of every valid active entry rises by 1, stopping at 255. -/
  | ageingTick
  /-- HDMA_WRITE_ACK (spec R58): A WACK arrives for an HDMA write; completions and records count on their vector, or a failure stops the queue or command. -/
  | hdmaWriteAck (tag : BitVec 8) (err : Bool)
  /-- HDMA_READ_DATA (spec R60): An RDATA transfer returns entries, fragment tables, buffers or vector entries for an outstanding HDMA read. -/
  | hdmaReadData (tag : BitVec 8) (data : BitVec 256) (last err : Bool)
  /-- HOST_HOLDOFF_RISE (spec R61): HOST_HOLDOFF rises and interrupt messages that fall due become pending. -/
  | hostHoldoffRise
  /-- HOST_HOLDOFF_FALL (spec R344): HOST_HOLDOFF falls and pending vectors are sent in ascending vector number. -/
  | hostHoldoffFall
  /-- TAIL (spec R321): A TAIL doorbell sets a submission queue's tail, acts as SCAN on a scan-only queue, or releases records of an event queue. -/
  | tail (slot : BitVec 14) (low : BitVec 30) (be : BitVec 8)
  /-- SCAN (spec R325): A SCAN doorbell makes the engine read forward from T, extending T over entries with OWN = 1. -/
  | scan (slot : BitVec 14) (low : BitVec 30) (be : BitVec 8)
  /-- INVALIDATE (spec R328): An INVALIDATE doorbell discards the queue's cached unconsumed entries and sets F to H. -/
  | invalidate (slot : BitVec 14) (low : BitVec 30) (be : BitVec 8)
  /-- DRAIN (spec R345): A DRAIN doorbell waits for earlier completion and record writes, then makes every vector with items due. -/
  | drain (slot : BitVec 14) (low : BitVec 30) (be : BitVec 8)
  /-- ENTRY_FETCH (spec R324): The engine reads up to 8 entries from F toward T into the entry cache as slots allow. -/
  | entryFetch (q : BitVec 14)
  /-- SCAN_POLL (spec R326): Every QMG_SCAN_PERIOD a scan-only queue rereads the entry where its scan stopped. -/
  | scanPoll (q : BitVec 14)
  /-- ENTRY_CONSUMPTION (spec R329): The engine takes the entry at H for execution in ring order, checking its opcode, flags, format and fragment descriptor. -/
  | entryConsumption (q : BitVec 14) (err : Option Bool)
  /-- EVENT_RECORD_WRITE (spec R336): A held or new event record is written to its event queue once it has room. -/
  | eventRecordWrite (src : EvSrc)
  /-- VECTOR_DUE (spec R343): A vector's count or time threshold is reached and one interrupt message is issued, or PEND is set. -/
  | vectorDue (vec : BitVec 11)
  /-- REG_WRITE (spec R8): A REG write to a register with no row of its own sets its fields, holds a _LO value or completes a _HI pair. -/
  | regWrite (woff : BitVec 22) (v : Word32)
  /-- REG_READ_PAIR_LO (spec R9): A read of _LO of an engine-updated pair copies the current _HI into the holding register. -/
  | regReadPairLo (woff : BitVec 22) (zenith : Bool)
  /-- FAB_PORT_EN (spec R123): A write to FAB_PORT_EN enables or disables ports and returns withheld credits on re-enabled ports. -/
  | fabPortEn (v : Word32)
  /-- FAB_CNT_CLR (spec R126): A write to FAB_CNT_CLR clears the four counters of selected ports. -/
  | fabCntClr (v : Word32)
  /-- STL_CLEAR (spec R146): A write to STL_CLEAR starts clearing the shadow stream table, or is ignored for the active set. -/
  | stlClear (v : Word32)
  /-- STL_CLEAR_DONE (spec R146): The clear of a shadow stream table ends and STL_STAT.CLEARING falls. -/
  | stlClearDone
  /-- STL_REJECT_CLR (spec R151): A write to STL_REJECT_CLR empties the reject list. -/
  | stlRejectClr (v : Word32)
  /-- STL_CNT_CLR (spec R151): A write to STL_CNT_CLR clears the per-port counters of selected ports and STL_EVICT_CNT. -/
  | stlCntClr (v : Word32)
  /-- STL_GEOM_SEED_WRITE (spec R146): A write to STL_GEOM, STL_SEED0 or STL_SEED1 takes effect only for an empty idle set, else sets CFG_IGN. -/
  | stlGeomSeedWrite (reg : GeomReg) (set : Fin 2) (v : Word32)
  /-- RMP_CLEAR (spec R164): A write to RMP_CLEAR starts invalidating every entry of the shadow region set. -/
  | rmpClear (v : Word32)
  /-- RMP_CLEAR_DONE (spec R164): The clear of a shadow region set ends and RMP_STAT.CLEARING falls. -/
  | rmpClearDone
  /-- RMP_SET_CFG (spec R164): A write to RMP_SET_CFG sets the format of an empty shadow set, or is ignored with CFG_IGN. -/
  | rmpSetCfg (set : Fin 2) (v : Word32)
  /-- LAN_KAT_RUN (spec R191): A write to LAN_KAT_RUN starts a known-answer set on each named eligible lane. -/
  | lanKatRun (hi : Word32)
  /-- KAT_PERIOD_EXPIRY (spec R190): A lane's known-answer period nears its end with no set complete, so the lane takes no new pass until a set runs. -/
  | katPeriodExpiry (lane : Fin 36)
  /-- KAT_SET_DONE (spec R196): A known-answer set ends; a failure quarantines or retires the lane and a pass advances its quarantine. -/
  | katSetDone (lane : Fin 36) (results : List Bytes)
  /-- PROBATION_END (spec R196): 1 ms after the failure that caused a quarantine passes with no further failure and a PROBATION lane returns to ACTIVE. -/
  | probationEnd (lane : Fin 36)
  /-- STANDBY_KAT_REPEAT (spec R196): Every 100 µs a requarantined standby lane repeats a known-answer set until its 1 ms ends. -/
  | standbyKatRepeat (lane : Fin 36)
  /-- CLUSTER_IDLE_GATE (spec R99): A cluster with IDLE_EN set has no work for 64 CCL cycles and its internal clock is gated. -/
  | clusterIdleGate (k : Fin 9)
  /-- CAN_CTRL_EN (spec R251): A write of 0 to CAN_CTRL.EN starts a drain; a write of 1 ends drain or bypass. -/
  | canCtrlEn (v : Word32)
  /-- CAN_PIN_CFG (spec R244): A write to CAN_PIN_CFG sets the pinned partition while in bypass, or is ignored with CFG_IGN. -/
  | canPinCfg (v : Word32)
  /-- CAN_LFSR_RESEED (spec R239): A write to CAN_LFSR_RESEED reloads all 32 replacement LFSRs from the DRBG. -/
  | canLfsrReseed (v : Word32) (drbg : Option Bool)
  /-- CAN_CNT_CLR (spec R256): A write to CAN_CNT_CLR clears the hit and miss counters. -/
  | canCntClr (v : Word32)
  /-- WRITE_BACK (spec R224): The governor starts a write-back of an eligible dirty node: parent slot advanced, node MAC computed, metadata write issued. -/
  | writeBack (err : Option CanErr) (key : Option (KeyRef × Bool))
  /-- FRS_META_BASE_WRITE (spec R211): A write to FRS_META_BASE_HI or FRS_ZONE_LIMIT takes effect only with every zone OFFLINE and valid placement, else sets CFG_IGN. -/
  | frsMetaBaseWrite (limit : Bool) (v : Word32)
  /-- FRS_CNT_CLR (spec R232): A write to FRS_CNT_CLR clears the three FRS counters. -/
  | frsCntClr (v : Word32)
  /-- PER_ARM (spec R264): A write to PER_ARM starts arming: every open-map entry is written as 0 and E set to 1. -/
  | perArm (v : Word32)
  /-- ARMING_DONE (spec R264): All 1,024 open-map initialisation writes are persistent and ARMED rises, or a failure sets ARM_FAIL. -/
  | armingDone
  /-- PER_ANCHOR_BASE_WRITE (spec R283): A _HI write to PER_ANCHOR_BASE takes effect only while unarmed and idle, else sets CFG_IGN. -/
  | perAnchorBaseWrite (v : Word32)
  /-- PER_CNT_CLR (spec R283): A write to PER_CNT_CLR clears PER_CKPT_CNT and PER_FAIL_CNT. -/
  | perCntClr (v : Word32)
  /-- KEY_DRBG_RESEED (spec R306): A write to KEY_DRBG_RESEED forces a reseed before the next DRBG request. -/
  | keyDrbgReseed (v : Word32)
  /-- DRBG_RESEED_DONE (spec R306): 1,024 fresh samples have been collected and the DRBG reseed completes, leaving ERROR if it was there. -/
  | drbgReseedDone (samples : Bytes) (drbg : Option Bool)
  /-- KEY_ENT_EN (spec R303): A write to KEY_ENT_EN stops sources whose bit clears and reruns the start-up tests of sources whose bit sets. -/
  | keyEntEn (v : Word32)
  /-- KEY_CNT_CLR (spec R315): A write to KEY_CNT_CLR clears the unwrap and reseed counters. -/
  | keyCntClr (v : Word32)
  /-- ENTROPY_STARTUP_DONE (spec R302): A source finishes its start-up tests over 1,024 samples and turns OK or FAILED. -/
  | entropyStartupDone (n : Fin 8) (samples : Bytes)
  /-- ENTROPY_HEALTH_FAIL (spec R303): A source fails a repetition count or adaptive proportion test in service, turns FAILED and raises KEY_ENT_FAIL. -/
  | entropyHealthFail (n : Fin 8) (samples : Bytes)
  /-- DRBG_INSTANTIATE (spec R305): Entropy collection completes and the CTR_DRBG is instantiated, releasing commands that wait for a draw. -/
  | drbgInstantiate (samples : Bytes) (lfsr : List Word32)
  /-- ENABLE (spec R339): QMG_QCTL ENABLE makes an IDLE or STOPPING queue ACTIVE, or creates queue 0 from the admin registers. -/
  | enable (q : BitVec 14)
  /-- DISABLE (spec R339): QMG_QCTL DISABLE moves an ACTIVE queue to STOPPING. -/
  | disable (q : BitVec 14)
  /-- ADMIN_RESET (spec R340): QMG_QCTL ADMIN_RESET waits for queue 0's entries in execution and sets queue 0 to NONE. -/
  | adminReset (q : BitVec 14)
  /-- QUEUE_IDLE (spec R339): A STOPPING queue has no entry in execution and no outstanding fetch or write, and becomes IDLE. -/
  | queueIdle (q : BitVec 14)
  /-- QMG_VEC_LOAD (spec R341): A write to QMG_VEC_LOAD reads one or all vector table entries over HDMA and replaces the engine's copy. -/
  | qmgVecLoad (v : Word32)
  /-- FLT_FIRST_HI_CLEAR (spec R406): A write of 1 to FLT_FIRST_HI.VALID clears the bank's first-error record. -/
  | fltFirstHiClear (b : Fin 14)
  /-- FLT_FORCE (spec R416): A write to FLT_FORCE raises one forced occurrence of each selected source, or a drill for FT sources. -/
  | fltForce (b : Fin 14) (w : BitVec 6) (v : Word32)
  /-- FLT_CLASS_WRITE (spec R409): A write to FLT_CLASS escalates a CE or UC source to FT or restores its reset class. -/
  | fltClassWrite (b : Fin 14) (w : BitVec 6) (v : Word32)
  /-- NOTIFICATION_CLEAR (spec R410): A write of 1 to an FLT_LIVE bit of a notification source clears its pending bit. -/
  | notificationClear (b : Fin 14) (w : BitVec 6) (v : Word32)
  /-- MED_CNT_CLR (spec R432): A write to MED_CNT_CLR clears the transient counts of selected channels. -/
  | medCntClr (v : Word32)
  /-- SVC_CNT_CLR (spec R403): A write to SVC_CNT_CLR clears the four SVC counters. -/
  | svcCntClr (v : Word32)
  /-- ANVIL_RESPONSE (spec R68): The Anvil store answers a word read or write, or reports an error. -/
  | anvilResponse (rdata : Word32) (err : Bool)
  /-- ANVIL_TIMEOUT (spec R68): An Anvil access gets no response within 50 ms and is a failed Anvil access. -/
  | anvilTimeout
  /-- POWER_LOSS (spec R70): PWR_GOOD has been 0 for at least 1 µs and a power loss is recognised. -/
  | powerLoss
  /-- POWER_CYCLE (spec R70): PWR_GOOD rises after a recognised loss and power-up starts with every domain reset. -/
  | powerCycle
  /-- PF_WARN (spec R121): PF_WARN is recognised; admission stops, windows and parked requests end and the power-fail flush starts. -/
  | pfWarn
  /-- PFW_DONE (spec R271): The power-fail flush ends, with or without an image, and PER_STAT.PFW_DONE rises. -/
  | pfwDone
  /-- PF_WARN_CLEAR (spec R272): PF_WARN has been 0 for 3 TREF cycles after a flush or suspended power-up and the engine resumes admission or power-up. -/
  | pfWarnClear
  /-- SYS_RST_N_ASSERT (spec R92): SYS_RST_N is asserted and every domain except SAFE and DBG is reset, or the reset is deferred during a flush. -/
  | sysRstNAssert
  /-- SYS_RST_N_RELEASE (spec R91): SYS_RST_N is released and the domains leave reset in order, starting power-up. -/
  | sysRstNRelease
  /-- FPN_RST_N (spec R94): FPn_RST_N resets port n, discarding unpaired writes, window state and parked requests of the port. -/
  | fpnRstN (p : Fin 8)
  /-- MCN_RST_N (spec R94): MCn_RST_N retires channel n as MCn_FAIL does. -/
  | mcnRstN (ch : Fin 16)
  /-- HDMA_RST_N (spec R94): HDMA_RST_N fails every outstanding HDMA transfer and holds HDMA traffic until the domain leaves reset. -/
  | hdmaRstN
  /-- HDMA_RESET_RELEASE (spec R94): The HDMA domain leaves reset and waiting transfers and pending interrupts are issued. -/
  | hdmaResetRelease
  /-- PELN_RST_N (spec R94): PELn_RST_N makes link n behave as with PELn_LINK_UP at 0. -/
  | pelnRstN (n : Fin 4)
  /-- CLOCK_LOSS (spec R88): A SAFE monitor finds a domain's clock silent for 10 µs or over-frequency, clears its CLKOK bit and raises MGT_CLK_LOST. -/
  | clockLoss (dom : Fin 60)
  /-- CLOCK_MEASUREMENT (spec R98): Every 10 µs the engine updates MGT_CLK_MEAS from a count of domain edges against TREF. -/
  | clockMeasurement (dom : Fin 60) (freq : BitVec 16)
  /-- FUSE_ACK (spec R76): The fuse block raises or lowers FUSE_ACK in the four-phase handshake, and the engine reads and compares the next word. -/
  | fuseAck (level : Bool) (data : Word32)
  /-- FUSE_LOAD_FAILURE (spec R76): A word mismatch or a FUSE_ACK that does not rise or fall within 2 µs enters the safe state with SAFE_CLASS 11. -/
  | fuseLoadFailure
  /-- FUSE_PHASE_DONE (spec R451): All 22 fuse word reads are compared and power-up moves to SRAM_INIT. -/
  | fusePhaseDone
  /-- SRAM_INIT_DONE (spec R454): SRAM initialisation has written every word and power-up moves to SELFTEST. -/
  | sramInitDone
  /-- SELFTEST_DONE (spec R451): Lane checks, KEY self-tests with derived keys and entropy start-up tests are all done and power-up moves to DRBG. -/
  | selftestDone (laneResults : List (List Bytes)) (keyPass : Bool)
  /-- READY (spec R452): Every power-up condition holds and MGT_STATUS.READY rises. -/
  | ready
  /-- SQUALL_ENTRY (spec R422): A real or non-drill forced FT occurrence, or a fuse-load failure, drives the engine into the Squall safe state. -/
  | squallEntry (b : Fin 14) (src : BitVec 10)
  /-- ZEROISATION_DONE (spec R424): The SAFE-driven bulk clear of every key, DRBG state and lane register ends and ZEROISED rises. -/
  | zeroisationDone
  /-- ZEROISATION_CONFIRM (spec R298): Every lane confirms a key-path zeroisation and the destroyed key entry turns EMPTY. -/
  | zeroisationConfirm (q : BitVec 14) (pos : BitVec 16)
  /-- KEY_ZEROISE_TIMEOUT (spec R313): A lane does not confirm a zeroisation within 500 ns and KEY_ZEROISE is raised. -/
  | keyZeroiseTimeout (q : BitVec 14) (pos : BitVec 16)
  /-- CREATE_QUEUE (spec R338): Admin command that creates an I/O or event queue. -/
  | createQueue (q : BitVec 14) (pos : BitVec 16)
  /-- DELETE_QUEUE (spec R338): Admin command that deletes an IDLE or ERROR queue. -/
  | deleteQueue (q : BitVec 14) (pos : BitVec 16)
  /-- RESET_QUEUE (spec R338): Admin command that resets a queue's positions and leaves it IDLE. -/
  | resetQueue (q : BitVec 14) (pos : BitVec 16)
  /-- SET_FEATURE (spec R362): Admin command that writes one feature register in queue order. -/
  | setFeature (q : BitVec 14) (pos : BitVec 16)
  /-- GET_FEATURE (spec R362): Admin command that returns the value of one feature register. -/
  | getFeature (q : BitVec 14) (pos : BitVec 16)
  /-- IDENTIFY (spec R363): Admin command that writes the 64-byte identity structure. -/
  | identify (q : BitVec 14) (pos : BitVec 16)
  /-- SWAP_CONFIG (spec R159): Admin command that asks to exchange the active and shadow configuration sets. -/
  | swapConfig (q : BitVec 14) (pos : BitVec 16)
  /-- SWAP_CYCLE (spec R160): The conditions of a waiting SWAP_CONFIG clear; the rekey check runs and the generation advances in one CORE cycle. -/
  | swapCycle
  /-- ANCHOR_RESTORE (spec R274): Admin command that reads the Anvil records and image copies and restores zones, regions and keys. -/
  | anchorRestore (q : BitVec 14) (pos : BitVec 16) (zenith : Bool)
  /-- ADOPT_ZONE (spec R278): Admin command that rewrites a zone's tree under a new metadata key and brings it ONLINE. -/
  | adoptZone (q : BitVec 14) (pos : BitVec 16) (zenith : Bool) (drbg : Option Bool)
  /-- ADOPTION_START (spec R277): A waiting ADOPT_ZONE starts when the running adoption ends and its acceptance checks are repeated. -/
  | adoptionStart (zenith : Bool)
  /-- FORMAT_ZONE (spec R214): Admin command that resets a zone's tree with a new metadata key and brings it ONLINE. -/
  | formatZone (q : BitVec 14) (pos : BitVec 16) (zenith : Bool) (drbg : Option Bool)
  /-- TREE_RESET (spec R214): Once the zone has left ONLINE, its Canopy lines are invalidated, its key replaced and its root and ceiling set. -/
  | treeReset (z : BitVec 13) (zenith : Bool)
  /-- POOL_JOIN (spec R433): Admin command that gives the engine its pool identity and starts link bring-up. -/
  | poolJoin (q : BitVec 14) (pos : BitVec 16)
  /-- POOL_LEAVE (spec R435): Admin command that broadcasts LEAVE and leaves the pool. -/
  | poolLeave (q : BitVec 14) (pos : BitVec 16)
  /-- POOL_RECONCILE (spec R448): Admin command that runs a pool checkpoint to make a reunited group WHOLE. -/
  | poolReconcile (q : BitVec 14) (pos : BitVec 16)
  /-- KEY_INSTALL (spec R295): I/O command that unwraps a storage key blob into an EMPTY KSLOT. -/
  | keyInstall (q : BitVec 14) (pos : BitVec 16) (key : Option (KeyRef × Bool))
  /-- KEY_GENERATE (spec R296): I/O command that draws a storage key, returns its blob and loads the slot. -/
  | keyGenerate (q : BitVec 14) (pos : BitVec 16) (key : Option (KeyRef × Bool))
  /-- KEY_DESTROY (spec R298): I/O command that drains and zeroises a KSLOT, session key register or KEK slot. -/
  | keyDestroy (q : BitVec 14) (pos : BitVec 16)
  /-- KEY_DRAINED (spec R298): Every user of a DRAINING key has completed and the key store overwrites the entry and sends zeroisation. -/
  | keyDrained (q : BitVec 14) (pos : BitVec 16)
  /-- KEK_LOAD_DERIVE (spec R293): I/O command that derives a KEK from a context into an EMPTY KEK slot. -/
  | kekLoadDerive (q : BitVec 14) (pos : BitVec 16)
  /-- KEK_LOAD_UNWRAP (spec R293): I/O command that unwraps a KEK blob into an EMPTY KEK slot. -/
  | kekLoadUnwrap (q : BitVec 14) (pos : BitVec 16) (key : Option (KeyRef × Bool))
  /-- SESSION_KEY_INSTALL (spec R297): I/O command that unwraps a session key into a key register and ends a FAILED direction. -/
  | sessionKeyInstall (q : BitVec 14) (pos : BitVec 16) (key : Option (KeyRef × Bool))
  /-- STREAM_INSERT (spec R132): I/O command that inserts a stream entry with cuckoo relocation, eviction or rejection. -/
  | streamInsert (q : BitVec 14) (pos : BitVec 16) (chk : List (Nat × Chk))
  /-- STREAM_REMOVE (spec R134): I/O command that clears the slot holding a stream. -/
  | streamRemove (q : BitVec 14) (pos : BitVec 16) (chk : List (Nat × Chk))
  /-- STREAM_QUERY (spec R370): I/O command that returns a stream entry and its index. -/
  | streamQuery (q : BitVec 14) (pos : BitVec 16) (chk : List (Nat × Chk))
  /-- REGION_WRITE (spec R153): I/O command that writes the configured part of a shadow region entry. -/
  | regionWrite (q : BitVec 14) (pos : BitVec 16)
  /-- REGION_READ (spec R372): I/O command that returns a region entry of the named set with its rekey part. -/
  | regionRead (q : BitVec 14) (pos : BitVec 16)
  /-- REKEY_START (spec R373): I/O command that starts a Front rekey of a region entry index. -/
  | rekeyStart (q : BitVec 14) (pos : BitVec 16)
  /-- REKEY_ABORT (spec R389): I/O command that stops a rekey after its step in progress and sets the part IDLE. -/
  | rekeyAbort (q : BitVec 14) (pos : BitVec 16)
  /-- SANITIZE (spec R396): I/O command that resets counters or zero-writes the lines of a range. -/
  | sanitize (q : BitVec 14) (pos : BitVec 16) (zenith : Bool) (drbg : Option Bool)
  /-- SCRUB (spec R395): I/O command that checks the nodes and lines of a range. -/
  | scrub (q : BitVec 14) (pos : BitVec 16) (zenith : Bool)
  /-- SEAL (spec R398): I/O command that exports a range as chunks under a transport KEK. -/
  | seal (q : BitVec 14) (pos : BitVec 16) (zenith : Bool) (drbg : Option Bool)
  /-- UNSEAL (spec R399): I/O command that imports sealed chunks into a range under a storage key. -/
  | unseal (q : BitVec 14) (pos : BitVec 16) (zenith : Bool)
  /-- TRANSCODE (spec R397): I/O command that rewrites a range from one key slot to another. -/
  | transcode (q : BitVec 14) (pos : BitVec 16) (zenith : Bool)
  /-- SERVICE_COMMAND_START (spec R400): A waiting service command starts once fewer than 4 service commands run. -/
  | serviceCommandStart (q : BitVec 14) (pos : BitVec 16)
  /-- CHECKPOINT (spec R375): I/O command that starts a checkpoint and completes at commit. -/
  | checkpoint (q : BitVec 14) (pos : BitVec 16)
  /-- CANOPY_MAINT_FLUSH (spec R247): CANOPY_MAINT FLUSH writes a dirty line back and completes when its changes are on media. -/
  | canopyMaintFlush (q : BitVec 14) (pos : BitVec 16)
  /-- CANOPY_MAINT_INVALIDATE (spec R247): CANOPY_MAINT INVALIDATE makes a clean unpinned line INVALID. -/
  | canopyMaintInvalidate (q : BitVec 14) (pos : BitVec 16)
  /-- FLUSH_INV (spec R247): CANOPY_MAINT FLUSH_INV writes a line back if dirty and makes it INVALID. -/
  | flushInv (q : BitVec 14) (pos : BitVec 16)
  /-- PIN (spec R246): CANOPY_MAINT PIN places a node in a pinned way of its set. -/
  | pin (q : BitVec 14) (pos : BitVec 16) (err : Option CanErr)
  /-- UNPIN (spec R246): CANOPY_MAINT UNPIN writes a pinned node back and frees its way. -/
  | unpin (q : BitVec 14) (pos : BitVec 16)
  /-- CANOPY_MAINT_READ (spec R376): CANOPY_MAINT READ returns the tag, state and bytes of a line by set and way. -/
  | canopyMaintRead (q : BitVec 14) (pos : BitVec 16) (err : Option Bool)
  /-- ZERO (spec R245): CANOPY_MAINT ZERO writes 64 zero bytes with valid check bits into an unused pinned way. -/
  | zero (q : BitVec 14) (pos : BitVec 16)
  /-- MEASURE (spec R310): I/O command that writes a keyed measurement of the selected configuration items. -/
  | measure (q : BitVec 14) (pos : BitVec 16) (key : Option (KeyRef × Bool)) (zenith : Bool)
  /-- PERIODIC_CHECKPOINT (spec R265): The periodic timer expires PER_CKPT_PERIOD minutes after its last restart and starts a checkpoint. -/
  | periodicCheckpoint
  /-- HOLD (spec R267): Pre-flush ends and counter-changing work waits while remaining dirty lines are written back. -/
  | hold
  /-- CUT (spec R266): No dirty line is eligible and no write-back is in flight; SEQ, E, IV and CUT_TIME are taken and the image writes start. -/
  | cut (err : Option CanErr) (key : Option (KeyRef × Bool))
  /-- RELEASE (spec R266): Every image line is persistent; the hold ends and the Anvil record write starts. -/
  | release
  /-- COMMIT (spec R266): All 16 Anvil words are answered; PER_SEQ is set, the timer restarts and the checkpoint is reported. -/
  | commit (zenith : Bool)
  /-- SERVICE_STEP_START (spec R384): A service holds 64 beats of credit and starts a 4 KiB step by placing a range hold. -/
  | serviceStepStart (who : SvcWho) (chk : List Chk)
  /-- FRONT_STEP_DONE (spec R386): All 64 lines of a Front step are handled and persistent; FRONT advances, the hold is released and the part may turn DONE. -/
  | frontStepDone (step : Nat)
  /-- SERVICE_STEP_DONE (spec R380): Every line of a Sanitize, Transcode, Seal, Unseal, Scrub or Drizzle step is handled and its range hold is released. -/
  | serviceStepDone (step : Nat) (zenith : Bool)
  /-- SCRUB_DONE (spec R391): Drizzle finishes a zone and posts SCRUB_DONE. -/
  | scrubDone
  /-- ZONE_DEPARTURE (spec R106): The last request admitted while a zone was ONLINE completes and the command taking it out of ONLINE proceeds. -/
  | zoneDeparture (z : BitVec 13)
  /-- SHADOW_RELEASE (spec R106): The last request stamped with the old generation completes and held shadow-set commands apply. -/
  | shadowRelease
  /-- LINK_UP_CHANGE (spec R79): PELn_LINK_UP rises or falls and link n enters bring-up or goes DOWN. -/
  | linkUpChange (n : Fin 4) (up : Bool)
  /-- FRAME_RECEIVED (spec R437): A whole frame arrives on a link, is checked, deduplicated, acted on and forwarded. -/
  | frameReceived (n : Fin 4) (words : List Word32)
  /-- HELLO (spec R440): A HELLO frame negotiates the link version and brings the link UP. -/
  | hello (n : Fin 4) (f : Frame)
  /-- HELLO_TIMER (spec R440): Every 10 µs a link in bring-up sends HELLO. -/
  | helloTimer (n : Fin 4)
  /-- HB (spec R438): An HB frame refreshes its origin's member entry and reports its committed PCK. -/
  | hb (n : Fin 4) (f : Frame)
  /-- HEARTBEAT_TIMER (spec R438): Every DEL_HB_CFG.PERIOD the engine originates HB, or SAFE in the safe state. -/
  | heartbeatTimer
  /-- MEMBER (spec R435): A MEMBER frame updates its origin's member entry, or sets it ABSENT when LEAVE is set. -/
  | member (n : Fin 4) (f : Frame)
  /-- SAFE (spec R435): A SAFE frame sets its origin ABSENT and raises DEL_PEER_SAFE. -/
  | safe (n : Fin 4) (f : Frame)
  /-- ACK (spec R439): An ACK frame acknowledges a version-3 frame and stops its retransmission. -/
  | ack (n : Fin 4) (f : Frame)
  /-- RETRANSMIT_TIMER (spec R439): A version-3 frame is unacknowledged after 20 µs and is repeated, up to 3 times. -/
  | retransmitTimer (n : Fin 4)
  /-- MEMBER_TIMEOUT (spec R434): No frame from a member has been accepted for TIMEOUT; it turns SILENT and the group may split. -/
  | memberTimeout (m : BitVec 6)
  /-- LINK_TIMEOUT (spec R440): No valid frame has arrived on a link for TIMEOUT and the link goes DOWN. -/
  | linkTimeout (n : Fin 4)
  /-- PREPARE (spec R445): A PREPARE frame starts a member's Pre-flush and Hold for a pool checkpoint. -/
  | prepare (n : Fin 4) (f : Frame)
  /-- HELD (spec R445): A HELD frame tells the coordinator a member is in Hold; with all HELD it broadcasts CUT. -/
  | held (n : Fin 4) (f : Frame)
  /-- CUT_FRAME (spec R445): A CUT frame makes a held member cut and commit with PCK = Q. -/
  | cutFrame (n : Fin 4) (f : Frame)
  /-- DONE (spec R445): A DONE frame reports a member's pool checkpoint outcome to the coordinator. -/
  | done (n : Fin 4) (f : Frame)
  /-- ABORT (spec R445): An ABORT frame makes a held member cut at once as a local checkpoint. -/
  | abort (n : Fin 4) (f : Frame)
  /-- CKREQ (spec R444): A CKREQ frame asks the coordinator to run a pool checkpoint. -/
  | ckreq (n : Fin 4) (f : Frame)
  /-- TXN_TIMEOUT (spec R445): DEL_TXN_TIMEOUT passes without all HELD at the coordinator or without CUT at a member, giving ABORT or a local cut. -/
  | txnTimeout
  /-- REPORT (spec R447): A REPORT frame tells the coordinator that a member's striped index is DONE. -/
  | report (n : Fin 4) (f : Frame)
  /-- RETIRE (spec R447): A RETIRE frame removes the slot from every member's retirement list. -/
  | retire (n : Fin 4) (f : Frame)
  /-- RECON (spec R448): A RECON frame asks the coordinator to run the reconciling pool checkpoint. -/
  | recon (n : Fin 4) (f : Frame)
  /-- RECON_DONE (spec R448): A RECON_DONE frame sets GSTATE WHOLE and resumes Fronts and REPORTs. -/
  | reconDone (n : Fin 4) (f : Frame)
  /-- TRST_N (spec R80): TRST_N resets the DBG domain and the TAP. -/
  | trstN (level : Bool)
  /-- EXTEST (spec R458): TAP instruction that drives output cells from the boundary-scan chain. -/
  | extest (sampled loaded : BitVec Config.chainBits)
  /-- IDCODE (spec R458): TAP instruction that selects the 32-bit IDCODE register; Test-Logic-Reset, which TMS reaches,
  selects it too. -/
  | idcode (testLogicReset : Bool)
  /-- SAMPLE_PRELOAD (spec R458): TAP instruction that samples and preloads the boundary-scan chain. -/
  | samplePreload (sampled loaded : BitVec Config.chainBits)
  /-- CLAMP (spec R458): TAP instruction that drives the preloaded outputs with the bypass register selected. -/
  | clamp
  /-- NETWORK (spec R460): TAP instruction that selects the IEEE 1687 network, or acts as BYPASS with DBG_DISABLE blown. -/
  | network (sibReg sibKat : Bool)
  /-- BYPASS (spec R458): TAP instruction that selects the 1-bit bypass register, with the code shifted in, which is that of
  no other instruction. -/
  | bypass (code : BitVec 8)
  /-- TAP_REG_READ (spec R461): Update-DR with GO in REG_READ starts a read of a register through the TAP. -/
  | tapRegRead (woff : BitVec 22) (zenith : Bool)
  /-- TAP_KAT (spec R462): Update-DR with GO in KAT starts a known-answer set on a lane through the TAP. -/
  | tapKat (lane : BitVec 6)
  /-- FPN_RESET_RELEASE (spec R35): FPn_RST_N rises and FRXn and FTXn leave reset; the engine's credit counters restart and it returns the initial REQ, WDAT, WLPC and RLPC credits on port n. -/
  | fpnResetRelease (p : Fin 8)
  /-- MCN_RESET_RELEASE (spec R90): MCn_RST_N rises and the MCHn domain leaves reset, under R91 step 5 at power-up or otherwise with the channel kept retired under R94. -/
  | mcnResetRelease (ch : Fin 16)
  /-- PELN_RESET_RELEASE (spec R94): PELn_RST_N rises and link n leaves reset and returns to HELLO bring-up if it is named in LINKS and PELn_LINK_UP is 1. -/
  | pelnResetRelease (n : Fin 4)
  deriving DecidableEq, Repr

end Sys2Proof
end

