-- ==== Sys2Proof/Decode.lean ====
section
/-! DEFINITION. Commands from the bits of the opcode table: no row of the table gives bits. -/

namespace Sys2Proof

/-- No row of spec/opcode_table.json has bits, so no word spells a command. -/
def decodeTableWord (_nbits _w : Nat) : Option Instr := none

end Sys2Proof
end

