-- ==== Sys2Proof/Machine/Aes.lean ====
section
/-! DEFINITION. AES-256, cipher and inverse cipher, and the multiplication of GHASH. The spec names the standards
(spec/07 R168, R188) and does not reproduce them: PRESUMED from FIPS 197 and SP 800-38D (log 5). -/

namespace Sys2Proof
namespace Machine

/-- Bytes XORed place by place; the result has the shorter length. -/
def xorBytes (a b : Bytes) : Bytes := List.zipWith (· ^^^ ·) a b

/-- The substitution table, 32 bytes to a number, the lowest first. `Laws/Cipher.lean` shows that it is inversion in the
field followed by the affine map. -/
def sbox : List Nat :=
  [0xC072A49CAFA2D4ADF04759FA7DC982CA76ABD7FE2B670130C56F6BF27B777C63,
   0x75B227EBE28012079A059618C323C7041531D871F1E5A534CCF73F362693FDB7,
   0xCF584C4A39BECB6A5BB1FC20ED00D153842FE329B3D63B52A05A6E1B1A2C8309,
   0xD2F3FF1021DAB6BCF5389D928F40A351A89F3C507F02F94585334D43FBAAEFD0,
   0xDB0B5EDE14B8EE4688902A22DC4F816073195D643D7EA7C41744975FEC130CCD,
   0x08AE7A65EAF4566CA94ED58D6D37C8E779E4959162ACD3C25C2406490A3A32E0,
   0x9E1DC186B95735610EF6034866B53E708A8BBD4B1F74DDE8C6B4A61C2E2578BA,
   0x16BB54B00F2D99416842E6BF0D89A18CDF2855CEE9871E9B948ED9691198F8E1]

/-- The inverse table. -/
def invSbox : List Nat :=
  [0xCBE9DEC444438E3487FF2F9B8239E37CFBD7F3819EA340BF38A53630D56A0952,
   0x25D18B6D49A25B76B224D92866A12E084EC3FA420B954CEE3D23C2A632947B54,
   0x849D8DA75746155EDAB9EDFD5048706C92B6655DCC5CA4D41698688664F6F872,
   0x6B8A130103BDAFC1020F3FCA8F1E2CD00645B3B80558E4F70AD3BC8C00ABD890,
   0x6EDF751CE837F9E28535ADE72274AC9673E6B4F0CECFF297EADC674F4111913A,
   0xF45ACD78FEC0DB9A2079D2C64B3E56FC1BBE18AA0E62B76F89C5291D711AF147,
   0xEF9CC9939F7AE52D0D4AB519A97F51605FEC8027591012B131C7078833A8DD1F,
   0x7D0C2155631469E126D677BA7E042B17619953833CBBEBC8B0F52AAE4D3BE0A0]

/-- Byte `a` of a table. -/
def lookup (t : List Nat) (a : Nat) : Nat := t.getD (a / 32) 0 / 2 ^ (8 * (a % 32)) % 256

/-! The 16 bytes of the state are one number, byte k (row k mod 4, column k / 4) at bits 8k to 8k + 7. -/

/-- The number whose 16 bytes are all `b`; with 32 bits, all 4 words are `w`. -/
def allBytes (b : Nat) : Nat := b * 0x01010101010101010101010101010101
def allWords (w : Nat) : Nat := w * 0x00000001000000010000000100000001

/-- Every byte, through a table. -/
def mapBytes (t : List Nat) (s : Nat) : Nat :=
  (List.range 16).foldl (fun r k => r + lookup t (s / 2 ^ (8 * k) % 256) * 2 ^ (8 * k)) 0

/-- Every byte times x in the field of AES. -/
def xtimes (s : Nat) : Nat :=
  Nat.xor (2 * Nat.land s (allBytes 0x7F)) (0x1B * Nat.land (s / 128) (allBytes 1))

/-- Row r of column c moves from column c + k r. -/
def shiftRows (k : Nat) (s : Nat) : Nat :=
  (List.range 4).foldl (fun a r =>
    let row := Nat.land s (allWords (255 * 2 ^ (8 * r)))
    let n := 32 * (k * r % 4)
    Nat.xor a (row / 2 ^ n + row * 2 ^ (128 - n) % 2 ^ 128)) 0

/-- In every column, row r moves from row r + 1. -/
def turnColumns (s : Nat) : Nat :=
  Nat.land (s / 256) (allWords 0x00FFFFFF) + Nat.land s (allWords 0xFF) * 2 ^ 24

/-- Every column times the circulant matrix with first row 2, 3, 1, 1. -/
def mixColumns (s : Nat) : Nat :=
  let s1 := turnColumns s
  let s2 := turnColumns s1
  Nat.xor (xtimes (Nat.xor s s1)) (Nat.xor s1 (Nat.xor s2 (turnColumns s2)))

/-- Every column times the circulant matrix with first row 14, 11, 13, 9: that of 5, 0, 4, 0, then the one above. -/
def invMixColumns (s : Nat) : Nat :=
  let u := xtimes (xtimes (Nat.xor s (turnColumns (turnColumns s))))
  mixColumns (Nat.xor s u)

/-- A byte through the substitution table. -/
def subByte (b : Byte) : Byte := BitVec.ofNat 8 (lookup sbox b.toNat)

/-- The next 32 bytes of the key schedule of AES-256. -/
def expand (rcon : Byte) (w : Bytes) : Bytes :=
  let word (i : Nat) := (w.drop (4 * i)).take 4
  let last := word 7
  let rot := last.drop 1 ++ last.take 1
  let w0 := xorBytes (word 0) (xorBytes (rot.map subByte) [rcon, 0, 0, 0])
  let w1 := xorBytes (word 1) w0
  let w2 := xorBytes (word 2) w1
  let w3 := xorBytes (word 3) w2
  let w4 := xorBytes (word 4) (w3.map subByte)
  let w5 := xorBytes (word 5) w4
  let w6 := xorBytes (word 6) w5
  let w7 := xorBytes (word 7) w6
  w0 ++ w1 ++ w2 ++ w3 ++ w4 ++ w5 ++ w6 ++ w7

/-- The 15 round keys of a 32-byte key, as numbers. -/
def roundKeys (k : Bytes) : List Nat :=
  let gs := [0x01#8, 0x02#8, 0x04#8, 0x08#8, 0x10#8, 0x20#8, 0x40#8].foldl
    (fun (r : Bytes × List Bytes) rc => let n := expand rc r.1; (n, r.2 ++ [n])) (k, [k])
  (gs.2.flatMap fun g => [leNat (g.take 16), leNat (g.drop 16)]).take 15

/-- AES-256 of one 16-byte block under round keys. -/
def encryptWith (ks : List Nat) (x : Bytes) : Bytes :=
  let first := Nat.xor (leNat x) (ks.getD 0 0)
  let mid := ((ks.drop 1).take 13).foldl
    (fun s k => Nat.xor (mixColumns (shiftRows 1 (mapBytes sbox s))) k) first
  leBytes 16 (Nat.xor (shiftRows 1 (mapBytes sbox mid)) (ks.getD 14 0))

/-- The inverse cipher. -/
def decryptWith (ks : List Nat) (x : Bytes) : Bytes :=
  let rs := ks.reverse
  let first := mapBytes invSbox (shiftRows 3 (Nat.xor (leNat x) (rs.getD 0 0)))
  let mid := ((rs.drop 1).take 13).foldl
    (fun s k => mapBytes invSbox (shiftRows 3 (invMixColumns (Nat.xor s k)))) first
  leBytes 16 (Nat.xor mid (rs.getD 14 0))

/-- The bytes of a key, bits [255:248] first (spec/11 R287). -/
def keyBytes (k : BitVec 256) : Bytes := beBytes 32 k.toNat
/-- A key from its bytes. -/
def bytesKey (b : Bytes) : BitVec 256 := BitVec.ofNat 256 (beNat (slice b 0 32))

def aesEnc (k : BitVec 256) (x : Bytes) : Bytes := encryptWith (roundKeys (keyBytes k)) x
def aesDec (k : BitVec 256) (x : Bytes) : Bytes := decryptWith (roundKeys (keyBytes k)) x

/-- Sixteen bytes as the 128-bit block whose bits [127:120] are byte 0 (spec/07, Storage cipher). -/
def blockNat (b : Bytes) : BitVec 128 := BitVec.ofNat 128 (beNat (slice b 0 16))
def natBlock (v : BitVec 128) : Bytes := beBytes 16 v.toNat

/-- Multiplication of GHASH. -/
def ghashMul (x y : BitVec 128) : BitVec 128 :=
  ((List.range 128).foldl (fun (r : BitVec 128 × BitVec 128) k =>
    (if x.getMsbD k then r.1 ^^^ r.2 else r.1,
     (r.2 >>> 1) ^^^ (if r.2.getLsbD 0 then 0xE1000000000000000000000000000000#128 else 0#128))) (0#128, y)).1

/-- Cut a byte string into 16-byte blocks, the last padded with zeros. -/
def blocks16 (b : Bytes) : List Bytes := (List.range ((b.length + 15) / 16)).map fun i => slice b (16 * i) 16

/-- GHASH of whole blocks under a hash subkey. -/
def ghash (h : BitVec 128) (bs : List Bytes) : BitVec 128 :=
  bs.foldl (fun y b => ghashMul (y ^^^ blockNat b) h) 0#128

/-- The length block of SP 800-38D, lengths in bytes. -/
def lengthBlock (a c : Nat) : Bytes := beBytes 8 (8 * a) ++ beBytes 8 (8 * c)

end Machine
end Sys2Proof
end

