-- ==== Sys2Proof/Machine/Cipher.lean ====
section
/-! DEFINITION. The compositions of the ciphers: storage cipher, line MACs, link windows, key wrap, the random bit
generator, and the cyclic checks. Standards named but not reproduced by the spec are PRESUMED (log 5). -/

namespace Sys2Proof
namespace Machine

/-- The counter block or descriptor block of a line: separator, line number, counter, then three bytes. -/
def lineBlock (sep : Nat) (n : LineNo) (c : Ctr) (tail : Nat) : Bytes :=
  beBytes 1 sep ++ beBytes 5 n.toNat ++ beBytes 7 c.toNat ++ beBytes 3 tail

/-- spec/07 R178: the keystream of a line; XORed with plaintext it gives ciphertext. -/
def ctrLine (k : BitVec 256) (n : LineNo) (c : Ctr) (x : Line) : Line :=
  let ks := roundKeys (keyBytes k)
  let stream := (List.range 4).flatMap fun j => encryptWith ks (lineBlock 0x01 n c j)
  bytesLine (xorBytes (lineBytes x) stream)

/-- A MAC truncated to its 56 most significant bits. -/
def top56 (b : BitVec 128) : BitVec 56 := b.extractLsb' 72 56

/-- GHASH over an 80-byte string and its length block. -/
def ghash80 (h : BitVec 128) (a : Bytes) : BitVec 128 := ghash h (blocks16 a ++ [lengthBlock 80 0])

/-- GMAC with a 96-bit IV over 80 bytes (spec/07 R179). -/
def gmac80 (k : BitVec 256) (iv a : Bytes) : BitVec 128 :=
  let ks := roundKeys (keyBytes k)
  let h := blockNat (encryptWith ks (List.replicate 16 0))
  ghash80 h a ^^^ blockNat (encryptWith ks (iv ++ beBytes 4 1))

/-- spec/07 R179. -/
def macFull (k : BitVec 256) (n : LineNo) (c : Ctr) (tag : Byte) (ct : Line) : BitVec 56 :=
  top56 (gmac80 k (beBytes 5 n.toNat ++ beBytes 7 c.toNat) (lineBytes ct ++ lineBlock 0x02 n c tag.toNat))

/-- spec/07 R181. -/
def macOnly (k : BitVec 256) (n : LineNo) (tag : Byte) (ct : Line) : BitVec 56 :=
  let ks := roundKeys (keyBytes k)
  let h := blockNat (encryptWith ks (List.replicate 16 0))
  top56 (blockNat (encryptWith ks (natBlock (ghash80 h (lineBytes ct ++ lineBlock 0x03 n 0 tag.toNat)))))

/-- The tweak key of spec/07 R180. -/
def tweakKey (k : BitVec 256) : BitVec 256 :=
  bytesKey (aesEnc k (0xFF#8 :: List.replicate 15 0) ++ aesEnc k (0xFE#8 :: List.replicate 15 0))

/-- Multiplication of an XTS tweak by the primitive element, byte 0 least significant. -/
def xtsDouble (t : Bytes) : Bytes :=
  let v := leNat t
  leBytes 16 (if v < 2 ^ 127 then 2 * v else (2 * v - 2 ^ 128).xor 0x87)

/-- spec/07 R180: XTS of a line, with the block cipher in the direction of `f`. -/
def xtsLine (f : List Nat → Bytes → Bytes) (k : BitVec 256) (n : LineNo) (x : Line) : Line :=
  let ks := roundKeys (keyBytes k)
  let t0 := aesEnc (tweakKey k) (leBytes 16 (0x04 * 2 ^ 120 + n.toNat))
  let r := (List.range 4).foldl (fun (r : Bytes × Bytes) j =>
    let t := r.1
    (xtsDouble t, r.2 ++ xorBytes (f ks (xorBytes (slice (lineBytes x) (16 * j) 16) t)) t)) (t0, [])
  bytesLine r.2

def xtsEnc := xtsLine encryptWith
def xtsDec := xtsLine decryptWith

/-! ### Link windows (spec/07 R184) -/

/-- The keystream of payload `p` of a window; XORing is both directions. -/
def linkCrypt (k : BitVec 256) (iv : BitVec 96) (p : Nat) (x : Line) : Line :=
  let ks := roundKeys (keyBytes k)
  let stream := (List.range 4).flatMap fun j => encryptWith ks (beBytes 12 iv.toNat ++ beBytes 4 (2 + 4 * p + j))
  bytesLine (xorBytes (lineBytes x) stream)

/-- GCM over additional data and ciphertext: the whole 128-bit tag. -/
def gcmTag (k : BitVec 256) (iv aad ct : Bytes) : BitVec 128 :=
  let ks := roundKeys (keyBytes k)
  let h := blockNat (encryptWith ks (List.replicate 16 0))
  ghash h (blocks16 aad ++ blocks16 ct ++ [lengthBlock aad.length ct.length])
    ^^^ blockNat (encryptWith ks (iv ++ beBytes 4 1))

/-- The hash subkey of a key, and the tag mask of a key and an IV. -/
def hashKey (k : BitVec 256) : BitVec 128 := blockNat (aesEnc k (List.replicate 16 0))
def tagMask (k : BitVec 256) (iv : BitVec 96) : BitVec 128 := blockNat (aesEnc k (beBytes 12 iv.toNat ++ beBytes 4 1))

/-- The tag of a window, the 96 most significant bits, from the hash subkey and the tag mask that its window lane holds
(spec/07 R186). -/
def windowTag (h mask : BitVec 128) (aad : List (BitVec 96)) (cts : List Line) : BitVec 96 :=
  let a := aad.flatMap fun x => beBytes 12 x.toNat
  let c := cts.flatMap lineBytes
  (ghash h (blocks16 a ++ blocks16 c ++ [lengthBlock a.length c.length]) ^^^ mask).extractLsb' 32 96

/-- The tag of a window under its key and IV. -/
def linkTag (k : BitVec 256) (iv : BitVec 96) (aad : List (BitVec 96)) (cts : List Line) : BitVec 96 :=
  windowTag (hashKey k) (tagMask k iv) aad cts

/-- GCM encryption of whole blocks with a 96-bit IV: ciphertext and tag. -/
def gcmSeal (k : BitVec 256) (iv aad pt : Bytes) : Bytes × BitVec 128 :=
  let ks := roundKeys (keyBytes k)
  let ct := xorBytes pt ((List.range ((pt.length + 15) / 16)).flatMap fun j => encryptWith ks (iv ++ beBytes 4 (2 + j)))
  (ct, gcmTag k iv aad ct)

/-! ### Key wrap with padding (RFC 5649), for plaintexts longer than 8 bytes -/

def aiv (mli : Nat) : Bytes := [0xA6#8, 0x59#8, 0x59#8, 0xA6#8] ++ beBytes 4 mli

/-- One pass of the wrapping function over the semiblocks; `t` counts steps. -/
def wrapPass (ks : List Nat) : Nat → Bytes → List Bytes → Bytes × List Bytes
  | _, a, [] => (a, [])
  | t, a, r :: rs =>
    let b := encryptWith ks (a ++ r)
    let n := wrapPass ks (t + 1) (xorBytes (b.take 8) (beBytes 8 t)) rs
    (n.1, b.drop 8 :: n.2)

/-- One pass of the unwrapping function, given the semiblocks last first; `t` counts down. -/
def unwrapPass (ks : List Nat) : Nat → Bytes → List Bytes → Bytes × List Bytes
  | _, a, [] => (a, [])
  | t, a, r :: rs =>
    let b := decryptWith ks (xorBytes a (beBytes 8 t) ++ r)
    let n := unwrapPass ks (t - 1) (b.take 8) rs
    (n.1, b.drop 8 :: n.2)

def semiblocks (b : Bytes) : List Bytes := (List.range ((b.length + 7) / 8)).map fun i => slice b (8 * i) 8

def keyWrap (k : BitVec 256) (pt : Bytes) : Bytes :=
  let ks := roundKeys (keyBytes k)
  let rs := semiblocks pt
  let out := (List.range 6).foldl (fun (r : Bytes × List Bytes) j => wrapPass ks (rs.length * j + 1) r.1 r.2)
    (aiv pt.length, rs)
  out.1 ++ out.2.flatten

/-- The plaintext of a blob, none when the checks of RFC 5649 fail. -/
def keyUnwrap (k : BitVec 256) (ct : Bytes) : Option Bytes :=
  let ks := roundKeys (keyBytes k)
  let rs := semiblocks (ct.drop 8)
  let n := rs.length
  let out := (List.range 6).foldl (fun (r : Bytes × List Bytes) j => unwrapPass ks (n * (6 - j)) r.1 r.2)
    (ct.take 8, rs.reverse)
  let pt := out.2.reverse.flatten
  let mli := beNat (out.1.drop 4)
  if out.1.take 4 = [0xA6#8, 0x59#8, 0x59#8, 0xA6#8] && 8 * (n - 1) < mli && mli ≤ 8 * n
      && (pt.drop mli).all (· = 0#8)
  then some (pt.take mli) else none

/-- spec/11 R292: leftmost 32 bits of AES-256 of the zero block. -/
def kcv (k : BitVec 256) : Word32 := BitVec.ofNat 32 (beNat ((aesEnc k (List.replicate 16 0)).take 4))

/-! ### CTR_DRBG of SP 800-90A with AES-256 and the derivation function (spec/11 R305) -/

/-- The block-cipher chaining function. -/
def bcc (ks : List Nat) (d : Bytes) : Bytes :=
  (blocks16 d).foldl (fun c b => encryptWith ks (xorBytes c b)) (List.replicate 16 0)

/-- The derivation function, 48 bytes out. -/
def drbgDf (inp : Bytes) : Bytes :=
  let body := beBytes 4 inp.length ++ beBytes 4 48 ++ inp ++ [0x80#8]
  let ks := roundKeys ((List.range 32).map fun i => BitVec.ofNat 8 i)
  let t := (List.range 3).flatMap fun i => bcc ks (beBytes 4 i ++ List.replicate 12 0 ++ body)
  let k := roundKeys (t.take 32)
  let x0 := (t.drop 32).take 16
  let x1 := encryptWith k x0
  let x2 := encryptWith k x1
  x1 ++ x2 ++ encryptWith k x2

/-- The first `n` blocks of AES-256 over V + 1, V + 2, … -/
def drbgBlocks (key : BitVec 256) (v : BitVec 128) (n : Nat) : Bytes :=
  let ks := roundKeys (keyBytes key)
  (List.range n).flatMap fun i => encryptWith ks (natBlock (v + BitVec.ofNat 128 (i + 1)))

/-- The update function: the new key and V from 48 bytes of provided data. -/
def drbgUpdate (key : BitVec 256) (v : BitVec 128) (data : Bytes) : BitVec 256 × BitVec 128 :=
  let t := xorBytes (drbgBlocks key v 3) data
  (bytesKey t, blockNat (t.drop 32))

/-- One generate request of `n` bytes: the bytes, the new key and V. -/
def drbgGenerate (key : BitVec 256) (v : BitVec 128) (n : Nat) : Bytes × BitVec 256 × BitVec 128 :=
  let m := (n + 15) / 16
  ((drbgBlocks key v m).take n, drbgUpdate key (v + BitVec.ofNat 128 m) (List.replicate 48 0))

/-! ### Cyclic checks -/

/-- CRC-32 of IEEE 802.3 over bytes. -/
def crc32 (b : Bytes) : Word32 :=
  ~~~ b.foldl (fun c x =>
    (List.range 8).foldl (fun c _ => (c >>> 1) ^^^ (if c.getLsbD 0 then 0xEDB88320#32 else 0#32))
      (c ^^^ (x.setWidth 32))) 0xFFFFFFFF#32

/-- The CRC-16 of ITU-T V.41 (polynomial 0x1021), with the initial value the rule states. -/
def crc16 (init : BitVec 16) (b : Bytes) : BitVec 16 :=
  b.foldl (fun c x =>
    (List.range 8).foldl (fun c _ => (c <<< 1) ^^^ (if c.msb then 0x1021#16 else 0#16))
      (c ^^^ (x ++ 0#8))) init

end Machine
end Sys2Proof
end

