-- ==== Sys2Proof/Machine/State.lean ====
section
/-! DEFINITION. The state of the block as plain data, its reset value, and the reasons a run can stop. -/

namespace Sys2Proof
namespace Machine

/-- Why the machine stops where the spec gives no behaviour. -/
inductive Fault where
  /-- Raised by EXTEST and CLAMP while SYS_RST_N is 1, and by the release of SYS_RST_N while one of them is the current
  instruction: the spec says the behaviour is not defined (spec/17 R459).
  Safe: the hardware goes on, the model stops. -/
  | boundaryScanWithoutReset
  deriving DecidableEq, Repr

/-- Why a command is refused. -/
inductive Refusal where
  /-- Raised by exec's arms of rows that have no meaning yet. Safe: the model stops. -/
  | notModelled (mnemonic : String)
  deriving DecidableEq, Repr

/-! ### Small vocabularies -/

/-- Completion status at a fabric port (spec/02 R39). -/
inductive Status where
  | ok | accessError | poisoned | linkError
  deriving DecidableEq, Repr, Inhabited

/-- Result of a write window (spec/02 R45). -/
inductive WResult where
  | pass | tagFail | sessionFailed | format
  deriving DecidableEq, Repr, Inhabited

/-- Power-up phases (spec/17 R451). -/
inductive Phase where
  | fuse | sramInit | selftest | drbg | done
  deriving DecidableEq, Repr, Inhabited

/-- The power-fail flush (spec/10 R271): none, running, or ended and waiting (PFW_DONE). -/
inductive Pfw where
  | none | flushing | done
  deriving DecidableEq, Repr, Inhabited

/-- Lane states (spec/07 R169), in code order. -/
inductive LaneSt where
  | off | active | standby | auditor | quarantined | probation | retired | disabled
  deriving DecidableEq, Repr, Inhabited

/-- Zone states (spec/08 R212), in code order. -/
inductive ZoneSt where
  | offline | online | quarantined | formatting | sanitizing
  deriving DecidableEq, Repr, Inhabited

/-- Queue states (spec/12 R317), in code order. -/
inductive QSt where
  | none | active | stopping | idle | error
  deriving DecidableEq, Repr, Inhabited

/-- Queue types (spec/12 R353), in code order. -/
inductive QTy where
  | none | admin | io | event
  deriving DecidableEq, Repr, Inhabited

/-- Rekey states (spec/06 R152), in code order. -/
inductive RkSt where
  | idle | active | done
  deriving DecidableEq, Repr, Inhabited

/-- Protection modes (spec/06 R152), in code order. -/
inductive Mode where
  | full | mac | cipher
  deriving DecidableEq, Repr, Inhabited

/-- Key slot states (spec/11 R285). -/
inductive KSt where
  | empty | loaded | draining
  deriving DecidableEq, Repr, Inhabited

/-- DRBG states (spec/11 R315), in code order. -/
inductive DrbgSt where
  | none | testing | instantiating | ready | error
  deriving DecidableEq, Repr, Inhabited

/-- Entropy source states (spec/11 R315), in code order. -/
inductive EntSt where
  | off | startup | ok | failed
  deriving DecidableEq, Repr, Inhabited

/-- Canopy line states (spec/09 R236), in the code order of spec/13 R376. -/
inductive CanSt where
  | invalid | clean | dirty | unwritten
  deriving DecidableEq, Repr, Inhabited

/-- Member-table states (spec/16 R434). -/
inductive MemSt where
  | absent | member | silent
  deriving DecidableEq, Repr, Inhabited

/-- Link states (spec/16 R450), in code order. -/
inductive LinkSt where
  | down | hello | up | noVersion
  deriving DecidableEq, Repr, Inhabited

/-- A group's state as this engine sees it (spec/16 R442), in code order. -/
inductive GState where
  | none | whole | split | reunited
  deriving DecidableEq, Repr, Inhabited

/-! ### Shared pieces -/

/-- A source register of event records: VALID and QID. -/
structure Evq where
  valid : Bool
  qid : BitVec 14
  deriving DecidableEq, Repr, Inhabited

/-- A node of a zone's tree: zone, level 0-8, index within the level (spec/08 R201). -/
structure NodeId where
  zone : Nat
  level : Nat
  index : Nat
  deriving DecidableEq, Repr, Inhabited

/-- The content of a node: eight counters and the node MAC (spec/08 R202). -/
structure Node where
  ctr : List Ctr
  mac : BitVec 64
  deriving DecidableEq, Repr, Inhabited

/-- One occurrence of a fault or notification source (spec/15 R405). -/
structure Raise where
  bank : Nat
  src : Nat
  forced : Bool
  deriving DecidableEq, Repr, Inhabited

/-- What the engine drives on its output ports in one step. -/
inductive Transfer where
  | rsp (p : Nat) (tag : BitVec 12) (st : Status)
  | rdat (p : Nat) (tag : BitVec 12) (st : Status) (data : Line)
  | wchk (p : Nat) (sess : Nat) (r : WResult)
  | rtag (p : Nat) (sess : Nat) (tag : BitVec 96)
  | credits (p : Nat) (req wdat wlpc rlpc : Nat)
  | mcmd (ch : Nat) (op : Nat) (tag : Nat) (addr : Nat)
  | mwd (ch : Nat) (beat : Beat)
  | hdmaWr (addr : Nat) (data : BitVec 256) (be : BitVec 32) (tag qid : Nat) (msg : Bool)
  | hdmaRd (addr len tag : Nat)
  | regRsp (data : Word32) (err : Bool)
  | dbCredit
  | anvil (write : Bool) (addr : Nat) (data : Word32)
  | fuse (req : Bool) (addr : Nat)
  | frame (n : Nat) (words : List Word32)
  /-- `n` bits shifted out on TDO, bit 0 of `v` first, with TDO_EN at 1 for their time and 0 after (spec/02 R80). -/
  | tdo (n v : Nat)
  /-- The output pins as the boundary-scan cells drive them under EXTEST and CLAMP: bit i is cell i where that is the cell of
  an output that it drives, and 0 elsewhere (spec/17 R459). -/
  | pins (cells : BitVec Config.chainBits)
  deriving DecidableEq, Repr

/-! ### MGT: power, clocks, resets, fuses, lifecycle -/

/-- MGT_CLK_MEAS(n) (spec/03 R98). -/
structure ClkMeas where
  valid : Bool
  lost : Bool
  freq : BitVec 16
  deriving DecidableEq, Repr, Inhabited

structure Mgt where
  /-- PWR_GOOD as recognised (spec/02 R70). -/
  pwrGood : Bool
  /-- SYS_RST_N (spec/03 R90). -/
  sysRstN : Bool
  /-- TREF cycles since power-up; the timestamp is its low 48 bits (spec/02 R81). -/
  tref : Nat
  phase : Phase
  ready : Bool
  suspended : Bool
  /-- PF_WARN as recognised (spec/02 R71). -/
  pfWarn : Bool
  pfw : Pfw
  /-- A SYS_RST_N assertion waits for the flush to end (spec/03 R93). -/
  rstDeferred : Bool
  /-- The next of the 22 fuse word reads, FUSE_REQ, the words of the first reading, and the words held
  since the last fuse load (spec/02 R76, R77). -/
  fuseIdx : Nat
  fuseReq : Bool
  fuseFirst : List Word32
  /-- When FUSE_REQ last changed. -/
  fuseAt : Nat
  fuse : List Word32
  /-- MGT_DOM_RESET and MGT_DOM_CLKOK, bit d for domain d (spec/03 R95). -/
  domReset : BitVec 60
  clkOk : BitVec 60
  clkMeas : Tab ClkMeas
  /-- MGT_CLUSTER_GATE.IDLE_EN, and clusters gated for idleness (spec/03 R97, R99). -/
  clusterGate : BitVec 9
  clusterIdle : BitVec 9
  /-- Reset inputs that are 0 now (spec/03 R90). -/
  fpRst : BitVec 8
  mcRst : BitVec 16
  hdmaRst : Bool
  pelRst : BitVec 4
  /-- HOST_HOLDOFF, synchronised (spec/02 R61). -/
  holdoff : Bool
  /-- Held _LO writes by word offset (spec/00 R8), and the holding registers of R9 by the _HI's word offset. -/
  loHeld : Tab Word32
  hiHeld : List (Nat × Word32)
  /-- MGT_CAP.LANES_OK (spec/17 R466). -/
  lanesOk : Nat
  deriving DecidableEq, Repr

/-- The TAP and the IEEE 1687 network, in the DBG domain (spec/17 R458-R466). -/
structure Tap where
  ir : BitVec 8
  sibReg : Bool
  sibKat : Bool
  denied : Nat
  rDone : Bool
  rDenied : Bool
  rErr : Bool
  rWaddr : BitVec 22
  rData : Word32
  /-- The TAP's own holding registers of spec/00 R9 (spec/17 R461). -/
  rHeld : List (Nat × Word32)
  kDone : Bool
  kPass : Bool
  kRefused : Bool
  kLane : BitVec 6
  /-- A set this TAP started runs. -/
  kBusy : Bool
  /-- TRST_N is 1 (spec/02 R80). -/
  trstN : Bool
  /-- The boundary-scan chain: values captured from the pins and values preloaded into the cells. -/
  sampled : BitVec Config.chainBits
  cells : BitVec Config.chainBits
  /-- Held in Test-Logic-Reset after a DBG clock loss, until TRST_N (spec/15 R415). -/
  held : Bool
  deriving DecidableEq, Repr

/-! ### FAB: ports, windows, accesses, line gate -/

/-- Where an access comes from: a fabric port, or line `line` of a service step. -/
inductive Origin where
  | port (p : Nat)
  | step (id : Nat)
  deriving DecidableEq, Repr, Inhabited

/-- How far an access has come (spec/04, the seven stages). -/
inductive Stage where
  /-- Received and not yet admitted: in-flight capacity is full, or its stream's release goes on (spec/01 R18,
  spec/04 R105). -/
  | received
  /-- Parked: not admitted (spec/04 R105). -/
  | parked
  /-- A write refused at admission that waits for its window's result (spec/04 R107). -/
  | refused
  /-- A parked write that has timed out: it waits for its window's result and completes ACCESS_ERROR (spec/05 R140). -/
  | expired
  /-- Admitted, no place in its line's order yet (spec/04 R103). -/
  | unbound
  /-- At the line gate, with a place in its line's order. -/
  | gated
  /-- Granted and waiting: for its window, a checkpoint hold, the dirty budget, a Canopy way or a held node. -/
  | granted
  /-- Waiting for a ladder fetch. -/
  | ladder (id : Nat)
  /-- A data read is outstanding. -/
  | reading
  /-- Everything is in hand for the next lane pass. -/
  | lane
  /-- A read at its placement point with no read window (spec/02 R46). -/
  | waitWindow
  /-- A data write is outstanding. -/
  | writing
  /-- The data is persistent and the leaf's own write is not, in bypass (spec/09 R252). -/
  | waitLeaf
  /-- The outcome is decided and the completion waits to be driven. -/
  | done
  deriving DecidableEq, Repr, Inhabited

/-- The binding of a write to its link window (spec/02 R43-R45). -/
inductive WinBind where
  | none | waiting (win : Nat) | passed | failed
  deriving DecidableEq, Repr, Inhabited

/-- What a lane pass of the access does next (spec/07 R175, spec/14 R383). -/
inductive Pass where
  | write | read | zeroRead | partialRead | partialWrite | check | rekeyRead | rekeyWrite | zeroWrite | seal | hash | unseal
  /-- The line is to be marked poisoned (spec/08 R225). -/
  | poison
  deriving DecidableEq, Repr, Inhabited

/-- The write of a leaf that an access in bypass waits for (spec/09 R252). -/
inductive LeafSt where
  | none | due | issued | done
  deriving DecidableEq, Repr, Inhabited

structure Access where
  id : Nat
  origin : Origin
  isWrite : Bool
  /-- The request had a reserved OP: it completes on RSP and consumes no payload (spec/02 R37). -/
  reserved : Bool
  tag : BitVec 12
  sid : BitVec 16
  kid : BitVec 16
  line : LineNo
  sess : Nat
  /-- Generation stamp (spec/06 R158), the stream entry's KSLOT, region index and mode of that generation. -/
  gen : Word32
  kslot : BitVec 16
  region : Nat
  mode : Mode
  /-- Slot chosen at grant (spec/06 R155). -/
  slot : BitVec 16
  /-- Whether it holds an in-flight slot (spec/01 R18). -/
  inFlight : Bool
  /-- The payload as link ciphertext and its byte mask, once paired. -/
  paired : Bool
  data : Line
  mask : BitVec 64
  win : WinBind
  /-- Key register, IV and place of the payload in its link window (spec/07 R184). -/
  winK : Nat
  winIv : BitVec 96
  winPos : Nat
  skid : Bool
  /-- Place in arrival order at the line gate (spec/04 R109). -/
  place : Option Nat
  stage : Stage
  pass : Pass
  /-- The line counter the pass uses, and whether the line has never been written. -/
  ctr : Ctr
  fresh : Bool
  /-- The lane that took its first pass, which takes the passes that follow (spec/07 R172), and the counter under which the
  old line of a partial or rekey write is stored in `beat`. -/
  lane : Option Nat
  oldCtr : Ctr
  /-- The session key that its lane holds for a partial pass in progress (spec/07 R174). -/
  linkKey : Option (BitVec 256)
  /-- The key that the payload's window found in its register: a later install over the register is for later windows only
  (spec/02 R47, spec/11 R297, log 137). -/
  winKey : Option (BitVec 256)
  /-- In bypass, how far the write of its leaf has come (spec/09 R252); and whether a node error has discarded its counter
  update before that was on media (spec/01 R20). -/
  leaf : LeafSt
  lost : Bool
  beat : Beat
  /-- Read attempts made, the retry limit taken at the first failure, and whether one attempt failed its MAC on
  a clean or corrected beat (spec/15 R419, R420). -/
  attempts : Nat
  limit : Nat
  macFail : Bool
  /-- Its Canopy probe has been counted. -/
  probed : Bool
  /-- The read window a placed read belongs to. -/
  rwin : Option Nat
  /-- Storage ciphertext verified before placement. -/
  verified : Bool
  status : Status
  rdata : Line
  /-- First parking time, place in parking order, and release mark of a parked request (spec/05 R139, R140, spec/04
  R105). -/
  parkedAt : Nat
  parkNo : Option Nat
  released : Bool
  /-- What the check bits show to its first lookup, which may come after its row. -/
  chk : List Chk
  /-- When the read began to wait for a read window. -/
  waitAt : Nat
  /-- A reset of its port discards its completion (spec/03 R94). -/
  dropped : Bool
  deriving DecidableEq, Repr, Inhabited

/-- What a window lane holds to compute a window's tag: hash subkey and tag mask (spec/07 R186). -/
structure TagKey where
  hash : BitVec 128
  mask : BitVec 128
  deriving DecidableEq, Repr, Inhabited

/-- An open write window (spec/02 R43). -/
structure WWin where
  id : Nat
  k : Nat
  skid : Bool
  aadn : Nat
  count : Nat
  iv : BitVec 96
  usable : Bool
  lane : Nat
  /-- Held by its lane from OPEN on. -/
  tk : TagKey
  openedAt : Nat
  members : List Nat
  cts : List Line
  aad : List (BitVec 96)
  tag : Option (BitVec 96)
  /-- The result it must report whatever its tag (spec/02 R43, R45). -/
  forced : Option WResult
  deriving DecidableEq, Repr, Inhabited

/-- A read window, open or queued (spec/02 R46). -/
structure RWin where
  id : Nat
  k : Nat
  aadn : Nat
  count : Nat
  iv : BitVec 96
  lane : Nat
  /-- It has taken effect; its lane holds the tag material from then on. -/
  active : Bool
  tk : TagKey
  aad : List (BitVec 96)
  placed : Nat
  /-- Accesses placed, in window order; those whose RDAT has left; link ciphertext so far. -/
  members : List Nat
  sent : Nat
  cts : List Line
  /-- When the COUNT-th payload was placed. -/
  fullAt : Nat
  deriving DecidableEq, Repr, Inhabited

/-- One of the 256 sessions: its directions' FAILED state, current key registers and windows. -/
structure Session where
  rxFailed : Bool
  txFailed : Bool
  rxK : Nat
  txK : Nat
  /-- The open write window, and those that are complete and have no result yet, oldest first. -/
  wwin : Option WWin
  wdone : List WWin
  rwins : List RWin
  deriving DecidableEq, Repr, Inhabited

structure Port where
  /-- Credits the fabric controller holds on the receive-side channels and RLPC. -/
  req : Nat
  wdat : Nat
  wlpc : Nat
  rlpc : Nat
  /-- Credits freed and withheld while the port is disabled (spec/04 R123). -/
  owedReq : Nat
  owedWdat : Nat
  owedWlpc : Nat
  owedRlpc : Nat
  /-- Whether the initial credits have been returned since the last reset (spec/04 R123). -/
  granted : Bool
  /-- A side that returns no further credits after a credit overflow (spec/02 R41). -/
  rxStop : Bool
  txStop : Bool
  /-- Credits the engine holds. -/
  rsp : Nat
  rdat : Nat
  wchk : Nat
  rtag : Nat
  /-- Write requests not yet paired (access id and session), payloads not yet paired. -/
  reqs : List (Nat × Nat)
  wdats : List (Line × BitVec 64)
  wchkq : List (Nat × WResult)
  rtagq : List (Nat × BitVec 96)
  accErr : Nat
  poison : Nat
  linkErr : Nat
  ktag : Nat
  deriving DecidableEq, Repr, Inhabited

/-- A range hold (spec/14 R380): lines `lo` to `hi`, its place at the gate, the step that placed it. -/
structure Hold where
  lo : Nat
  hi : Nat
  place : Nat
  step : Nat
  deriving DecidableEq, Repr, Inhabited

structure Fab where
  portEn : BitVec 8
  winTimeout : Nat
  ports : Tab Port
  sessions : Tab Session
  accs : List Access
  holds : List Hold
  /-- The next window lane in rotation (spec/07 R186). -/
  laneRot : Nat
  /-- REQ credits are withheld under spec/01 R18 (for FAB_CREDIT_HOLD). -/
  holding : Bool
  deriving DecidableEq, Repr

/-! ### STL -/

/-- A valid stream table entry (spec/05 R127). -/
structure SEntry where
  lock : Bool
  age : Nat
  ports : BitVec 8
  kslot : BitVec 16
  kid : BitVec 16
  sid : BitVec 16
  deriving DecidableEq, Repr, Inhabited

structure StlSet where
  tab : Tab (Option SEntry)
  size : BitVec 2
  seed0 : Word32
  seed1 : Word32
  clearing : Bool
  deriving DecidableEq, Repr

/-- The move-in-flight register: the entry, the set of its move, the destination index (spec/05 R130, R133). -/
structure Move where
  entry : SEntry
  set : Nat
  dst : Nat
  deriving DecidableEq, Repr, Inhabited

/-- A pending-learn filter entry (spec/05 R142). -/
structure Filter where
  sid : BitVec 16
  kid : BitVec 16
  isPort : Bool
  ports : BitVec 8
  learnId : BitVec 16
  count : Nat
  /-- The event record has been written. -/
  written : Bool
  createdAt : Nat
  /-- KSLOT and PORTS of the entry that was hit, for type PORT. -/
  entKslot : BitVec 16
  entPorts : BitVec 8
  deriving DecidableEq, Repr, Inhabited

structure Stl where
  relocLimit : Nat
  parkTimeout : Nat
  agePeriod : Nat
  learnEvq : Evq
  cfgIgn : Bool
  setA : StlSet
  setB : StlSet
  move : Option Move
  reject : List (BitVec 16 × BitVec 16)
  filter : List Filter
  learnId : BitVec 16
  evictCnt : Nat
  rejectCnt : Tab Nat
  timeoutCnt : Tab Nat
  parkfullCnt : Tab Nat
  /-- When the last ageing tick fell. -/
  ageAt : Nat
  /-- Stream commands that have arrived and wait, oldest first (spec/05 R132): queue, position, and what the check bits
  show them, by element of their batch. -/
  cmds : List (Nat × BitVec 16 × List (Nat × Chk))
  /-- Those that have arrived since a SWAP_CONFIG did, until its swap cycle (spec/06 R159). -/
  held : List (Nat × BitVec 16 × List (Nat × Chk))
  deriving DecidableEq, Repr

/-! ### RMP -/

/-- The configured part of a valid region entry (spec/06 R152). -/
structure RegionCfg where
  base : Nat
  limit : Nat
  kidLo : BitVec 16
  kidHi : BitVec 16
  mode : Mode
  striped : Bool
  group : BitVec 4
  deriving DecidableEq, Repr, Inhabited

/-- The rekey part of an entry index (spec/06 R152); FRONT in 4 KiB units. -/
structure Rekey where
  st : RkSt
  old : BitVec 16
  new : BitVec 16
  front : Nat
  deriving DecidableEq, Repr, Inhabited

structure RmpSet where
  tab : Tab (Option RegionCfg)
  /-- Bits [127:0] of spec/06 R152 of an invalid index, as the last REGION_WRITE with VALID 0 left them. -/
  stale : Tab (BitVec 128)
  fmt : BitVec 2
  clearing : Bool
  deriving DecidableEq, Repr

structure Rmp where
  setA : RmpSet
  setB : RmpSet
  rekey : Tab Rekey
  gen : Word32
  cfgIgn : Bool
  /-- The SWAP_CONFIG that waits (queue, position) (spec/06 R159). -/
  swap : Option (Nat × BitVec 16)
  /-- Region commands that have arrived and wait, oldest first (spec/06 R161). -/
  cmds : List (Nat × BitVec 16)
  /-- Those that have arrived since a SWAP_CONFIG did, until its swap cycle (spec/06 R159). -/
  held : List (Nat × BitVec 16)
  deriving DecidableEq, Repr

/-! ### LAN -/

/-- A storage key set as a lane holds it: data key, MAC key, key tag, and the hash subkey and tweak key derived from them
(spec/07 R173). -/
structure KeySet where
  data : BitVec 256
  mac : BitVec 256
  tag : Byte
  hash : BitVec 128
  tweak : BitVec 256
  deriving DecidableEq, Repr, Inhabited

/-- The test vectors of a known-answer set: keys, place and counter of the test line, IV and data (spec/07 R168, R189). -/
structure KatVec where
  key : BitVec 256
  mac : BitVec 256
  link : BitVec 256
  tag : Byte
  line : LineNo
  ctr : Ctr
  iv : BitVec 96
  aad : BitVec 96
  data : Line
  deriving DecidableEq, Repr, Inhabited

structure Lane where
  st : LaneSt
  mismatches : Nat
  katFails : Nat
  /-- When the lane last failed, and whether it was a standby lane then (spec/07 R196). -/
  failedAt : Option Nat
  wasStandby : Bool
  /-- The lane standing in for it, with that lane's former state (spec/07 R171). -/
  standIn : Option (Nat × LaneSt)
  /-- Passes left until the next sample, and the audit LFSR (spec/07 R192). -/
  audit : Nat
  lfsr : Word32
  /-- A known-answer set has been started and has not ended; the lane takes no new pass until one ends. -/
  katRun : Bool
  katHold : Bool
  katAt : Nat
  /-- Storage key sets by slot, and session key registers, in its key cache, the last used first (spec/07 R173). -/
  slots : List (Nat × KeySet)
  regs : List (Nat × BitVec 256)
  /-- Its registers for the test vectors of its known-answer checks (spec/07 R168). -/
  vec : KatVec
  deriving DecidableEq, Repr, Inhabited

structure Lan where
  lanes : Tab Lane
  auditEn : Bool
  auditInterval : Nat
  katPeriod : Nat
  auditCnt : Nat
  mismatchCnt : Nat
  deriving DecidableEq, Repr

/-! ### FRS -/

structure Zone where
  st : ZoneSt
  root : Ctr
  ceil : Ctr
  key : Option (BitVec 256)
  /-- State held when FORMAT_ZONE or SANITIZE was accepted (spec/10 R276), the key drawn then, the command. -/
  prev : ZoneSt
  drawn : Option (BitVec 256)
  cmd : Option (Nat × Nat)
  /-- The command takes the zone out of ONLINE and waits for earlier requests (spec/04 R106). -/
  leaving : Bool
  /-- The tree reset of spec/08 R214 has been done. -/
  treeDone : Bool
  deriving DecidableEq, Repr, Inhabited

/-- Who waits for a ladder fetch. -/
inductive Waiter where
  | access (id : Nat)
  | writeBack (n : NodeId)
  | pin (q pos : Nat)
  | mark (n : NodeId)
  | scrub (step : Nat)
  deriving DecidableEq, Repr, Inhabited

/-- One rung of a ladder: its beat, how the read ended, attempts made. A stale rung was read before its parent slot was
raised, and is read again once the node's write-back has completed (spec/14 R392). -/
structure Rung where
  level : Nat
  node : Option Node
  bad : Bool
  retired : Bool
  attempts : Nat
  /-- The retry limit, taken at the first failure (spec/15 R419). -/
  limit : Nat
  stale : Bool
  deriving DecidableEq, Repr, Inhabited

/-- A ladder fetch (spec/08 R219): the path of line index `n` of a zone from the anchor down to level `low`. -/
structure Ladder where
  id : Nat
  zone : Nat
  n : Nat
  low : Nat
  /-- Anchor level, 9 for the root, and the anchor's path slot. -/
  anchor : Nat
  value : Ctr
  rungs : List Rung
  waiters : List Waiter
  /-- It reads every uncached node up from the root (spec/08 R205). -/
  fromRoot : Bool
  /-- It serves Drizzle or SCRUB: nothing enters the Canopy. From the root it is a check of the nodes themselves, which uses
  no clean cached copy (spec/14 R391, R392). -/
  check : Bool
  deriving DecidableEq, Repr, Inhabited

structure Frs where
  metaBase : Nat
  zoneLimit : Nat
  evq : Evq
  cfgIgn : Bool
  evtLost : Bool
  zoneSel : Nat
  zones : Tab Zone
  exhCnt : Nat
  nodePoisonCnt : Nat
  linePoisonCnt : Nat
  ladders : List Ladder
  /-- Nodes held as poisoned until their mark is written into the parent (spec/08 R227). -/
  marks : List NodeId
  deriving DecidableEq, Repr

/-! ### CAN -/

/-- A Canopy line. Lines of the staging buffer (spec/09 R251, R252) have an index past the last way. -/
structure CanLine where
  st : CanSt
  fill : Bool
  wb : Bool
  stuck : Bool
  pinned : Bool
  node : NodeId
  ctr : List Ctr
  mac : BitVec 64
  /-- Order in which it last turned from clean to dirty (spec/09 R243). -/
  age : Nat
  /-- Changed since the MAC step of its write-back (spec/08 R224). -/
  changed : Bool
  /-- A write-back is asked for ahead of age order. -/
  want : Bool
  /-- The line has been written since its way entered the pinned partition (spec/09 R244, R245). -/
  written : Bool
  /-- Of a clean line of the staging buffer: the accesses whose walks have brought it (spec/09 R252). -/
  walkers : List Nat
  deriving DecidableEq, Repr, Inhabited

/-- Way disable state of one bank and way (spec/09 R249). -/
structure WayStat where
  disabling : Bool
  disabled : Bool
  accesses : Nat
  errors : Nat
  deriving DecidableEq, Repr, Inhabited

/-- A maintenance operation in progress on a node (spec/09 R247, R248). -/
structure Maint where
  q : Nat
  pos : Nat
  node : NodeId
  line : Nat
  op : Nat
  /-- 0 not begun, 1 waits for a write-back that was in flight, 2 for the one it asked for or for its own fetch. -/
  phase : Nat
  /-- What the check bits show to a READ by set and way, when its turn comes (spec/09 R237). -/
  err : Option Bool
  deriving DecidableEq, Repr, Inhabited

structure Can where
  en : Bool
  draining : Bool
  drainStopped : Bool
  cfgIgn : Bool
  pinWays : Nat
  budgetMib : Nat
  hit : Nat
  miss : Nat
  lines : Tab CanLine
  lfsr : Tab Word32
  ways : Tab WayStat
  maint : List Maint
  /-- D has exceeded budget - 1,024 since it was last below (CAN_DIRTY_HIGH, spec/15 R414). -/
  high : Bool
  deriving DecidableEq, Repr

/-! ### MED -/

/-- What a media command serves. -/
inductive MedWhy where
  | data (id : Nat)
  | node (n : NodeId)
  | writeBack (n : NodeId)
  | openMap (zone : Nat)
  | armMap (row : Nat)
  | image (row : Nat)
  | restoreImage (row : Nat)
  | restoreMap (row : Nat)
  | restoreL8 (zone : Nat)
  | adoptRead (n : NodeId)
  | adoptWrite (n : NodeId)
  deriving DecidableEq, Repr, Inhabited

/-- A media command: OP as on MCn_CMD_OP, media line address (address / 64), the beat of a write. -/
structure MCmd where
  op : Nat
  addr : Nat
  beat : Beat
  why : MedWhy
  deriving DecidableEq, Repr, Inhabited

structure Channel where
  retired : Bool
  cause : Nat
  bucket : Nat
  transients : Nat
  /-- When the current leak period began (spec/15 R421). -/
  leakAt : Nat
  /-- The THRESHOLD still in force, of which a write has made another that applies from the bucket's next fall (spec/15
  R432); none: that of the register. -/
  oldThreshold : Option Nat
  mcmd : Nat
  mwd : Nat
  waiting : List MCmd
  out : Tab (Option MCmd)
  deriving DecidableEq, Repr, Inhabited

structure Med where
  retryLimit : Nat
  threshold : Nat
  ch : Tab Channel
  deriving DecidableEq, Repr

/-! ### KEY -/

structure Kslot where
  st : KSt
  data : BitVec 256
  mac : BitVec 256
  tag : Byte
  deriving DecidableEq, Repr, Inhabited

structure Kek where
  loaded : Bool
  key : BitVec 256
  transport : Bool
  unwrapped : Bool
  context : Bytes
  deriving DecidableEq, Repr, Inhabited

/-- What a KEY_DESTROY names. -/
inductive KTarget where
  | slot (i : Nat) | reg (i : Nat) | kek (i : Nat)
  deriving DecidableEq, Repr, Inhabited

/-- A destruction in progress: its entry, its target, whether the zeroisation has been sent (spec/11 R298). -/
structure Destroy where
  q : Nat
  pos : Nat
  target : KTarget
  sent : Bool
  deriving DecidableEq, Repr, Inhabited

/-- The derived device keys (spec/11 R288). -/
structure Derived where
  image : BitVec 256
  measure : BitVec 256
  mset : BitVec 256
  deriving DecidableEq, Repr, Inhabited

structure Drbg where
  st : DrbgSt
  key : BitVec 256
  v : BitVec 128
  /-- Requests served since the last seeding. -/
  served : Nat
  instantiated : Bool
  deriving DecidableEq, Repr, Inhabited

structure Ent where
  st : EntSt
  rct : Nat
  apt : Nat
  deriving DecidableEq, Repr, Inhabited

/-- Key material drawn for a command that has not installed it yet: KEY_GENERATE (spec/11 R296), ADOPT_ZONE (spec/10
R278), or a SANITIZE whose draws for its zones are not all made (spec/08 R215). -/
structure Drawn where
  q : Nat
  pos : Nat
  bytes : Bytes
  deriving DecidableEq, Repr, Inhabited

structure Key where
  /-- Key commands that have arrived and not ended, oldest first (spec/11 R286): queue, position. -/
  cmds : List (Nat × BitVec 16)
  slots : Tab Kslot
  /-- Session key registers by session × 4 + direction × 2 + K. -/
  regs : Tab (Option (BitVec 256))
  keks : Tab Kek
  derived : Option Derived
  drbg : Drbg
  seedZero : Bool
  reseedLog2 : Nat
  reseedNow : Bool
  /-- A CAN_LFSR_RESEED whose draw waits for a reseed (spec/09 R239, spec/11 R306). -/
  lfsrWait : Bool
  entEn : BitVec 8
  ent : Tab Ent
  unwrapCnt : Nat
  reseedCnt : Nat
  destroys : List Destroy
  drawn : List Drawn
  deriving DecidableEq, Repr

/-! ### QMG -/

/-- A queue position: wrap bit 15, index bits [14:0] (spec/12 R318). -/
abbrev QPos := BitVec 16

/-- A completion to be written (spec/13 R355). -/
structure Cpl where
  status : Nat
  sub : Nat
  result : Word32
  resultX : Byte
  deriving DecidableEq, Repr, Inhabited

/-- One data fragment (spec/12 R332). -/
structure Frag where
  addr : Nat
  len : Nat
  deriving DecidableEq, Repr, Inhabited

/-- How far an entry in execution has come. -/
inductive XSt where
  /-- Reading its fragment tables. -/
  | tables
  /-- Reading its input buffer. -/
  | buffer
  /-- Its input is in hand and its command has not acted. -/
  | ready
  /-- Its command has acted and goes on in further steps. -/
  | running
  /-- Its result-buffer writes are outstanding. -/
  | writing
  /-- Its completion write is outstanding. -/
  | completing
  deriving DecidableEq, Repr, Inhabited

/-- An entry consumed and not yet acknowledged (spec/12 R353 EXEC). -/
structure Exec where
  pos : QPos
  entry : Line
  st : XSt
  frags : List Frag
  tables : Nat
  /-- The bytes read so far of the table or logical buffer being read, its address, its length. -/
  buf : Bytes
  src : Nat
  need : Nat
  /-- Result writes outstanding, whether one failed, and the completion that follows them. -/
  wrLeft : Nat
  wrFail : Bool
  cpl : Option Cpl
  discard : Bool
  /-- A ready entry has found that its draw must wait for the DRBG (spec/11 R306, R307). -/
  waits : Bool
  deriving DecidableEq, Repr, Inhabited

/-- A cached entry (spec/12 R327). -/
structure Cached where
  pos : QPos
  entry : Line
  deriving DecidableEq, Repr, Inhabited

structure Queue where
  st : QSt
  ty : QTy
  scanOnly : Bool
  fmt : BitVec 2
  log2 : Nat
  vecEn : Bool
  vec : BitVec 11
  base : Nat
  /-- T or C, F, H or P, O (spec/12 R319, R336). -/
  tail : QPos
  fetch : QPos
  head : QPos
  old : QPos
  cause : Nat
  pos : QPos
  done : Word32
  seq : Word32
  cached : List Cached
  exec : List Exec
  /-- A scan is asked for; again, by a SCAN that came while a scan read was outstanding (spec/12 R325); the last scan
  stopped at an entry with OWN = 0. -/
  scanning : Bool
  again : Bool
  stopped : Bool
  /-- When the last poll of a scan-only queue was made. -/
  polledAt : Nat
  /-- Record writes that wait or are outstanding; and one more than the code of the source register that wrote last, 0 for
  none (spec/12 R491). -/
  recWr : Nat
  lastSrc : Nat
  /-- A RESET_QUEUE or ADMIN_RESET waits for entries in execution; the queue and position of each RESET_QUEUE. -/
  resetting : Bool
  resetBy : List (Nat × QPos)
  deriving DecidableEq, Repr, Inhabited

structure Vec where
  addr : BitVec 64
  data : Word32
  loaded : Bool
  pend : Bool
  mask : Bool
  time : Nat
  count : Nat
  n : Nat
  t0 : Nat
  deriving DecidableEq, Repr, Inhabited

/-- What an HDMA write serves. -/
inductive WrWhy where
  | completion (q : Nat) (pos : QPos) (counts : Bool)
  | result (q : Nat) (pos : QPos)
  | recordLow (q : Nat) (pos : QPos)
  | recordHigh (q : Nat) (pos : QPos)
  | message (v : Nat)
  | chunk (step : Nat)
  deriving DecidableEq, Repr, Inhabited

/-- An HDMA write of up to 32 bytes: byte address, bytes, queue (spec/02 R56). -/
structure HWr where
  addr : Nat
  bytes : Bytes
  qid : Nat
  why : WrWhy
  /-- Its name; and its place in the order of issue once it has been driven, for DRAIN (spec/12 R345). -/
  order : Nat
  issued : Nat
  deriving DecidableEq, Repr, Inhabited

/-- What an HDMA read serves. -/
inductive RdWhy where
  | entries (q : Nat) (pos : QPos) (n : Nat) (scan : Bool)
  | table (q : Nat) (pos : QPos)
  | buffer (q : Nat) (pos : QPos)
  | vectors (first n : Nat)
  | chunk (step : Nat)
  deriving DecidableEq, Repr, Inhabited

/-- An HDMA read: byte address, bytes wanted, bytes that arrived, whether a transfer failed. -/
structure HRd where
  addr : Nat
  len : Nat
  why : RdWhy
  got : Bytes
  err : Bool
  deriving DecidableEq, Repr, Inhabited

/-- How a held record is told apart for merging (spec/12 R491). -/
inductive RecKind where
  | plain
  | learn (sid kid : BitVec 16)
  | join (sid kid : BitVec 16)
  | evicted
  | zone (z : Nat)
  | exhausted (zone level index : Nat)
  | node
  | scrub
  | fault (bank : Nat)
  deriving DecidableEq, Repr, Inhabited

/-- An event record that waits to be written (spec/13 R378): type, SOURCE, payload, event time. -/
structure Rec where
  typ : Nat
  source : Nat
  payload : Bytes
  time : Nat
  kind : RecKind
  deriving DecidableEq, Repr, Inhabited

structure Qmg where
  cfgIgn : Bool
  vecLoading : Nat
  admqBase : Nat
  admqCfg : Word32
  scanPeriod : Nat
  vecBase : Nat
  queues : Tab Queue
  vecs : Tab Vec
  wrCredit : Nat
  rdCredit : Nat
  wrWait : List HWr
  wrOut : Tab (Option HWr)
  rdWait : List HRd
  rdOut : Tab (Option HRd)
  /-- DRAIN doorbells that wait: the issue order they wait for (spec/12 R345). -/
  drains : List Nat
  /-- Interrupt messages a DRAIN waits for, by the names of their writes. -/
  drainVecs : List Nat
  /-- Vectors that a DRAIN has made due and that have neither been sent nor become pending (spec/12 R345). -/
  drainDue : List Nat
  /-- The queue other than queue 0 that last took cache slots in rotation (spec/12 R327). -/
  lastFetch : Nat
  /-- Held records by source register (EvSrc order). -/
  held : Tab (List Rec)
  /-- FLT_EVQ and FLT_STAT.EVT_LOST, which are in CORE (spec/15 R429, R430). -/
  fltEvq : Evq
  fltLost : Bool
  deriving DecidableEq, Repr

/-! ### SVC -/

/-- Service kinds. -/
inductive SKind where
  | front | drizzle | sanitize | scrub | seal | unseal | transcode
  deriving DecidableEq, Repr, Inhabited

/-- A service step in progress (spec/14 R380). -/
structure Step where
  id : Nat
  who : SvcWho
  kind : SKind
  /-- First 4 KiB unit and number of units of its range. -/
  unit : Nat
  units : Nat
  gen : Word32
  region : Nat
  mode : Mode
  slotA : BitVec 16
  slotB : BitVec 16
  /-- Accesses of the step that have not left. -/
  left : Nat
  /-- Slots a check tries (spec/14 R393). -/
  slots : List (BitVec 16)
  /-- Plaintext sealed so far is never held: the sealed blocks and VOID bits of the chunk. -/
  blocks : List (Nat × Line)
  void : BitVec 64
  /-- SALT of the chunk (spec/14 R398). -/
  salt : Bytes
  /-- The lane that all lines of a SEAL chunk pass through (spec/14 R398). -/
  lane : Option Nat
  /-- The 4,144 bytes of the chunk until its tag has been checked (UNSEAL); the chunk's writes have been issued, and how
  many are outstanding (SEAL). -/
  buf : Bytes
  posted : Bool
  wrLeft : Nat
  /-- A range reset unit of SANITIZE (spec/14 R396). -/
  reset : Bool
  /-- A node check of Drizzle or SCRUB still to end. -/
  nodes : Nat
  deriving DecidableEq, Repr, Inhabited

/-- A service command, waiting or running (spec/14 R400). -/
structure SCmd where
  q : Nat
  pos : Nat
  kind : SKind
  base : Nat
  units : Nat
  slotA : BitVec 16
  slotB : BitVec 16
  kek : Nat
  nodesOnly : Bool
  running : Bool
  /-- 4 KiB units started and units whose effect stands. -/
  next : Nat
  prog : Nat
  salt : Bytes
  /-- The status it must end with once its steps have ended. -/
  ending : Option Cpl
  region : Nat
  /-- Slots listed for the region a SCRUB is in, and that region. -/
  slots : List (BitVec 16)
  slotRegion : Option Nat
  /-- Bytes of the next chunk read so far (UNSEAL), and the name of the read outstanding. -/
  buf : Bytes
  fetch : Option Nat
  deriving DecidableEq, Repr, Inhabited

/-- A Front of an entry index; credits are in thousandths of a beat. -/
structure Front where
  rate : Nat
  credit : Nat
  busy : Bool
  deriving DecidableEq, Repr, Inhabited

structure Svc where
  evq : Evq
  frontRate : Nat
  drizzleEn : Bool
  drizzleRate : Nat
  bulkRate : Nat
  slotOvf : Bool
  evtLost : Bool
  drizzleZone : Nat
  drizzlePasses : Nat
  skipCnt : Nat
  foreignCnt : Nat
  findingCnt : Nat
  unattrCnt : Nat
  fronts : Tab Front
  /-- Index of the Front that took the last step (turns in ascending order). -/
  lastFront : Nat
  /-- The service that took the last step, by its place among Front, Drizzle, Sanitize, Transcode, Seal and Unseal (spec/04
  R109). -/
  lastService : Nat
  bulkCredit : Nat
  drizzleCredit : Nat
  accruedAt : Nat
  steps : List Step
  cmds : List SCmd
  /-- Retirement list: entry index, OLD_KSLOT, NEW_KSLOT (spec/14 R390). -/
  retire : List (Nat × BitVec 16 × BitVec 16)
  /-- The Drizzle walk: next 4 KiB unit of the zone, lines and nodes checked, findings, zone done. -/
  drizzleUnit : Nat
  drizzleLines : Nat
  drizzleNodes : Nat
  drizzleFinds : Nat
  /-- The zone being walked has left ONLINE since its walk began (spec/14 R391). -/
  drizzleLost : Bool
  /-- Slots listed for the region being walked (spec/14 R393). -/
  slotList : List (BitVec 16)
  slotRegion : Option Nat
  deriving DecidableEq, Repr

/-! ### PER -/

/-- Phases of a running checkpoint (spec/10 R266). -/
inductive CkPhase where
  | preFlush | hold | image | anvil
  deriving DecidableEq, Repr, Inhabited

structure Ckpt where
  phase : CkPhase
  /-- 0 for a CHECKPOINT command, else the TRIGGER of spec/10 R270. -/
  trigger : Nat
  cmds : List (Nat × Nat)
  /-- Canopy lines dirty when the pre-flush began. -/
  want : List Nat
  copy : Nat
  seq : BitVec 64
  cutTime : Nat
  left : Nat
  digest : Bytes
  /-- Next Anvil word to write. -/
  word : Nat
  /-- Proposed PCK of a pool checkpoint, and whether CUT(Q) has arrived. -/
  pck : Option (BitVec 64)
  cutSeen : Bool
  heldAt : Nat
  held : Bool
  /-- ABORT or a timeout makes it a local checkpoint (spec/16 R445). -/
  localCut : Bool
  deriving DecidableEq, Repr, Inhabited

/-- Stages of ANCHOR_RESTORE (spec/10 R274). -/
inductive RsStage where
  | waiting | records | image | openMap | zones | arming
  deriving DecidableEq, Repr, Inhabited

structure Restore where
  q : Nat
  pos : Nat
  stage : RsStage
  /-- Anvil words read, with None for a failed access. -/
  words : List (Option Word32)
  /-- Valid records still to try (copy, SEQ), newest first; how many were valid; bit k for record k. -/
  tries : List (Nat × Nat)
  valid : Nat
  fallback : Bool
  rows : Tab (Option Line)
  left : Nat
  seq : BitVec 64
  /-- Zones whose L8 check is outstanding, with the attempts made. -/
  checks : List (Nat × Nat)
  deriving DecidableEq, Repr, Inhabited

/-- A node on the walk of an adoption (spec/10 R278). -/
structure AdNode where
  node : NodeId
  ctr : List Ctr
  parent : Ctr
  /-- Next slot to visit. -/
  slot : Nat
  attempts : Nat
  reading : Bool
  writing : Bool
  deriving DecidableEq, Repr, Inhabited

structure Adopt where
  q : Nat
  pos : Nat
  zone : Nat
  /-- Started: the zone has left ONLINE and its lines have been written back. -/
  started : Bool
  stack : List AdNode
  rewritten : Nat
  poisoned : Nat
  top : Nat
  /-- The walk has ended, with this root; root, ceiling and key are installed as its checkpoint starts. -/
  root : Ctr
  closing : Bool
  prev : ZoneSt
  /-- Its closing checkpoint has ended, with this result, while a MEASURE runs (spec/11 R312). -/
  outcome : Option Bool
  deriving DecidableEq, Repr, Inhabited

/-- The Anvil access outstanding (spec/02 R68). -/
structure Anv where
  write : Bool
  word : Nat
  data : Word32
  since : Nat
  /-- What it served has been abandoned; its answer is discarded. -/
  stale : Bool
  deriving DecidableEq, Repr, Inhabited

structure Per where
  periodMin : Nat
  evq : Evq
  anchorBase : Nat
  cfgIgn : Bool
  armed : Bool
  pfwDone : Bool
  armFail : Bool
  evtLost : Bool
  epoch : BitVec 64
  seq : BitVec 64
  ckptTime : Stamp
  ckptCnt : Nat
  failCnt : Nat
  adoptCnt : Nat
  openMap : Tab (BitVec 64)
  /-- Zones whose entry has been written (or given up) in this epoch, and zones whose write is outstanding. -/
  opened : List Nat
  opening : List Nat
  /-- Zones whose entry write failed and whose next write-back goes without one (spec/10 R263). -/
  openSkip : List Nat
  committed : Option Nat
  ckpt : Option Ckpt
  waiting : List (Nat × Nat)
  restore : Option Restore
  /-- Open-map lines still to report while arming, whether one failed, and the restore it follows. -/
  arming : Option Nat
  armBad : Bool
  armHeld : Bool
  adopt : Option Adopt
  adoptWait : List Adopt
  anvil : Option Anv
  timerAt : Nat
  /-- The checkpoint of the power-fail flush has begun (spec/10 R271). -/
  pfCut : Bool
  deriving DecidableEq, Repr

/-! ### FLT -/

/-- A first-error record (spec/15 R405). -/
structure FRec where
  raw : Bool
  forced : Bool
  cls : Nat
  src : Nat
  time : Stamp
  deriving DecidableEq, Repr, Inhabited

structure Bank where
  first : Option FRec
  ovf : Bool
  vecEn : Bool
  vec : BitVec 11
  /-- Conditions that hold and notifications pending; masked sources; sources escalated to FT. -/
  live : List Nat
  mask : List Nat
  esc : List Nat
  deriving DecidableEq, Repr, Inhabited

structure Flt where
  banks : Tab Bank
  deriving DecidableEq, Repr

/-- The SAFE domain (spec/15 R429, spec/03 R96). -/
structure Safe where
  active : Bool
  cls : BitVec 2
  zeroised : Bool
  bank : Nat
  src : Nat
  time : Stamp
  drillEn : Bool
  drillCnt : Nat
  resetCause : BitVec 3
  deriving DecidableEq, Repr

/-! ### DEL -/

structure Member where
  st : MemSt
  group : Option (BitVec 4)
  lastAt : Nat
  /-- Highest OSEQ accepted and which of the 64 up to it have been (bit k for highest - k). -/
  seen : Bool
  highest : Word32
  window : BitVec 64
  pck : BitVec 64
  deriving DecidableEq, Repr, Inhabited

/-- A frame not yet acknowledged (spec/16 R439). -/
structure Unacked where
  typ : Nat
  frame : Frame
  sentAt : Nat
  tries : Nat
  deriving DecidableEq, Repr, Inhabited

structure Link where
  /-- PELn_LINK_UP. -/
  up : Bool
  st : LinkSt
  version : Nat
  peer : BitVec 6
  errs : Nat
  heard : Bool
  lastAt : Nat
  /-- No valid frame has arrived for TIMEOUT (spec/16 R440). -/
  silent : Bool
  /-- When bring-up began or HELLO was last sent (spec/16 R440). -/
  helloAt : Nat
  unacked : List Unacked
  deriving DecidableEq, Repr, Inhabited

/-- A pool checkpoint this engine coordinates (spec/16 R445). -/
structure Txn where
  pck : BitVec 64
  held : List Nat
  done : List Nat
  failed : Bool
  cut : Bool
  since : Nat
  /-- It was asked for by RECON (spec/16 R448). -/
  recon : Bool
  deriving DecidableEq, Repr, Inhabited

structure Del where
  inPool : Bool
  poolId : BitVec 6
  group : Option (BitVec 4)
  linksUse : BitVec 4
  ident : BitVec 64
  gstate : GState
  evq : Evq
  evtLost : Bool
  hbPeriod : Nat
  hbTimeout : Nat
  txnTimeout : Nat
  pck : BitVec 64
  proposal : BitVec 64
  oseq : Word32
  hbAt : Nat
  members : Tab Member
  links : Tab Link
  txn : Option Txn
  /-- REPORTs tallied by the coordinator: index, OLD_KSLOT, NEW_KSLOT, member. -/
  reports : List (Nat × BitVec 16 × BitVec 16 × Nat)
  /-- POOL_RECONCILE that waits. -/
  recon : Option (Nat × Nat)
  /-- Pool checkpoints that do not decide it: known here as it began, or begun here for no RECON (log 52). -/
  reconSkip : List (BitVec 64)
  /-- When this engine's own part of one that decides it committed. -/
  reconAt : Option Nat
  /-- A PREPARE that waits for the checkpoint or adoption that runs (spec/16 R445), and a CKREQ that waits for the pool
  checkpoint that runs (spec/16 R444). -/
  prepared : Option (BitVec 64)
  ckreq : Bool
  /-- A RECON that waits for the checkpoint or adoption that runs (spec/16 R448). -/
  reconReq : Bool
  deriving DecidableEq, Repr

/-! ### The block -/

/-- Everything but the queue, the fault banks and the SAFE domain. -/
structure Dev where
  mgt : Mgt
  tap : Tap
  fab : Fab
  stl : Stl
  rmp : Rmp
  lan : Lan
  frs : Frs
  can : Can
  med : Med
  key : Key
  qmg : Qmg
  svc : Svc
  per : Per
  del : Del
  /-- The transfers driven in the last step. -/
  drive : List Transfer
  /-- The occurrences detected in the running step, registered by the banks at its end. -/
  raised : List Raise
  /-- The model's own: counter of free values, and allocator of ids, places and ages. -/
  free : Nat
  seq : Nat
  deriving DecidableEq, Repr

structure State where
  /-- The commands that wait, first in first out. -/
  pending : List Instr
  dev : Dev
  flt : Flt
  safe : Safe
  deriving DecidableEq, Repr

/-! ### Reset -/

def Mgt.reset : Mgt where
  pwrGood := true
  sysRstN := true
  tref := 0
  phase := .fuse
  ready := false
  suspended := false
  pfWarn := false
  pfw := .none
  rstDeferred := false
  fuseIdx := 0
  fuseReq := false
  fuseFirst := []
  fuseAt := 0
  fuse := []
  domReset := 0xBFFFFFFFFFFFFFF#60
  clkOk := 0x400000000000000#60
  clkMeas := []
  clusterGate := 0
  clusterIdle := 0
  fpRst := 0
  mcRst := 0
  hdmaRst := false
  pelRst := 0
  holdoff := false
  loHeld := []
  hiHeld := []
  lanesOk := 0

def Tap.reset : Tap where
  ir := 1
  sibReg := false
  sibKat := false
  denied := 0
  rDone := false
  rDenied := false
  rErr := false
  rWaddr := 0
  rData := 0
  rHeld := []
  kDone := false
  kPass := false
  kRefused := false
  kLane := 0
  kBusy := false
  sampled := 0
  cells := 0
  trstN := false
  held := false

def Fab.reset : Fab where
  portEn := 0
  winTimeout := 100
  ports := []
  sessions := []
  accs := []
  holds := []
  laneRot := 0
  holding := false

def StlSet.reset : StlSet where
  tab := []
  size := 3
  seed0 := 0
  seed1 := 0
  clearing := false

def Stl.reset : Stl where
  relocLimit := 16
  parkTimeout := 100
  agePeriod := 1000
  learnEvq := default
  cfgIgn := false
  setA := StlSet.reset
  setB := StlSet.reset
  move := none
  reject := []
  filter := []
  learnId := 0
  evictCnt := 0
  rejectCnt := []
  timeoutCnt := []
  parkfullCnt := []
  ageAt := 0
  cmds := []
  held := []

def RmpSet.reset : RmpSet where
  tab := []
  stale := []
  fmt := 2
  clearing := false

def Rmp.reset : Rmp where
  setA := RmpSet.reset
  setB := RmpSet.reset
  rekey := []
  gen := 1
  cfgIgn := false
  swap := none
  cmds := []
  held := []

def Lan.reset : Lan where
  lanes := []
  auditEn := true
  auditInterval := 4096
  katPeriod := 1000
  auditCnt := 0
  mismatchCnt := 0

def Frs.reset : Frs where
  metaBase := 0x400000000000
  zoneLimit := 0
  evq := default
  cfgIgn := false
  evtLost := false
  zoneSel := 0
  zones := []
  exhCnt := 0
  nodePoisonCnt := 0
  linePoisonCnt := 0
  ladders := []
  marks := []

def Can.reset : Can where
  en := true
  draining := false
  drainStopped := false
  cfgIgn := false
  pinWays := 0
  budgetMib := 2
  hit := 0
  miss := 0
  lines := []
  lfsr := []
  ways := []
  maint := []
  high := false

def Med.reset : Med where
  retryLimit := 2
  threshold := 16
  ch := []

def Key.reset : Key where
  cmds := []
  slots := []
  regs := []
  keks := []
  derived := none
  drbg := default
  seedZero := false
  reseedLog2 := 16
  reseedNow := false
  lfsrWait := false
  entEn := 0xFF
  ent := []
  unwrapCnt := 0
  reseedCnt := 0
  destroys := []
  drawn := []

def Qmg.reset : Qmg where
  cfgIgn := false
  vecLoading := 0
  admqBase := 0
  admqCfg := 0x44000
  scanPeriod := 10
  vecBase := 0
  queues := []
  vecs := []
  wrCredit := 0
  rdCredit := 0
  wrWait := []
  wrOut := []
  rdWait := []
  rdOut := []
  drains := []
  drainVecs := []
  drainDue := []
  lastFetch := 0
  held := []
  fltEvq := default
  fltLost := false

def Svc.reset : Svc where
  evq := default
  frontRate := 5
  drizzleEn := true
  drizzleRate := 1
  bulkRate := 25
  slotOvf := false
  evtLost := false
  drizzleZone := 0
  drizzlePasses := 0
  skipCnt := 0
  foreignCnt := 0
  findingCnt := 0
  unattrCnt := 0
  fronts := []
  lastFront := 4095
  lastService := 5
  bulkCredit := 64000
  drizzleCredit := 64000
  accruedAt := 0
  steps := []
  cmds := []
  retire := []
  drizzleUnit := 0
  drizzleLines := 0
  drizzleNodes := 0
  drizzleFinds := 0
  drizzleLost := false
  slotList := []
  slotRegion := none

def Per.reset : Per where
  periodMin := 240
  evq := default
  anchorBase := 0x4A0000000000
  cfgIgn := false
  armed := false
  pfwDone := false
  armFail := false
  evtLost := false
  epoch := 0
  seq := 0
  ckptTime := 0
  ckptCnt := 0
  failCnt := 0
  adoptCnt := 0
  openMap := []
  opened := []
  opening := []
  openSkip := []
  committed := none
  ckpt := none
  waiting := []
  restore := none
  arming := none
  armBad := false
  armHeld := false
  adopt := none
  adoptWait := []
  anvil := none
  timerAt := 0
  pfCut := false

def Del.reset : Del where
  inPool := false
  poolId := 0
  group := none
  linksUse := 0
  ident := 0
  gstate := .none
  evq := default
  evtLost := false
  hbPeriod := 10
  hbTimeout := 100
  txnTimeout := 1000
  pck := 0
  proposal := 0
  oseq := 0
  hbAt := 0
  members := []
  links := []
  txn := none
  reports := []
  recon := none
  reconSkip := []
  reconAt := none
  prepared := none
  ckreq := false
  reconReq := false

def Flt.reset : Flt where
  banks := []

def Safe.reset : Safe where
  active := false
  cls := 0
  zeroised := false
  bank := 15
  src := 0
  time := 0
  drillEn := false
  drillCnt := 0
  resetCause := 4

def Dev.reset : Dev where
  mgt := Mgt.reset
  tap := Tap.reset
  fab := Fab.reset
  stl := Stl.reset
  rmp := Rmp.reset
  lan := Lan.reset
  frs := Frs.reset
  can := Can.reset
  med := Med.reset
  key := Key.reset
  qmg := Qmg.reset
  svc := Svc.reset
  per := Per.reset
  del := Del.reset
  drive := []
  raised := []
  free := 0
  seq := 0

/-- The block right after a power cycle: every domain but SAFE in reset, power-up at phase FUSE, every register at
the value of its Reset column (spec/00 R11, spec/17 R451). -/
def State.reset : State where
  pending := []
  dev := Dev.reset
  flt := Flt.reset
  safe := Safe.reset

end Machine
end Sys2Proof
end

