-- ==== Sys2Proof/Machine/Ops.lean ====
section
/-! DEFINITION. The named operations the meanings share: occurrences, output transfers, event records, host
transfers, media commands, credits. -/

namespace Sys2Proof
namespace Machine

/-! ### Small things -/

/-- A 32-bit value from (position, value) fields. -/
def pk (fs : List (Nat × Nat)) : Word32 := BitVec.ofNat 32 (fs.foldl (fun a f => a + f.2 * 2 ^ f.1) 0)

/-- The lowest index below `n` that a table does not list. -/
def Tab.unused {α : Type} (t : Tab α) (n : Nat) : Option Nat :=
  (List.range n).find? fun i => t.all fun p => p.1 ≠ i

/-- Indices of a table whose entries pass a test. -/
def Tab.which {α : Type} (t : Tab α) (f : α → Bool) : List Nat := (t.filter fun p => f p.2).map (·.1)

/-- Iterate a step of the machine over a list. -/
def forAll {α σ : Type} (xs : List α) (f : α → σ → σ) (s : σ) : σ := xs.foldl (fun s x => f x s) s

/-- Insert into a list kept rising, without repeats. -/
def insSorted (x : Nat) : List Nat → List Nat
  | [] => [x]
  | y :: r => if x < y then x :: y :: r else if x = y then y :: r else y :: insSorted x r

/-- Drop a number from a list. -/
def without (x : Nat) (l : List Nat) : List Nat := l.filter (· ≠ x)

/-- An enumeration's code. -/
def LaneSt.code : LaneSt → Nat
  | .off => 0 | .active => 1 | .standby => 2 | .auditor => 3 | .quarantined => 4 | .probation => 5
  | .retired => 6 | .disabled => 7
def ZoneSt.code : ZoneSt → Nat
  | .offline => 0 | .online => 1 | .quarantined => 2 | .formatting => 3 | .sanitizing => 4
def QSt.code : QSt → Nat
  | .none => 0 | .active => 1 | .stopping => 2 | .idle => 3 | .error => 4
def QTy.code : QTy → Nat
  | .none => 0 | .admin => 1 | .io => 2 | .event => 3
def RkSt.code : RkSt → Nat
  | .idle => 0 | .active => 1 | .done => 2
def Mode.code : Mode → Nat
  | .full => 0 | .mac => 1 | .cipher => 2
def DrbgSt.code : DrbgSt → Nat
  | .none => 0 | .testing => 1 | .instantiating => 2 | .ready => 3 | .error => 4
def EntSt.code : EntSt → Nat
  | .off => 0 | .startup => 1 | .ok => 2 | .failed => 3
def CanSt.code : CanSt → Nat
  | .invalid => 0 | .clean => 1 | .dirty => 2 | .unwritten => 3
def LinkSt.code : LinkSt → Nat
  | .down => 0 | .hello => 1 | .up => 2 | .noVersion => 3
def GState.code : GState → Nat
  | .none => 0 | .whole => 1 | .split => 2 | .reunited => 3
def Phase.code : Phase → Nat
  | .fuse => 0 | .sramInit => 1 | .selftest => 2 | .drbg => 3 | .done => 4
def evCode : EvSrc → Nat
  | .stl => 0 | .frs => 1 | .per => 2 | .svc => 3 | .flt => 4 | .del => 5

/-! ### Domains (spec/03 R82, R88) -/

def domCore : Nat := 9
def domFrx (p : Nat) : Nat := 10 + p
def domFtx (p : Nat) : Nat := 18 + p
def domMch (c : Nat) : Nat := 26 + c
def domHdma : Nat := 42
def domReg : Nat := 43
def domAnv : Nat := 44
def domEnt (n : Nat) : Nat := 45 + n
def domPel (n : Nat) : Nat := 53 + n
def domDbg : Nat := 57
def domSafe : Nat := 58
def domTref : Nat := 59

/-- The domains that the loss of one clock takes down with a domain: FRXn and FTXn go together (spec/15 R415). -/
def domGroup (dom : Nat) : List Nat :=
  if 10 ≤ dom ∧ dom < 18 then [dom, dom + 8] else if 18 ≤ dom ∧ dom < 26 then [dom, dom - 8] else [dom]

/-- The clock of a domain is lost (LOST of MGT_CLK_MEAS, spec/03 R98). -/
def Dev.clockLostAt (d : Dev) (dom : Nat) : Bool := (d.mgt.clkMeas.get dom).lost

/-- A domain is out of reset, and neither its clock nor that of the other side of its port is lost. -/
def Dev.up (d : Dev) (dom : Nat) : Bool := !d.mgt.domReset.getLsbD dom && !(domGroup dom).any d.clockLostAt

/-! ### Occurrences, outputs, time, ids -/

/-- A real occurrence of a source, registered by its bank at the end of the step (spec/15 R404). -/
def Dev.raise (d : Dev) (bank src : Nat) : Dev := { d with raised := d.raised ++ [⟨bank, src, false⟩] }

/-- Drive a transfer on an output port. -/
def Dev.emit (d : Dev) (t : Transfer) : Dev := { d with drive := d.drive ++ [t] }

/-- The 48-bit TREF count (spec/02 R81). -/
def Dev.stamp (d : Dev) : Nat := d.mgt.tref % 2 ^ 48

/-- The next id, place or age. -/
def Dev.bump (d : Dev) : Dev := { d with seq := d.seq + 1 }

/-- Whether `us` microseconds have passed since `t` (spec/02 R81: all timeouts run on TREF). -/
def Dev.passed (d : Dev) (t us : Nat) : Bool := t + us * Config.trefPerUs ≤ d.mgt.tref

/-! ### Queues as tables -/

def Dev.queue (d : Dev) (q : Nat) : Queue := d.qmg.queues.get q
def Dev.setQueue (d : Dev) (q : Nat) (x : Queue) : Dev := { d with qmg.queues := d.qmg.queues.put q x }
def Dev.updQueue (d : Dev) (q : Nat) (f : Queue → Queue) : Dev := d.setQueue q (f (d.queue q))

/-- Number of entries of a ring (spec/12 R318). -/
def Queue.size (q : Queue) : Nat := 2 ^ q.log2
def posI (p : QPos) : Nat := p.toNat % 32768
def posW (p : QPos) : Nat := p.toNat / 32768
/-- spec/12 R318, adv. -/
def adv (n : Nat) (p : QPos) : QPos :=
  if posI p + 1 = n then BitVec.ofNat 16 ((1 - posW p) * 32768) else BitVec.ofNat 16 (posW p * 32768 + posI p + 1)
/-- spec/12 R318, occ. -/
def occ (n : Nat) (a b : QPos) : Int :=
  if posW a = posW b then (posI b : Int) - posI a else (n : Int) - posI a + posI b
/-- Advance `k` entries. -/
def advBy (n : Nat) : Nat → QPos → QPos
  | 0, p => p
  | k + 1, p => advBy n k (adv n p)
/-- Address of an entry of a ring. -/
def Queue.at (q : Queue) (p : QPos) : Nat := q.base + 64 * posI p

/-! ### Event records (spec/12 R336, R337, R491; spec/13 R378, R379) -/

def Dev.evq (d : Dev) : EvSrc → Evq
  | .stl => d.stl.learnEvq
  | .frs => d.frs.evq
  | .per => d.per.evq
  | .svc => d.svc.evq
  | .flt => d.qmg.fltEvq
  | .del => d.del.evq

/-- EVT_LOST of the source register's owner; STL has none. -/
def Dev.markLost (d : Dev) : EvSrc → Dev
  | .stl => d
  | .frs => { d with frs.evtLost := true }
  | .per => { d with per.evtLost := true }
  | .svc => { d with svc.evtLost := true }
  | .flt => { d with qmg.fltLost := true }
  | .del => { d with del.evtLost := true }

/-- An event queue that can take a record now. -/
def Dev.canTake (d : Dev) (e : Evq) : Bool :=
  let q := d.queue e.qid.toNat
  q.st == .active && q.ty == .event && occ q.size q.tail q.head < q.size

/-- Which records of a source register share a limit, and the limit (spec/12 R491). -/
def recGroup : EvSrc → RecKind → Nat × Option Nat
  | .stl, .evicted => (1, some 64)
  | .stl, _ => (0, none)
  | .frs, .zone _ => (0, none)
  | .frs, .node => (1, some 64)
  | .frs, _ => (2, some 64)
  | .per, _ => (0, some 16)
  | .svc, .scrub => (1, some 64)
  | .svc, _ => (0, some 4096)
  | .flt, _ => (0, some 64)
  | .del, _ => (0, some 16)

/-- Records that merge with an earlier record that still waits, and how the payload of the two is made. -/
def mergeRec (old new : Rec) : Option Rec :=
  match old.kind, new.kind with
  | .join s k, .join s' k' => if s = s' ∧ k = k' then some { old with payload := new.payload } else none
  | .zone z, .zone z' =>
    if z = z' then some { old with payload := old.payload.take 3 ++ new.payload.drop 3 } else none
  | _, _ => none

/-- Replace the first record that merges. -/
def mergeInto (new : Rec) : List Rec → Option (List Rec)
  | [] => none
  | r :: rs =>
    match mergeRec r new with
    | some m => some (m :: rs)
    | none => (mergeInto new rs).map (r :: ·)

/-- Post an event record: held until EVENT_RECORD_WRITE writes it, merged or dropped as spec/12 R491 says. -/
def Dev.post (d : Dev) (src : EvSrc) (r : Rec) : Dev :=
  if !(d.evq src).valid then d else
    let h := d.qmg.held.get (evCode src)
    match mergeInto r h with
    | some h' => { d with qmg.held := d.qmg.held.put (evCode src) h' }
    | none =>
      let g := recGroup src r.kind
      let count := (h.filter fun x => decide ((recGroup src x.kind).1 = g.1)).length
      let full := (match g.2 with | some n => decide (n ≤ count) | none => false)
      let twice := (match r.kind with | .fault b => h.any (fun x => x.kind == .fault b) | _ => false)
      if (full || twice) && !d.canTake (d.evq src) then d.markLost src
      else { d with qmg.held := d.qmg.held.put (evCode src) (h ++ [r]) }

/-- Drop held records of a source register. -/
def Dev.unpost (d : Dev) (src : EvSrc) (f : RecKind → Bool) : Dev :=
  { d with qmg.held := d.qmg.held.put (evCode src) ((d.qmg.held.get (evCode src)).filter fun r => !f r.kind) }

/-- A 32-byte payload from little-endian fields given as (offset in bytes 8-39, width, value). -/
def payload (fs : List (Nat × Nat × Nat)) : Bytes :=
  leBytes 32 (fs.foldl (fun a f => a + (f.2.2 % 2 ^ (8 * f.2.1)) * 2 ^ (8 * (f.1 - 8))) 0)

/-- An event of now. -/
def Dev.event (d : Dev) (src : EvSrc) (typ source : Nat) (kind : RecKind) (fs : List (Nat × Nat × Nat)) : Dev :=
  d.post src { typ := typ, source := source, payload := payload fs, time := d.stamp, kind := kind }

/-! ### Host DMA (spec/02 R56-R62) -/

def HWr.msg (w : HWr) : Bool := match w.why with | .message _ => true | _ => false

/-- The transfer of a write: data and byte enables within its 32-byte group. -/
def HWr.transfer (w : HWr) (tag : Nat) : Transfer :=
  let o := w.addr % 32
  .hdmaWr (w.addr / 32) (BitVec.ofNat 256 (leNat w.bytes * 2 ^ (8 * o)))
    (BitVec.ofNat 32 ((2 ^ w.bytes.length - 1) * 2 ^ o)) tag (if w.msg then 0 else w.qid) w.msg

/-- 32-byte units a read covers. -/
def HRd.units (r : HRd) : Nat := (r.addr % 32 + r.len + 31) / 32
def HRd.transfer (r : HRd) (tag : Nat) : Transfer := .hdmaRd (r.addr / 32) (r.units - 1) tag

/-- The write of bytes 48-63 of a record is issued: P advances (spec/12 R336 step 3). -/
def Dev.recordIssued (d : Dev) : WrWhy → Dev
  | .recordHigh q _ => d.updQueue q fun x => { x with head := adv x.size x.head, seq := x.seq + 1 }
  | _ => d

/-- The TIMESTAMP of a completion is the time of its issue (spec/13 R355, spec/12 R331). -/
def Dev.stampWr (d : Dev) (w : HWr) : HWr :=
  match w.why with
  | .completion q _ _ =>
    if (d.queue q).fmt = 2 then { w with bytes := w.bytes.take 8 ++ leBytes 6 d.stamp ++ w.bytes.drop 14 } else w
  | _ => w

/-- Drive a write under a tag. -/
def Dev.driveWr (d : Dev) (t : Nat) (w : HWr) : Dev :=
  let w := d.stampWr w
  (({ d with qmg.wrCredit := d.qmg.wrCredit - 1
             qmg.wrOut := d.qmg.wrOut.put t (some { w with issued := d.seq }) }.bump).emit (w.transfer t)).recordIssued w.why

/-- Issue waiting writes in order while a credit and a tag are free: the lowest free tag (spec/02 R57). -/
def pumpWr (ws : List HWr) (d : Dev) : Dev :=
  match ws with
  | [] => { d with qmg.wrWait := [] }
  | w :: r =>
    match Tab.unused d.qmg.wrOut 256 with
    | some t =>
      if d.qmg.wrCredit = 0 then { d with qmg.wrWait := w :: r }
      else pumpWr r (d.driveWr t w)
    | none => { d with qmg.wrWait := w :: r }

def pumpRd (rs : List HRd) (d : Dev) : Dev :=
  match rs with
  | [] => { d with qmg.rdWait := [] }
  | w :: r =>
    match Tab.unused d.qmg.rdOut 256 with
    | some t =>
      if d.qmg.rdCredit = 0 then { d with qmg.rdWait := w :: r }
      else pumpRd r ({ d with qmg.rdCredit := d.qmg.rdCredit - 1,
                              qmg.rdOut := d.qmg.rdOut.put t (some w) }.emit (w.transfer t))
    | none => { d with qmg.rdWait := w :: r }

/-- Issue what waits, while the HDMA domain is out of reset with its clock running (spec/03 R94). -/
def Dev.pumpHdma (d : Dev) : Dev :=
  if d.up domHdma then
    let e := pumpWr d.qmg.wrWait d
    pumpRd e.qmg.rdWait e
  else d

/-- A write would be issued now: the HDMA domain runs, nothing waits before it, and a credit and a tag are free. -/
def Dev.wrRoom (d : Dev) : Bool :=
  d.up domHdma && d.qmg.wrWait.isEmpty && decide (0 < d.qmg.wrCredit) && (Tab.unused d.qmg.wrOut 256).isSome

/-- Queue a write and issue what can be issued. -/
def Dev.hostWrite (d : Dev) (addr : Nat) (bytes : Bytes) (qid : Nat) (why : WrWhy) : Dev :=
  ({ d with qmg.wrWait := d.qmg.wrWait ++ [(⟨addr, bytes, qid, why, d.seq, 0⟩ : HWr)] }.bump).pumpHdma

/-- Queue a read of at most 512 bytes. -/
def Dev.hostRead (d : Dev) (addr len : Nat) (why : RdWhy) : Dev :=
  { d with qmg.rdWait := d.qmg.rdWait ++ [(⟨addr, len, why, [], false⟩ : HRd)] }.pumpHdma

/-- Cut a buffer write at 32-byte boundaries: at most `fuel` pieces. -/
def splitWrite : Nat → Nat → Bytes → List (Nat × Bytes)
  | 0, _, _ => []
  | fuel + 1, a, b =>
    if b = [] then [] else
      let n := 32 - a % 32
      (a, b.take n) :: splitWrite fuel (a + n) (b.drop n)

/-! ### Media channels (spec/02 R48-R55) -/

/-- spec/02 R49: the channel of a media line address (address / 64). -/
def channelOf (line : Nat) : Nat :=
  let f (k : Nat) := (line / 2 ^ k) % 16
  ((f 0).xor (f 4)).xor ((f 8).xor (f 12))

def Dev.chan (d : Dev) (n : Nat) : Channel := d.med.ch.get n
def Dev.setChan (d : Dev) (n : Nat) (c : Channel) : Dev := { d with med.ch := d.med.ch.put n c }
def Dev.retired (d : Dev) (n : Nat) : Bool := (d.chan n).retired

def MCmd.isWrite (m : MCmd) : Bool := m.op % 2 = 1

/-- The lowest free tag of a channel. -/
def Channel.freeTag (c : Channel) : Option Nat := Tab.unused c.out 1024

/-- Issue one command under a tag; a write goes with its beat (spec/02 R50). -/
def Dev.issueMedia (d : Dev) (n t : Nat) (m : MCmd) : Dev :=
  let c := d.chan n
  let e := (d.setChan n { c with mcmd := c.mcmd - 1, mwd := if m.isWrite then c.mwd - 1 else c.mwd,
                                 out := c.out.put t (some m) }).emit (.mcmd n m.op t m.addr)
  if m.isWrite then e.emit (.mwd n m.beat) else e

/-- The tag under which a command may go out now: one is free, and the credits it takes are there. -/
def Channel.mayIssue (c : Channel) (m : MCmd) : Option Nat :=
  if c.mcmd = 0 || (m.isWrite && c.mwd = 0) then none else c.freeTag

/-- Issue waiting commands in order while credits and tags are free. -/
def pumpChan (ms : List MCmd) (n : Nat) (d : Dev) : Dev :=
  match ms with
  | [] => d.setChan n { d.chan n with waiting := [] }
  | m :: r =>
    match (d.chan n).mayIssue m with
    | some t => pumpChan r n (d.issueMedia n t m)
    | none => d.setChan n { d.chan n with waiting := m :: r }

def Dev.pumpMedia (d : Dev) (n : Nat) : Dev := pumpChan (d.chan n).waiting n d

/-- Hand a command to the channel of its address, which the caller knows is not retired. -/
def Dev.media (d : Dev) (op addr : Nat) (beat : Beat) (why : MedWhy) : Dev :=
  let n := channelOf addr
  let c := d.chan n
  (d.setChan n { c with waiting := c.waiting ++ [⟨op, addr, beat, why⟩] }).pumpMedia n

/-- Bring in a returned media command: it is outstanding no more. -/
def Dev.mediaDone (d : Dev) (n tag : Nat) : Dev :=
  let c := d.chan n
  d.setChan n { c with out := c.out.put tag none }

/-! ### Credits to the fabric (spec/02 R32, R41; spec/04 R123) -/

def Dev.port (d : Dev) (p : Nat) : Port := d.fab.ports.get p
def Dev.setPort (d : Dev) (p : Nat) (x : Port) : Dev := { d with fab.ports := d.fab.ports.put p x }

/-- Credits may go out on a port: READY, enabled, no PF_WARN (spec/04 R121, R123). -/
def Dev.portOpen (d : Dev) (p : Nat) : Bool := d.mgt.ready && d.fab.portEn.getLsbD p && !d.mgt.pfWarn

/-- Return freed credits, or keep them back while the port is disabled or stopped; REQ credits also while in-flight
capacity is full (spec/01 R18). -/
def Dev.giveCredits (d : Dev) (p req wdat wlpc rlpc : Nat) : Dev :=
  let x := d.port p
  let x := { x with owedReq := x.owedReq + req, owedWdat := x.owedWdat + wdat,
                    owedWlpc := x.owedWlpc + wlpc, owedRlpc := x.owedRlpc + rlpc }
  if !d.portOpen p then d.setPort p x else
    let rx := !x.rxStop && d.up (domFrx p)
    let tx := !x.txStop && d.up (domFtx p)
    let q := if rx && !d.fab.holding then x.owedReq else 0
    let w := if rx then x.owedWdat else 0
    let l := if rx then x.owedWlpc else 0
    let r := if tx then x.owedRlpc else 0
    let x' := { x with req := x.req + q, wdat := x.wdat + w, wlpc := x.wlpc + l, rlpc := x.rlpc + r,
                       owedReq := x.owedReq - q, owedWdat := x.owedWdat - w,
                       owedWlpc := x.owedWlpc - l, owedRlpc := x.owedRlpc - r }
    let e := d.setPort p x'
    if q + w + l + r = 0 then e else e.emit (.credits p q w l r)

end Machine
end Sys2Proof
end

