-- ==== Sys2Proof/Machine/Link.lean ====
section
/-! DEFINITION. Frames of the epoch links: their words, their check, sending them (spec/16 R436-R440). -/

namespace Sys2Proof
namespace Machine

/-- Frame type codes (spec/16 R438). -/
def tHello : Nat := 0x01
def tHb : Nat := 0x02
def tMember : Nat := 0x03
def tSafe : Nat := 0x04
def tAck : Nat := 0x05
def tPrepare : Nat := 0x08
def tHeld : Nat := 0x09
def tCut : Nat := 0x0A
def tDone : Nat := 0x0B
def tAbort : Nat := 0x0C
def tCkreq : Nat := 0x0D
def tReport : Nat := 0x10
def tRetire : Nat := 0x11
def tRecon : Nat := 0x12
def tReconDone : Nat := 0x13
def frameTypes : List Nat :=
  [tHello, tHb, tMember, tSafe, tAck, tPrepare, tHeld, tCut, tDone, tAbort, tCkreq, tReport, tRetire, tRecon, tReconDone]

/-- Words 0 to LEN + 1 of a frame. -/
def frameBody (typ : Nat) (f : Frame) : List Word32 :=
  pk [(27, typ), (26, flag f.bcast), (20, f.origin.toNat), (14, f.dest.toNat), (8, f.ttl.toNat), (0, f.payload.length)]
    :: f.oseq :: f.payload

/-- The frame check over words, each as 4 bytes, least significant first (spec/16 R436, R439). The initial value 0
of the CRC-16 of V.41 is PRESUMED (log 5). -/
def frameCheck (ver : Nat) (ws : List Word32) : Word32 :=
  let b := ws.flatMap fun w => leBytes 4 w.toNat
  if ver = 1 then (crc16 0 b).setWidth 32 else crc32 b

def maxLen (ver : Nat) : Nat := if ver = 1 then 4 else 8

def frameWords (ver typ : Nat) (f : Frame) : List Word32 :=
  let b := frameBody typ f
  b ++ [frameCheck (if typ = tHello then 2 else ver) b]

def Dev.link (d : Dev) (n : Nat) : Link := d.del.links.get n
def Dev.setLink (d : Dev) (n : Nat) (l : Link) : Dev := { d with del.links := d.del.links.put n l }

/-- PELn_LINK_UP is 1 and link n's domain is out of reset with its clock (spec/02 R79, spec/03 R94, spec/15 R415). -/
def Dev.linkUsable (d : Dev) (n : Nat) : Bool := (d.link n).up && d.up (domPel n)

/-- Transmit a frame on a link; a version-3 link keeps it until it is acknowledged (spec/16 R439). -/
def Dev.transmit (d : Dev) (n typ : Nat) (f : Frame) : Dev :=
  let l := d.link n
  if !d.linkUsable n then d else
    let e := d.emit (.frame n (frameWords l.version typ f))
    if l.version = 3 && typ != tHb && typ != tSafe && typ != tHello && typ != tAck
    then e.setLink n { l with unacked := l.unacked ++ [⟨typ, f, d.mgt.tref, 0⟩] } else e

/-- Transmit on every link that is UP, but one. -/
def Dev.flood (d : Dev) (but : Option Nat) (typ : Nat) (f : Frame) : Dev :=
  forAll (List.range 4) (fun n e =>
    if (e.link n).st == .up && decide (but ≠ some n) then e.transmit n typ f else e) d

/-- The engine's next frame (spec/16 R436, R437: OSEQ one more for each, TTL 63, 0 for link frames). -/
def Dev.newFrame (d : Dev) (bcast : Bool) (dest : BitVec 6) (ttl : BitVec 6) (pl : List Word32) : Frame :=
  { bcast := bcast, origin := d.del.poolId, dest := dest, ttl := ttl, oseq := d.del.oseq, payload := pl }

def Dev.nextOseq (d : Dev) : Dev := { d with del.oseq := d.del.oseq + 1 }

/-- Originate a broadcast. -/
def Dev.broadcast (d : Dev) (typ : Nat) (pl : List Word32) : Dev :=
  if !d.del.inPool then d else (d.flood none typ (d.newFrame true 0 63 pl)).nextOseq

/-- Originate a frame to one engine. -/
def Dev.sendTo (d : Dev) (dest : BitVec 6) (typ : Nat) (pl : List Word32) : Dev :=
  if !d.del.inPool then d else (d.flood none typ (d.newFrame false dest 63 pl)).nextOseq

/-- Originate a link frame. -/
def Dev.sendLink (d : Dev) (n typ : Nat) (pl : List Word32) : Dev :=
  (d.transmit n typ (d.newFrame false 0 0 pl)).nextOseq

/-- The SAFE frame that entering Squall starts on every link that is up (spec/15 R423). -/
def Dev.sendSafe (d : Dev) : Dev := d.broadcast tSafe []

/-- HELLO on a link (spec/16 R438, R440). -/
def Dev.sendHello (d : Dev) (n : Nat) : Dev :=
  d.sendLink n tHello
    [pk [(0, 7), (3, flag (d.link n).heard), (8, d.del.poolId.toNat)],
     d.del.ident.extractLsb' 0 32, d.del.ident.extractLsb' 32 32]

end Machine
end Sys2Proof
end

