-- ==== Sys2Proof/Machine/Flags.lean ====
section
/-! DEFINITION. The fault banks: sources and classes, what registering an occurrence does, and entering Squall
(spec/15 R404-R422). -/

namespace Sys2Proof
namespace Machine

/-! ### Source tables -/

def bFab : Nat := 0
def bStl : Nat := 1
def bRmp : Nat := 2
def bLan : Nat := 3
def bFrs : Nat := 4
def bCan : Nat := 5
def bMed : Nat := 6
def bKey : Nat := 7
def bQmg : Nat := 8
def bSvc : Nat := 9
def bPer : Nat := 10
def bFlt : Nat := 11
def bDel : Nat := 12
def bMgt : Nat := 13

/-- A read of the Zenith store or the ceiling store, with what its check bits show (spec/08 R230). -/
def Dev.zenithRead (d : Dev) (corrected : Bool) : Dev := if corrected then d.raise bFrs 2 else d

/-- What the check bits show of the DRBG working state, true for uncorrectable; nothing else follows (spec/11 R285, R313,
log 123). -/
def Dev.drbgRead (d : Dev) : Option Bool → Dev
  | none => d
  | some u => d.raise bKey (if u then 1 else 0)

/-- Number of sources of a bank (spec/15 R427). -/
def sources : Nat → Nat
  | 0 => 524 | 1 => 5 | 2 => 4 | 3 => 149 | 4 => 6 | 5 => 106 | 6 => 112 | 7 => 24 | 8 => 11 | 9 => 7
  | 10 => 8 | 11 => 16 | 12 => 117 | 13 => 63 | _ => 0

/-- The (first source above a run, class) runs of a bank, rising (spec/15 R413, R414, R415; spec/12 R349, spec/10
R281): 0 notification, 1 CE, 2 UC, 3 FT. -/
def classRuns : Nat → List (Nat × Nat)
  | 0 => [(520, 2), (521, 1), (523, 3), (524, 0)]
  | 1 => [(1, 1), (3, 2), (4, 3), (5, 0)]
  | 2 => [(1, 1), (2, 2), (3, 3), (4, 0)]
  | 3 => [(72, 1), (109, 2), (112, 3), (149, 0)]
  | 4 => [(1, 1), (2, 2), (3, 1), (5, 3), (6, 0)]
  | 5 => [(1, 1), (2, 2), (3, 1), (4, 3), (36, 1), (68, 2), (100, 3), (103, 2), (106, 0)]
  | 6 => [(16, 1), (96, 2), (112, 0)]
  | 7 => [(1, 1), (2, 2), (3, 1), (13, 2), (15, 3), (24, 0)]
  | 8 => [(1, 1), (5, 2), (8, 1), (9, 2), (11, 0)]
  | 9 => [(1, 2), (3, 1), (4, 3), (7, 0)]
  | 10 => [(3, 2), (4, 1), (5, 2), (8, 0)]
  | 11 => [(15, 3), (16, 0)]
  | 12 => [(4, 1), (32, 2), (33, 3), (117, 0)]
  | 13 => [(9, 2), (10, 3), (58, 2), (60, 3), (61, 1), (63, 0)]
  | _ => []

def classIn : List (Nat × Nat) → Nat → Nat
  | [], _ => 0
  | (hi, c) :: r, k => if k < hi then c else classIn r k

/-- The reset class of a source. -/
def baseClass (b k : Nat) : Nat := classIn (classRuns b) k

/-- The class a source has now: FT where the driver escalated it (spec/15 R409). -/
def Bank.cls (x : Bank) (b k : Nat) : Nat := if k ∈ x.esc then 3 else baseClass b k

/-- Masked: mask bits of FT sources read 0 (spec/15 R408). -/
def Bank.masked (x : Bank) (b k : Nat) : Bool := decide (k ∈ x.mask) && x.cls b k != 3

/-! ### Conditions (spec/15 R407) -/

/-- Sources of a bank that are conditions and hold now. -/
def Dev.holding (d : Dev) (b : Nat) : List Nat :=
  match b with
  | 3 => (Tab.which d.lan.lanes fun l => l.st == .retired).map (72 + ·)
  | 5 => ((List.range 32).filter fun k =>
      (List.range 16).any fun w => (d.can.ways.get (16 * k + w)).disabled &&
        decide (4 < ((List.range 16).filter fun v => (d.can.ways.get (16 * k + v)).disabled).length)).map (36 + ·)
  | 6 => (Tab.which d.med.ch fun c => c.retired).map (64 + ·)
  | 7 => (Tab.which d.key.ent fun e => e.st == .failed).map (4 + ·) ++ (if d.key.drbg.st == .error then [12] else [])
  | 12 => (if d.del.inPool then
        ((List.range 4).filter fun n => d.del.linksUse.getLsbD n && (!d.linkUsable n || (d.link n).silent)).map (4 + ·)
      else []) ++
      (match d.del.group with
       | some g => if d.del.gstate == .split then [12 + g.toNat] else []
       | none => [])
  | 13 => (Tab.which d.mgt.clkMeas fun m => m.lost).map fun k => if k = 59 then 58 else k
  | _ => []

/-! ### Registering -/

/-- An occurrence of a source in one cycle of its bank. -/
structure Occ where
  src : Nat
  raw : Bool
  forced : Bool
  deriving DecidableEq, Repr

/-- Occurrences of one source in one cycle are one (spec/15 R418), lowest source first. -/
def mergeOcc (o : Occ) : List Occ → List Occ
  | [] => [o]
  | x :: r =>
    if o.src < x.src then o :: x :: r
    else if o.src = x.src then { x with raw := x.raw || o.raw, forced := x.forced || o.forced } :: r
    else x :: mergeOcc o r

/-- What registering did: the bank, items to count, a record latched, the first real FT source, forced FT sources. -/
structure Reg where
  bank : Bank
  items : Nat
  latched : Bool
  real : Option Nat
  drills : List Nat

/-- A bank registers the occurrences of one cycle (spec/15 R405, R407, R408, R410, R411, R416-R418). `holds` are its
conditions that hold now. -/
def Bank.register (x : Bank) (b : Nat) (now : Nat) (occs : List Occ) (holds : List Nat) (drill : Bool) : Reg :=
  let isCond := fun k => decide (k ∈ holds) || decide (k ∈ x.live ∧ baseClass b k ≠ 0)
  let rises := holds.filter fun k => k ∉ x.live
  let os := (rises.map fun k => (⟨k, true, false⟩ : Occ)).foldr mergeOcc (occs.foldr mergeOcc [])
  -- a real occurrence of a condition counts on its rise only
  let os := os.filter fun o => !(isCond o.src && !decide (o.src ∈ rises) && !o.forced)
  let faults := os.filter fun o => x.cls b o.src != 0 && !x.masked b o.src
  let real := (os.find? fun o => x.cls b o.src == 3 && o.raw).map (·.src)
  let forcedFt := (os.filter fun o => x.cls b o.src == 3 && !o.raw).map (·.src)
  let notes := (os.filter fun o => x.cls b o.src == 0).map (·.src)
  let risen := notes.filter fun k => k ∉ x.live
  let live := (notes ++ holds).foldr insSorted (x.live.filter fun k => baseClass b k = 0)
  let latch := x.first.isNone && !faults.isEmpty
  let first := if latch then faults.head?.map fun o => (⟨o.raw, o.forced, x.cls b o.src, o.src, BitVec.ofNat 48 now⟩ : FRec)
               else x.first
  let ovf := x.ovf || (if x.first.isNone then decide (1 < faults.length) else !faults.isEmpty)
  { bank := { x with first := first, ovf := ovf, live := live }
    items := (if latch then 1 else 0) + (risen.filter fun k => !x.masked b k).length
    latched := latch
    real := if drill then real else match real with | some k => some k | none => forcedFt.head?
    drills := if drill then forcedFt else [] }

/-- FLT_FIRST_HI of a bank (spec/15 R428). -/
def Bank.firstHi (x : Bank) : Word32 :=
  match x.first with
  | none => 0
  | some r => pk [(31, 1), (30, flag r.raw), (29, flag r.forced), (27, r.cls), (16, r.src), (0, r.time.toNat / 2 ^ 32)]
def Bank.firstLo (x : Bank) : Word32 :=
  match x.first with
  | none => 0
  | some r => BitVec.ofNat 32 r.time.toNat

/-- Count items on a vector (spec/12 R342). -/
def Dev.countItem (d : Dev) (v n : Nat) : Dev :=
  if n = 0 then d else
    let x := d.qmg.vecs.get v
    { d with qmg.vecs := d.qmg.vecs.put v { x with n := x.n + n, t0 := if x.n = 0 then d.mgt.tref else x.t0 } }

/-- Lifecycle of the fuses: 0 BLANK, 1 PROVISIONED, 3 DEPLOYED (spec/02 R77). -/
def Dev.lifecycle (d : Dev) : Nat :=
  let v := bits (d.mgt.fuse.getD 8 0) 2 1
  if v = 2 then 3 else v

/-- Enter the safe state, from the first cause only; `fuse` for a fuse-load failure (spec/15 R422, spec/02 R73). -/
def enterSquall (b k : Nat) (fuse : Bool) (s : State) : State :=
  if s.safe.active then s else
    { s with
      dev := s.dev.sendSafe
      safe := { s.safe with active := true
                            cls := if b = bFlt then 2 else if fuse then 3 else 1
                            bank := if fuse then 15 else b
                            src := k
                            time := BitVec.ofNat 48 s.dev.mgt.tref } }

/-- FLT_DRILL.EN as it acts: 0 in DEPLOYED (spec/15 R417). -/
def State.drillOn (s : State) : Bool := s.safe.drillEn && s.dev.lifecycle != 3

/-- One bank registers what has reached it. The banks but FLT are in CORE and wait while CORE is in reset
(spec/15 R404). -/
def settleBank (b : Nat) (s : State) : State :=
  if b != bFlt && s.dev.mgt.domReset.getLsbD domCore then
    -- a fuse-load failure and the loss of TREF's clock reach Squall from SAFE directly
    if b != bMgt then s
    else if s.dev.raised.any fun r => r.bank == bMgt && r.src == 59 && !r.forced then enterSquall bMgt 59 true s
    else if s.dev.clockLostAt domTref then enterSquall bMgt 58 false s
    else s
  else
    let mine := s.dev.raised.filter fun r => r.bank = b
    let occs := mine.map fun r => (⟨r.src, !r.forced, r.forced⟩ : Occ)
    let x := s.flt.banks.get b
    let r := x.register b s.dev.stamp occs (s.dev.holding b) s.drillOn
    let d := { s.dev with raised := s.dev.raised.filter fun r => r.bank ≠ b }
    let d := if r.bank.vecEn then d.countItem r.bank.vec.toNat r.items else d
    let d := if r.latched then
        d.post .flt { typ := 0x0042, source := b, kind := .fault b, time := d.stamp,
                      payload := payload [(8, 4, r.bank.firstLo.toNat), (12, 4, r.bank.firstHi.toNat), (16, 1, flag r.bank.ovf)] }
      else d
    let s1 := { s with dev := d, flt.banks := s.flt.banks.put b r.bank }
    match r.real with
    | some k => enterSquall b k (b == bMgt && k == 59 && mine.any fun r => r.src == 59 && !r.forced) s1
    | none =>
      if r.drills = [] || s1.safe.active then s1
      else { s1 with safe.drillCnt := min 255 (s1.safe.drillCnt + r.drills.length)
                     dev := s1.dev.raise bFlt 15 }

/-- Every bank registers what the step raised; the FLT bank last, for the drills of the others. -/
def settle (s : State) : State :=
  forAll [0, 1, 2, 3, 4, 5, 6, 7, 8, 9, 10, 12, 13, 11, 11] settleBank s

/-! ### The frame of every meaning -/

/-- A command's effect on the block: the transfers of the step before are gone, and what the step raised is
registered at its end. -/
def State.act (s : State) (f : Dev → Dev) : Host.Outcome State Fault Refusal :=
  .next (settle { s with dev := f { s.dev with drive := [] } })

/-- An effect that needs the engine in service: READY and not in the safe state (spec/17 R452, spec/15 R423). -/
def State.serve (s : State) (f : Dev → Dev) : Host.Outcome State Fault Refusal :=
  s.act fun d => if s.safe.active || !d.mgt.ready then d else f d

/-- A REG write to a register of CORE: no response without the REG domain, an error while CORE is down or before
READY, no effect in the safe state (spec/02 R64, spec/17 R453, spec/15 R423). -/
def State.core (s : State) (f : Dev → Dev) : Host.Outcome State Fault Refusal :=
  s.act fun d => if !d.up domReg then d else
    if !d.up domCore || !d.mgt.ready then d.emit (.regRsp 0 true) else
    (if s.safe.active then d else f d).emit (.regRsp 0 false)

end Machine
end Sys2Proof
end

