-- ==== Sys2Proof/Machine/Tree.lean ====
section
/-! DEFINITION. Counters, nodes, the Canopy and the ladder fetch: spec/08 and spec/09. -/

namespace Sys2Proof
namespace Machine

/-! ### Counter values (spec/08 R203, R204) -/

def ctrKind (v : Ctr) : Nat := v.toNat / 2 ^ 48
def isCount (v : Ctr) : Bool := ctrKind v ≤ 0xFD
def isZeroMark (v : Ctr) : Bool := ctrKind v = 0xFE
def isPoison (v : Ctr) : Bool := ctrKind v = 0xFF
/-- Zero: the count 0 or a zero mark. -/
def isZero (v : Ctr) : Bool := decide (v = 0) || isZeroMark v
def resume (v : Ctr) : Nat := v.toNat % 2 ^ 48

/-- next(v); for a poison mark the value a whole-line write clears it with (spec/08 R226). -/
def nextCtr (v : Ctr) : Nat := if isCount v then v.toNat + 1 else (resume v + 1) * 256

/-- mark(kind, v). -/
def mark (poison : Bool) (v : Ctr) : Ctr :=
  let r := if isCount v then v.toNat / 256 else resume v
  BitVec.ofNat 56 ((if poison then 0xFF else 0xFE) * 2 ^ 48 + r)

/-- The second test of spec/08 R205 on one ancestor counter. -/
def ancestorSpent (v : Ctr) : Bool :=
  (isCount v && decide (Config.ancestorLimit ≤ v.toNat)) || (isZeroMark v && decide (Config.ancestorLimit ≤ nextCtr v))

/-! ### Shape and placement (spec/08 R201, R210) -/

/-- Zone and line index of a line number. -/
def zoneOf (line : LineNo) : Nat := line.toNat / 2 ^ 27
def indexOf (line : LineNo) : Nat := line.toNat % 2 ^ 27

/-- Node of level `l` above line index `n` of zone `z`. -/
def nodeOf (z n l : Nat) : NodeId := ⟨z, l, n / 2 ^ (3 * l + 3)⟩
/-- Path slot at level `l` (at 9, the root, there is none). -/
def pathSlot (n l : Nat) : Nat := n / 2 ^ (3 * l) % 8

/-- Whether a node lies in the subtree of `x`, `x` itself included. -/
def under (x y : NodeId) : Bool :=
  decide (x.zone = y.zone ∧ y.level ≤ x.level ∧ y.index / 2 ^ (3 * (x.level - y.level)) = x.index)

def offLevel : Nat → Nat
  | 0 => 0 | 1 => 0x40000000 | 2 => 0x48000000 | 3 => 0x49000000 | 4 => 0x49200000 | 5 => 0x49240000
  | 6 => 0x49248000 | 7 => 0x49249000 | _ => 0x49249200

/-- The node offset o of spec/08 R208. -/
def nodeOffset (x : NodeId) : Nat := offLevel x.level / 64 + x.index
/-- Media line address of a node. -/
def Dev.nodeAddr (d : Dev) (x : NodeId) : Nat := d.frs.metaBase / 64 + x.zone * (0x50000000 / 64) + nodeOffset x

/-- The node at a media line address, of the configured zones (spec/08 R210, spec/09 R247). -/
def Dev.nodeAt (d : Dev) (a : Nat) : Option NodeId :=
  let b := d.frs.metaBase / 64
  if a < b then none else
    let z := (a - b) / (0x50000000 / 64)
    let o := (a - b) % (0x50000000 / 64)
    if d.frs.zoneLimit ≤ z then none else
      ((List.range 9).find? fun l => decide (offLevel l / 64 ≤ o ∧ o < offLevel l / 64 + 8 ^ (8 - l))).map
        fun l => ⟨z, l, o - offLevel l / 64⟩

/-! ### Nodes as bytes and their MAC (spec/08 R202, R208) -/

def Node.get (x : Node) (s : Nat) : Ctr := x.ctr.getD s 0
def Node.counterBytes (x : Node) : Bytes := (List.range 8).flatMap fun s => leBytes 7 (x.get s).toNat
def Node.line (x : Node) : Line := bytesLine (x.counterBytes ++ beBytes 8 x.mac.toNat)
def lineNode (l : Line) : Node where
  ctr := (List.range 8).map fun s => BitVec.ofNat 56 (field (lineBytes l) (7 * s) 7)
  mac := BitVec.ofNat 64 (beNat (slice (lineBytes l) 56 8))
/-- A metadata beat: bytes 64-71 are 0 (spec/02 R50). -/
def metaBeat (l : Line) : Beat := ⟨l, 0, 0⟩

def nodeMac (k : BitVec 256) (x : NodeId) (ctr : List Ctr) (parent : Ctr) : BitVec 64 :=
  let iv := 2 * 2 ^ 94 + x.zone * 2 ^ 81 + nodeOffset x * 2 ^ 56 + parent.toNat
  (gcmTag k (beBytes 12 iv) (Node.counterBytes ⟨ctr, 0⟩) []).extractLsb' 64 64

/-- The eight counters of a node synthesised below a zero counter (spec/08 R221). -/
def synth (v : Ctr) : List Ctr := List.replicate 8 v

/-! ### Zones -/

def Dev.zone (d : Dev) (z : Nat) : Zone := d.frs.zones.get z
def Dev.setZone (d : Dev) (z : Nat) (x : Zone) : Dev := { d with frs.zones := d.frs.zones.put z x }
def Dev.updZone (d : Dev) (z : Nat) (f : Zone → Zone) : Dev := d.setZone z (f (d.zone z))
/-- Raise the ceiling to a count written (spec/08 R216). -/
def Dev.raiseCeil (d : Dev) (z : Nat) (v : Ctr) : Dev :=
  if isCount v then d.updZone z fun x => { x with ceil := if x.ceil.toNat < v.toNat then v else x.ceil } else d

/-- Drizzle has begun to walk a zone that leaves ONLINE (spec/14 R391). -/
def Dev.drizzleIn (d : Dev) (z : Nat) : Bool :=
  decide (d.svc.drizzleZone = z) && (decide (0 < d.svc.drizzleUnit) || d.svc.steps.any fun s => s.kind == .drizzle)

/-- A zone changes state: ZONE_STATE and FRS_ZONE_CHANGE (spec/08 R213). -/
def Dev.zoneTo (d : Dev) (z : Nat) (st : ZoneSt) (opcode : Nat) : Dev :=
  let old := (d.zone z).st
  if old = st then d else
    let d := { d with svc.drizzleLost := d.svc.drizzleLost || (old == ZoneSt.online && d.drizzleIn z) }
    ((d.updZone z fun x => { x with st := st }).event .frs 0x0012 bFrs (.zone z)
      [(8, 2, z), (10, 1, old.code), (11, 1, st.code), (12, 1, opcode)]).raise bFrs 5

/-! ### The Canopy as a table (spec/09 R233-R236) -/

/-- Set number of a media line address. -/
def canSet (x : Nat) : Nat := ((x % 2 ^ 14).xor (x / 2 ^ 14 % 2 ^ 14)).xor (x / 2 ^ 28 % 2 ^ 13)
def canTag (x : Nat) : Nat := x / 2 ^ 14
def staging : Nat := 262144
/-- Bank and way of a line as an index into the way table. -/
def wayOf (k : Nat) : Nat := 16 * (k / 16 % 32) + k % 16

/-- A line that holds a node; one whose fill is in progress is not cached yet. -/
def CanLine.valid (c : CanLine) : Bool := (c.st == .clean || c.st == .dirty) && !c.fill
def CanLine.dirty (c : CanLine) : Bool := c.st == .dirty

def Dev.can1 (d : Dev) (k : Nat) : CanLine := d.can.lines.get k
def Dev.setLine (d : Dev) (k : Nat) (c : CanLine) : Dev := { d with can.lines := d.can.lines.put k c }
def Dev.updLine (d : Dev) (k : Nat) (f : CanLine → CanLine) : Dev := d.setLine k (f (d.can1 k))

/-- Whether a way lies in the pinned partition (spec/09 R244). -/
def Dev.pinnedWay (d : Dev) (w : Nat) : Bool := decide (16 - d.can.pinWays ≤ w)

/-- State of a line by index; a line of the pinned partition never written is UNWRITTEN. -/
def Dev.lineState (d : Dev) (k : Nat) : CanSt :=
  let c := d.can1 k
  if c.valid || c.fill then c.st
  else if k < staging && d.pinnedWay (k % 16) && !c.written then .unwritten else .invalid

/-- A line that holds no node; a line of the pinned partition keeps valid check bits. -/
def Dev.dropLine (d : Dev) (k : Nat) : Dev :=
  d.setLine k (if k < staging && d.pinnedWay (k % 16) then { (default : CanLine) with written := true } else default)

/-- The line that holds a node, the staging buffer's included. -/
def Dev.find (d : Dev) (x : NodeId) : Option Nat :=
  (d.can.lines.find? fun p => p.2.valid && p.2.node == x).map (·.1)

/-- D of spec/09 R241. -/
def Dev.dirtyCount (d : Dev) : Nat := (d.can.lines.filter fun p => decide (p.1 < staging) && p.2.dirty).length
def Dev.wbCount (d : Dev) : Nat := (d.can.lines.filter fun p => p.2.wb).length
def Dev.budget (d : Dev) : Nat := d.can.budgetMib * 16384
/-- Whether fills enter the Canopy: not in drain or bypass (spec/09 R251, R252). -/
def Dev.fills (d : Dev) : Bool := d.can.en

/-- The fills of some lines are given up: a line of the pinned partition is again as it was. -/
def Dev.dropFills (d : Dev) (gone : Nat → CanLine → Bool) : Dev :=
  { d with can.lines := d.can.lines.mapAll fun k (c : CanLine) =>
      if !(c.fill && gone k c) then c else if c.pinned then { (default : CanLine) with written := c.written, ctr := c.ctr } else default }

/-- Drop the disabling ways that hold no valid line any more (spec/09 R249, R250). A way counts as disabled from then on, not
from the start of its disabling (DESIGN CHOICE, log 121). -/
def Dev.sweepWays (d : Dev) : Dev :=
  forAll (Tab.which d.can.ways fun w => w.disabling && !w.disabled) (fun i e =>
    if e.can.lines.any fun p => decide (p.1 < staging) && decide (wayOf p.1 = i) && p.2.valid then e else
      let e1 := { e with can.ways := e.can.ways.put i { e.can.ways.get i with disabled := true } }
      let b := i / 16
      if (List.range (16 - e1.can.pinWays)).all fun w => (e1.can.ways.get (16 * b + w)).disabled
      then e1.raise bCan (68 + b) else e1) d

/-- A drain ends when no line is valid: bypass begins (spec/09 R251, spec/15 R414). -/
def Dev.drainEnd (d : Dev) : Dev :=
  if d.can.draining && !(d.can.lines.any fun p => decide (p.1 < staging) && p.2.valid)
  then (({ d with can.draining := false, can.drainStopped := false }).raise bCan 104).raise bCan 105 else d

/-- What follows a line turning clean or leaving: a draining or disabling line that is clean becomes INVALID. -/
def Dev.afterClean (d : Dev) (k : Nat) : Dev :=
  let c := d.can1 k
  let e := if c.st == .clean && k < staging && (!d.can.en || (d.can.ways.get (wayOf k)).disabling) then d.dropLine k else d
  e.sweepWays.drainEnd

/-- CAN_DIRTY_HIGH: D first exceeds budget - 1,024 (spec/15 R414). -/
def Dev.noteDirty (d : Dev) : Dev :=
  let high := decide (d.budget - 1024 < d.dirtyCount)
  if high && !d.can.high then ({ d with can.high := true }).raise bCan 103
  else { d with can.high := high }

/-- Count an access to a line's way; both counts restart at 2^24. -/
def Dev.countWay (d : Dev) (k : Nat) : Dev :=
  if staging ≤ k then d else
    let i := wayOf k
    let w := d.can.ways.get i
    let w := { w with accesses := w.accesses + 1 }
    { d with can.ways := d.can.ways.put i (if w.accesses = 2 ^ 24 then { w with accesses := 0, errors := 0 } else w) }

/-- The line's way is being disabled. -/
def Dev.leavingWay (d : Dev) (k : Nat) : Bool := decide (k < staging) && (d.can.ways.get (wayOf k)).disabling

/-- Change the counters of a line: dirty, with its age when it was clean. In a drain or bypass, and in a way that is being
disabled, its write-back is asked for at once (spec/09 R249, R251). -/
def Dev.changeLine (d : Dev) (k : Nat) (f : List Ctr → List Ctr) : Dev :=
  let c := d.can1 k
  let c' := { c with ctr := f c.ctr, st := .dirty, changed := true, age := if c.dirty then c.age else d.seq,
                     want := c.want || !d.can.en || d.leavingWay k }
  (((d.countWay k).setLine k c').bump).noteDirty

/-- Step the LFSR of a bank to the cycle of choice; the number of CORE cycles passed is a free value (log 2). -/
def lfsrStep (v : Word32) : Word32 := (v >>> 1) ^^^ (if v.getLsbD 0 then 0x80200003 else 0)
def lfsrAfter : Nat → Word32 → Word32
  | 0, v => v
  | n + 1, v => lfsrAfter n (lfsrStep v)

/-- spec/09 R240: the way a fill takes, none for WAIT; and the LFSR value drawn on. -/
def Dev.victim (d : Dev) (s : Nat) : Option Nat :=
  let cand (w : Nat) : Bool :=
    let c := d.can1 (16 * s + w)
    decide (w < 16 - d.can.pinWays) && !(d.can.ways.get (wayOf (16 * s + w))).disabling && !c.fill && !c.dirty
  match (List.range 16).find? fun w => cand w && !(d.can1 (16 * s + w)).valid with
  | some w => some w
  | none =>
    let l := lfsrAfter (Config.coreCycles d.free) (d.can.lfsr.get (s % 32))
    let w0 := l.toNat % 16
    ((List.range 16).map fun j => (w0 + j) % 16).find? cand

/-- A new index of the staging buffer. -/
def Dev.stagingSlot (d : Dev) : Nat := staging + d.seq

/-- A fill takes a way of the node's set for a line; none for WAIT. -/
def Dev.takeWay (d : Dev) (x : NodeId) (line : CanLine) : Option Dev :=
  let s := canSet (d.nodeAddr x)
  let l := lfsrAfter (Config.coreCycles d.free) (d.can.lfsr.get (s % 32))
  (d.victim s).map fun w =>
    let e := { d with free := d.free + 1, can.lfsr := d.can.lfsr.put (s % 32) l }
    (if line.fill then e else e.countWay (16 * s + w)).setLine (16 * s + w) line

/-- The line whose fill brings in a node. -/
def Dev.fillOf (d : Dev) (x : NodeId) : Option Nat := (d.can.lines.find? fun p => p.2.fill && p.2.node == x).map (·.1)

/-- Place a clean node: in the way its fill holds, which for a PIN is a pinned one, or a way of its set, or in the staging
buffer when no fill enters. None for WAIT. -/
def Dev.fillNode (d : Dev) (x : NodeId) (ctr : List Ctr) (mac : BitVec 64) : Option Dev :=
  let line : CanLine := { (default : CanLine) with st := .clean, node := x, ctr := ctr, mac := mac }
  match d.find x with
  | some _ => some d
  | none =>
    match d.fillOf x with
    | some k =>
      let pin := (d.can1 k).pinned
      some ((d.countWay k).setLine k { line with pinned := pin, written := pin })
    | none => if d.fills then d.takeWay x line else some (d.setLine d.stagingSlot line).bump

/-- A fill begins with its read: it takes a way then if one is free for it (the FILL flag), else when the node is placed
(spec/09 R236, R240). -/
def Dev.beginFill (d : Dev) (x : NodeId) : Dev :=
  if !d.fills || (d.find x).isSome || (d.fillOf x).isSome then d else
    (d.takeWay x { (default : CanLine) with st := .clean, fill := true, node := x }).getD d

/-- Fills begin for the nodes that are read: none for a node on a retired channel, which gets no read (spec/08 R220). -/
def Dev.beginFills (d : Dev) (z n : Nat) (levels : List Nat) : Dev :=
  forAll (levels.filter fun l => !d.retired (channelOf (d.nodeAddr (nodeOf z n l)))) (fun l e => e.beginFill (nodeOf z n l)) d

/-- A fill waits: the oldest dirty line of the set is written back ahead of its age order (spec/09 R240). -/
def Dev.wantSet (d : Dev) (x : NodeId) : Dev :=
  let s := canSet (d.nodeAddr x)
  let ds := d.can.lines.filter fun p => decide (p.1 / 16 = s ∧ p.1 < staging) && p.2.dirty && !p.2.stuck
  match ds.foldl (fun (m : Option (Nat × CanLine)) p => match m with
    | none => some p
    | some q => if p.2.age < q.2.age then some p else some q) none with
  | some p => d.updLine p.1 fun c => { c with want := true }
  | none => d

/-- Write-backs of a subtree that are under way complete without effect on counters (spec/08 R214, R229): they name a
node that does not exist. -/
def Dev.orphan (d : Dev) (x : NodeId) : Dev :=
  let f (m : MCmd) : MCmd := match m.why with
    | .writeBack y => if under x y then { m with why := .writeBack ⟨x.zone, 9, 0⟩ } else m
    | _ => m
  { d with med.ch := d.med.ch.map fun p =>
      (p.1, { p.2 with waiting := p.2.waiting.map f, out := p.2.out.map fun o => (o.1, o.2.map f) }) }

/-- An access has changed its line counter, and neither its data nor, in bypass, its leaf is known to be persistent. -/
def Access.counting (a : Access) : Bool :=
  a.mode == .full && a.leaf != .done && (a.stage == .waitLeaf || ((a.stage == .lane || a.stage == .writing) &&
    (a.pass == .write || a.pass == .partialWrite || a.pass == .rekeyWrite || a.pass == .unseal)))

/-- Accesses whose counter update lay in a subtree that is discarded: it can no longer be acknowledged (spec/01 R20). -/
def Dev.loseWrites (d : Dev) (x : NodeId) : Dev :=
  { d with fab.accs := d.fab.accs.map fun (a : Access) =>
      if a.counting && under x (nodeOf (zoneOf a.line) (indexOf a.line) 0) then { a with lost := true } else a }

/-- Remove every Canopy line of a subtree (spec/08 R227); dirty ones are discarded. -/
def Dev.dropSubtree (d : Dev) (x : NodeId) : Dev :=
  ((forAll ((d.can.lines.filter fun p => p.2.valid && under x p.2.node).map (·.1)) (fun k e => e.dropLine k)
    ((d.orphan x).loseWrites x)).sweepWays).drainEnd

/-- Some lines of the staging buffer are out of sight of a walk: the clean ones that other walks have brought. -/
def CanLine.foreign (walkers : List Nat) (p : Nat × CanLine) : Bool :=
  decide (staging ≤ p.1) && p.2.st == .clean && !p.2.wb && !p.2.walkers.any walkers.contains

/-- Do something with what some walks see of the staging buffer: each access in bypass walks from the root, and only nodes
that are newer than their media copies, and those of its own walk, serve it (spec/09 R252). -/
def Dev.walking (d : Dev) (walkers : List Nat) (f : Dev → Dev) : Dev :=
  let hidden := d.can.lines.filter (CanLine.foreign walkers)
  if hidden.isEmpty then f d else
    forAll hidden (fun p e => match e.find p.2.node with
        | some _ => e
        | none => e.setLine p.1 p.2)
      (f { d with can.lines := d.can.lines.filter fun p => !CanLine.foreign walkers p })

/-- The accesses of a ladder that has placed a node in the staging buffer are walkers of it. -/
def Dev.walkedBy (d : Dev) (x : NodeId) (walkers : List Nat) : Dev :=
  match d.find x with
  | some k => if staging ≤ k then d.updLine k fun c => { c with walkers := c.walkers ++ walkers.filter fun i => !c.walkers.contains i } else d
  | none => d

/-- The access walks the tree: it has been granted and has not ended. -/
def Access.walks (a : Access) : Bool :=
  match a.stage with
  | .granted | .ladder _ | .reading | .lane | .writing | .waitLeaf => a.mode == .full
  | _ => false

/-- Remove clean staging lines that no walk, no write-back and no dirty node needs any more (spec/09 R252). -/
def Dev.trimStaging (d : Dev) : Dev :=
  let used (c : CanLine) : Bool :=
    d.fab.accs.any (fun a => a.walks && c.walkers.contains a.id) ||
    d.can.lines.any (fun p => p.2.dirty && decide (p.2.node ≠ c.node) && under c.node p.2.node)
  forAll ((d.can.lines.filter fun p => decide (staging ≤ p.1) && p.2.st == .clean && !used p.2).map (·.1))
    (fun k e => e.setLine k default) d

/-! ### Reading a path (spec/08 R218) -/

/-- The lowest cached node at or above level `l`; level 9 is the root. -/
def Dev.anchor (d : Dev) (z n : Nat) : Nat → Nat → Nat
  | 0, _ => 9
  | fuel + 1, l => if (d.find (nodeOf z n l)).isSome then l else d.anchor z n fuel (l + 1)

/-- The path slot of the node at a level, or the root. -/
def Dev.slotAt (d : Dev) (z n l : Nat) : Ctr :=
  if l = 9 then (d.zone z).root else
    match d.find (nodeOf z n l) with
    | some k => (d.can1 k).ctr.getD (pathSlot n l) 0
    | none => 0

/-- Anchor of a path from level `low` up, and its path slot. -/
def Dev.probe (d : Dev) (z n low : Nat) : Nat × Ctr :=
  let l := d.anchor z n (9 - low) low
  (l, d.slotAt z n l)

/-- A probe reads its anchor: an access to that line's way (spec/09 R249). -/
def Dev.countAnchor (d : Dev) (z n low : Nat) : Dev :=
  match d.find (nodeOf z n (d.probe z n low).1) with
  | some k => d.countWay k
  | none => d

/-- A node on the path is held as poisoned until its mark is written (spec/08 R227). -/
def Dev.heldPoison (d : Dev) (z n : Nat) : Bool := d.frs.marks.any fun x => under x (nodeOf z n 0) && decide (x.zone = z)

/-- Reading the counters of a path from level `low` up reads the line of each cached node there (spec/09 R249, log 141). -/
def Dev.countPath (d : Dev) (z n low : Nat) : Dev :=
  forAll ((List.range 9).filter fun l => decide (low ≤ l)) (fun l e => match e.find (nodeOf z n l) with
    | some k => e.countWay k
    | none => e) d

/-- Some ancestor counter from level `l` up is spent (spec/08 R205), over cached nodes and the root. -/
def Dev.spentAbove (d : Dev) (z n : Nat) : Nat → Nat → Option Nat
  | 0, _ => none
  | fuel + 1, l =>
    if l = 9 then (if ancestorSpent (d.zone z).root then some 9 else none)
    else if (d.find (nodeOf z n l)).isSome && ancestorSpent (d.slotAt z n l) then some l
    else d.spentAbove z n fuel (l + 1)

/-! ### Ladder fetch (spec/08 R219, R220) -/

/-- A metadata read of the node is outstanding or waits. -/
def Dev.reading (d : Dev) (x : NodeId) : Bool :=
  d.med.ch.any fun p => p.2.waiting.any (fun m => m.why == .node x) ||
    p.2.out.any fun o => match o.2 with | some m => m.why == .node x | none => false

/-- Read a node once, joining a read outstanding; false when its channel is retired. -/
def Dev.readNode (d : Dev) (x : NodeId) : Dev × Bool :=
  let a := d.nodeAddr x
  if d.retired (channelOf a) then (d, false)
  else if d.reading x then (d, true)
  else (d.media 2 a default (.node x), true)

/-- Start reading the missing nodes of levels `hi - 1` down to `low`. -/
def Dev.openRungs (d : Dev) (z n : Nat) (levels : List Nat) : Dev × List Rung :=
  levels.foldl (fun (r : Dev × List Rung) l =>
    let q := r.1.readNode (nodeOf z n l)
    (q.1, r.2 ++ [⟨l, none, false, !q.2, 1, 0, false⟩])) (d, [])

/-- Levels from `hi - 1` down to `low`. -/
def levelsDown (hi low : Nat) : List Nat := ((List.range (hi - low)).map fun k => low + k).reverse

/-- A ladder takes the node from the Canopy: any cached node, or, for a check of the nodes by Drizzle or SCRUB, one that
is dirty or in write-back (spec/14 R391, R392). -/
def Dev.onPath (d : Dev) (nodes : Bool) (x : NodeId) : Bool :=
  match d.find x with
  | some k => !nodes || (d.can1 k).dirty || (d.can1 k).wb
  | none => false

/-- Levels from `level` down to `low` that a ladder must read, `v` being the counter above `level` where it is known:
nothing below a counter that is known to be zero or a poison mark (spec/01 R22, spec/08 R219). -/
def Dev.missing (d : Dev) (nodes : Bool) (z n low : Nat) : Nat → Nat → Option Ctr → List Nat
  | 0, _, _ => []
  | fuel + 1, level, v =>
    if v.any fun c => isZero c || isPoison c then [] else
      let x := nodeOf z n level
      let below := d.missing nodes z n low fuel (level - 1) (if (d.find x).isSome then some (d.slotAt z n level) else none)
      if d.onPath nodes x then below else level :: below

/-- What is missing from the node above which a path is known (level 9 for the root) down to `low`. -/
def Dev.missingFrom (d : Dev) (nodes : Bool) (z n low : Nat) (top : Nat × Ctr) : List Nat :=
  d.missing nodes z n low (top.1 - low) (top.1 - 1) (some top.2)

/-- Start a ladder for a path, or join one that fetches the same path. A check of the nodes themselves reads from L8 down,
each node once the counter above it is known to be a count (spec/14 R391). -/
def Dev.startLadder (d : Dev) (z n low : Nat) (fromRoot : Bool) (check : Bool) (w : Waiter) : Dev × Nat :=
  match d.frs.ladders.find? fun l => decide (l.zone = z ∧ l.n / 2 ^ (3 * low + 3) = n / 2 ^ (3 * low + 3) ∧ l.low = low)
      && (l.check == check) && (l.fromRoot == fromRoot) with
  | some l => ({ d with frs.ladders := d.frs.ladders.map fun x => if x.id = l.id then { x with waiters := x.waiters ++ [w] } else x }, l.id)
  | none =>
    let p := if fromRoot then (9, (d.zone z).root) else d.probe z n low
    let levels := d.missingFrom (fromRoot && check) z n low p
    let levels := if fromRoot && check then levels.take 1 else levels
    let d := if check then d else d.beginFills z n levels
    let r := d.openRungs z n levels
    let id := r.1.seq
    let lad : Ladder := ⟨id, z, n, low, p.1, p.2, r.2, [w], fromRoot, check⟩
    ({ r.1.bump with frs.ladders := r.1.frs.ladders ++ [lad] }, id)

/-- A beat of a node has arrived: every ladder that waits for it takes it. -/
def Dev.nodeBeat (d : Dev) (x : NodeId) (b : Beat) (ecc : BitVec 2) : Dev :=
  { d with frs.ladders := d.frs.ladders.map fun l =>
      if l.zone = x.zone then
        { l with rungs := l.rungs.map fun r =>
            if nodeOf l.zone l.n r.level = x && r.node.isNone && !r.bad && !r.retired && !r.stale
            then { r with node := some (lineNode b.data), bad := decide (2 ≤ ecc.toNat) } else r }
      else l }

/-- How a verification step of a ladder ends. -/
inductive LadEnd where
  /-- A beat is still missing. -/
  | wait
  /-- A rung has failed an attempt and is read again. -/
  | retry (level : Nat)
  /-- Node error of a rung. -/
  | error (level cause : Nat)
  /-- A live rung lies on a retired channel. -/
  | retiredAt (level : Nat)
  /-- Verified down to a level; its path slot decides. -/
  | ok (level : Nat) (slot : Ctr)
  deriving DecidableEq, Repr, Inhabited

/-- A check of the nodes themselves. -/
def Ladder.nodes (l : Ladder) : Bool := l.check && l.fromRoot

/-- The node of a level: from the Canopy, or the ladder's rung. A rung with `attempts` 0 came from the Canopy. -/
def Dev.rungAt (d : Dev) (l : Ladder) (level : Nat) : Option Rung :=
  let x := nodeOf l.zone l.n level
  match d.find x with
  | some k =>
    if d.onPath l.nodes x then some ⟨level, some ⟨(d.can1 k).ctr, (d.can1 k).mac⟩, false, false, 0, 0, false⟩
    else l.rungs.find? fun r => r.level = level
  | none => l.rungs.find? fun r => r.level = level

/-- How the descent through the live rungs ends. -/
inductive Bottom where
  | wait | bad | retired
  | slot (level : Nat) (v : Ctr)
  deriving DecidableEq, Repr

/-- Step 2 of spec/08 R219: from the counter `v` above `level` down while path slots are counts. The live rungs, the lowest
first, each with the counter above it. -/
def Dev.liveRungs (d : Dev) (l : Ladder) : Nat → Nat → Ctr → List (Rung × Ctr) → Bottom × List (Rung × Ctr)
  | 0, level, v, acc => (.slot (level + 1) v, acc)
  | fuel + 1, level, v, acc =>
    if isZero v || isPoison v then (.slot (level + 1) v, acc) else
      match d.rungAt l level with
      | none => (.wait, acc)
      | some r =>
        if r.retired then (.retired, (r, v) :: acc)
        else if r.bad then (.bad, (r, v) :: acc)
        else match r.node with
          | none => (.wait, acc)
          | some x =>
            let w := x.get (pathSlot l.n level)
            if level = l.low then (.slot level w, (r, v) :: acc)
            else d.liveRungs l fuel (level - 1) w ((r, v) :: acc)

/-- The rung's MAC does not match the counter above it. -/
def Rung.fails (l : Ladder) (key : BitVec 256) (p : Rung × Ctr) : Bool :=
  match p.1.node with
  | some x => p.1.attempts != 0 && !p.1.bad && nodeMac key (nodeOf l.zone l.n p.1.level) x.ctr p.2 != x.mac
  | none => false

/-- Every attempt of the rung has been made. -/
def Rung.spent (r : Rung) (limit : Nat) : Bool := decide ((if r.attempts = 1 then limit else r.limit) < r.attempts)

/-- Step 3 of spec/08 R219, and R220: the live rungs verify from the bottom up. The lowest that fails and has an attempt
left is read again; with none left the error is that of the highest that fails, and an uncorrectable beat or a retired
channel counts once everything above it has verified. With it go the rungs that were read and verified, top first. -/
def verifyRungs (l : Ladder) (key : BitVec 256) (limit : Nat) (r : Bottom × List (Rung × Ctr)) : LadEnd × List Rung :=
  let fails := r.2.filter (Rung.fails l key)
  let passed (lo : Nat) : List Rung :=
    ((r.2.filter fun p => decide (lo < p.1.level) && p.1.attempts != 0 && !p.1.bad && !p.1.retired).map (·.1)).reverse
  match fails.find? fun p => !p.1.spent limit with
  | some p => (.retry p.1.level, [])
  | none =>
    match fails.getLast?, r.1, r.2.head? with
    | some p, _, _ => (.error p.1.level 2, passed p.1.level)
    | none, .wait, _ => (.wait, [])
    | none, .bad, some p => (.error p.1.level 1, passed p.1.level)
    | none, .retired, some p => (.retiredAt p.1.level, passed p.1.level)
    | none, .slot level v, _ => (.ok level v, (((r.2.filter fun p => p.1.attempts != 0).map (·.1)).reverse))
    | none, _, none => (.wait, [])

/-- Where a ladder's verification starts: the anchor as it stands now, or the root. -/
def Dev.ladderTop (d : Dev) (l : Ladder) : Nat × Ctr :=
  if l.fromRoot then (9, (d.zone l.zone).root) else d.probe l.zone l.n l.low

/-- The highest node held as poisoned on the path of a ladder (spec/08 R227). -/
def Dev.heldOn (d : Dev) (l : Ladder) : Option NodeId :=
  ((levelsDown 9 l.low).map fun v => nodeOf l.zone l.n v).find? fun x => d.frs.marks.contains x

/-- One verification of a ladder against the anchor as it stands now. -/
def Dev.verify (d : Dev) (l : Ladder) : LadEnd × List Rung :=
  let p := d.ladderTop l
  match d.heldOn l with
  | some x => (.ok (x.level + 1) (mark true 0), [])
  | none =>
    match (d.zone l.zone).key with
    | none => (if isPoison (d.zone l.zone).root then .ok 9 (d.zone l.zone).root else .error 8 5, [])
    | some k =>
      if p.1 = l.low && p.1 < 9 && !l.check then (.ok l.low p.2, [])
      else
        let r := d.liveRungs l (p.1 - l.low) (p.1 - 1) p.2 []
        if (r.1 = .wait && !l.nodes) || l.rungs.any (fun x => x.stale) then (.wait, [])
        else verifyRungs l k d.med.retryLimit r

/-- The level that a check of the nodes reads next, `v` being the counter above `level`: below what it has read only, and
nothing below a counter that is no count. -/
def Dev.nextCheck (d : Dev) (l : Ladder) : Nat → Nat → Ctr → List Nat
  | 0, _, _ => []
  | fuel + 1, level, v =>
    if isZero v || isPoison v then [] else
      match d.rungAt l level with
      | none => [level]
      | some r => match r.node with
        | some x => if r.bad || r.retired || r.stale then [] else d.nextCheck l fuel (level - 1) (x.get (pathSlot l.n level))
        | none => []

/-- Levels that a ladder lacks: those of an anchor that has left the Canopy since; of a check of the nodes, the next. -/
def Dev.lacking (d : Dev) (l : Ladder) : List Nat :=
  let top := d.ladderTop l
  let need := if l.nodes then d.nextCheck l (top.1 - l.low) (top.1 - 1) top.2 else d.missingFrom false l.zone l.n l.low top
  need.filter fun v => l.rungs.all (fun r => decide (r.level ≠ v))

/-- Lines whose fill no ladder goes on with are free again; the way of a PIN's own node too. -/
def Dev.releaseFills (d : Dev) : Dev :=
  d.dropFills fun _ c => !d.frs.ladders.any fun l => !l.check && l.rungs.any fun r => nodeOf l.zone l.n r.level == c.node

def Dev.setLadder (d : Dev) (l : Ladder) : Dev :=
  { d with frs.ladders := d.frs.ladders.map fun x => if x.id = l.id then l else x }
def Dev.dropLadder (d : Dev) (id : Nat) : Dev :=
  { d with frs.ladders := d.frs.ladders.filter fun x => x.id ≠ id }.releaseFills

/-- Place verified rungs, the top first; none when a fill waits (spec/09 R240). -/
def Dev.placeRungs (d : Dev) (l : Ladder) : List Rung → Option Dev
  | [] => some d
  | r :: rs =>
    match r.node with
    | none => d.placeRungs l rs
    | some x =>
      match d.fillNode (nodeOf l.zone l.n r.level) x.ctr x.mac with
      | none => none
      | some e => e.placeRungs l rs

/-- What a ladder's walkers see (spec/09 R252); a write-back and a mark see the whole staging buffer. -/
def Dev.seenOf (d : Dev) (l : Ladder) : Dev :=
  let ids := l.waiters.filterMap fun w => match w with | .access id => some id | _ => none
  if ids.length < l.waiters.length then d
  else { d with can.lines := d.can.lines.filter fun p => !CanLine.foreign ids p }

/-- The first set a placement waits for. -/
def Dev.waitsFor (d : Dev) (l : Ladder) : List Rung → Option NodeId
  | [] => none
  | r :: rs =>
    match r.node with
    | none => d.waitsFor l rs
    | some x =>
      match d.fillNode (nodeOf l.zone l.n r.level) x.ctr x.mac with
      | none => some (nodeOf l.zone l.n r.level)
      | some e => e.waitsFor l rs

/-! ### Poison (spec/08 R225, R227) -/

/-- Set one counter of a cached node, or the root at level 9. -/
def Dev.setSlot (d : Dev) (z n l : Nat) (v : Ctr) : Dev :=
  if l = 9 then (d.updZone z fun x => { x with root := v }).raiseCeil z v
  else match d.find (nodeOf z n l) with
    | some k => (d.changeLine k fun c => c.set (pathSlot n l) v).raiseCeil z v
    | none => d

/-- Mark a line poisoned in the cached leaf (spec/08 R225). -/
def Dev.poisonLine (d : Dev) (line : LineNo) : Dev :=
  let z := zoneOf line
  let n := indexOf line
  let d := match d.find (nodeOf z n 0) with
    | some _ => d
    | none => (d.fillNode (nodeOf z n 0) (synth 0) 0).getD d
  let v := d.slotAt z n 0
  { d.setSlot z n 0 (mark true v) with frs.linePoisonCnt := satAdd 0xFFFFFFFF d.frs.linePoisonCnt 1 }

/-- First line index under a node. -/
def firstLine (x : NodeId) : Nat := x.index * 2 ^ (3 * x.level + 3)

/-- STUCK lines above a node error are discarded with it; blocked ones stay (spec/09 R242). -/
def Dev.dropStuckAbove (d : Dev) (x : NodeId) : Dev :=
  let ks := d.can.lines.filter fun p => p.2.valid && p.2.stuck && under p.2.node x
  if ks.isEmpty then d else (forAll ks (fun p e => e.dropLine p.1) d).sweepWays.drainEnd

/-- The effects of a node error but the fetch of an uncached parent (spec/08 R227). -/
def Dev.nodeErrorCore (d : Dev) (x : NodeId) (cause : Nat) : Dev :=
  let d := ({ d with frs.nodePoisonCnt := satAdd 0xFFFFFFFF d.frs.nodePoisonCnt 1 }).raise bFrs 1
  (d.event .frs 0x0011 bFrs .node [(8, 2, x.zone), (10, 1, x.level), (11, 1, cause), (12, 4, x.index)]).dropSubtree x |>.dropStuckAbove x

/-- A node error (spec/08 R227). The mark of a node whose STUCK parent it discards waits for that parent as for any that is not
cached (DEDUCED, log 117). -/
def Dev.nodeError (d : Dev) (x : NodeId) (cause : Nat) : Dev :=
  let d := d.nodeErrorCore x cause
  let n := firstLine x
  if x.level = 8 then d.setSlot x.zone n 9 (mark true (d.zone x.zone).root)
  else if (d.find (nodeOf x.zone n (x.level + 1))).isSome then
    d.setSlot x.zone n (x.level + 1) (mark true (d.slotAt x.zone n (x.level + 1)))
  else ({ (d.startLadder x.zone n (x.level + 1) false false (.mark x)).1 with frs.marks := d.frs.marks ++ [x] })

/-- Write the mark of a node held as poisoned into its parent, now cached; a reset may have cleared the poison since
(spec/08 R228). -/
def Dev.placeMark (d : Dev) (x : NodeId) : Dev :=
  if !d.frs.marks.contains x then d else
  let n := firstLine x
  let v := d.slotAt x.zone n (x.level + 1)
  let d := { d with frs.marks := d.frs.marks.filter (· ≠ x) }
  if (d.find (nodeOf x.zone n (x.level + 1))).isSome && !isPoison v then d.setSlot x.zone n (x.level + 1) (mark true v) else d

/-! ### Errors in the data store and way disable (spec/09 R237, R249) -/

/-- A way of a bank starts disabling. -/
def Dev.disableWay (d : Dev) (i : Nat) : Dev :=
  if (d.can.ways.get i).disabling then d else
    let d := ({ d with can.ways := d.can.ways.put i { d.can.ways.get i with disabling := true } }).raise bCan (4 + i / 16)
    let ks := (d.can.lines.filter fun p => decide (p.1 < staging) && decide (wayOf p.1 = i) && p.2.valid)
    let d := d.dropFills fun k _ => decide (wayOf k = i)
    (forAll ks (fun p e => if p.2.dirty then e.updLine p.1 fun c => { c with want := true } else e.dropLine p.1) d).sweepWays

/-- The check bits of a line read show an error; a line that holds no node has nothing to lose. -/
def Dev.dataError (d : Dev) (k : Nat) (uncorrectable : Bool) : Dev :=
  let c := d.can1 k
  if staging ≤ k then d else
    let i := wayOf k
    if uncorrectable then
      let e := (d.raise bCan 1).disableWay i
      if !c.valid then e else if c.dirty then e.nodeError c.node 3 else (e.dropLine k).sweepWays.drainEnd
    else
      let w := d.can.ways.get i
      let e := ({ d with can.ways := d.can.ways.put i { w with errors := w.errors + 1 } }).raise bCan 0
      if w.errors + 1 = 8 then e.disableWay i else e

/-- What the check bits of a Canopy read show (spec/09 R237, R238). -/
def Dev.canopyError (d : Dev) : Option CanErr → Dev
  | none => d
  | some (.data k u) => d.dataError k u
  | some (.tag u) => d.raise bCan (if u then 3 else 2)
  | some .zenith => d.zenithRead true

/-! ### Write-back (spec/08 R224; spec/09 R241-R243) -/

/-- The children of a node that the Canopy holds dirty or in write-back. -/
def Dev.busyChildren (d : Dev) (x : NodeId) : List (Nat × CanLine) :=
  if x.level = 0 then [] else
    d.can.lines.filter fun p => (p.2.dirty || p.2.wb) && p.2.valid &&
      decide (p.2.node.zone = x.zone ∧ p.2.node.level + 1 = x.level ∧ p.2.node.index / 8 = x.index)

def Dev.eligible (d : Dev) (c : CanLine) : Bool :=
  c.dirty && !c.wb && !c.stuck && (d.busyChildren c.node).isEmpty

def oldest (ls : List (Nat × CanLine)) : Option (Nat × CanLine) :=
  ls.foldl (fun m p => match m with
    | none => some p
    | some q => if p.2.age < q.2.age then some p else some q) none

/-- From a dirty line down to an eligible one (spec/09 R243). -/
def Dev.descend (d : Dev) : Nat → (Nat × CanLine) → Option Nat
  | 0, _ => none
  | fuel + 1, p =>
    if d.eligible p.2 then some p.1 else
      match oldest ((d.busyChildren p.2.node).filter fun q => q.2.dirty && !q.2.wb) with
      | some q => d.descend fuel q
      | none => none

/-- Some dirty line that is wanted, or any when the flag says so, in age order, and the eligible line it leads to. -/
def Dev.pickFrom (d : Dev) (ls : List (Nat × CanLine)) : Option Nat :=
  match oldest (ls.filter fun p => (d.descend 10 p).isSome) with
  | some p => d.descend 10 p
  | none => none

/-- STUCK or blocked: not eligible and waiting for nothing that can come (spec/09 R242). -/
def Dev.blocked (d : Dev) : Nat → CanLine → Bool
  | 0, _ => false
  | fuel + 1, c => c.stuck || (d.busyChildren c.node).any fun p => p.2.dirty && d.blocked fuel p.2

/-- A dirty line is eligible, or a write-back is in flight. -/
def Dev.flushing (d : Dev) : Bool :=
  d.can.lines.any fun p => p.2.wb || d.eligible p.2

/-- Write lines of the anchor area (spec/10 R257, R258). -/
def Dev.anchorLine (d : Dev) (off : Nat) : Nat := d.per.anchorBase / 64 + off / 64

/-- The line of the open map that holds entry z, with current values (spec/10 R263). -/
def Dev.openMapLine (d : Dev) (row : Nat) : Line :=
  bytesLine ((List.range 8).flatMap fun k => leBytes 8 (d.per.openMap.get (8 * row + k)).toNat)

/-- Issue the write of E into entry z; false when its channel is retired. -/
def Dev.openZone (d : Dev) (z : Nat) : Dev :=
  let row := z / 8
  let a := d.anchorLine 0x200000 + row
  if d.retired (channelOf a) then
    { (d.raise bPer 2) with per.openSkip := insSorted z d.per.openSkip }
  else
    let e := { d with per.openMap := d.per.openMap.put z d.per.epoch, per.opening := insSorted z d.per.opening }
    e.media 3 a (metaBeat (e.openMapLine row)) (.openMap z)

/-- A line whose write-back cannot be issued (spec/09 R242); a drain stops on it (spec/09 R253). -/
def Dev.stick (d : Dev) (k : Nat) : Dev :=
  let e := (d.updLine k fun c => { c with stuck := true, want := false }).raise bCan 101
  if e.can.draining && !e.can.drainStopped then ({ e with can.drainStopped := true }).raise bCan 102 else e

/-- Metadata reads of a node that are out or wait bring nothing any more. -/
def Dev.forgetReads (d : Dev) (x : NodeId) : Dev :=
  let f (m : MCmd) : MCmd := if m.why == .node x then { m with why := .node ⟨x.zone, 9, 0⟩ } else m
  { d with med.ch := d.med.ch.map fun p =>
      (p.1, { p.2 with waiting := p.2.waiting.map f, out := p.2.out.map fun o => (o.1, o.2.map f) }) }

/-- The parent slot of a node is raised: the reads that checks have made of the node are discarded and made again after
its write-back (spec/14 R392). -/
def Dev.staleReads (d : Dev) (x : NodeId) : Dev :=
  let again (l : Ladder) (r : Rung) : Rung :=
    if nodeOf l.zone l.n r.level = x then { r with node := none, bad := false, attempts := 1, stale := true } else r
  let e := d.forgetReads x
  { e with frs.ladders := e.frs.ladders.map fun (l : Ladder) =>
      if l.check then { l with rungs := l.rungs.map (again l) } else l }

/-- Accesses in bypass that wait for the write of a leaf see it issued. -/
def Dev.leafIssued (d : Dev) (x : NodeId) : Dev :=
  { d with fab.accs := d.fab.accs.map fun (a : Access) =>
      if a.leaf == .due && decide (nodeOf (zoneOf a.line) (indexOf a.line) 0 = x) then { a with leaf := .issued } else a }

/-- Steps 2 to 4 of spec/08 R224 for line k, whose parent slot is known and is no poison mark. -/
def Dev.issueWriteBack (d : Dev) (k : Nat) : Dev :=
  let c := d.can1 k
  let x := c.node
  let n := firstLine x
  let v := d.slotAt x.zone n (x.level + 1)
  let nv := nextCtr v
  if Config.maxCount < nv then d.raise bFrs 4 else
    let v' : Ctr := BitVec.ofNat 56 nv
    let mac := match (d.zone x.zone).key with | some key => nodeMac key x c.ctr v' | none => 0
    let e := d.setSlot x.zone n (x.level + 1) v'
    let e := e.updLine k fun c => { c with wb := true, changed := false, want := false, mac := mac }
    ((((e.countWay k).staleReads x).leafIssued x)).media 3 (e.nodeAddr x) (metaBeat (Node.line ⟨c.ctr, mac⟩)) (.writeBack x)

/-- A poison mark lies on the cached path above a node, or it is held as poisoned. -/
def Dev.poisonAbove (d : Dev) (x : NodeId) : Bool :=
  let n := firstLine x
  ((List.range 10).any fun l => decide (x.level < l) && isPoison (d.slotAt x.zone n l)) || d.frs.marks.any fun m => under m x

/-- The write-back of line k, from its beginning (spec/08 R224). -/
def Dev.writeBackLine (d : Dev) (k : Nat) : Dev :=
  let c := d.can1 k
  let x := c.node
  let n := firstLine x
  let r := d.countPath x.zone n (x.level + 1)
  if d.poisonAbove x then r.dropSubtree x
  else if d.retired (channelOf (d.nodeAddr x)) then r.stick k
  else if !(x.level = 8 || (d.find (nodeOf x.zone n (x.level + 1))).isSome) then
    (r.startLadder x.zone n (x.level + 1) false false (.writeBack x)).1
  else if d.per.opened.contains x.zone || d.per.openSkip.contains x.zone then
    { r with per.openSkip := without x.zone d.per.openSkip }.issueWriteBack k
  else if d.per.opening.contains x.zone then d
  else
    let e := r.openZone x.zone
    if e.per.openSkip.contains x.zone then { e with per.openSkip := without x.zone e.per.openSkip }.issueWriteBack k else e

end Machine
end Sys2Proof
end

