-- ==== Sys2Proof/Machine/Operands.lean ====
section
/-! DEFINITION. Entries in execution: their fields, the operand checks of every command, and completing them
(spec/12 R329-R333, spec/13 R354-R377). -/

namespace Sys2Proof
namespace Machine

/-! ### Fields of an entry (spec/13 R354) -/

/-- The little-endian number in `n` bytes at offset `o` of an entry. -/
def num (e : Line) (o n : Nat) : Nat := (e.toNat / 2 ^ (8 * o)) % 2 ^ (8 * n)
def opcode (e : Line) : Nat := num e 0 1
def fragFlag (e : Line) : Bool := num e 1 1 % 2 = 1
def fenceFlag (e : Line) : Bool := num e 1 1 / 2 % 2 = 1
def nointFlag (e : Line) : Bool := num e 1 1 / 4 % 2 = 1
def ownFlag (e : Line) : Bool := num e 63 1 / 128 = 1

def cCreateQueue : Nat := 0x01
def cDeleteQueue : Nat := 0x02
def cResetQueue : Nat := 0x03
def cSetFeature : Nat := 0x04
def cGetFeature : Nat := 0x05
def cIdentify : Nat := 0x06
def cSwapConfig : Nat := 0x07
def cAnchorRestore : Nat := 0x08
def cAdoptZone : Nat := 0x09
def cFormatZone : Nat := 0x0A
def cPoolJoin : Nat := 0x0B
def cPoolLeave : Nat := 0x0C
def cPoolReconcile : Nat := 0x0D
def cKeyInstall : Nat := 0x20
def cKeyGenerate : Nat := 0x21
def cKeyDestroy : Nat := 0x22
def cKekLoad : Nat := 0x23
def cSessionKey : Nat := 0x24
def cStreamInsert : Nat := 0x30
def cStreamRemove : Nat := 0x31
def cStreamQuery : Nat := 0x32
def cRegionWrite : Nat := 0x38
def cRegionRead : Nat := 0x39
def cRekeyStart : Nat := 0x40
def cRekeyAbort : Nat := 0x41
def cSanitize : Nat := 0x42
def cScrub : Nat := 0x43
def cSeal : Nat := 0x44
def cUnseal : Nat := 0x45
def cTranscode : Nat := 0x46
def cCheckpoint : Nat := 0x48
def cCanopyMaint : Nat := 0x49
def cMeasure : Nat := 0x4A

/-- Opcodes defined for a queue type (spec/12 R316). -/
def opcodeDefined : QTy → Nat → Bool
  | .admin, o => decide (1 ≤ o ∧ o ≤ 0x0D)
  | .io, o => o ∈ [0x20, 0x21, 0x22, 0x23, 0x24, 0x30, 0x31, 0x32, 0x38, 0x39, 0x40, 0x41, 0x42, 0x43, 0x44, 0x45,
      0x46, 0x48, 0x49, 0x4A]
  | _, _ => false

/-- Opcodes that take fragments (spec/13 R359). -/
def fragAllowed (o : Nat) : Bool := o ∈ [cKeyInstall, cStreamInsert, cStreamRemove, cRegionWrite, cSeal, cUnseal]

/-- Fragment descriptor rules (spec/12 R332). -/
def fragDescOk (e : Line) : Bool := decide (num e 36 2 < 4096 ∧ num e 38 2 = 0 ∧ num e 40 8 % 16 = 0)

/-! ### Operand checks (spec/13 R357, R358) -/

/-- Fields of two bytes or more that a command's table names and this form does not use: (offset, bytes, first byte of the
field). -/
def spareSpans (e : Line) : List (Nat × Nat × Nat) :=
  let o := opcode e
  if o = cDeleteQueue ∨ o = cResetQueue then [(14, 2, 14), (16, 8, 16)]
  else if o = cPoolLeave ∨ o = cPoolReconcile then [(16, 8, 16)]
  else if o = cKeyInstall then [(8, 2, 8), (16, 8, 16)]
  else if o = cRegionWrite then [(8, 2, 8), (16, 16, 16)]
  else if o = cStreamInsert then [(12, 2, 12), (14, 2, 14), (16, 2, 16)]
  else if o = cKeyDestroy then [(10, 2, 10)]
  else if o = cKekLoad then [(12, 4, 12), (24, 20, 12)]
  else if o = cStreamRemove then [(12, 2, 12), (14, 2, 14), (16, 2, 16)]
  else if o = cRekeyAbort then [(10, 2, 10), (12, 2, 12)]
  else if cSanitize ≤ o ∧ o ≤ cTranscode then [(8, 2, 8), (10, 2, 10), (40, 8, 40)]
  else if o = cCanopyMaint then [(40, 8, 40)]
  else []

/-- Where a non-zero byte that must be 0 offends: at the first byte of its field, else at its own offset (spec/13 R356,
log 12). -/
def fieldStart (e : Line) (o : Nat) : Nat :=
  match (spareSpans e).find? fun u => decide (u.1 ≤ o ∧ o < u.1 + u.2.1) with
  | some u => u.2.2
  | none => o

/-- The lowest of the offsets of the non-zero reserved bytes and of the broken rules. `used` lists the operand spans
(offset, bytes). -/
def firstBad (e : Line) (used : List (Nat × Nat)) (rules : List (Nat × Bool)) : Option Nat :=
  let top := if fragFlag e then 36 else 48
  let free := (List.range top).filter fun o => decide (8 ≤ o) && used.all fun u => !decide (u.1 ≤ o ∧ o < u.1 + u.2)
  (((free.map fun o => (fieldStart e o, num e o 1 == 0)) ++ rules).filterMap fun r => if r.2 then none else some r.1).min?

/-- A host address of spec/13 R358. -/
def bufOk (a : Nat) : Bool := decide (a % 16 = 0 ∧ a ≠ 0)
/-- An optional one. -/
def optBufOk (a : Nat) : Bool := decide (a % 16 = 0)

/-- Operand spans and rules of a service command (spec/13 R374). -/
def svcSpans (e : Line) : List (Nat × Nat) × List (Nat × Bool) :=
  let o := opcode e
  let a := if o = cScrub then [] else [(8, 2)]
  let b := if o = cTranscode then [(10, 2)] else []
  let k := if o = cSeal ∨ o = cUnseal then [(12, 1)] else []
  let f := if o = cScrub then [(13, 1)] else []
  let u := if (o = cSeal ∨ o = cUnseal) ∧ !fragFlag e then [(40, 8)] else []
  (a ++ b ++ k ++ f ++ [(16, 8), (24, 8)] ++ u,
   [(12, decide (num e 12 1 < 16)), (13, decide (num e 13 1 < 2)),
    (16, decide (num e 16 8 % 4096 = 0 ∧ num e 16 8 + num e 24 8 ≤ 2 ^ 46)),
    (24, decide (num e 24 8 % 4096 = 0 ∧ 4096 ≤ num e 24 8)),
    (40, u.isEmpty || bufOk (num e 40 8))])

/-- Operand spans and rules of CANOPY_MAINT (spec/13 R376, spec/09 R247). -/
def maintSpans (e : Line) : List (Nat × Nat) × List (Nat × Bool) :=
  let o := num e 8 1
  let b := num e 9 1
  let pair := if o = 3 ∨ o = 4 then decide (b = 0) else if o = 5 ∨ o = 6 then decide (b = 1) else true
  let other := if b = 0 then decide (num e 24 1 = 0 ∧ num e 26 2 = 0 ∧ num e 28 1 = 0) else decide (num e 16 8 = 0)
  ([(8, 1), (9, 1), (16, 8), (24, 1), (26, 2), (28, 1)] ++ (if o = 5 then [(40, 8)] else []),
   [(8, decide (o < 7)), (9, decide (b < 2) && pair && other),
    (16, decide (num e 16 8 % 64 = 0 ∧ num e 16 8 < 2 ^ 47)), (24, decide (num e 24 1 < 32)),
    (26, decide (num e 26 2 < 512)), (28, decide (num e 28 1 < 16)), (40, decide (o ≠ 5) || bufOk (num e 40 8))])

/-- Operand spans and the rules that need no state, by opcode (spec/13 R361-R377). -/
def operandSpans (e : Line) : List (Nat × Nat) × List (Nat × Bool) :=
  let o := opcode e
  let f := fragFlag e
  let n := num e
  if o = cCreateQueue then
    ([(8, 2), (10, 1), (11, 1), (12, 1), (13, 1), (14, 2), (16, 8)],
     [(8, decide (1 ≤ n 8 2 ∧ n 8 2 < 16384)), (10, decide (n 10 1 = 1 ∨ n 10 1 = 2)),
      (11, decide (4 ≤ n 11 1 ∧ n 11 1 ≤ 15)), (13, decide (n 13 1 < 4 ∧ ¬(n 10 1 = 2 ∧ n 13 1 % 2 = 1))),
      (14, decide (n 14 2 < 2048 ∧ (n 13 1 / 2 % 2 = 1 ∨ n 14 2 = 0))), (16, decide (n 16 8 % 64 = 0))])
  else if o = cDeleteQueue ∨ o = cResetQueue then ([(8, 2)], [(8, decide (1 ≤ n 8 2 ∧ n 8 2 < 16384))])
  else if o = cSetFeature then ([(8, 2), (12, 4)], [(8, decide (1 ≤ n 8 2 ∧ n 8 2 ≤ 10))])
  else if o = cGetFeature then ([(8, 2)], [(8, decide (1 ≤ n 8 2 ∧ n 8 2 ≤ 10))])
  else if o = cIdentify then ([(16, 8)], [(16, bufOk (n 16 8))])
  else if o = cAnchorRestore then ([(16, 8)], [(16, optBufOk (n 16 8))])
  else if o = cAdoptZone then ([(8, 2), (16, 8)], [(16, optBufOk (n 16 8))])
  else if o = cFormatZone then ([(8, 2)], [])
  else if o = cPoolJoin then
    ([(8, 1), (9, 1), (10, 1), (16, 8)],
     [(8, decide (n 8 1 < 64)), (9, decide (n 9 1 < 16 ∨ n 9 1 = 0xFF)), (10, decide (1 ≤ n 10 1 ∧ n 10 1 < 16))])
  else if o = cPoolReconcile then ([(8, 1)], [(8, decide (n 8 1 < 16))])
  else if o = cKeyInstall then
    if f then ([], []) else
      ([(8, 2), (10, 1), (16, 8)], [(10, decide (n 10 1 < 16)), (16, bufOk (n 16 8))])
  else if o = cKeyGenerate then
    ([(8, 2), (10, 1), (11, 1), (16, 8)], [(10, decide (n 10 1 < 16)), (16, bufOk (n 16 8))])
  else if o = cKeyDestroy then
    let t := n 8 1
    ((8, 1) :: (if t = 0 then [(10, 2)] else if t = 1 then [(10, 2), (12, 1), (13, 1)] else [(14, 1)]),
     [(8, decide (t < 3)), (10, decide (t ≠ 1 ∨ n 10 2 < 256)), (12, decide (n 12 1 < 2)), (13, decide (n 13 1 < 2)),
      (14, decide (n 14 1 < 16))])
  else if o = cKekLoad then
    if n 9 1 = 0 then
      ([(8, 1), (9, 1), (10, 1), (12, 32)], [(8, decide (n 8 1 < 16)), (10, decide (n 10 1 < 2))])
    else
      ([(8, 1), (9, 1), (11, 1), (16, 8)],
       [(8, decide (n 8 1 < 16)), (9, decide (n 9 1 < 2)), (11, decide (n 11 1 < 16)), (16, bufOk (n 16 8))])
  else if o = cSessionKey then
    ([(8, 2), (10, 1), (11, 1), (12, 1), (16, 8)],
     [(8, decide (n 8 2 < 256)), (10, decide (n 10 1 < 2)), (11, decide (n 11 1 < 2)), (12, decide (n 12 1 < 16)),
      (16, bufOk (n 16 8))])
  else if o = cStreamInsert then
    if f then ([(8, 1)], [(8, decide (n 8 1 < 2))]) else
      ([(8, 1), (12, 2), (14, 2), (16, 2), (18, 1), (19, 1)],
       [(8, decide (n 8 1 < 2)), (18, decide (n 18 1 ≠ 0)), (19, decide (n 19 1 < 2))])
  else if o = cStreamRemove then
    if f then ([(8, 1)], [(8, decide (n 8 1 < 2))]) else
      ([(8, 1), (12, 2), (14, 2)], [(8, decide (n 8 1 < 2))])
  else if o = cStreamQuery then
    ([(8, 1), (12, 2), (14, 2), (16, 8)], [(8, decide (n 8 1 < 2)), (16, bufOk (n 16 8))])
  else if o = cRegionWrite then
    if f then ([], []) else ([(8, 2), (16, 16)], [(8, decide (n 8 2 < 4096))])
  else if o = cRegionRead then
    ([(8, 1), (10, 2), (16, 8)], [(8, decide (n 8 1 < 2)), (10, decide (n 10 2 < 4096)), (16, bufOk (n 16 8))])
  else if o = cRekeyStart then
    ([(8, 2), (10, 2), (12, 2), (14, 1)],
     [(8, decide (n 8 2 < 4096)), (10, decide (n 10 2 ≠ n 12 2)), (14, decide (n 14 1 ≤ 50))])
  else if o = cRekeyAbort then ([(8, 2)], [(8, decide (n 8 2 < 4096))])
  else if cSanitize ≤ o ∧ o ≤ cTranscode then svcSpans e
  else if o = cCanopyMaint then maintSpans e
  else if o = cMeasure then ([(8, 32), (40, 8)], [(40, decide (n 40 8 / 64 ≠ 0))])
  else ([], [])

/-- The first offending operand, with rules that need the state. -/
def operandBad (e : Line) (more : List (Nat × Bool)) : Option Nat :=
  let s := operandSpans e
  firstBad e s.1 (s.2 ++ more)

/-! ### Completions (spec/13 R355, R356) -/

def Cpl.code (status sub : Nat) : Cpl := { status := status, sub := sub, result := 0, resultX := 0 }
def Cpl.ok (result : Word32) : Cpl := { status := 0, sub := 0, result := result, resultX := 0 }
def Cpl.okx (result : Word32) (x : Byte) : Cpl := { status := 0, sub := 0, result := result, resultX := x }
/-- INVALID_FIELD of a kind. -/
def Cpl.invalid (kind sub : Nat) : Cpl := { status := 4, sub := sub, result := 0, resultX := BitVec.ofNat 8 kind }
def Cpl.exists : Cpl := Cpl.code 1 0
def Cpl.tableFull : Cpl := Cpl.code 2 0
def Cpl.notFound : Cpl := Cpl.code 3 0
def Cpl.unwrapFailed : Cpl := Cpl.code 6 0
def Cpl.busy : Cpl := Cpl.code 7 0
def Cpl.dirty : Cpl := Cpl.code 8 0
def Cpl.poisoned : Cpl := Cpl.code 0xA 0
def Cpl.quarantined : Cpl := Cpl.code 0xB 0
def Cpl.split : Cpl := Cpl.code 0xC 0
def Cpl.aborted (cause : Nat) : Cpl := Cpl.code 0xD cause
def Cpl.internal (cause : Nat) : Cpl := Cpl.code 0xFF cause
def noEntropy : Cpl := Cpl.internal 3
def stateKind : Cpl := Cpl.invalid 4 0

/-- The 16 bytes of a completion in a descriptor format. -/
def Cpl.bytes (c : Cpl) (fmt : Nat) (now : Nat) : Bytes :=
  leBytes 2 c.status ++ leBytes 2 c.sub ++ leBytes 4 c.result.toNat ++
    (if fmt = 2 then leBytes 6 now ++ [c.resultX, 0] else c.resultX :: List.replicate 7 0)

/-! ### Entries in execution -/

/-- The entry in execution at a position. -/
def Queue.find (q : Queue) (pos : QPos) : Option Exec := q.exec.find? fun x => x.pos == pos

def Dev.exec1 (d : Dev) (q : Nat) (pos : QPos) : Option Exec := (d.queue q).find pos

/-- Change an entry in execution. -/
def Dev.updExec (d : Dev) (q : Nat) (pos : QPos) (f : Exec → Exec) : Dev :=
  d.updQueue q fun x => { x with exec := x.exec.map fun y => if y.pos = pos then f y else y }

/-- O of spec/12 R319: the oldest position not acknowledged, or H. -/
def Queue.oldest (q : Queue) : QPos :=
  q.exec.foldl (fun o x => if occ q.size o q.head < occ q.size x.pos q.head then x.pos else o) q.head

/-- The entry is acknowledged or discarded: it leaves its slot, and O follows. -/
def Dev.dropExec (d : Dev) (q : Nat) (pos : QPos) : Dev :=
  d.updQueue q fun x =>
    let y := { x with exec := x.exec.filter fun e => e.pos ≠ pos }
    { y with old := y.oldest }

/-- A queue's reads of entries: none that waits is issued, and the data of those outstanding is dropped. -/
def Dev.dropReads (d : Dev) (q : Nat) : Dev :=
  let f (r : HRd) : HRd := match r.why with
    | .entries p pos n s => { r with why := .entries p pos (if p = q then 0 else n) s }
    | _ => r
  let mine (r : HRd) : Bool := match r.why with | .entries p _ _ _ => decide (p = q) | _ => false
  { d with qmg.rdWait := d.qmg.rdWait.filter fun r => !mine r, qmg.rdOut := d.qmg.rdOut.map fun p => (p.1, p.2.map f) }

/-- The queue whose record a write carries, and the record's position. -/
def WrWhy.recordOf : WrWhy → Option (Nat × QPos)
  | .recordLow q p => some (q, p)
  | .recordHigh q p => some (q, p)
  | _ => none

/-- Record writes of a queue that wait, those of one record or all, are not issued any more (log 100). -/
def Dev.dropWrites (d : Dev) (q : Nat) (pos : Option QPos) : Dev :=
  let mine (w : HWr) : Bool := w.why.recordOf.any fun r => r.1 == q && pos.all fun p => r.2 == p
  { d.updQueue q fun x => { x with recWr := x.recWr - (d.qmg.wrWait.filter mine).length } with
    qmg.wrWait := d.qmg.wrWait.filter fun w => !mine w }

/-- A queue's ring is accessed no more. -/
def Dev.leaveRing (d : Dev) (q : Nat) : Dev := (d.dropReads q).dropWrites q none

/-- The number of no queue, for transfers outstanding whose queue has become NONE. -/
def noQueue : Nat := 16384

/-- Transfers outstanding of a queue that is deleted: their ends concern no queue that takes its number later (log 100). -/
def Dev.detach (d : Dev) (q : Nat) : Dev :=
  let wr : WrWhy → WrWhy := fun x => match x with
    | .recordLow p pos => .recordLow (if p = q then noQueue else p) pos
    | .recordHigh p pos => .recordHigh (if p = q then noQueue else p) pos
    | y => y
  let rd : RdWhy → RdWhy := fun x => match x with
    | .entries p pos n s => .entries (if p = q then noQueue else p) pos n s
    | y => y
  { d with qmg.wrOut := d.qmg.wrOut.map fun p => (p.1, p.2.map fun (w : HWr) => { w with why := wr w.why })
           qmg.rdOut := d.qmg.rdOut.map fun p => (p.1, p.2.map fun (r : HRd) => { r with why := rd r.why }) }

/-- A queue turns NONE. -/
def Dev.removeQueue (d : Dev) (q : Nat) : Dev := ((d.leaveRing q).detach q).setQueue q default

/-- Positions, cause and cache of a queue that RESET_QUEUE has reset (spec/12 R338). Record writes outstanding go on: their
ends concern the queue as before (spec/12 R335, R342). -/
def Queue.cleared (x : Queue) : Queue :=
  { x with st := .idle, tail := 0, fetch := 0, head := 0, old := 0, cause := 0, pos := 0, done := 0, seq := 0, cached := [],
           scanning := false, again := false, stopped := false, resetting := false, resetBy := [] }

/-- The completion write of an entry (spec/12 R331); its TIMESTAMP is set again where it is issued later (spec/13 R355). -/
def Dev.issueCpl (d : Dev) (q : Nat) (pos : QPos) : Dev :=
  match d.exec1 q pos with
  | none => d
  | some x =>
    let c := x.cpl.getD (Cpl.ok 0)
    let qu := d.queue q
    (d.updExec q pos fun y => { y with st := .completing }).hostWrite (qu.at pos + 48)
      (c.bytes qu.fmt.toNat d.stamp) q (.completion q pos (!nointFlag x.entry))

/-- ADMIN_RESET takes place once queue 0 has no entry in execution (spec/12 R340). -/
def Dev.adminCheck (d : Dev) : Dev :=
  let x := d.queue 0
  if x.resetting && x.exec.isEmpty then d.removeQueue 0 else d

/-- A RESET_QUEUE that waited completes. -/
def Dev.resetDone (c : Nat × QPos) (d : Dev) : Dev :=
  let e := d.updExec c.1 c.2 fun y => { y with cpl := some (Cpl.ok 0), st := .writing }
  match e.exec1 c.1 c.2 with
  | none => e
  | some y => if y.discard then (e.dropExec c.1 c.2).adminCheck else e.issueCpl c.1 c.2

/-- A reset that waits for entries in execution takes place once there are none (spec/12 R338, R340). -/
def Dev.endReset (d : Dev) (q : Nat) : Dev :=
  let x := d.queue q
  if !x.resetting || !x.exec.isEmpty then d
  else if x.resetBy.isEmpty then d.removeQueue q
  else forAll x.resetBy Dev.resetDone ((d.leaveRing q).updQueue q Queue.cleared)

/-- The completion write, or for a discarded completion none (spec/12 R334). -/
def Dev.writeCpl (d : Dev) (q : Nat) (pos : QPos) : Dev :=
  match d.exec1 q pos with
  | none => d
  | some x => if x.discard then (d.dropExec q pos).endReset q else d.issueCpl q pos

/-- SVC_BULK_DONE where the command that completes is a service command (spec/15 R414). -/
def Dev.noteBulk (d : Dev) (q : Nat) (pos : QPos) : Dev :=
  if (d.exec1 q pos).any fun x => decide (cSanitize ≤ opcode x.entry ∧ opcode x.entry ≤ cTranscode) then d.raise bSvc 6 else d

/-- A command ends: its result-buffer writes, then its completion (spec/12 R331). -/
def Dev.finishWith (d : Dev) (q : Nat) (pos : QPos) (c : Cpl) (writes : List (Nat × Bytes)) : Dev :=
  let pieces := writes.flatMap fun w => splitWrite (w.2.length + 1) w.1 w.2
  let d := (d.noteBulk q pos).updExec q pos fun y => { y with cpl := some c, st := .writing, wrLeft := pieces.length, wrFail := false, buf := [] }
  if pieces.isEmpty then d.writeCpl q pos
  else forAll pieces (fun w e => e.hostWrite w.1 w.2 q (.result q pos)) d

def Dev.finish (d : Dev) (q : Nat) (pos : QPos) (c : Cpl) : Dev := d.finishWith q pos c []

/-- The command goes on in further steps. -/
def Dev.running (d : Dev) (q : Nat) (pos : QPos) : Dev := d.updExec q pos fun y => { y with st := .running }

/-- The entry that a command row names, when its input is in hand and it holds that opcode. -/
def Dev.readyEntry (d : Dev) (q : Nat) (pos : QPos) (op : Nat) : Option Exec :=
  match d.exec1 q pos with
  | some x => if x.st == .ready && decide (opcode x.entry = op) then some x else none
  | none => none

/-- Commands that lifecycle BLANK admits; the key commands have limits of their own (spec/17 R457, spec/11 R300). -/
def blankOk (op : Nat) : Bool := op ∈ [0x01, 0x02, 0x03, 0x04, 0x05, 0x06, 0x20, 0x21, 0x22, 0x23, 0x24]

/-! ### Batches (spec/13 R359) -/

/-- Element size of a batch. -/
def elemSize (op : Nat) : Nat := if op = cKeyInstall then 96 else if op = cRegionWrite then 32 else 16

/-- Bytes of the logical buffer. -/
def Exec.total (x : Exec) : Nat := x.frags.foldl (fun a f => a + f.len) 0

/-- A batch buffer holds a whole number of elements, 1 to 65,536. -/
def Exec.batchOk (x : Exec) : Bool :=
  let n := elemSize (opcode x.entry)
  decide (x.total % n = 0 ∧ 1 ≤ x.total / n ∧ x.total / n ≤ 65536)

/-- A command with fragments that is a batch has a buffer of whole elements (spec/13 R359). -/
def Exec.batchRule (x : Exec) : List (Nat × Bool) :=
  let o := opcode x.entry
  [(36, !fragFlag x.entry || o == cSeal || o == cUnseal || x.batchOk)]

/-- Run a batch: elements in order until one does not succeed. -/
def runBatch (f : Bytes → Dev → Dev × Cpl) (size : Nat) : Nat → Nat → Bytes → Dev → Dev × Cpl
  | 0, i, _, d => (d, Cpl.ok (BitVec.ofNat 32 i))
  | fuel + 1, i, b, d =>
    if b = [] then (d, Cpl.ok (BitVec.ofNat 32 i)) else
      let r := f (b.take size) d
      if r.2.status = 0 then runBatch f size fuel (i + 1) (b.drop size) r.1
      else (r.1, { r.2 with result := BitVec.ofNat 32 i })

/-! ### Command rows -/

/-- An entry whose turn it is: the operand checks, then lifecycle, then the command (spec/13 R357). -/
def Dev.checked (d : Dev) (q : Nat) (pos : QPos) (x : Exec) (more : List (Nat × Bool)) (act : Exec → Dev → Dev) : Dev :=
  match operandBad x.entry (more ++ x.batchRule) with
  | some o => d.finish q pos (Cpl.invalid 0 o)
  | none => if d.lifecycle = 0 && !blankOk (opcode x.entry) then d.finish q pos (Cpl.invalid 3 0) else act x d

/-- Run a command row. -/
def Dev.command (d : Dev) (q : Nat) (pos : QPos) (op : Nat) (more : Dev → Exec → List (Nat × Bool))
    (act : Exec → Dev → Dev) : Dev :=
  match d.readyEntry q pos op with
  | none => d
  | some x => d.checked q pos x (more d x) act

/-- No further rules. -/
def noRules (_ : Dev) (_ : Exec) : List (Nat × Bool) := []

/-- MEASURE runs: what it measures does not change (spec/11 R312). -/
def Dev.measuring (d : Dev) : Bool :=
  d.qmg.queues.any fun p => p.2.exec.any fun x => (x.st == .running || x.st == .writing) && decide (opcode x.entry = cMeasure)

end Machine
end Sys2Proof
end

