-- ==== Sys2Proof/Machine/Access.lean ====
section
/-! DEFINITION. The accesses of the request path as a list, and the two configuration sets. -/

namespace Sys2Proof
namespace Machine

def Dev.acc (d : Dev) (id : Nat) : Option Access := d.fab.accs.find? fun a => a.id == id
def Dev.updAcc (d : Dev) (id : Nat) (f : Access → Access) : Dev :=
  { d with fab.accs := d.fab.accs.map fun a => if a.id = id then f a else a }
def Dev.dropAcc (d : Dev) (id : Nat) : Dev := { d with fab.accs := d.fab.accs.filter fun a => a.id ≠ id }

/-- The outcome of an access is decided; the first decision stands (spec/04 R120). It is in no lane then, and no session key is
held for it (spec/07 R174). -/
def Dev.outcome (d : Dev) (id : Nat) (st : Status) : Dev :=
  d.updAcc id fun a => if a.stage = .done then a else { a with stage := .done, status := st, linkKey := none, winKey := none }

/-- Set number of the active set: A while bit 0 of the generation is 1 (spec/06 R158). -/
def activeOf (gen : Word32) : Nat := if gen.getLsbD 0 then 0 else 1
def Dev.activeSet (d : Dev) : Nat := activeOf d.rmp.gen
def Dev.shadowSet (d : Dev) : Nat := 1 - d.activeSet
/-- A set operand: 0 active, 1 shadow (spec/13 R370). -/
def Dev.setNamed (d : Dev) (n : Nat) : Nat := if n = 0 then d.activeSet else d.shadowSet

def Dev.stlSet (d : Dev) (s : Nat) : StlSet := if s = 0 then d.stl.setA else d.stl.setB
def Dev.putStlSet (d : Dev) (s : Nat) (x : StlSet) : Dev :=
  if s = 0 then { d with stl.setA := x } else { d with stl.setB := x }
def Dev.rmpSet (d : Dev) (s : Nat) : RmpSet := if s = 0 then d.rmp.setA else d.rmp.setB
def Dev.putRmpSet (d : Dev) (s : Nat) (x : RmpSet) : Dev :=
  if s = 0 then { d with rmp.setA := x } else { d with rmp.setB := x }

/-- Requests in flight with an earlier generation than the current one (spec/06 R167, RMP_OLDGEN). -/
def Dev.oldInFlight (d : Dev) : Nat :=
  (d.fab.accs.filter fun a => a.inFlight && decide (a.gen ≠ d.rmp.gen)).length

/-- FAB_INFLIGHT (spec/04 R125). -/
def Dev.readsInFlight (d : Dev) : Nat := (d.fab.accs.filter fun a => a.inFlight && !a.isWrite).length
def Dev.writesInFlight (d : Dev) : Nat := (d.fab.accs.filter fun a => a.inFlight && a.isWrite).length

def Dev.parked (d : Dev) : List Access := d.fab.accs.filter fun a => a.stage == .parked

end Machine
end Sys2Proof
end

