-- ==== Sys2Proof/Machine/Stream.lean ====
section
/-! DEFINITION. The stream table, learning and parking (spec/05). -/

namespace Sys2Proof
namespace Machine

/-! ### Geometry and lookup (spec/05 R128-R130) -/

def StlSet.indexBits (t : StlSet) : Nat := 12 + t.size.toNat

/-- mix of spec/05 R129. -/
def streamMix (x seed c : Word32) (b : Nat) : Nat :=
  let y := x ^^^ seed
  let y := y ^^^ (y >>> 16)
  let y := y * c
  let y := y ^^^ (y >>> 13)
  (y >>> (32 - b)).toNat

def StlSet.h0 (t : StlSet) (sid kid : BitVec 16) : Nat := streamMix (sid ++ kid) t.seed0 0x9E3779B1#32 t.indexBits
def StlSet.h1 (t : StlSet) (sid kid : BitVec 16) : Nat :=
  let b := streamMix (sid ++ kid) t.seed1 0xD35A2D97#32 t.indexBits
  let a := t.h0 sid kid
  if b = a then a.xor 1 else b

def SEntry.hasKey (e : SEntry) (sid kid : BitVec 16) : Bool := e.sid == sid && e.kid == kid

/-- Slot of a bucket that holds a key. -/
def StlSet.inBucket (t : StlSet) (bk : Nat) (sid kid : BitVec 16) : Option Nat :=
  ((List.range 4).map fun s => 4 * bk + s).find? fun i =>
    match t.tab.get i with | some e => e.hasKey sid kid | none => false

/-- Lowest free slot of a bucket. -/
def StlSet.freeIn (t : StlSet) (bk : Nat) : Option Nat :=
  ((List.range 4).map fun s => 4 * bk + s).find? fun i => (t.tab.get i).isNone

/-- The index and entry of a key in set `s`: its two buckets and the move-in-flight register of that set. -/
def Dev.findStream (d : Dev) (s : Nat) (sid kid : BitVec 16) : Option (Nat × SEntry) :=
  let t := d.stlSet s
  match t.inBucket (t.h0 sid kid) sid kid with
  | some i => (t.tab.get i).map fun e => (i, e)
  | none =>
    match t.inBucket (t.h1 sid kid) sid kid with
    | some i => (t.tab.get i).map fun e => (i, e)
    | none =>
      match d.stl.move with
      | some m => if m.set = s ∧ m.entry.hasKey sid kid then some (m.dst, m.entry) else none
      | none => none

/-- Write or clear one slot of set `s`. -/
def Dev.putSlot (d : Dev) (s i : Nat) (e : Option SEntry) : Dev :=
  let t := d.stlSet s
  d.putStlSet s { t with tab := t.tab.put i e }

/-- The slots that a lookup of a key compares: those of its two buckets (spec/05 R130). -/
def StlSet.compares (t : StlSet) (sid kid : BitVec 16) (i : Nat) : Bool :=
  decide (i / 4 = t.h0 sid kid ∨ i / 4 = t.h1 sid kid)

/-- What the check bits show of the slots read: a slot with an uncorrectable error is cleared and counts as empty. -/
def Dev.slotErrors (d : Dev) (s : Nat) (reads : Nat → Bool) (chk : List Chk) : Dev :=
  forAll chk (fun c e => match c with
    | .slot i u => if !reads i.toNat then e else if u then (e.putSlot s i.toNat none).raise bStl 1 else e.raise bStl 0
    | .region _ _ => e
    | .zenith => e) d

/-! ### Learning (spec/05 R138, R142-R145) -/

def Dev.filterOf (d : Dev) (sid kid : BitVec 16) : Option Filter :=
  d.stl.filter.find? fun f => f.sid == sid && f.kid == kid

def isLearn (sid kid : BitVec 16) : RecKind → Bool
  | .learn s k => s == sid && k == kid
  | .join s k => s == sid && k == kid
  | _ => false

/-- Bring a filter entry in line with the requests parked for its stream: its count, or its end. -/
def Dev.syncFilter (d : Dev) (sid kid : BitVec 16) : Dev :=
  let n := (d.parked.filter fun a => a.sid == sid && a.kid == kid).length
  if n = 0 then
    { d with stl.filter := d.stl.filter.filter fun f => !(f.sid == sid && f.kid == kid) }.unpost .stl (isLearn sid kid)
  else { d with stl.filter := d.stl.filter.map fun f => if f.sid == sid && f.kid == kid then { f with count := n } else f }

/-- Post the event of a new filter entry or a new type. -/
def Dev.postLearn (d : Dev) (f : Filter) : Dev :=
  d.post .stl { typ := if f.isPort then 0x0003 else 0x0001, source := bStl, payload := [], time := f.createdAt % 2 ^ 48,
                kind := .learn f.sid f.kid }

/-- A request has parked: its filter entry (spec/05 R143, R144). -/
def Dev.learn (d : Dev) (p : Nat) (sid kid : BitVec 16) (isPort : Bool) (hit : SEntry) : Dev :=
  let bitP : BitVec 8 := 1 <<< p
  match d.filterOf sid kid with
  | none =>
    let f : Filter := ⟨sid, kid, isPort, bitP, d.stl.learnId, 1, false, d.mgt.tref, hit.kslot, hit.ports⟩
    ({ d with stl.filter := d.stl.filter ++ [f], stl.learnId := d.stl.learnId + 1 }).postLearn f
  | some f =>
    let put (e : Dev) (g : Filter) : Dev :=
      { e with stl.filter := e.stl.filter.map fun x => if x.sid == sid && x.kid == kid then g else x }
    if f.isPort != isPort then
      let g := { f with isPort := isPort, ports := bitP, learnId := d.stl.learnId, written := false,
                        entKslot := hit.kslot, entPorts := hit.ports }
      (put { d.unpost .stl (isLearn sid kid) with stl.learnId := d.stl.learnId + 1 } g).postLearn g
    else if f.ports.getLsbD p then d
    else
      let g := { f with ports := f.ports ||| bitP }
      let e := put d g
      if f.written then
        e.post .stl { typ := 0x0002, source := bStl, payload := payload [(14, 1, p)], time := f.createdAt % 2 ^ 48,
                      kind := .join sid kid }
      else e

/-- The payload of a held record at its first write (spec/13 R379): a learn record's is taken from its filter entry. -/
def Dev.recPayload (d : Dev) (r : Rec) : Bytes :=
  match r.kind with
  | .learn sid kid =>
    match d.filterOf sid kid with
    | none => r.payload
    | some f =>
      payload ([(8, 2, sid.toNat), (10, 2, kid.toNat), (12, 2, f.learnId.toNat), (14, 1, f.ports.toNat)] ++
        (if f.isPort then [(15, 1, f.entPorts.toNat), (16, 2, f.entKslot.toNat)] else [(16, 2, f.count)]))
  | .join sid kid =>
    match d.filterOf sid kid with
    | none => r.payload
    | some f =>
      payload [(8, 2, sid.toNat), (10, 2, kid.toNat), (12, 2, f.learnId.toNat), (14, 1, field r.payload 6 1),
        (15, 1, f.ports.toNat)]
  | _ => r.payload

/-- The first write of a learn record is issued. -/
def Dev.learnWritten (d : Dev) (r : Rec) : Dev :=
  match r.kind with
  | .learn sid kid =>
    { d with stl.filter := d.stl.filter.map fun f => if f.sid == sid && f.kid == kid then { f with written := true } else f }
  | _ => d

def Dev.countReject (d : Dev) (p : Nat) : Dev :=
  { d with stl.rejectCnt := d.stl.rejectCnt.upd p fun n => satAdd 0xFFFFFFFF n 1 }

/-- Mark parked requests released (spec/05 R139). -/
def Dev.release (d : Dev) (which : Access → Bool) : Dev :=
  { d with fab.accs := d.fab.accs.map fun a => if a.stage == .parked && which a then { a with released := true } else a }

/-! ### The reject list (spec/05 R136) -/

def Dev.rejected (d : Dev) (sid kid : BitVec 16) : Bool := d.stl.reject.contains (sid, kid)
def Dev.unreject (d : Dev) (sid kid : BitVec 16) : Dev :=
  { d with stl.reject := d.stl.reject.filter (· ≠ (sid, kid)) }
/-- The stream takes the newest position; the oldest drops out beyond 256. -/
def Dev.rejectStream (d : Dev) (sid kid : BitVec 16) : Dev :=
  let l := (d.unreject sid kid).stl.reject ++ [(sid, kid)]
  let e := { d with stl.reject := l.drop (l.length - Config.maxReject) }
  if decide (d.stl.reject.length < Config.maxReject) && decide (Config.maxReject ≤ l.length) then e.raise bStl 4 else e

/-! ### Insert and relocation (spec/05 R132-R135) -/

/-- The slot a search step takes: none when every slot of the bucket is on the path. -/
def offPath (path : List (Nat × Nat)) (cur : Nat) : Nat → Nat → Option Nat
  | 0, _ => none
  | fuel + 1, s => if 4 ≤ s then none else if (cur, s) ∈ path then offPath path cur fuel (s + 1) else some s

/-- The search: the path of (bucket, slot), first step first, and the destination of its last victim. -/
def StlSet.search (t : StlSet) : Nat → Nat → Nat → List (Nat × Nat) → Option (List (Nat × Nat) × Nat)
  | 0, _, _, _ => none
  | fuel + 1, i, cur, path =>
    match offPath path cur 5 (i % 4) with
    | none => none
    | some s =>
      match t.tab.get (4 * cur + s) with
      | none => none
      | some v =>
        let path := path ++ [(cur, s)]
        let a := t.h0 v.sid v.kid
        let alt := if a = cur then t.h1 v.sid v.kid else a
        match t.freeIn alt with
        | some dst => some (path, dst)
        | none => t.search fuel (i + 1) alt path

/-- One move in its four cycles: register loaded, destination written, source cleared, register cleared (spec/05 R133). -/
def Dev.moveEntry (d : Dev) (s src dst : Nat) : Dev :=
  match (d.stlSet s).tab.get src with
  | none => d
  | some v =>
    let d := { d with stl.move := some ⟨v, s, dst⟩ }
    let d := (d.putSlot s dst (some v)).putSlot s src none
    { d with stl.move := none }

/-- Move along a path, given last victim first. -/
def Dev.movePath (s : Nat) : List (Nat × Nat) → Nat → Dev → Dev × Nat
  | [], dst, d => (d, dst)
  | (bk, sl) :: r, dst, d => Dev.movePath s r (4 * bk + sl) (d.moveEntry s (4 * bk + sl) dst)

/-- What a successful insert brings about (spec/05 R136, R139). -/
def Dev.inserted (d : Dev) (s : Nat) (e : SEntry) : Dev :=
  if s = d.activeSet then (d.unreject e.sid e.kid).release fun a => a.sid == e.sid && a.kid == e.kid else d

/-- The victim of an eviction: highest AGE of the unlocked slots of the two buckets, first in order. -/
def StlSet.oldestUnlocked (t : StlSet) (sid kid : BitVec 16) : Option (Nat × SEntry) :=
  let slots := ([t.h0 sid kid, t.h1 sid kid].flatMap fun b => (List.range 4).map fun s => 4 * b + s)
  slots.foldl (fun m i => match t.tab.get i with
    | none => m
    | some e => if e.lock then m else
      match m with
      | none => some (i, e)
      | some x => if x.2.age < e.age then some (i, e) else m) none

/-- No room: eviction from a small table, rejection from a large one. -/
def Dev.insertFails (d : Dev) (s : Nat) (e : SEntry) : Dev × Cpl :=
  let t := d.stlSet s
  match (if t.size.toNat < 2 then t.oldestUnlocked e.sid e.kid else none) with
  | some (i, v) =>
    let d := { d.putSlot s i (some e) with stl.evictCnt := satAdd 0xFFFFFFFF d.stl.evictCnt 1 }
    let d := d.event .stl 0x0004 bStl .evicted [(8, 2, v.sid.toNat), (10, 2, v.kid.toNat), (12, 2, v.kslot.toNat),
      (14, 1, v.age), (15, 1, s)]
    (d.inserted s e, Cpl.okx (v.sid ++ v.kid) 1)
  | none => (if s = d.activeSet then d.rejectStream e.sid e.kid else d, Cpl.tableFull)

/-- STREAM_INSERT of one stream (spec/05 R132). -/
def Dev.insertStream (d : Dev) (s : Nat) (e : SEntry) : Dev × Cpl :=
  let t := d.stlSet s
  let h0 := t.h0 e.sid e.kid
  if (d.findStream s e.sid e.kid).isSome then (d, Cpl.exists) else
    match (t.freeIn h0).orElse fun _ => t.freeIn (t.h1 e.sid e.kid) with
    | some i => ((d.putSlot s i (some e)).inserted s e, Cpl.ok 0)
    | none =>
      match t.search d.stl.relocLimit 0 h0 [] with
      | none => d.insertFails s e
      | some (path, dst) =>
        let r := Dev.movePath s path.reverse dst d
        ((r.1.putSlot s r.2 (some e)).inserted s e, Cpl.ok 0)

/-- STREAM_REMOVE of one stream (spec/05 R134). -/
def Dev.removeStream (d : Dev) (s : Nat) (sid kid : BitVec 16) : Dev × Cpl :=
  match d.findStream s sid kid with
  | none => (d, Cpl.notFound)
  | some (i, _) => (d.putSlot s i none, Cpl.ok 0)

/-- The 128 bits of an entry (spec/05 R127). -/
def SEntry.bytes (e : SEntry) : Bytes :=
  leBytes 16 (flag e.lock * 2 ^ 72 + e.age * 2 ^ 64 + 2 ^ 56 + e.ports.toNat * 2 ^ 48 + e.kslot.toNat * 2 ^ 32
    + e.kid.toNat * 2 ^ 16 + e.sid.toNat)

def bv16 (n : Nat) : BitVec 16 := BitVec.ofNat 16 n

/-- An element of an insert batch (spec/13 R370). -/
def insertElem (set : Nat) (b : Bytes) (d : Dev) : Dev × Cpl :=
  let rules : List (Nat × Bool) := [(6, field b 6 1 != 0), (7, decide (field b 7 1 < 2))] ++
    ((List.range 8).map fun k => (8 + k, field b (8 + k) 1 == 0))
  match rules.find? fun r => !r.2 with
  | some r => (d, Cpl.invalid 6 r.1)
  | none => d.insertStream set ⟨field b 7 1 = 1, 0, BitVec.ofNat 8 (field b 6 1), bv16 (field b 4 2), bv16 (field b 2 2), bv16 (field b 0 2)⟩

/-- An element of a remove batch. -/
def removeElem (set : Nat) (b : Bytes) (d : Dev) : Dev × Cpl :=
  match (List.range 12).find? fun k => field b (4 + k) 1 ≠ 0 with
  | some k => (d, Cpl.invalid 6 (4 + k))
  | none => d.removeStream set (bv16 (field b 0 2)) (bv16 (field b 2 2))

/-! ### Stream commands in their order of arrival (spec/05 R132, R146; spec/04 R106; spec/06 R159) -/

/-- A stream command that must wait: its set clears, or it would change a set that old requests still use. -/
def Dev.streamWaits (d : Dev) (e : Line) : Bool :=
  decide (num e 8 1 = 1) && ((d.stlSet d.shadowSet).clearing || (opcode e != cStreamQuery && decide (0 < d.oldInFlight)))

/-- What the check bits show to element `k` of a command; a single command is element 0. -/
def elemChk (chk : List (Nat × Chk)) (k : Nat) : List Chk := (chk.filter fun c => c.1 = k).map (·.2)

/-- Run a batch whose elements meet check-bit errors of the table of set `s`. -/
def runStreams (f : Bytes → Dev → Dev × Cpl) (s : Nat) (chk : List (Nat × Chk)) : Nat → Nat → Bytes → Dev → Dev × Cpl
  | 0, i, _, d => (d, Cpl.ok (BitVec.ofNat 32 i))
  | fuel + 1, i, b, d =>
    if b = [] then (d, Cpl.ok (BitVec.ofNat 32 i)) else
      let r := f (b.take 16) (d.slotErrors s (fun _ => true) (elemChk chk i))
      if r.2.status = 0 then runStreams f s chk fuel (i + 1) (b.drop 16) r.1
      else (r.1, { r.2 with result := BitVec.ofNat 32 i })

/-- Execute a stream command. `chk`: what the check bits of the slots it reads show (spec/05 R130). -/
def Dev.doStream (d : Dev) (q : Nat) (pos : QPos) (x : Exec) (chk : List (Nat × Chk)) : Dev :=
  let e := x.entry
  let s := d.setNamed (num e 8 1)
  let sid := bv16 (num e 12 2)
  let kid := bv16 (num e 14 2)
  let o := opcode e
  if fragFlag e then
    let r := runStreams (if o = cStreamInsert then insertElem s else removeElem s) s chk 65537 0 x.buf d
    r.1.finish q pos r.2
  else
  let d := d.slotErrors s (fun _ => true) (elemChk chk 0)
  if o = cStreamInsert then
    let r := d.insertStream s ⟨num e 19 1 % 2 = 1, 0, BitVec.ofNat 8 (num e 18 1), bv16 (num e 16 2), kid, sid⟩
    r.1.finish q pos r.2
  else if o = cStreamRemove then
    let r := d.removeStream s sid kid
    r.1.finish q pos r.2
  else
    match d.findStream s sid kid with
    | none => d.finish q pos Cpl.notFound
    | some (i, v) => d.finishWith q pos (Cpl.ok (BitVec.ofNat 32 i)) [(num e 16 8, v.bytes)]

/-- What becomes of the command at the head of a table's commands: it has ended, it goes on or waits, or it acts now. -/
inductive Turn where
  | ended | busy | act (x : Exec)

/-- MEASURE takes its place among them and acts by its own row (spec/11 R312). -/
def Dev.turn (d : Dev) (q : Nat) (pos : QPos) : Turn :=
  match d.exec1 q pos with
  | none => .ended
  | some x =>
    if x.st == .completing then .ended
    else if x.st == .running && decide (opcode x.entry ≠ cMeasure) then .act x
    else .busy

/-- Execute the waiting stream commands, oldest first, until one must wait; each finishes before the next begins. -/
def Dev.pumpStream : Nat → Dev → Dev
  | 0, d => d
  | fuel + 1, d =>
    match d.stl.cmds with
    | [] => d
    | (q, pos, chk) :: r =>
      match d.turn q pos with
      | .ended => Dev.pumpStream fuel { d with stl.cmds := r }
      | .busy => d
      | .act x => if d.streamWaits x.entry then d else Dev.pumpStream fuel (d.doStream q pos x chk)

/-- Each waiting command acts and leaves at most once. -/
def Dev.pumpStreams (d : Dev) : Dev := Dev.pumpStream (2 * d.stl.cmds.length + 1) d

/-- A command takes its place at STL; one that arrives while a swap waits, after its swap cycle (spec/06 R159). -/
def Dev.queueStl (d : Dev) (c : Nat × QPos × List (Nat × Chk)) : Dev :=
  if d.rmp.swap.isSome then { d with stl.held := d.stl.held ++ [c] } else { d with stl.cmds := d.stl.cmds ++ [c] }

/-- A stream command row: it arrives at STL and executes, or waits. -/
def Dev.streamCommand (d : Dev) (q : Nat) (pos : QPos) (op : Nat) (chk : List (Nat × Chk)) : Dev :=
  (d.command q pos op noRules fun _ d => (d.running q pos).queueStl (q, pos, chk)).pumpStreams

def execStreamInsert (q : BitVec 14) (pos : BitVec 16) (chk : List (Nat × Chk)) (s : State) : Host.Outcome State Fault Refusal :=
  s.serve fun d => d.streamCommand q.toNat pos cStreamInsert chk
def execStreamRemove (q : BitVec 14) (pos : BitVec 16) (chk : List (Nat × Chk)) (s : State) : Host.Outcome State Fault Refusal :=
  s.serve fun d => d.streamCommand q.toNat pos cStreamRemove chk
def execStreamQuery (q : BitVec 14) (pos : BitVec 16) (chk : List (Nat × Chk)) (s : State) : Host.Outcome State Fault Refusal :=
  s.serve fun d => d.streamCommand q.toNat pos cStreamQuery chk

/-! ### Ageing (spec/05 R137) -/

/-- AGE of every valid entry of the active table rises by 1, once STL_AGE_PERIOD has passed. -/
def execAgeingTick (s : State) : Host.Outcome State Fault Refusal :=
  s.serve fun d =>
    if d.passed d.stl.ageAt d.stl.agePeriod then
      let k := d.activeSet
      let t := d.stlSet k
      { d.putStlSet k { t with tab := t.tab.mapAll fun _ e => e.map fun x => { x with age := min 255 (x.age + 1) } } with
        stl.ageAt := d.mgt.tref }
    else d

/-! ### Register rows of STL (spec/05 R146, R151) -/

/-- Start clearing the shadow set; a bit that names the active set is ignored with CFG_IGN. -/
def execStlClear (v : Word32) (s : State) : Host.Outcome State Fault Refusal :=
  s.core fun d =>
    let d := if bit v d.activeSet then { d with stl.cfgIgn := true } else d
    if bit v d.shadowSet then d.putStlSet d.shadowSet { d.stlSet d.shadowSet with clearing := true } else d

/-- A clear ends once no request with an old stamp holds the shadow (spec/05 R146, spec/04 R106). -/
def execStlClearDone (s : State) : Host.Outcome State Fault Refusal :=
  s.serve fun d =>
    let t := d.stlSet d.shadowSet
    if t.clearing && decide (d.oldInFlight = 0) then
      (d.putStlSet d.shadowSet { t with tab := [], clearing := false }).pumpStreams
    else d

def execStlRejectClr (v : Word32) (s : State) : Host.Outcome State Fault Refusal :=
  s.core fun d => if bit v 0 then { d with stl.reject := [] } else d

/-- Clear the counters of ports 0 to 7 whose bit is 1. -/
def clearPorts (v : Word32) (t : Tab Nat) : Tab Nat := t.filter fun p => !bit v p.1

def execStlCntClr (v : Word32) (s : State) : Host.Outcome State Fault Refusal :=
  s.core fun d =>
    { d with stl.rejectCnt := clearPorts v d.stl.rejectCnt
             stl.timeoutCnt := clearPorts v d.stl.timeoutCnt
             stl.parkfullCnt := clearPorts v d.stl.parkfullCnt
             stl.evictCnt := if bits v 7 0 = 0 then d.stl.evictCnt else 0 }

/-- A stream command that targets set `k` is running: the first of those at STL, once it has acted and until it ends. Those
that wait are not running, and MEASURE is a stream command for ordering only (spec/11 R312). -/
def Dev.streamBusy (d : Dev) (k : Nat) : Bool :=
  d.stl.cmds.head?.any fun c => match d.exec1 c.1 c.2.1 with
    | some x => x.st == .writing && decide (opcode x.entry ≠ cMeasure ∧ d.setNamed (num x.entry 8 1) = k)
    | none => false

def execStlGeomSeedWrite (reg : GeomReg) (set : Fin 2) (v : Word32) (s : State) : Host.Outcome State Fault Refusal :=
  s.core fun d =>
    let k := set.val
    let t := d.stlSet k
    if t.tab = [] ∧ (d.stl.setA.clearing || d.stl.setB.clearing) = false ∧ d.streamBusy k = false then
      d.putStlSet k (match reg with
        | .geom => { t with size := v.extractLsb' 0 2 }
        | .seed0 => { t with seed0 := v }
        | .seed1 => { t with seed1 := v })
    else { d with stl.cfgIgn := true }

end Machine
end Sys2Proof
end

