-- ==== Sys2Proof/Machine/Region.lean ====
section
/-! DEFINITION. The region map, key selection and SWAP_CONFIG (spec/06). -/

namespace Sys2Proof
namespace Machine

/-! ### Lookup and key selection (spec/06 R154, R155) -/

/-- The valid entry whose range holds DPA[45:21]. -/
def RmpSet.lookup (t : RmpSet) (line : LineNo) : Option (Nat × RegionCfg) :=
  let u := line.toNat / 2 ^ 15
  (t.tab.find? fun p => match p.2 with | some r => decide (r.base ≤ u ∧ u ≤ r.limit) | none => false).bind fun p =>
    p.2.map fun r => (p.1, r)

/-- What the check bits of region entries show to a lookup. -/
def Dev.regionErrors (d : Dev) (chk : List Chk) : Dev :=
  forAll chk (fun c e => match c with
    | .slot _ _ => e
    | .region _ u => e.raise bRmp (if u then 1 else 0)
    | .zenith => e) d

/-- A read of the zone's state where a lookup's region is in full-freshness mode (spec/08 R212). -/
def Dev.zoneRead (d : Dev) (full : Bool) (chk : List Chk) : Dev := d.zenithRead (full && chk.contains .zenith)

/-- A set as a lookup sees it: an entry whose check bits show an uncorrectable error counts as invalid. -/
def RmpSet.seen (t : RmpSet) (chk : List Chk) : RmpSet :=
  { t with tab := t.tab.filter fun p => !chk.contains (.region (BitVec.ofNat 12 p.1) true) }

/-- A lookup in the active set (spec/06 R154). -/
def Dev.regionLookup (d : Dev) (line : LineNo) (chk : List Chk) : Dev × Option (Nat × RegionCfg) :=
  (d.regionErrors chk, ((d.rmpSet d.activeSet).seen chk).lookup line)

/-- The lookups of a service step: an entry with an uncorrectable error is invalid for them (spec/06 R154). -/
def Dev.withRegions (d : Dev) (chk : List Chk) (f : Dev → Dev) : Dev :=
  let t := d.rmpSet d.activeSet
  (f ((d.regionErrors chk).putRmpSet d.activeSet (t.seen chk))).putRmpSet d.activeSet t

def Dev.rekey (d : Dev) (i : Nat) : Rekey := d.rmp.rekey.get i
def Dev.setRekey (d : Dev) (i : Nat) (r : Rekey) : Dev := { d with rmp.rekey := d.rmp.rekey.put i r }

/-- slot_for of spec/06 R155. -/
def slotFor (r : Rekey) (k : BitVec 16) (line : LineNo) : BitVec 16 :=
  if r.st == .done && k == r.old then r.new
  else if r.st == .active && k == r.old && decide (line.toNat / 64 < r.front) then r.new
  else k

def Dev.kslot (d : Dev) (k : BitVec 16) : Kslot := d.key.slots.get k.toNat
def Dev.slotLoaded (d : Dev) (k : BitVec 16) : Bool := (d.kslot k).st == .loaded

/-- Check 6 of spec/04 R104: the KSLOT, and NEW_KSLOT where the rekey part may substitute it. -/
def Dev.keyCheck (d : Dev) (i : Nat) (k : BitVec 16) : Bool :=
  let r := d.rekey i
  d.slotLoaded k && (if (r.st == .active || r.st == .done) && k == r.old then d.slotLoaded r.new else true)

/-! ### Entries (spec/06 R152, spec/13 R371, R372) -/

def modeOf (n : Nat) : Mode := if n = 0 then .full else if n = 1 then .mac else .cipher

/-- Bits [127:0] of spec/06 R152 of a valid entry. -/
def regionBits (c : RegionCfg) : Nat :=
  c.base + c.limit * 2 ^ 32 + c.kidLo.toNat * 2 ^ 64 + c.kidHi.toNat * 2 ^ 80 + c.mode.code * 2 ^ 96 +
    flag c.striped * 2 ^ 99 + c.group.toNat * 2 ^ 100 + 2 ^ 127

/-- The configured part of an index. -/
def RmpSet.bits (t : RmpSet) (i : Nat) : Nat :=
  match t.tab.get i with
  | some c => regionBits c
  | none => (t.stale.get i).toNat

/-- The configured part of an index as REGION_READ lays it out: format 1 has no stripe fields and VALID in bit 103. -/
def RmpSet.shown (t : RmpSet) (i : Nat) : Bytes :=
  let v := t.bits i
  leBytes 16 (if t.fmt = 1 then v % 2 ^ 98 + v / 2 ^ 127 % 2 * 2 ^ 103 else v)

/-- The 16 bytes of a rekey part; FRONT has 34 bits. -/
def rekeyBytes (r : Rekey) : Bytes :=
  leBytes 16 (r.st.code + r.old.toNat * 2 ^ 16 + r.new.toNat * 2 ^ 32 + r.front % 2 ^ 34 * 2 ^ 48)

/-- VALID of an ENTRY operand (16 bytes as a number). -/
def entryValid (fmt v : Nat) : Bool := decide ((if fmt = 1 then v / 2 ^ 103 else v / 2 ^ 127) % 2 = 1)

/-- The configured part an ENTRY operand gives. -/
def entryCfg (fmt v : Nat) : RegionCfg where
  base := v % 2 ^ 25
  limit := v / 2 ^ 32 % 2 ^ 25
  kidLo := bv16 (v / 2 ^ 64)
  kidHi := bv16 (v / 2 ^ 80)
  mode := modeOf (v / 2 ^ 96 % 4)
  striped := decide (fmt = 2 ∧ v / 2 ^ 99 % 2 = 1)
  group := if fmt = 2 then BitVec.ofNat 4 (v / 2 ^ 100) else 0

/-- Bits [hi:lo] of an operand are 0. -/
def zeroBits (v hi lo : Nat) : Bool := decide (v / 2 ^ lo % 2 ^ (hi + 1 - lo) = 0)

/-- The rules of spec/06 R153 on a valid ENTRY at offset `o`, by offset, but the overlap. -/
def entryRules (fmt v o : Nat) (poolCapable : Bool) : List (Nat × Bool) :=
  let c := entryCfg fmt v
  [(o, decide (c.base ≤ c.limit)), (o + 3, zeroBits v 31 25), (o + 7, zeroBits v 63 57),
   (o + 8, decide (c.kidLo.toNat ≤ c.kidHi.toNat)), (o + 12, decide (v / 2 ^ 96 % 4 ≠ 3)),
   (o + 12, if fmt = 1 then zeroBits v 102 98 else zeroBits v 98 98),
   (o + 12, !c.striped || poolCapable),
   (o + 13, if fmt = 1 then zeroBits v 127 104 else zeroBits v 126 104)]

/-- The index of another valid entry whose range overlaps. -/
def RmpSet.overlaps (t : RmpSet) (i : Nat) (c : RegionCfg) : Option Nat :=
  (t.tab.find? fun p => decide (p.1 ≠ i) && match p.2 with
    | some r => decide (c.base ≤ r.limit ∧ r.base ≤ c.limit)
    | none => false).map (·.1)

/-- The index of the entry that a valid ENTRY operand overlaps; a range that is none overlaps nothing. -/
def RmpSet.overlapped (t : RmpSet) (i v : Nat) : Option Nat :=
  let c := entryCfg t.fmt.toNat v
  if c.base ≤ c.limit then t.overlaps i c else none

/-- The rules of R153 on an ENTRY operand at offset `o`. -/
def Dev.regionRules (d : Dev) (i v o : Nat) : List (Nat × Bool) :=
  let t := d.rmpSet d.shadowSet
  if !entryValid t.fmt.toNat v then [] else
    (o, (t.overlapped i v).isNone) :: entryRules t.fmt.toNat v o (bit (d.mgt.fuse.getD 8 0) 3)

/-- The completion of a REGION_WRITE that breaks a rule at offset `b`: an overlap names the overlapped entry. -/
def Dev.regionBad (d : Dev) (i v kind o b : Nat) : Cpl :=
  let t := d.rmpSet d.shadowSet
  match (if b = o && entryValid t.fmt.toNat v then t.overlapped i v else none) with
  | some j => { Cpl.invalid kind b with result := BitVec.ofNat 32 j }
  | none => Cpl.invalid kind b

/-- REGION_WRITE of one index, whose operands keep the rules (spec/06 R153, R163). -/
def Dev.writeRegion (d : Dev) (i v : Nat) : Dev :=
  let s := d.shadowSet
  let t := d.rmpSet s
  let valid := entryValid t.fmt.toNat v
  d.putRmpSet s { t with
    tab := t.tab.put i (if valid then some (entryCfg t.fmt.toNat v) else none)
    stale := t.stale.put i (if valid then 0 else BitVec.ofNat 128 (if t.fmt = 1 then v % 2 ^ 98 else v)) }

/-- An element of a REGION_WRITE batch. -/
def regionElem (b : Bytes) (d : Dev) : Dev × Cpl :=
  if 4096 ≤ field b 0 2 then (d, Cpl.invalid 6 0) else
    match (List.range 14).find? fun k => field b (2 + k) 1 ≠ 0 with
    | some k => (d, Cpl.invalid 6 (2 + k))
    | none =>
      let i := field b 0 2
      let v := field b 16 16
      match ((d.regionRules i v 16).filterMap fun r => if r.2 then none else some r.1).min? with
      | some o => (d, d.regionBad i v 6 16 o)
      | none => (d.writeRegion i v, Cpl.ok 0)

/-- A region command that must wait (spec/06 R161, R164). -/
def Dev.regionWaits (d : Dev) (e : Line) : Bool :=
  if opcode e = cRegionWrite then (d.rmpSet d.shadowSet).clearing || decide (0 < d.oldInFlight)
  else decide (num e 8 1 = 1) && (d.rmpSet d.shadowSet).clearing

/-- Execute a region command. The operands of REGION_WRITE are those of the format its set has now (spec/13 R371). -/
def Dev.doRegion (d : Dev) (q : Nat) (pos : QPos) (x : Exec) : Dev :=
  let e := x.entry
  if opcode e = cRegionWrite then
    let i := num e 8 2
    let v := num e 16 16
    if fragFlag e then
      d.checked q pos x [] fun x d =>
        let r := runBatch regionElem 32 65537 0 x.buf d
        r.1.finish q pos r.2
    else
      match operandBad e (d.regionRules i v 16) with
      | some o => d.finish q pos (d.regionBad i v 0 16 o)
      | none => d.checked q pos x [] fun _ d => (d.writeRegion i v).finish q pos (Cpl.ok 0)
  else
    let t := d.rmpSet (d.setNamed (num e 8 1))
    let i := num e 10 2
    d.finishWith q pos (Cpl.okx (BitVec.ofNat 32 t.fmt.toNat) (BitVec.ofNat 8 (flag (t.tab.get i).isSome)))
      [(num e 16 8, t.shown i ++ rekeyBytes (d.rekey i))]

/-- Execute the waiting region commands, oldest first, until one must wait; each finishes before the next begins. -/
def Dev.pumpRegion : Nat → Dev → Dev
  | 0, d => d
  | fuel + 1, d =>
    match d.rmp.cmds with
    | [] => d
    | (q, pos) :: r =>
      match d.turn q pos with
      | .ended => Dev.pumpRegion fuel { d with rmp.cmds := r }
      | .busy => d
      | .act x => if d.regionWaits x.entry then d else Dev.pumpRegion fuel (d.doRegion q pos x)

def Dev.pumpRegions (d : Dev) : Dev := Dev.pumpRegion (2 * d.rmp.cmds.length + 1) d

/-- What waits for the commands of both tables goes on. -/
def Dev.pumpTables (d : Dev) : Dev := d.pumpStreams.pumpRegions

/-- A command takes its place at RMP; one that arrives while a swap waits, after its swap cycle (spec/06 R159). -/
def Dev.queueRmp (d : Dev) (c : Nat × QPos) : Dev :=
  if d.rmp.swap.isSome then { d with rmp.held := d.rmp.held ++ [c] } else { d with rmp.cmds := d.rmp.cmds ++ [c] }

/-- A command arrives at RMP. -/
def Dev.atRmp (d : Dev) (q : Nat) (pos : QPos) : Dev := (d.running q pos).queueRmp (q, pos)

/-- A region command row: it arrives at RMP and executes, or waits. -/
def Dev.regionCommand (d : Dev) (q : Nat) (pos : QPos) (op : Nat) : Dev :=
  if op = cRegionWrite then
    (if (d.readyEntry q pos op).isSome then d.atRmp q pos else d).pumpRegions
  else (d.command q pos op noRules fun _ d => d.atRmp q pos).pumpRegions

def execRegionWrite (q : BitVec 14) (pos : BitVec 16) (s : State) : Host.Outcome State Fault Refusal :=
  s.serve fun d => d.regionCommand q.toNat pos cRegionWrite
def execRegionRead (q : BitVec 14) (pos : BitVec 16) (s : State) : Host.Outcome State Fault Refusal :=
  s.serve fun d => d.regionCommand q.toNat pos cRegionRead

/-! ### Register rows of RMP (spec/06 R164) -/

def execRmpClear (v : Word32) (s : State) : Host.Outcome State Fault Refusal :=
  s.core fun d =>
    let d := if bit v d.activeSet then { d with rmp.cfgIgn := true } else d
    if bit v d.shadowSet then d.putRmpSet d.shadowSet { d.rmpSet d.shadowSet with clearing := true } else d

def execRmpClearDone (s : State) : Host.Outcome State Fault Refusal :=
  s.serve fun d =>
    let t := d.rmpSet d.shadowSet
    if t.clearing && decide (d.oldInFlight = 0) then
      (d.putRmpSet d.shadowSet { t with tab := [], stale := [], clearing := false }).pumpRegions
    else d

/-- A region command is running: the first of those at RMP, once it has acted and until it ends. Those that wait are not, and
MEASURE is a region command for ordering only (spec/11 R312). -/
def Dev.regionBusy (d : Dev) : Bool :=
  d.rmp.cmds.head?.any fun c => match d.exec1 c.1 c.2 with
    | some x => x.st == .writing && decide (opcode x.entry ≠ cMeasure)
    | none => false

def execRmpSetCfg (set : Fin 2) (v : Word32) (s : State) : Host.Outcome State Fault Refusal :=
  s.core fun d =>
    let k := set.val
    let t := d.rmpSet k
    if k = d.shadowSet ∧ t.tab = [] ∧ (d.rmp.setA.clearing || d.rmp.setB.clearing) = false ∧ d.regionBusy = false
        ∧ (bits v 1 0 = 1 ∨ bits v 1 0 = 2) then
      d.putRmpSet k { t with fmt := v.extractLsb' 0 2 }
    else { d with rmp.cfgIgn := true }

/-- SHADOW_RELEASE: held commands on the shadow set apply (spec/04 R106). -/
def execShadowRelease (s : State) : Host.Outcome State Fault Refusal :=
  s.serve fun d => if d.oldInFlight = 0 then d.pumpTables else d

/-! ### SWAP_CONFIG (spec/06 R159, R160) -/

/-- SWAP_CONFIG arrives: one swap waits at a time; a second one waits as its entry does. -/
def execSwapConfig (q : BitVec 14) (pos : BitVec 16) (s : State) : Host.Outcome State Fault Refusal :=
  s.serve fun d =>
    if d.rmp.swap.isSome then d else
      d.command q.toNat pos cSwapConfig noRules fun _ d => { d.running q.toNat pos with rmp.swap := some (q.toNat, pos) }

/-- The conditions of R159 have cleared, and no checkpoint hold stops the swap (spec/10 R267). -/
def Dev.swapReady (d : Dev) : Bool :=
  decide (d.oldInFlight = 0) && d.stl.cmds.isEmpty && d.rmp.cmds.isEmpty &&
    !(d.stl.setA.clearing || d.stl.setB.clearing || d.rmp.setA.clearing || d.rmp.setB.clearing)

/-- Every index whose rekey part is ACTIVE or DONE has the same bounds in the shadow set (spec/06 R160). -/
def Dev.rekeysMatch (d : Dev) : Bool :=
  d.rmp.rekey.all fun p =>
    match (d.rmpSet d.activeSet).tab.get p.1, (d.rmpSet d.shadowSet).tab.get p.1 with
    | some a, some b => decide (a.base = b.base ∧ a.limit = b.limit)
    | _, _ => p.2.st == .idle

/-- What the swap cycle does. -/
def Dev.swapSets (d : Dev) : Dev :=
  let d := { d with rmp.gen := d.rmp.gen + 1
                    rmp.rekey := d.rmp.rekey.mapAll fun _ (r : Rekey) => if r.st = RkSt.done then default else r
                    stl.reject := [] }
  (d.release fun _ => true).raise bRmp 3

/-- A checkpoint hold is in force (spec/10 R267). -/
def Dev.ckptHold (d : Dev) : Bool :=
  match d.per.ckpt with
  | some c => c.phase == .hold || c.phase == .image
  | none => false

/-- The swap has ended: the commands that arrived meanwhile execute (spec/06 R159). -/
def Dev.swapOver (d : Dev) : Dev :=
  { d with rmp.swap := none, stl.cmds := d.stl.cmds ++ d.stl.held, stl.held := [], rmp.cmds := d.rmp.cmds ++ d.rmp.held, rmp.held := [] }

def execSwapCycle (s : State) : Host.Outcome State Fault Refusal :=
  s.serve fun d =>
    match d.rmp.swap with
    | none => d
    | some (q, pos) =>
      if !d.swapReady || d.ckptHold then d else
        let d := d.swapOver
        (if d.rekeysMatch then
          let e := d.swapSets
          e.finish q pos (Cpl.ok e.rmp.gen)
        else d.finish q pos Cpl.busy).pumpTables

end Machine
end Sys2Proof
end

