-- ==== Sys2Proof/Machine/Window.lean ====
section
/-! DEFINITION. Link windows, admission, parking and completion: the fabric side of the request path
(spec/02 R37-R47, spec/04 R103-R109, R119-R126). -/

namespace Sys2Proof
namespace Machine

def Dev.session (d : Dev) (g : Nat) : Session := d.fab.sessions.get g
def Dev.updSession (d : Dev) (g : Nat) (f : Session → Session) : Dev :=
  { d with fab.sessions := d.fab.sessions.upd g f }
/-- Session number across all ports (spec/02 R36). -/
def sessOf (p s : Nat) : Nat := 32 * p + s
/-- Session key register: direction 0 receive, 1 transmit (spec/13, I/O commands). -/
def regIndex (g dir k : Nat) : Nat := 4 * g + 2 * dir + k
/-- A session key register's key; one that is being destroyed gives none to a pass that begins (spec/07 R174). -/
def Dev.regKey (d : Dev) (r : Nat) : Option (BitVec 256) :=
  if d.key.destroys.any fun x => x.target == .reg r then none else d.key.regs.get r
def Dev.sessKey (d : Dev) (g dir k : Nat) : Option (BitVec 256) := d.regKey (regIndex g dir k)

/-- What a window's lane computes its tag with (spec/07 R186). -/
def tagKey (k : BitVec 256) (iv : BitVec 96) : TagKey := ⟨hashKey k, tagMask k iv⟩

/-- The next ACTIVE lane in rotation, window lane of a new window (spec/07 R186); lane 0 where none is ACTIVE (DESIGN CHOICE, log
133). -/
def Dev.windowLane (d : Dev) : Nat × Dev :=
  let act := (List.range Config.lanes).filter fun i => (d.lan.lanes.get i).st == .active
  match (act.find? fun i => decide (d.fab.laneRot ≤ i)).orElse fun _ => act.head? with
  | some i => (i, { d with fab.laneRot := i + 1 })
  | none => (0, d)

/-! ### Driving WCHK and RTAG -/

def pumpWchk : Nat → Nat → Dev → Dev
  | 0, _, d => d
  | fuel + 1, p, d =>
    let x := d.port p
    match x.wchkq with
    | [] => d
    | (s, r) :: q =>
      if x.wchk = 0 || !d.up (domFrx p) then d
      else pumpWchk fuel p ((d.setPort p { x with wchkq := q, wchk := x.wchk - 1 }).emit (.wchk p s r))

def pumpRtag : Nat → Nat → Dev → Dev
  | 0, _, d => d
  | fuel + 1, p, d =>
    let x := d.port p
    match x.rtagq with
    | [] => d
    | (s, t) :: q =>
      if x.rtag = 0 || !d.up (domFtx p) then d
      else pumpRtag fuel p ((d.setPort p { x with rtagq := q, rtag := x.rtag - 1 }).emit (.rtag p s t))

def Dev.sendWchk (d : Dev) (g : Nat) (r : WResult) : Dev :=
  let p := g / 32
  let e := d.setPort p { d.port p with wchkq := (d.port p).wchkq ++ [(g % 32, r)] }
  pumpWchk ((e.port p).wchkq.length) p e
def Dev.sendRtag (d : Dev) (g : Nat) (t : BitVec 96) : Dev :=
  let p := g / 32
  let e := d.setPort p { d.port p with rtagq := (d.port p).rtagq ++ [(g % 32, t)] }
  pumpRtag ((e.port p).rtagq.length) p e

/-! ### Gate arrival and refusal (spec/04 R103, R107, R109) -/

/-- An access takes the next place at the line gate. -/
def Dev.arrive (d : Dev) (id : Nat) : Dev :=
  (d.updAcc id fun a => { a with stage := .gated, place := some d.seq }).bump

/-- An access that a failed window or a failed payload touches: one that is parked goes on to its release, one that timed
out ends as it must, any other completes LINK_ERROR (spec/04 R107, spec/05 R140). -/
def Dev.windowLost (d : Dev) (a : Access) : Dev :=
  match a.stage with
  | .parked | .received => d
  | .expired => d.outcome a.id .accessError
  | _ => d.outcome a.id .linkError

/-- An admitted write arrives once it is bound (skid) or its window has passed. -/
def Dev.tryArrive (d : Dev) (id : Nat) : Dev :=
  match d.acc id with
  | none => d
  | some a =>
    if a.stage != .unbound then d else
      match a.win with
      | .none => d
      | .waiting _ => if a.skid then d.arrive id else d
      | .passed => d.arrive id
      | .failed => d.outcome id .linkError

/-- A request is refused; a write completes once its window's result is known. -/
def Dev.refuse (d : Dev) (id : Nat) : Dev :=
  match d.acc id with
  | none => d
  | some a =>
    if !a.isWrite then d.outcome id .accessError else
      match a.win with
      | .passed => d.outcome id .accessError
      | .failed => d.outcome id .linkError
      | _ => d.updAcc id fun a => { a with stage := .refused }

/-! ### Results of write windows (spec/02 R43-R45) -/

/-- What a window's result does to one of its writes. -/
def Dev.windowWrite (r : WResult) (id : Nat) (d : Dev) : Dev :=
  match d.acc id with
  | none => d
  | some a =>
    if r = .pass then
      let d := d.updAcc id fun a => { a with win := .passed }
      if a.stage = .refused || a.stage = .expired then d.outcome id .accessError else d.tryArrive id
    else (d.updAcc id fun a => { a with win := .failed }).windowLost a

/-- The effect of a window's result, its WCHK included. -/
def Dev.deliver (d : Dev) (g : Nat) (w : WWin) (r : WResult) : Dev :=
  let d := d.sendWchk g r
  let d := match r with
    | .tagFail => (d.updSession g fun s => { s with rxFailed := true }).raise bFab g
    | .format => (d.updSession g fun s => { s with rxFailed := true }).raise bFab (256 + g)
    | _ => d
  forAll w.members (Dev.windowWrite r) d

/-- Deliver results that no longer wait for an earlier window's (spec/02 R43: WCHK in the order of opening). -/
def Dev.flushForced : Nat → Nat → Dev → Dev
  | 0, _, d => d
  | fuel + 1, g, d =>
    match (d.session g).wdone with
    | w :: r =>
      match w.forced with
      | some x => Dev.flushForced fuel g ((d.updSession g fun s => { s with wdone := r }).deliver g w x)
      | none => d
    | [] => d

/-- The open window ends with a result. -/
def Dev.endWindow (d : Dev) (g : Nat) (r : WResult) : Dev :=
  match (d.session g).wwin with
  | none => d
  | some w =>
    let e := d.updSession g fun s => { s with wwin := none, wdone := s.wdone ++ [{ w with forced := some r }] }
    Dev.flushForced (e.session g).wdone.length g e

/-- A FORMAT error on WLPC (spec/02 R43, R45). -/
def Dev.formatWrite (d : Dev) (g : Nat) : Dev :=
  if (d.session g).wwin.isSome then d.endWindow g .format
  else (d.updSession g fun s => { s with rxFailed := true }).raise bFab (256 + g)

/-- The open window leaves "open" once it is complete. -/
def Dev.checkComplete (d : Dev) (g : Nat) : Dev :=
  match (d.session g).wwin with
  | none => d
  | some w =>
    if w.members.length = w.count ∧ w.aad.length = w.aadn * w.count ∧ w.tag.isSome then
      d.updSession g fun s => { s with wwin := none, wdone := s.wdone ++ [w] }
    else d

/-- A paired payload is taken into its session's window; the request may have completed by then. -/
def Dev.takePayload (d : Dev) (id g : Nat) (data : Line) : Dev :=
  let bad := (d.updAcc id fun a => { a with win := .failed }).formatWrite g
  let lost := match d.acc id with | some a => bad.windowLost a | none => bad
  match (d.session g).wwin with
  | none => lost
  | some w =>
    if w.count ≤ w.members.length then lost else
      let e := d.updSession g fun s => { s with wwin := some { w with members := w.members ++ [id], cts := w.cts ++ [data] } }
      let e := e.updAcc id fun a => { a with win := .waiting w.id, skid := w.skid, winK := w.k, winIv := w.iv,
                                             winPos := w.members.length, winKey := d.sessKey g 0 w.k }
      (e.tryArrive id).checkComplete g

/-- Pair payloads with write requests, in order (spec/02 R37). -/
def pairPort : Nat → Nat → Dev → Dev
  | 0, _, d => d
  | fuel + 1, p, d =>
    let x := d.port p
    match x.reqs, x.wdats with
    | (id, g) :: rs, (data, mask) :: ws =>
      let e := d.setPort p { x with reqs := rs, wdats := ws }
      let e := e.updAcc id fun a => { a with paired := true, data := data, mask := mask }
      pairPort fuel p ((e.takePayload id g data).giveCredits p 0 1 0 0)
    | _, _ => d

def Dev.pair (d : Dev) (p : Nat) : Dev := pairPort ((d.port p).wdats.length) p d

/-! ### Admission (spec/04 R103-R105) -/

/-- What the checks of spec/04 R104 decide. -/
inductive Verdict where
  | pass (kslot : BitVec 16) (region : Nat) (mode : Mode)
  | refuse
  /-- A miss on a stream, a hit that does not allow the port. -/
  | miss
  | portMiss (hit : SEntry)
  deriving DecidableEq, Repr

/-- The lookups of one request and what they leave behind: AGE, cleared slots, raised sources. -/
def Dev.lookups (d : Dev) (sid kid : BitVec 16) (line : LineNo) (chk : List Chk) :
    Dev × Option SEntry × Option (Nat × RegionCfg) :=
  let s := d.activeSet
  let d := d.slotErrors s ((d.stlSet s).compares sid kid) chk
  let st := match d.findStream s sid kid with
    | none => (d, none)
    | some (i, e) =>
      let e0 := { e with age := 0 }
      (d.putSlot s i (some e0), some e0)
  let r := st.1.regionLookup line chk
  (r.1, st.2, r.2)

/-- Checks 2 to 6 in order. -/
def Dev.judgeKeys (d : Dev) (p : Nat) (kid : BitVec 16) (hit : Option SEntry)
    (reg : Option (Nat × RegionCfg)) : Verdict :=
  match hit with
  | none => .miss
  | some e =>
    if !e.ports.getLsbD p then .portMiss e else
      match reg with
      | none => .refuse
      | some (i, r) =>
        if kid.toNat < r.kidLo.toNat || r.kidHi.toNat < kid.toNat then .refuse
        else if !d.keyCheck i e.kslot then .refuse
        else .pass e.kslot i r.mode

/-- What checks 2 to 6 let through meets check 7, which reads the zone's state. -/
def Verdict.zoned : Verdict → Bool
  | .pass _ _ m => m == .full
  | _ => false

/-- Checks 2 to 7 in order. -/
def Dev.judge (d : Dev) (p : Nat) (kid : BitVec 16) (line : LineNo) (hit : Option SEntry)
    (reg : Option (Nat × RegionCfg)) : Verdict :=
  let v := d.judgeKeys p kid hit reg
  if v.zoned && (d.zone (zoneOf line)).st != .online then .refuse else v

/-- Park a request, or refuse it where spec/05 R138 says so. `first` is when it first parked. -/
def Dev.park (d : Dev) (id p : Nat) (sid kid : BitVec 16) (isPort : Bool) (hit : SEntry) (first : Nat) : Dev :=
  if !isPort && (d.rejected sid kid || !d.stl.learnEvq.valid) then (d.countReject p).refuse id
  else if Config.maxParked ≤ (d.parked.filter fun a => a.id != id).length then
    ({ d with stl.parkfullCnt := d.stl.parkfullCnt.upd p fun n => satAdd 0xFFFFFFFF n 1 }).refuse id
  else
    (((d.updAcc id fun a => { a with stage := .parked, parkedAt := first, released := false,
                                     parkNo := a.parkNo.orElse fun _ => some d.seq }).bump).learn p sid kid isPort hit).syncFilter sid kid

/-- Run the checks on a request and admit, park or refuse it. -/
def Dev.admission (d : Dev) (id : Nat) (chk : List Chk) (first : Nat) : Dev :=
  match d.acc id with
  | none => d
  | some a =>
    let p := match a.origin with | .port p => p | .step _ => 0
    let l := d.lookups a.sid a.kid a.line chk
    let d := l.1.zoneRead (l.1.judgeKeys p a.kid l.2.1 l.2.2).zoned chk
    match d.judge p a.kid a.line l.2.1 l.2.2 with
    | .refuse => d.refuse id
    | .miss => d.park id p a.sid a.kid false default first
    | .portMiss e => d.park id p a.sid a.kid true e first
    | .pass k i m =>
      let e := d.updAcc id fun a => { a with inFlight := true, gen := d.rmp.gen, kslot := k, region := i, mode := m,
                                               stage := if a.isWrite then .unbound else a.stage }
      if a.isWrite then e.tryArrive id else e.arrive id

/-! ### In-flight capacity (spec/01 R18) -/

def Dev.full (d : Dev) (write : Bool) : Bool :=
  if write then decide (Config.maxWrites ≤ d.writesInFlight) else decide (Config.maxReads ≤ d.readsInFlight)

/-- Start or end withholding REQ credits. -/
def Dev.noteHold (d : Dev) : Dev :=
  let f := d.full true || d.full false
  if f && !d.fab.holding then ({ d with fab.holding := true }).raise bFab 523
  else if !f && d.fab.holding then
    forAll (List.range Config.ports) (fun p e => e.giveCredits p 0 0 0 0) { d with fab.holding := false }
  else d

/-- A request of this stream is being released from parking. -/
def Dev.releasing (d : Dev) (sid kid : BitVec 16) : Bool :=
  d.parked.any fun a => a.released && a.sid == sid && a.kid == kid

/-- Bring a received request to admission, unless it must wait; its REQ credit is freed then. While the in-flight count of
its kind is at its maximum the whole of its admission waits, the checks of R104 included (DESIGN CHOICE, log 85). -/
def Dev.process (d : Dev) (id : Nat) : Dev :=
  match d.acc id with
  | none => d
  | some a =>
    let p := match a.origin with | .port p => p | .step _ => 0
    if d.mgt.pfWarn then (d.outcome id .accessError).giveCredits p 1 0 0 0
    else if d.full a.isWrite || d.releasing a.sid a.kid then d.noteHold
    else ((d.admission id a.chk d.mgt.tref).noteHold).giveCredits p 1 0 0 0

/-- Retry the requests that wait for admission, the oldest first, whatever their ports (DESIGN CHOICE, log 131). -/
def Dev.retryReceived (d : Dev) : Dev :=
  forAll ((d.fab.accs.filter fun a => a.stage == .received).map (·.id)) (fun id e => e.process id) d

/-! ### Rows of the request side -/

/-- FABRIC_REQUEST (spec/04 R104, R105; spec/02 R37, R41). -/
def execFabricRequest (p : Fin 8) (op : BitVec 2) (tag : BitVec 12) (sid kid : BitVec 16) (line : LineNo) (sess : BitVec 5)
    (chk : List Chk) (s : State) : Host.Outcome State Fault Refusal :=
  s.act fun d =>
    if !d.up (domFrx p) || !d.up domCore then d
    else if (d.port p).req = 0 then (d.setPort p { d.port p with rxStop := true }).raise bFab (512 + p)
    else
      let d := d.setPort p { d.port p with req := (d.port p).req - 1 }
      let a : Access := { (default : Access) with
        id := d.seq, origin := .port p, isWrite := decide (op = 1), reserved := decide (2 ≤ op.toNat), tag := tag,
        sid := sid, kid := kid, line := line, sess := sessOf p sess.toNat, chk := chk }
      let d := ({ d with fab.accs := d.fab.accs ++ [a] }).bump
      if s.safe.active then d.outcome a.id .poisoned
      else if a.reserved then (d.outcome a.id .accessError).giveCredits p 1 0 0 0
      else
        let d := if a.isWrite then (d.setPort p { d.port p with reqs := (d.port p).reqs ++ [(a.id, a.sess)] }).pair p else d
        d.process a.id

/-- WRITE_PAYLOAD (spec/02 R37, R43). -/
def execWritePayload (p : Fin 8) (data : Line) (mask : BitVec 64) (s : State) : Host.Outcome State Fault Refusal :=
  s.act fun d =>
    if !d.up (domFrx p) || !d.up domCore then d
    else if (d.port p).wdat = 0 then (d.setPort p { d.port p with rxStop := true }).raise bFab (512 + p)
    else
      let x := d.port p
      if s.safe.active then d.setPort p { x with wdat := x.wdat - 1 }
      else (d.setPort p { x with wdat := x.wdat - 1, wdats := x.wdats ++ [(data, mask)] }).pair p

/-! ### WLPC entries (spec/02 R42, R43) -/

def lpcSess (p : Nat) (e : BitVec 128) : Nat := sessOf p (e.toNat % 32)
def lpcWord (e : BitVec 128) : BitVec 96 := e.extractLsb' 32 96

/-- The fields of an OPEN are well formed. -/
def openOk (e : BitVec 128) : Bool :=
  !e.getLsbD 7 && e.extractLsb' 10 6 == 0 && e.extractLsb' 24 8 == 0 && e.extractLsb' 8 2 != 3 && !e.getLsbD 23
/-- Of an AAD or CLOSE. -/
def aadOk (e : BitVec 128) : Bool := e.extractLsb' 5 27 == 0

/-- An entry on WLPC, with its credit. -/
def State.wlpc (s : State) (p : Nat) (f : Dev → Dev) : Host.Outcome State Fault Refusal :=
  s.act fun d =>
    if !d.up (domFrx p) || !d.up domCore then d
    else if (d.port p).wlpc = 0 then (d.setPort p { d.port p with rxStop := true }).raise bFab (512 + p)
    else
      let d := d.setPort p { d.port p with wlpc := (d.port p).wlpc - 1 }
      if s.safe.active then d else (f d).giveCredits p 0 0 1 0

/-- WLPC_OPEN. One that comes under a leftover credit after PF_WARN opens its window as usual (DESIGN CHOICE, log 110). -/
def execWlpcOpen (p : Fin 8) (e : BitVec 128) (s : State) : Host.Outcome State Fault Refusal :=
  s.wlpc p fun d =>
    let g := lpcSess p e
    if !openOk e || (d.session g).wwin.isSome then d.formatWrite g else
      let k := flag (e.getLsbD 5)
      let l := d.windowLane
      let w : WWin := { id := d.seq, k := k, skid := e.getLsbD 6, aadn := (e.extractLsb' 8 2).toNat,
                        count := (e.extractLsb' 16 8).toNat + 1, iv := lpcWord e,
                        usable := !(d.session g).rxFailed && (d.sessKey g 0 k).isSome,
                        lane := l.1, tk := tagKey ((d.sessKey g 0 k).getD 0) (lpcWord e), openedAt := d.mgt.tref, members := [], cts := [], aad := [], tag := none, forced := none }
      (l.2.bump).updSession g fun x => { x with wwin := some w, rxK := k }

def execWlpcAad (p : Fin 8) (e : BitVec 128) (s : State) : Host.Outcome State Fault Refusal :=
  s.wlpc p fun d =>
    let g := lpcSess p e
    match (d.session g).wwin with
    | none => d.formatWrite g
    | some w =>
      if !aadOk e || decide (w.aadn * w.count ≤ w.aad.length) then d.formatWrite g
      else (d.updSession g fun x => { x with wwin := some { w with aad := w.aad ++ [lpcWord e] } }).checkComplete g

def execWlpcClose (p : Fin 8) (e : BitVec 128) (s : State) : Host.Outcome State Fault Refusal :=
  s.wlpc p fun d =>
    let g := lpcSess p e
    match (d.session g).wwin with
    | none => d.formatWrite g
    | some w =>
      if !aadOk e || w.tag.isSome then d.formatWrite g
      else (d.updSession g fun x => { x with wwin := some { w with tag := some (lpcWord e) } }).checkComplete g

/-- A reserved TYPE or malformed fields: a FORMAT error of the session named in bits [4:0]. -/
def execWlpcReservedType (p : Fin 8) (ty : BitVec 2) (e : BitVec 128) (s : State) : Host.Outcome State Fault Refusal :=
  s.wlpc p fun d => if ty = 3 || !(if ty = 0 then openOk e else aadOk e) then d.formatWrite (lpcSess p e) else d

/-- The tag check of a complete window (spec/07 R185, R186). -/
def WWin.check (w : WWin) : WResult :=
  if !w.usable then .sessionFailed
  else if w.tag = some (windowTag w.tk.hash w.tk.mask w.aad w.cts) then .pass else .tagFail

def execWindowResult (sess : BitVec 8) (s : State) : Host.Outcome State Fault Refusal :=
  s.serve fun d =>
    let g := sess.toNat
    match (d.session g).wdone with
    | [] => d
    | w :: r =>
      let e := (d.updSession g fun x => { x with wdone := r }).deliver g w (w.forced.getD w.check)
      Dev.flushForced (e.session g).wdone.length g e

def execWriteWindowTimeout (sess : BitVec 8) (s : State) : Host.Outcome State Fault Refusal :=
  s.serve fun d =>
    match (d.session sess.toNat).wwin with
    | none => d
    | some w => if d.passed w.openedAt d.fab.winTimeout then d.endWindow sess.toNat .format else d

/-! ### Read windows (spec/02 R46) -/

/-- The plaintext of a beat under an access's slot, mode and counter (spec/07 R178, R180). -/
def Dev.plain (d : Dev) (slot : BitVec 16) (m : Mode) (line : LineNo) (c : Ctr) (b : Beat) : Line :=
  let k := (d.kslot slot).data
  if m = .full then ctrLine k line c b.data else xtsDec k line b.data

/-- A write window or read window of a session direction names a key register (spec/02 R47). -/
def Dev.waitingReads (d : Dev) (g : Nat) : List Nat :=
  (d.fab.accs.filter fun a => a.stage == .waitWindow && decide (a.sess = g)).map (·.id)

/-- Place a read in a window: link-encrypt its payload at its position. Without a session key it completes LINK_ERROR and
takes no place (spec/02 R39, R40). -/
def Dev.placeIn (d : Dev) (g : Nat) (w : RWin) (id : Nat) : Dev :=
  match d.acc id, d.sessKey g 1 w.k with
  | some a, some k =>
    let pt := if a.fresh then 0 else d.plain a.slot a.mode a.line a.ctr a.beat
    let ct := linkCrypt k w.iv w.placed pt
    let w' := { w with placed := w.placed + 1, members := w.members ++ [id], cts := w.cts ++ [ct],
                       fullAt := if w.placed + 1 = w.count then d.mgt.tref else w.fullAt }
    (d.updSession g fun s => { s with rwins := s.rwins.map fun x => if x.id = w.id then w' else x }).updAcc id
      fun a => { a with rwin := some w.id, rdata := ct, stage := .lane, pass := if a.fresh then .zeroRead else .read,
                        verified := true }
  | some _, none => d.outcome id .linkError
  | none, _ => d

/-- The active read window that has room. -/
def Session.room (s : Session) : Option RWin := s.rwins.find? fun w => w.active && decide (w.placed < w.count)

/-- Windows take effect and serve the reads that wait, in the order they began to wait. -/
def Dev.windowEffects : Nat → Nat → Dev → Dev
  | 0, _, d => d
  | fuel + 1, g, d =>
    match (d.session g).rwins.find? fun w => decide (w.placed < w.count) with
    | none => d
    | some w =>
      if !w.active then
        match d.sessKey g 1 w.k with
        | some k =>
          Dev.windowEffects fuel g (d.updSession g fun s =>
            { s with txK := w.k, rwins := s.rwins.map fun x =>
                if x.id = w.id then { x with active := true, tk := tagKey k w.iv } else x })
        | none =>
          let e := d.updSession g fun s => { s with rwins := s.rwins.filter fun x => x.id ≠ w.id }
          Dev.windowEffects fuel g (forAll (e.waitingReads g) (fun id x => x.outcome id .linkError) e)
      else
        match d.waitingReads g with
        | [] => d
        | id :: _ => Dev.windowEffects fuel g (d.placeIn g w id)

def Dev.effects (d : Dev) (g : Nat) : Dev :=
  Dev.windowEffects (2 * (d.session g).rwins.length + (d.waitingReads g).length + 1) g d

/-- A read reaches its placement point. With no window it waits, holding its verified beat or its zero result. -/
def Dev.placeRead (d : Dev) (id : Nat) : Dev :=
  match d.acc id with
  | none => d
  | some a =>
    if a.dropped then d.outcome id .ok
    else if (d.session a.sess).txFailed then d.outcome id .linkError else
      match (d.session a.sess).room with
      | some w => (d.placeIn a.sess w id).effects a.sess
      | none =>
        if d.mgt.pfWarn then d.outcome id .linkError
        else d.updAcc id fun a => { a with stage := .waitWindow, waitAt := d.mgt.tref, lane := none }

/-- End one read window of a session; `error` for a FORMAT error, else for a lane's quarantine (spec/07 R186): then the
reads placed in it complete. After PF_WARN a window short of its payloads sends no RTAG (spec/04 R121). -/
def Dev.endReadWindow (d : Dev) (g : Nat) (w : RWin) (error : Bool) : Dev :=
  let d := d.updSession g fun s => { s with rwins := s.rwins.filter fun x => x.id ≠ w.id }
  let d := if (!error || decide (0 < w.placed)) && !(d.mgt.pfWarn && decide (w.placed < w.count)) then d.sendRtag g 0 else d
  if error then
    { d with fab.accs := d.fab.accs.map fun (a : Access) =>
        if a.rwin = some w.id then { a with stage := .done, status := .linkError } else a }
  else { d with fab.accs := d.fab.accs.map fun (a : Access) => if a.rwin = some w.id then { a with rwin := none } else a }

/-- The reads of a session that wait for a window, or for the pass that is to bring them to their placement point. -/
def Dev.unplacedReads (d : Dev) (g : Nat) : List Nat :=
  (d.fab.accs.filter fun (a : Access) => decide (a.sess = g) && (a.stage == .waitWindow ||
    (a.stage == .lane && !a.isWrite && !a.verified && match a.origin with | .port _ => true | .step _ => false))).map (·.id)

/-- A FORMAT error on RLPC. -/
def Dev.formatRead (d : Dev) (g : Nat) : Dev :=
  let d := (d.updSession g fun s => { s with txFailed := true }).raise bFab (256 + g)
  let d := forAll (d.session g).rwins (fun w e => e.endReadWindow g w true) d
  forAll (d.unplacedReads g) (fun id e => e.outcome id .linkError) d

/-- An entry on RLPC, with its credit. -/
def State.rlpc (s : State) (p : Nat) (f : Dev → Dev) : Host.Outcome State Fault Refusal :=
  s.act fun d =>
    if !d.up (domFtx p) || !d.up domCore then d
    else if (d.port p).rlpc = 0 then (d.setPort p { d.port p with txStop := true }).raise bFab (512 + p)
    else
      let d := d.setPort p { d.port p with rlpc := (d.port p).rlpc - 1 }
      if s.safe.active then d else (f d).giveCredits p 0 0 0 1

def execRlpcOpen (p : Fin 8) (e : BitVec 128) (s : State) : Host.Outcome State Fault Refusal :=
  s.rlpc p fun d =>
    let g := lpcSess p e
    if (d.session g).txFailed then d
    else if !openOk e then d.formatRead g
    else
      let l := d.windowLane
      let w : RWin := { id := d.seq, k := flag (e.getLsbD 5), aadn := (e.extractLsb' 8 2).toNat,
                        count := (e.extractLsb' 16 8).toNat + 1, iv := lpcWord e, lane := l.1, active := false, tk := default, aad := [],
                        placed := 0, members := [], sent := 0, cts := [], fullAt := 0 }
      ((l.2.bump).updSession g fun x => { x with rwins := x.rwins ++ [w] }).effects g

def execRlpcAad (p : Fin 8) (e : BitVec 128) (s : State) : Host.Outcome State Fault Refusal :=
  s.rlpc p fun d =>
    let g := lpcSess p e
    if (d.session g).txFailed then d
    else if !aadOk e then d.formatRead g
    else
      match (d.session g).rwins.find? fun w => decide (w.aad.length < w.aadn * w.count) with
      | none => d.formatRead g
      | some w => d.updSession g fun x =>
          { x with rwins := x.rwins.map fun y => if y.id = w.id then { y with aad := y.aad ++ [lpcWord e] } else y }

/-- A reserved TYPE, a CLOSE or malformed fields on RLPC. -/
def execRlpcFormatError (p : Fin 8) (ty : BitVec 2) (e : BitVec 128) (s : State) : Host.Outcome State Fault Refusal :=
  s.rlpc p fun d =>
    let g := lpcSess p e
    if (d.session g).txFailed && decide (ty.toNat < 2) then d
    else if 2 ≤ ty.toNat || !(if ty = 0 then openOk e else aadOk e) then d.formatRead g else d

/-- RTAG: a window has carried its COUNT-th payload and has all its AAD entries. -/
def execRtag (sess : BitVec 8) (s : State) : Host.Outcome State Fault Refusal :=
  s.serve fun d =>
    let g := sess.toNat
    match (d.session g).rwins with
    | [] => d
    | w :: _ =>
      if w.sent = w.count ∧ w.aad.length = w.aadn * w.count ∧ ¬(d.mgt.pfWarn ∧ w.placed < w.count) then
        ((d.updSession g fun x => { x with rwins := x.rwins.filter fun y => y.id ≠ w.id }).sendRtag g
          (windowTag w.tk.hash w.tk.mask w.aad w.cts)).effects g
      else d

/-- A read that waits for a window, or a window that waits for AAD entries, passes the window timeout. -/
def execReadWindowWaitTimeout (sess : BitVec 8) (read : Option Nat) (s : State) : Host.Outcome State Fault Refusal :=
  s.serve fun d =>
    let g := sess.toNat
    match read with
    | some id =>
      match d.acc id with
      | some a => if a.stage = .waitWindow ∧ a.sess = g ∧ d.passed a.waitAt d.fab.winTimeout then d.outcome id .linkError else d
      | none => d
    | none =>
      if (d.session g).rwins.any fun w => decide (w.placed = w.count ∧ w.aad.length < w.aadn * w.count)
          && d.passed w.fullAt d.fab.winTimeout
      then d.formatRead g else d

/-! ### Completion (spec/02 R39, R40; spec/04 R110, R119, R120) -/

/-- No port access with an earlier place in the order of its line remains, nor, outside the safe state, one of a service
(spec/02 R39, spec/04 R110). -/
def Dev.firstOfLine (d : Dev) (a : Access) (live : Bool) : Bool :=
  match a.place with
  | none => true
  | some p => d.fab.accs.all fun b => decide (b.id = a.id ∨ b.line ≠ a.line) ||
      (match b.place, b.origin with
       | some q, .port _ => decide (p ≤ q)
       | some q, .step _ => !live || decide (p ≤ q)
       | none, _ => true)

/-- Whether the completion may be driven now: a credit, the domain, the order of its line, and window order for RDAT. -/
def Dev.canRespond (d : Dev) (a : Access) (p : Nat) (live : Bool) : Bool :=
  d.up (domFtx p) && a.stage == .done && d.firstOfLine a live &&
    (if a.isWrite || a.reserved then decide (0 < (d.port p).rsp)
     else decide (0 < (d.port p).rdat) &&
      match a.rwin with
      | none => true
      | some w => (d.session a.sess).rwins.all fun x => !decide (x.id = w) || decide (x.members[x.sent]? = some a.id))

/-- Count a completion on its port. -/
def Port.count (x : Port) : Status → Port
  | .ok => x
  | .accessError => { x with accErr := satAdd 0xFFFFFFFF x.accErr 1 }
  | .poisoned => { x with poison := satAdd 0xFFFFFFFF x.poison 1 }
  | .linkError => { x with linkErr := satAdd 0xFFFFFFFF x.linkErr 1 }

/-- Drive a completion; the access leaves the line gate and its in-flight slot. -/
def Dev.respond (d : Dev) (a : Access) (p : Nat) (st : Status) : Dev :=
  let x := (d.port p).count st
  let rsp := a.isWrite || a.reserved
  let x := if rsp then { x with rsp := x.rsp - 1 } else { x with rdat := x.rdat - 1 }
  let d := (d.setPort p x).emit
    (if rsp then .rsp p a.tag st else .rdat p a.tag st (if st = .ok then a.rdata else 0))
  let d := match a.rwin with
    | none => d
    | some w => d.updSession a.sess fun s =>
        { s with rwins := s.rwins.map fun (y : RWin) => if y.id = w then { y with sent := y.sent + 1 } else y }
  d.dropAcc a.id

/-- RESPONSE_TRANSFER. `err`: a corrected check-bit error in the in-flight buffer; the data is used (spec/15 R413). -/
def execResponseTransfer (id : Nat) (err : Bool) (s : State) : Host.Outcome State Fault Refusal :=
  s.act fun d =>
    let d := if err && (d.acc id).isSome then d.raise bFab 520 else d
    match d.acc id with
    | none => d
    | some a =>
      match a.origin with
      | .step _ => d
      | .port p =>
        -- discarded by a reset of its port (spec/03 R94)
        if a.dropped then
          if s.safe.active then d.dropAcc a.id
          else if a.stage == .done then ((d.dropAcc a.id).noteHold).retryReceived else d
        else if s.safe.active then
          if d.canRespond { a with stage := .done, rwin := none } p false then d.respond { a with rwin := none } p .poisoned else d
        else if !d.canRespond a p true then d
        else ((d.respond a p a.status).noteHold).retryReceived

/-! ### Parking rows (spec/05 R139, R140) -/

/-- A parked request ends as at its timeout: ACCESS_ERROR; a write first waits for its window's result (spec/05 R140, log
86). -/
def Dev.expire (d : Dev) (a : Access) : Dev :=
  if a.isWrite && a.win != .passed && a.win != .failed then d.updAcc a.id fun x => { x with stage := .expired }
  else d.outcome a.id .accessError

/-- PARKING_TIMEOUT. `err`: an error in a parked request, which ends as at timeout (spec/15 R413, STL_PARK_UC). A released request
that waits for an in-flight slot does not time out (DESIGN CHOICE, log 132). -/
def execParkingTimeout (id : Nat) (err : Bool) (s : State) : Host.Outcome State Fault Refusal :=
  s.serve fun d =>
    match d.acc id with
    | none => d
    | some a =>
      if a.stage = .parked ∧ (err ∨ (a.released = false ∧ d.passed a.parkedAt d.stl.parkTimeout)) then
        let d := if err then d.raise bStl 2 else d
        let p := match a.origin with | .port p => p | .step _ => 0
        (({ d with stl.timeoutCnt := d.stl.timeoutCnt.upd p fun n => satAdd 0xFFFFFFFF n 1 }).expire a).syncFilter a.sid a.kid
      else d

/-- A released request repeats the checks; a write whose window failed completes LINK_ERROR. -/
def Dev.recheck (a : Access) (chk : List Chk) (d : Dev) : Dev :=
  let d := if a.win = .failed then d.outcome a.id .linkError else d.admission a.id chk a.parkedAt
  (d.syncFilter a.sid a.kid).noteHold

/-- Parking order (spec/04 R105). -/
def insParked (a : Access) : List Access → List Access
  | [] => [a]
  | b :: r => if a.parkNo.getD 0 ≤ b.parkNo.getD 0 then a :: b :: r else b :: insParked a r

/-- Released requests in parking order, over all streams and ports (DESIGN CHOICE, log 130). One that finds the in-flight count of
its kind full waits, and with it the later ones of its stream (`held`). -/
def Dev.releaseAll (chk : List (Nat × Chk)) : List Access → List (BitVec 16 × BitVec 16) → Dev → Dev
  | [], _, d => d
  | a :: r, held, d =>
    if held.contains (a.sid, a.kid) then Dev.releaseAll chk r held d
    else if d.full a.isWrite then Dev.releaseAll chk r ((a.sid, a.kid) :: held) d
    else Dev.releaseAll chk r held (d.recheck a ((chk.filter fun c => c.1 = a.id).map (·.2)))

def execParkedRelease (chk : List (Nat × Chk)) (s : State) : Host.Outcome State Fault Refusal :=
  s.serve fun d =>
    (Dev.releaseAll chk ((d.parked.filter fun a => a.released).foldr insParked []) [] d).retryReceived

/-! ### Register rows of FAB (spec/04 R123, R126) -/

/-- The initial credits of a port that has not had them since its reset. -/
def Dev.initialCredits (d : Dev) (p : Nat) : Dev :=
  let x := d.port p
  if d.portOpen p && !x.granted && d.up (domFrx p) && d.up (domFtx p) then
    (d.setPort p { x with granted := true }).giveCredits p Config.initReq Config.initWdat Config.initWlpc Config.initRlpc
  else d.giveCredits p 0 0 0 0

def execFabPortEn (v : Word32) (s : State) : Host.Outcome State Fault Refusal :=
  s.core fun d =>
    if d.lifecycle = 0 then d else
      forAll (List.range Config.ports) (fun p e => e.initialCredits p) { d with fab.portEn := v.extractLsb' 0 8 }

def execFabCntClr (v : Word32) (s : State) : Host.Outcome State Fault Refusal :=
  s.core fun d =>
    forAll (List.range Config.ports) (fun p e =>
      if bit v p then e.setPort p { e.port p with accErr := 0, poison := 0, linkErr := 0, ktag := 0 } else e) d

end Machine
end Sys2Proof
end

