-- ==== Sys2Proof/Machine/Work.lean ====
section
/-! DEFINITION. What an access does once it is granted: the counter step, and where it goes from there, for fabric and
service accesses alike (spec/04 R111-R117, spec/08 R205, R218-R226, spec/14 R387-R399). -/

namespace Sys2Proof
namespace Machine

/-! ### Jobs -/

def Dev.step1 (d : Dev) (id : Nat) : Option Step := d.svc.steps.find? fun s => s.id == id
def Dev.updStep (d : Dev) (id : Nat) (f : Step → Step) : Dev :=
  { d with svc.steps := d.svc.steps.map fun (s : Step) => if s.id = id then f s else s }

/-- What an access is for. -/
inductive Job where
  | read | write | part | front | check | zero | seal | unseal | void
  deriving DecidableEq, Repr

/-- Index of an access's line within its step. -/
def Step.lineIndex (s : Step) (line : LineNo) : Nat := line.toNat - 64 * s.unit

def Dev.job (d : Dev) (a : Access) : Job :=
  match a.origin with
  | .port _ => if !a.isWrite then .read else if a.mask = BitVec.allOnes 64 then .write else .part
  | .step id =>
    match d.step1 id with
    | none => .check
    | some s =>
      match s.kind with
      | .front | .transcode => .front
      | .drizzle | .scrub => .check
      | .sanitize => .zero
      | .seal => .seal
      | .unseal => if s.void.getLsbD (s.lineIndex a.line) then .void else .unseal

/-- Jobs that change a line counter. -/
def Job.writes : Job → Bool
  | .write | .part | .front | .unseal | .void | .zero => true
  | _ => false

/-! ### How service accesses end (spec/14 R381, R387) -/

/-- A service access leaves the line gate and its in-flight slot. -/
def Dev.leave (d : Dev) (a : Access) : Dev :=
  match a.origin with
  | .port _ => d
  | .step id => (((d.dropAcc a.id).updStep id fun s => { s with left := s.left - 1 }).noteHold).retryReceived

def Dev.countSkip (d : Dev) : Dev := { d with svc.skipCnt := satAdd 0xFFFFFFFF d.svc.skipCnt 1 }

/-- A line that a SEAL cannot read is VOID (spec/14 R398). -/
def Dev.voidLine (d : Dev) (a : Access) : Dev :=
  match a.origin with
  | .step id => d.updStep id fun s => { s with void := s.void ||| (1 <<< s.lineIndex a.line) }
  | .port _ => d

/-- Transport key of a service command's step, and its GCM IV. -/
def Dev.transport (d : Dev) (s : Step) : BitVec 256 × BitVec 96 :=
  match s.who with
  | .cmd q pos =>
    match d.svc.cmds.find? fun c => c.q == q && c.pos == pos with
    | some c => ((d.key.keks.get c.kek).key, BitVec.ofNat 96 (beNat s.salt * 2 ^ 32 + (s.unit - c.base)))
    | none => (0, 0)
  | _ => (0, 0)

/-- Add a line's plaintext to the chunk being sealed. -/
def Dev.sealLine (d : Dev) (a : Access) (pt : Line) : Dev :=
  match a.origin with
  | .port _ => d
  | .step id =>
    match d.step1 id with
    | none => d
    | some s =>
      let k := s.lineIndex a.line
      let t := d.transport s
      d.updStep id fun s => { s with blocks := s.blocks ++ [(k, linkCrypt t.1 t.2 k pt)] }

/-- A line of a SEAL that is sealed as zeros takes its seal pass with no media read (spec/14 R398). -/
def Dev.sealZeros (d : Dev) (a : Access) : Dev :=
  d.updAcc a.id fun x => { x with fresh := true, verified := true, stage := .lane, pass := .seal }

/-- An access ends because its line is poisoned, or a node on its path. -/
def Dev.endPoisoned (d : Dev) (a : Access) : Dev :=
  match d.job a with
  | .read | .write | .part => d.outcome a.id .poisoned
  | .seal => (d.voidLine a).sealZeros a
  | .check => d.leave a
  | .void => d.leave a
  | _ => d.countSkip.leave a

/-- A line has been marked poisoned: a fabric access, a check and a SEAL end as on a poisoned line, the other service
accesses leave without a count (spec/14 R387). -/
def Dev.endMarked (d : Dev) (a : Access) : Dev :=
  match d.job a with
  | .front | .unseal | .void | .zero => d.leave a
  | _ => d.endPoisoned a

/-- An access ends because a channel it needs is retired (spec/08 R220, spec/04 R111). -/
def Dev.endRetired (d : Dev) (a : Access) : Dev :=
  match d.job a with
  | .read | .write | .part => d.outcome a.id .accessError
  | .seal => (d.voidLine a).sealZeros a
  | .check => d.leave a
  | _ => d.countSkip.leave a

/-- A write refused under spec/08 R205, fabric or service (R207, spec/14 R383): the counter that failed lies at `level`. -/
def Dev.endExhausted (d : Dev) (a : Access) (level : Nat) : Dev :=
  let z := zoneOf a.line
  let kind := RecKind.exhausted z level (indexOf a.line / 2 ^ (3 * level))
  let d := { d with frs.exhCnt := satAdd 0xFFFFFFFF d.frs.exhCnt 1 }
  let d := if (d.qmg.held.get (evCode .frs)).any fun r => r.kind == kind then d else
    d.event .frs 0x0010 bFrs kind [(8, 2, z), (10, 1, level), (16, 8, 64 * a.line.toNat)]
  match d.job a with
  | .write | .part => d.outcome a.id .accessError
  | _ => d.countSkip.leave a

/-! ### The counter step (spec/08 R205, R218, R221) -/

inductive CStep where
  /-- The access waits: a held node, a Canopy way, the dirty budget. -/
  | wait
  | fetch
  /-- A poison mark above the line, or on the line itself (with the mark). -/
  | nodePoison
  | linePoison (v : Ctr)
  | known (v : Ctr) (fresh : Bool)
  deriving DecidableEq, Repr

/-- A maintenance operation holds a node that the path needs (spec/09 R248). -/
def Dev.heldNode (d : Dev) (z n level : Nat) : Bool :=
  d.can.maint.any fun m => (m.op = 2 || m.op = 4) && decide (m.node.zone = z) && under m.node (nodeOf z n 0) && decide (m.node.level ≤ level)

def Dev.counterStep (d : Dev) (line : LineNo) : CStep :=
  let z := zoneOf line
  let n := indexOf line
  if d.heldPoison z n then .nodePoison else
    let p := d.probe z n 0
    if d.heldNode z n p.1 then .wait
    else if p.1 = 0 then
      if isPoison p.2 then .linePoison p.2 else .known p.2 (isZero p.2)
    else if isPoison p.2 then .nodePoison
    else if isZero p.2 then .known p.2 true
    else .fetch

/-- Test of the ancestors of a line whose leaf or anchor is at hand: none when nothing is spent (spec/08 R205). -/
inductive Spent where
  | no | fetch | level (l : Nat)
  deriving DecidableEq, Repr

def Dev.spent (d : Dev) (line : LineNo) : Spent :=
  let z := zoneOf line
  let n := indexOf line
  let p := d.probe z n 0
  let known := (List.range 9).filter fun l => decide (1 ≤ l ∧ p.1 ≤ l) && (d.find (nodeOf z n l)).isSome && ancestorSpent (d.slotAt z n l)
  match known.head? with
  | some l => .level l
  | none =>
    if ancestorSpent (d.zone z).root then .level 9
    else if (d.zone z).ceil.toNat < Config.ancestorLimit then .no
    else if (d.missingFrom false z n (p.1 + 1) (9, (d.zone z).root)).isEmpty then .no else .fetch

/-- The test reads the cached nodes above the anchor, which the probe itself has read (spec/09 R249). -/
def Dev.countAncestors (d : Dev) (line : LineNo) : Dev :=
  let z := zoneOf line
  let n := indexOf line
  d.countPath z n ((d.probe z n 0).1 + 1)

/-- Insert the nodes synthesised below the anchor, clean, top down (spec/08 R221); none when a fill waits. -/
def Dev.synthPath (z n : Nat) (v : Ctr) : List Nat → Dev → Option Dev
  | [], d => some d
  | l :: ls, d =>
    match d.fillNode (nodeOf z n l) (synth (if isZeroMark v then v else 0)) 0 with
    | none => none
    | some e => Dev.synthPath z n v ls e

/-- The node for which such an insertion waits. -/
def Dev.synthWaits (z n : Nat) (v : Ctr) : List Nat → Dev → Option NodeId
  | [], _ => none
  | l :: ls, d =>
    match d.fillNode (nodeOf z n l) (synth (if isZeroMark v then v else 0)) 0 with
    | none => some (nodeOf z n l)
    | some e => Dev.synthWaits z n v ls e

/-- Put an access on a ladder, down to its leaf. The fetch of a Drizzle or SCRUB line inserts nothing (spec/14 R391), but
for the mark of one that failed every attempt. -/
def Dev.toLadder (d : Dev) (a : Access) : Dev :=
  let check := d.job a == .check && a.pass != .poison
  let r := d.startLadder (zoneOf a.line) (indexOf a.line) 0 false check (.access a.id)
  r.1.updAcc a.id fun x => { x with stage := .ladder r.2 }

/-- Put a write on a ladder from the root, for the uncached nodes above its anchor (spec/08 R205). -/
def Dev.fetchAncestors (d : Dev) (a : Access) : Dev :=
  let z := zoneOf a.line
  let n := indexOf a.line
  let r := d.startLadder z n ((d.probe z n 0).1 + 1) true false (.access a.id)
  r.1.updAcc a.id fun x => { x with stage := .ladder r.2 }

/-- A wait after grant for a way: the access stays granted, and the set that waits is wanted (spec/09 R240). -/
def Dev.waitFill (d : Dev) (a : Access) (p : Nat × Ctr) : Dev :=
  let e := d.updAcc a.id fun x => { x with stage := .granted }
  match Dev.synthWaits (zoneOf a.line) (indexOf a.line) p.2 (levelsDown p.1 0) d with
  | some x => e.wantSet x
  | none => e

/-- The access belongs to a Front step, which a checkpoint hold lets complete (spec/10 R267). -/
def Dev.frontStep (d : Dev) (a : Access) : Bool :=
  match a.origin with
  | .port _ => false
  | .step id => match d.step1 id with | some s => s.kind == .front | none => false

/-- A checkpoint hold keeps an access from its counter step: a fabric write, and a service access that would change a
counter, poison marks among them, but for a Front step in progress (spec/10 R267, spec/14 R385). -/
def Dev.countWaits (d : Dev) (a : Access) : Bool := d.ckptHold && d.job a != .read && !d.frontStep a

/-- How far the write of the leaf has come for an access that has just changed it (spec/09 R252): one that lies outside the
Canopy is written back before the answer. -/
def Dev.leafOf (d : Dev) (x : NodeId) : LeafSt :=
  match d.find x with
  | some k => if staging ≤ k then .due else .none
  | none => .none

/-- Advance the line counter to `next` and take the write pass (spec/04 R114 steps 4 to 6). -/
def Dev.advance (d : Dev) (a : Access) (v : Ctr) (pass : Pass) : Dev :=
  let z := zoneOf a.line
  let n := indexOf a.line
  let stay := d.updAcc a.id fun x => { x with stage := .granted }
  if d.countWaits a then stay
  else if Config.maxCount < nextCtr v then d.endExhausted a 0
  else
    let d := d.countAncestors a.line
    match d.spent a.line with
    | .level l => d.endExhausted a l
    | .fetch => d.fetchAncestors a
    | .no =>
      let leafDirty := match d.find (nodeOf z n 0) with | some k => (d.can1 k).dirty | none => false
      if !leafDirty && decide (d.budget ≤ d.dirtyCount) then stay else
        let p := d.probe z n 0
        match Dev.synthPath z n p.2 (levelsDown p.1 0) d with
        | none => d.waitFill a p
        | some e =>
          let nv : Ctr := BitVec.ofNat 56 (nextCtr v)
          let e := e.setSlot z n 0 nv
          let leaf := e.leafOf (nodeOf z n 0)
          e.updAcc a.id fun x => { x with ctr := nv, oldCtr := x.ctr, stage := .lane, pass := pass, leaf := leaf, lost := false }

/-- Issue the data read of an access (spec/04 R111 step 5). -/
def Dev.readData (d : Dev) (a : Access) (c : Ctr) (pass : Pass) : Dev :=
  if d.retired (channelOf a.line.toNat) then d.endRetired a else
    (d.updAcc a.id fun x => { x with stage := .reading, pass := pass, ctr := c, fresh := false, attempts := x.attempts + 1 }).media
      0 a.line.toNat default (.data a.id)

/-- Write the poison mark of a line and end its access (spec/08 R225). -/
def Dev.markLine (d : Dev) (a : Access) (v : Ctr) : Dev :=
  let e := { d.setSlot (zoneOf a.line) (indexOf a.line) 0 (mark true v) with
    frs.linePoisonCnt := satAdd 0xFFFFFFFF d.frs.linePoisonCnt 1 }
  e.endMarked a

/-- The channel of an access's line is retired. -/
def Dev.lineRetired (d : Dev) (a : Access) : Bool := d.retired (channelOf a.line.toNat)

/-- A counter is at hand: what each job does with it. -/
def Dev.counted (d : Dev) (a : Access) (v : Ctr) (fresh : Bool) : Dev :=
  let stay := d.updAcc a.id fun x => { x with stage := .granted }
  if a.pass = .poison then (if d.countWaits a then stay else d.markLine a v) else
    match d.job a with
    | .read =>
      if fresh then (d.updAcc a.id fun x => { x with fresh := true, ctr := v, stage := .lane, pass := .zeroRead }).placeRead a.id
      else d.readData a v .read
    | .write => if d.lineRetired a then d.endRetired a else d.advance (a := a) v .write
    | .part =>
      if d.lineRetired a then d.endRetired a
      else if fresh then
        let b := { a with fresh := true, verified := true }
        (d.updAcc a.id fun _ => b).advance b v .partialWrite
      else if a.verified then d.advance a v .partialWrite
      else if Config.maxCount < nextCtr v then d.endExhausted a 0
      else
        let e := d.countAncestors a.line
        match e.spent a.line with
        | .level l => e.endExhausted a l
        | .fetch => e.fetchAncestors a
        | .no => e.readData a v .partialRead
    | .front =>
      if fresh then d.countSkip.leave a
      else if a.verified then d.advance a v .rekeyWrite
      else d.readData a v .rekeyRead
    | .check => if fresh then d.leave a else d.readData a v .check
    | .seal => if fresh then d.sealZeros a else d.readData a v .seal
    | .unseal => if d.lineRetired a then d.endRetired a else d.advance a v .unseal
    | .void =>
      if d.countWaits a then stay else
        let p := d.probe (zoneOf a.line) (indexOf a.line) 0
        match Dev.synthPath (zoneOf a.line) (indexOf a.line) p.2 (levelsDown p.1 0) d with
        | none => d.waitFill a p
        | some e => e.markLine a v
    | .zero => d.countSkip.leave a

/-- A line under a poison mark of its own. -/
def Dev.linePoisoned (d : Dev) (a : Access) (v : Ctr) : Dev :=
  if a.pass = .poison then d.endPoisoned a else
    match d.job a with
    | .write => if d.lineRetired a then d.endRetired a else d.advance a v .write
    | .unseal => if d.lineRetired a then d.endRetired a else d.advance a v .unseal
    | _ => d.endPoisoned a

/-- Counterless regions: steps 1 to 4 of R114 but the channel test are skipped (spec/04 R111, R114, R117). -/
def Dev.counterless (d : Dev) (a : Access) : Dev :=
  let lane (p : Pass) := d.updAcc a.id fun x => { x with stage := .lane, pass := p }
  if a.pass = .poison then d.endMarked a
  else if d.lineRetired a then d.endRetired a
  else match d.job a with
    | .read => d.readData a 0 .read
    | .write => lane .write
    | .part => if a.verified then lane .partialWrite else d.readData a 0 .partialRead
    | .front => if a.verified then lane .rekeyWrite else d.readData a 0 .rekeyRead
    | .check => if a.mode = .mac then d.readData a 0 .check else d.leave a
    | .seal => d.readData a 0 .seal
    | .unseal => lane .unseal
    | .zero => lane .zeroWrite
    | .void => d.leave a

/-- The ladder of a Drizzle or SCRUB line has ended at the slot of a level: the counter it uses, from no cached node. -/
def Dev.slotKnown (d : Dev) (a : Access) (level : Nat) (v : Ctr) : Dev :=
  if isPoison v then (if level = 0 then d.linePoisoned a v else d.endPoisoned a)
  else d.counted a v (isZero v)

/-- The probe of an access that decides counts, once: a hit where its anchor is the leaf or holds a zero counter, a miss
where it needs a ladder fetch (spec/09 R256). -/
def Dev.countProbe (d : Dev) (a : Access) (c : CStep) : Dev :=
  if a.probed then d else
    match c with
    | .known _ _ | .linePoison _ => { d with can.hit := satAdd (2 ^ 64 - 1) d.can.hit 1 }
    | .fetch => { d with can.miss := satAdd (2 ^ 64 - 1) d.can.miss 1 }
    | .wait | .nodePoison => d

/-- The probe of a granted access in full freshness, and what follows from it. -/
def Dev.probed (d : Dev) (a : Access) : Dev :=
  let c := d.counterStep a.line
  let d := (d.countAnchor (zoneOf a.line) (indexOf a.line) 0).countProbe a c
  let a := { a with probed := a.probed || c != .wait, stage := if c = .wait then .granted else a.stage }
  let d := d.updAcc a.id fun _ => a
  match c with
  | .wait => d
  | .fetch => d.toLadder a
  | .nodePoison => d.endPoisoned a
  | .linePoison v => d.linePoisoned a v
  | .known v fresh => d.counted a v fresh

/-- A granted access goes as far as it can. -/
def Dev.proceed (d : Dev) (id : Nat) : Dev :=
  match d.acc id with
  | none => d
  | some a =>
    if a.mode != .full then d.counterless a
    else if d.countWaits a && (d.job a == .write || d.job a == .part || a.pass == .poison) then
      d.updAcc id fun x => { x with stage := .granted }
    else d.walking [id] fun d => d.probed a

/-! ### ACCESS_GRANT (spec/04 R110, R115; spec/06 R155; spec/09 R235, R237, R256) -/

/-- The oldest access of its line, with no earlier range hold over it. -/
def Dev.grantable (d : Dev) (a : Access) : Bool :=
  match a.place with
  | none => false
  | some p =>
    (a.stage == .gated || a.stage == .granted) &&
      (d.fab.accs.all fun b => decide (b.id = a.id ∨ b.line ≠ a.line) || (match b.place with | some q => decide (p ≤ q) | none => true)) &&
      (d.fab.holds.all fun h => !decide (h.lo ≤ a.line.toNat ∧ a.line.toNat ≤ h.hi) || decide (p ≤ h.place) || a.origin == .step h.step)

/-- A write passes the waiting point only when its window has passed. -/
def Dev.passedWindow (a : Access) : Bool :=
  match a.origin with
  | .step _ => true
  | .port _ => !a.isWrite || a.win == .passed

/-- A fabric write whose byte mask has no bit set (spec/04 R115). -/
def Dev.emptyWrite (a : Access) : Bool :=
  match a.origin with
  | .step _ => false
  | .port _ => a.isWrite && a.mask == 0

/-- The slot of an access, chosen at grant. -/
def Dev.grantSlot (d : Dev) (a : Access) : BitVec 16 :=
  match a.origin with
  | .port _ => slotFor (d.rekey a.region) a.kslot a.line
  | .step id => match d.step1 id with | some s => s.slotA | none => 0

def execAccessGrant (id : Nat) (err : Option CanErr) (s : State) : Host.Outcome State Fault Refusal :=
  s.serve fun d =>
    match d.acc id with
    | none => d
    | some a =>
      if !d.grantable a then d else
        let d := d.trimStaging.canopyError err
        let first := a.stage = .gated
        let d := if first then (d.updAcc id fun x => { x with stage := .granted, slot := d.grantSlot a }) else d
        if !Dev.passedWindow a then d else
          if Dev.emptyWrite a then d.outcome id .ok
          else d.proceed id

end Machine
end Sys2Proof
end

