-- ==== Sys2Proof/Machine/Maint.lean ====
section
/-! DEFINITION. Canopy maintenance, the pinned partition, drain and bypass, and the governor's write-backs (spec/09
R241-R256, spec/13 R376). -/

namespace Sys2Proof
namespace Machine

/-! ### Lines by node, by set and way -/

/-- The line of a way of the Canopy that holds a node; the staging buffer is outside it (spec/09 R252). -/
def Dev.cached (d : Dev) (x : NodeId) : Option Nat :=
  (d.can.lines.find? fun p => decide (p.1 < staging) && p.2.valid && p.2.node == x).map (·.1)

/-- A fill of the node is outstanding (spec/09 R248). -/
def Dev.filling (d : Dev) (x : NodeId) : Bool :=
  (d.cached x).isNone && d.frs.ladders.any fun l => !l.check && l.rungs.any fun r => nodeOf l.zone l.n r.level == x

/-- The line that a BY 1 operation names (spec/09 R234). -/
def lineNamed (e : Line) : Nat := 16 * (32 * num e 26 2 + num e 24 1) + num e 28 1

/-- The lowest free way of the pinned partition in a set (spec/09 R246): one that is neither being disabled nor disabled, and
that no other PIN fills (DESIGN CHOICE, log 119). -/
def Dev.freePin (d : Dev) (s : Nat) : Option Nat :=
  ((List.range 16).map fun w => 16 * s + w).find? fun k =>
    d.pinnedWay (k % 16) && !(d.can1 k).valid && !(d.can1 k).fill && !(d.can.ways.get (wayOf k)).disabling

/-- The fill of a PIN's node goes directly to that way (spec/09 R236, R246). -/
def Dev.pinFill (d : Dev) (x : NodeId) : Dev :=
  match d.freePin (canSet (d.nodeAddr x)) with
  | some k => d.setLine k { d.can1 k with st := .clean, fill := true, node := x, pinned := true }
  | none => d

/-- Every pinned way of a set holds a pinned node. -/
def Dev.pinsFull (d : Dev) (x : NodeId) : Bool := (d.freePin (canSet (d.nodeAddr x))).isNone

/-- Place a node in a pinned way of its set: move its line there, one of the staging buffer too, or write a clean one. -/
def Dev.pinNode (d : Dev) (x : NodeId) (ctr : List Ctr) (mac : BitVec 64) : Option Dev :=
  (d.freePin (canSet (d.nodeAddr x))).map fun k =>
    match d.find x with
    | some j => ((((d.countWay j).countWay k).setLine k { d.can1 j with pinned := true, written := true }).dropLine j).sweepWays
    | none =>
      let line : CanLine := { (default : CanLine) with st := .clean, node := x, ctr := ctr, mac := mac, pinned := true, written := true }
      (d.countWay k).setLine k line

/-! ### Running operations -/

def Dev.maintEnd (d : Dev) (m : Maint) (c : Cpl) : Dev :=
  { d with can.maint := d.can.maint.filter fun y => !(y.q == m.q && y.pos == m.pos) }.finish m.q (BitVec.ofNat 16 m.pos) c

def Dev.maintPhase (d : Dev) (m : Maint) (p : Nat) : Dev :=
  { d with can.maint := d.can.maint.map fun (y : Maint) => if y.q = m.q ∧ y.pos = m.pos then { y with phase := p } else y }

/-- A write-back of the line is asked for ahead of age order. -/
def Dev.wantLine (d : Dev) (k : Nat) : Dev := d.updLine k fun c => { c with want := true }

/-- A dirty line whose write-back cannot be issued: STUCK or blocked (spec/09 R242). -/
def Dev.cannotWrite (d : Dev) (c : CanLine) : Bool := c.dirty && (c.stuck || d.blocked 10 c)

/-- FLUSH (spec/09 R247, R248). -/
def Dev.tryFlush (d : Dev) (m : Maint) : Dev :=
  match d.cached m.node with
  | none => d.maintEnd m (Cpl.ok 0)
  | some k =>
    let c := d.can1 k
    if !c.dirty then d.maintEnd m (Cpl.ok 0)
    else if d.cannotWrite c then d.maintEnd m .busy
    else if m.phase ≠ 0 then d
    else if c.wb then d.maintPhase m 1
    else (d.maintPhase m 2).wantLine k

/-- INVALIDATE. -/
def Dev.tryInvalidate (d : Dev) (m : Maint) : Dev :=
  match d.cached m.node with
  | none => d.maintEnd m (Cpl.ok 0)
  | some k =>
    let c := d.can1 k
    if c.pinned then d.maintEnd m .busy
    else if c.dirty then d.maintEnd m .dirty
    else ((d.dropLine k).sweepWays.drainEnd).maintEnd m (Cpl.ok 0)

/-- FLUSH_INV and UNPIN: write back while dirty, then make the way INVALID. -/
def Dev.tryFlushInv (d : Dev) (m : Maint) (unpin : Bool) : Dev :=
  match d.cached m.node with
  | none => d.maintEnd m (if unpin && m.phase = 0 then .notFound else Cpl.ok 0)
  | some k =>
    let c := d.can1 k
    if unpin && !c.pinned then d.maintEnd m .notFound
    else if !unpin && c.pinned then d.maintEnd m .busy
    else if d.cannotWrite c then d.maintEnd m .busy
    else if c.dirty then (d.maintPhase m 2).wantLine k
    else ((d.dropLine k).sweepWays.drainEnd).maintEnd m (Cpl.ok 0)

/-- The node of a PIN is at hand: cached, or given. No fill enters a Canopy that is not enabled (spec/09 R251). -/
def Dev.pinHere (d : Dev) (m : Maint) (ctr : List Ctr) (mac : BitVec 64) : Dev :=
  if !d.can.en then d.maintEnd m .busy else
  match d.find m.node with
  | some k =>
    if (d.can1 k).pinned then d.maintEnd m (if m.phase = 0 then .exists else Cpl.ok 0)
    else match d.pinNode m.node ctr mac with
      | some e => e.maintEnd m (Cpl.ok 0)
      | none => d.maintEnd m .tableFull
  | none =>
    match d.pinNode m.node ctr mac with
    | some e => e.maintEnd m (Cpl.ok 0)
    | none => d.maintEnd m .tableFull

/-- PIN (spec/09 R246). The table gives its conditions no order: the zone's state comes before EN, EN before EXISTS, and
TABLE_FULL before POISONED (DESIGN CHOICE, log 118). -/
def Dev.tryPin (d : Dev) (m : Maint) : Dev :=
  let x := m.node
  let n := firstLine x
  let z := d.zone x.zone
  if m.phase ≠ 0 then d
  else if z.st == .formatting || z.st == .sanitizing then d.maintEnd m .busy
  else if z.st != .online then d.maintEnd m .quarantined
  else if !d.can.en then d.maintEnd m .busy
  else if (d.find x).isSome then d.pinHere m [] 0
  else if d.pinsFull x then d.maintEnd m .tableFull
  else if d.frs.marks.any fun y => under y x then d.maintEnd m .poisoned
  else
    let p := d.probe x.zone n x.level
    let d := d.countAnchor x.zone n x.level
    if isPoison p.2 then d.maintEnd m .poisoned
    else if isZero p.2 then d.pinHere m (synth (if isZeroMark p.2 then p.2 else 0)) 0
    else (((d.maintPhase m 2).pinFill x).startLadder x.zone n x.level false false (.pin m.q m.pos)).1

/-- TAG, STATE, FLAGS and bytes of a line (spec/13 R376); TAG and bytes of a line that holds no node are free but after
ZERO, and so are the bytes of one whose fill is in progress (log 2). -/
def Dev.readLine (d : Dev) (k : Nat) : Dev × Bytes :=
  let c := d.can1 k
  let flags := flag c.fill + 2 * flag c.wb + 4 * flag c.stuck + 8 * flag (c.pinned && !c.fill)
  let head (tag : Nat) := leBytes 4 tag ++ leBytes 1 (d.lineState k).code ++ leBytes 1 flags ++ List.replicate 10 0
  if c.valid then (d, head (canTag (d.nodeAddr c.node)) ++ lineBytes (Node.line ⟨c.ctr, c.mac⟩)) else
    ({ d with free := d.free + 1 },
     head (if c.fill then canTag (d.nodeAddr c.node) else (Config.heldTag d.free).toNat) ++
       (if c.ctr = [] then lineBytes (Config.heldLine d.free) else List.replicate 64 0))

/-- READ by set and way. Its `err` says what the check bits of the line show (spec/09 R237, R245). -/
def Dev.maintRead (d : Dev) (m : Maint) (rbuf : Nat) : Dev :=
  if d.lineState m.line == .unwritten then (d.raise bCan 100).maintEnd m .poisoned
  else
    let d := d.countWay m.line
    let r := d.readLine m.line
    let e := match m.err with | some u => d.dataError m.line u | none => d
    if m.err = some true then e.maintEnd m .poisoned
    else
      let e := { e with free := r.1.free, can.maint := e.can.maint.filter fun y => !(y.q == m.q && y.pos == m.pos) }
      e.finishWith m.q (BitVec.ofNat 16 m.pos) (Cpl.ok 0) [(rbuf, r.2)]

/-- ZERO by set and way (spec/09 R245). -/
def Dev.maintZero (d : Dev) (m : Maint) : Dev :=
  if !d.pinnedWay (m.line % 16) || (d.can1 m.line).valid || (d.can1 m.line).fill then d.maintEnd m (Cpl.invalid 0 28)
  else
    let line : CanLine := { (default : CanLine) with written := true, ctr := synth 0 }
    ((d.countWay m.line).setLine m.line line).maintEnd m (Cpl.ok 0)

/-- Go on with an operation whose turn it is. -/
def Dev.tryMaint (d : Dev) (m : Maint) : Dev :=
  if m.phase = 0 && m.line = staging && d.filling m.node then d
  else match m.op with
    | 0 => d.tryFlush m
    | 1 => d.tryInvalidate m
    | 2 => d.tryFlushInv m false
    | 3 => d.tryPin m
    | 4 => d.tryFlushInv m true
    | 5 => (match d.exec1 m.q (BitVec.ofNat 16 m.pos) with | some x => d.maintRead m (num x.entry 40 8) | none => d)
    | _ => d.maintZero m

/-- Operations on one node apply in their order of arrival (spec/09 R248). -/
def pumpMaintList : List Maint → List NodeId → Dev → Dev
  | [], _, d => d
  | m :: r, busy, d =>
    if busy.contains m.node then pumpMaintList r busy d else
      let e := d.tryMaint m
      let left := e.can.maint.any fun y => y.q == m.q && y.pos == m.pos
      pumpMaintList r (if left then m.node :: busy else busy) e

def Dev.pumpMaint (d : Dev) : Dev := pumpMaintList d.can.maint [] d

/-- A write-back of a node has completed: the FLUSHes that waited for it (spec/09 R248). -/
def Dev.maintWritten (d : Dev) (x : NodeId) : Dev :=
  (forAll (d.can.maint.filter fun m => m.node == x && m.op == 0 && m.phase != 0) (fun m e =>
    match e.cached x with
    | none => e.maintEnd m (Cpl.ok 0)
    | some k =>
      if m.phase = 1 && (e.can1 k).dirty then (e.maintPhase m 2).wantLine k else e.maintEnd m (Cpl.ok 0)) d).pumpMaint

/-! ### Command rows -/

/-- Node addresses, and the rules of R246 and R247 that need the state. -/
def maintRules (d : Dev) (x : Exec) : List (Nat × Bool) :=
  let e := x.entry
  if num e 9 1 = 0 then
    [(16, (d.nodeAt (num e 16 8 / 64)).isSome && !(decide (num e 8 1 = 3) && decide (d.can.pinWays = 0)))]
  else [(28, !(d.can.ways.get (wayOf (lineNamed e))).disabled)]

/-- A CANOPY_MAINT row of an operation, which takes its turn on its node; an undefined OP ends in its operand check. An
operation by set and way on a line whose fill is in progress finds no node and does not wait (DESIGN CHOICE, log 120). -/
def Dev.maintCommand (d : Dev) (q : Nat) (pos : QPos) (op : Nat) (err : Option Bool) : Dev :=
  match d.readyEntry q pos cCanopyMaint with
  | none => d
  | some y =>
    if num y.entry 8 1 ≠ op && (op ≠ 0 || decide (num y.entry 8 1 < 7)) then d else
      d.command q pos cCanopyMaint maintRules fun x d =>
        let e := x.entry
        let k := lineNamed e
        let by0 := num e 9 1 = 0
        let node := if by0 then (d.nodeAt (num e 16 8 / 64)).getD default
          else if (d.can1 k).valid then (d.can1 k).node else ⟨8192, 0, k⟩
        let m : Maint := ⟨q, pos.toNat, node, if by0 then staging else k, op, 0, err⟩
        { d.running q pos with can.maint := d.can.maint ++ [m] }.pumpMaint

def execCanopyMaintFlush (q : BitVec 14) (pos : BitVec 16) (s : State) : Host.Outcome State Fault Refusal :=
  s.serve fun d => d.maintCommand q.toNat pos 0 none
def execCanopyMaintInvalidate (q : BitVec 14) (pos : BitVec 16) (s : State) : Host.Outcome State Fault Refusal :=
  s.serve fun d => d.maintCommand q.toNat pos 1 none
def execFlushInv (q : BitVec 14) (pos : BitVec 16) (s : State) : Host.Outcome State Fault Refusal :=
  s.serve fun d => d.maintCommand q.toNat pos 2 none
/-- PIN. `err`: what the check bits of its Canopy probe show (spec/09 R237, R238). -/
def execPin (q : BitVec 14) (pos : BitVec 16) (err : Option CanErr) (s : State) : Host.Outcome State Fault Refusal :=
  s.serve fun d =>
    (if (d.readyEntry q.toNat pos cCanopyMaint).isSome then d.canopyError err else d).maintCommand q.toNat pos 3 none
def execUnpin (q : BitVec 14) (pos : BitVec 16) (s : State) : Host.Outcome State Fault Refusal :=
  s.serve fun d => d.maintCommand q.toNat pos 4 none
/-- READ by set and way. `err`: what the check bits of the line show (spec/09 R237). -/
def execCanopyMaintRead (q : BitVec 14) (pos : BitVec 16) (err : Option Bool) (s : State) : Host.Outcome State Fault Refusal :=
  s.serve fun d => d.maintCommand q.toNat pos 5 err
def execZero (q : BitVec 14) (pos : BitVec 16) (s : State) : Host.Outcome State Fault Refusal :=
  s.serve fun d => d.maintCommand q.toNat pos 6 none

/-! ### Register rows of CAN (spec/09 R244, R251-R253, R256) -/

/-- Every valid line of the Canopy's ways: a clean one leaves, a dirty one is to be written back. -/
def Dev.startDrain (d : Dev) : Dev :=
  let ks := d.can.lines.filter fun p => decide (p.1 < staging) && p.2.valid
  let d := { d with can.en := false, can.draining := true, can.drainStopped := false }
  let d := d.dropFills fun _ _ => true
  let d := forAll ks (fun p e => if p.2.dirty then (if p.2.stuck then e else e.wantLine p.1) else e.dropLine p.1) d
  let d := if ks.any fun p => p.2.stuck then { d with can.drainStopped := true }.raise bCan 102 else d
  d.sweepWays.drainEnd

/-- Drain or bypass ends; the lines that only the drain wanted keep no claim, those of a way being disabled keep theirs. -/
def Dev.endDrain (d : Dev) : Dev :=
  { d with can.en := true, can.draining := false, can.drainStopped := false
           can.lines := d.can.lines.map fun p =>
             if p.1 < staging then (p.1, { p.2 with want := p.2.want && (d.leavingWay p.1 || d.can.maint.any fun m => m.node == p.2.node && m.phase != 0) })
             else p }

def execCanCtrlEn (v : Word32) (s : State) : Host.Outcome State Fault Refusal :=
  s.core fun d =>
    if bit v 0 then (if d.can.en then d else d.endDrain.pumpMaint)
    else if d.can.en then d.startDrain.pumpMaint else d

/-- No way outside the pinned partition of `p` ways is enabled in a bank (spec/09 R250). -/
def Dev.bankDead (d : Dev) (p b : Nat) : Bool := (List.range (16 - p)).all fun w => (d.can.ways.get (16 * b + w)).disabled

def execCanPinCfg (v : Word32) (s : State) : Host.Outcome State Fault Refusal :=
  s.core fun d =>
    if d.can.en || d.can.draining then { d with can.cfgIgn := true } else
      let p := min 8 (bits v 3 0)
      let keep := min p d.can.pinWays
      let e := { d with
        can.pinWays := p
        can.lines := d.can.lines.filter fun x => decide (staging ≤ x.1) || decide (16 - keep ≤ x.1 % 16) }
      forAll (List.range 32) (fun b x => if !d.bankDead d.can.pinWays b && d.bankDead p b then x.raise bCan (68 + b) else x) e

def execCanCntClr (v : Word32) (s : State) : Host.Outcome State Fault Refusal :=
  s.core fun d => if bit v 0 then { d with can.hit := 0, can.miss := 0 } else d

/-! ### WRITE_BACK (spec/08 R224, spec/09 R241-R243, spec/10 R266, R267, R271) -/

/-- Dirty lines that may begin a write-back now, with no claim ahead of age order: above the budget, for a checkpoint or
for the power-fail flush. -/
def Dev.byAge (d : Dev) : List (Nat × CanLine) :=
  let dirty := d.can.lines.filter fun p => p.2.dirty && !p.2.stuck && !p.2.wb
  let high := decide (d.budget - 1024 < d.dirtyCount)
  match d.per.ckpt with
  | some c => if high || c.phase == .hold then dirty
      else if c.phase == .preFlush then dirty.filter fun p => c.want.contains p.1 else []
  | none => if high || (d.mgt.pfw == .flushing && d.per.armed) then dirty else []

/-- The line a write-back starts on. -/
def Dev.pickWriteBack (d : Dev) : Option Nat :=
  if 256 ≤ d.wbCount then none else
    (d.pickFrom (d.can.lines.filter fun p => p.2.dirty && p.2.want && !p.2.stuck && !p.2.wb)).orElse fun _ => d.pickFrom d.byAge

end Machine
end Sys2Proof
end

