-- ==== Sys2Proof/Machine/Lanes.lean ====
section
/-! DEFINITION. Lane states, known-answer sets, audit sampling, quarantine and retirement (spec/07 R169-R197,
spec/03 R99). -/

namespace Sys2Proof
namespace Machine

def Dev.lane (d : Dev) (i : Nat) : Lane := d.lan.lanes.get i
def Dev.updLane (d : Dev) (i : Nat) (f : Lane → Lane) : Dev := { d with lan.lanes := d.lan.lanes.upd i f }
/-- Lanes in a state, in rising order. -/
def Dev.lanesIn (d : Dev) (f : LaneSt → Bool) : List Nat := (List.range Config.lanes).filter fun i => f (d.lane i).st

/-- A lane that takes line passes (spec/07 R169). -/
def LaneSt.takes : LaneSt → Bool
  | .active | .probation => true
  | _ => false
def LaneSt.spare : LaneSt → Bool
  | .standby | .auditor => true
  | _ => false

/-- A of spec/07 R169. -/
def Dev.activeLanes (d : Dev) : Nat := (d.lanesIn LaneSt.takes).length
/-- LAN_STAT.AUDIT_FALLBACK (spec/07 R195). -/
def Dev.auditFallback (d : Dev) : Bool := decide (0 < d.activeLanes) && (d.lanesIn LaneSt.spare).isEmpty
def Dev.auditor (d : Dev) : Option Nat := (d.lanesIn fun s => s == .auditor).head?

/-- A change of lane states, with LAN_NO_LANE and LAN_AUDIT_FALLBACK where they follow (spec/07 R198). -/
def Dev.lanesChange (d : Dev) (f : Dev → Dev) : Dev :=
  let e := f d
  let e := if decide (0 < d.activeLanes) && decide (e.activeLanes = 0) then e.raise bLan 110 else e
  if !d.auditFallback && e.auditFallback then e.raise bLan 148 else e

/-- A new count of passes to the next sample, from the lane's LFSR: a free value between N / 2 and 3N / 2 - 1
(spec/07 R192, log 2). -/
def Dev.drawAudit (d : Dev) (i : Nat) : Dev :=
  let n := d.lan.auditInterval
  let v := Config.auditLfsr d.free (d.lane i).lfsr
  { d.updLane i (fun l => { l with lfsr := v, audit := n / 2 + v.toNat % n }) with free := d.free + 1 }

/-- A lane becomes ACTIVE; its down-counter starts with a fresh draw (DESIGN CHOICE, log 135). -/
def Dev.activate (d : Dev) (i : Nat) : Dev := (d.updLane i fun l => { l with st := .active }).drawAudit i

/-- The lane that replaces or stands in for lane `i`: the lowest STANDBY lane, else the AUDITOR (spec/07 R171). -/
def Dev.replacement (d : Dev) (i : Nat) : Option Nat :=
  ((d.lanesIn fun s => s == .standby).find? (· ≠ i)).orElse fun _ => (d.lanesIn fun s => s == .auditor).find? (· ≠ i)

/-- Within 1 ms of the lane's last failure. -/
def Dev.recentFailure (d : Dev) (i : Nat) : Bool :=
  match (d.lane i).failedAt with
  | some t => !d.passed t 1000
  | none => false

def clusterOf (i : Nat) : Nat := i / 4
/-- A cluster gated for idleness wakes (spec/03 R99). -/
def Dev.wake (d : Dev) (k : Nat) : Dev :=
  { d with mgt.clusterIdle := d.mgt.clusterIdle &&& ~~~ (BitVec.ofNat 9 (2 ^ k)) }

/-- A lane takes up the AUDITOR's work; its cluster is never idle then (spec/03 R99). -/
def Dev.becomeAuditor (d : Dev) (j : Nat) : Dev := (d.updLane j fun l => { l with st := .auditor }).wake (clusterOf j)

/-- The lowest STANDBY lane but `i` becomes AUDITOR, none within 1 ms of a failure (spec/07 R196). -/
def Dev.newAuditor (d : Dev) (i : Nat) : Dev :=
  match (d.lanesIn fun s => s == .standby).find? fun j => decide (j ≠ i) && !d.recentFailure j with
  | some j => d.becomeAuditor j
  | none => d

/-- A lane that stands in returns to its former state; as AUDITOR only while there is none and it has not failed within
1 ms. The windows bound to it stay bound (DESIGN CHOICE, log 116). -/
def Dev.formerState (d : Dev) (j : Nat) (st : LaneSt) : Dev :=
  if st = .auditor && (d.auditor.isSome || d.recentFailure j) then d.updLane j fun l => { l with st := .standby }
  else if st = .auditor then d.becomeAuditor j
  else d.updLane j fun l => { l with st := st }

/-- A stand-in is not needed any more (spec/07 R171). One that is quarantined itself gives back its own stand-in and is a
standby lane once it passes. -/
def Dev.standDown : Nat → Nat × LaneSt → Dev → Dev
  | 0, _, d => d
  | fuel + 1, (j, st), d =>
    match (d.lane j).st with
    | .active => d.formerState j st
    | .probation => d.updLane j fun l => { l with st := .standby }
    | .quarantined =>
      let e := d.updLane j fun l => { l with wasStandby := true, standIn := none }
      match (d.lane j).standIn with
      | some p => Dev.standDown fuel p e
      | none => e
    | _ => d

/-- Lane `i`, a stand-in, leaves for good: the lane it stood in for has `p` as its stand-in. -/
def Dev.passOn (d : Dev) (i : Nat) (p : Option (Nat × LaneSt)) : Dev :=
  { d with lan.lanes := d.lan.lanes.mapAll fun _ (l : Lane) =>
      if l.standIn.any fun q => q.1 = i then { l with standIn := p } else l }

/-- The windows bound to a lane end (spec/07 R186). -/
def Dev.endLaneWindows (d : Dev) (i : Nat) : Dev :=
  forAll (List.range 256) (fun g e =>
    let s := e.session g
    if (s.wwin.any fun w => w.lane = i) || (s.wdone.any fun w => w.lane = i) || (s.rwins.any fun w => w.lane = i) then
      let e := e.updSession g fun s => { s with wdone := s.wdone.map fun (w : WWin) =>
        if w.lane = i && w.forced.isNone then { w with forced := some .sessionFailed } else w }
      let e := if (e.session g).wwin.any fun w => w.lane = i then e.endWindow g .sessionFailed
               else Dev.flushForced (e.session g).wdone.length g e
      (forAll ((e.session g).rwins.filter fun w => w.lane = i) (fun w x => x.endReadWindow g w false) e).effects g
    else e) d

/-- A lane that leaves service holds no key any more, in its cache or for a pass (spec/07 R174), and holds back for no
known-answer set. -/
def Dev.clearKeys (d : Dev) (i : Nat) : Dev :=
  { d with fab.accs := d.fab.accs.map fun (a : Access) => if a.lane = some i then { a with linkKey := none } else a }.updLane i
    fun l => { l with slots := [], regs := [], katHold := false }

/-- A lane leaves service: its keys are cleared, its windows end. In the safe state no window's end is answered (spec/15
R423). -/
def Dev.takeOut (d : Dev) (i : Nat) (st : LaneSt) (squall : Bool) : Dev :=
  let e := (d.clearKeys i).updLane i fun l => { l with st := st }
  if squall then e else e.endLaneWindows i

/-! ### Known-answer sets (spec/07 R189-R191) -/

/-- The test vectors built into the engine: free values (log 96). -/
def katVec : KatVec where
  key := Config.katKey
  mac := Config.katMacKey
  link := Config.katLink
  tag := Config.katTag
  line := Config.katLine
  ctr := Config.katCtr
  iv := Config.katIv
  aad := Config.katAad
  data := Config.katData

/-- The 72 bytes that a write pass of a set gives for the test payload, which is link ciphertext (spec/07 R175). -/
def katBeat (v : KatVec) (m : Mode) : Beat :=
  let pt := linkCrypt v.link v.iv 0 v.data
  let ct := if m = .full then ctrLine v.key v.line v.ctr pt else xtsEnc v.key v.line pt
  ⟨ct, match m with
    | .full => macFull v.mac v.line v.ctr v.tag ct
    | .mac => macOnly v.mac v.line v.tag ct
    | .cipher => 0, v.tag⟩

/-- A write pass of a set: link decryption, storage encryption, the line MAC and the key tag (spec/07 R175). -/
def katWrite (v : KatVec) (m : Mode) : Bytes :=
  let b := katBeat v m
  lineBytes b.data ++ beBytes 7 b.mac.toNat ++ [b.ktag]

/-- A read pass of a set over that beat: its key-tag check and MAC check, storage decryption and link encryption (spec/07
R175). -/
def katRead (v : KatVec) (m : Mode) : Bytes :=
  let b := katBeat v m
  let pt := if m = .full then ctrLine v.key v.line v.ctr b.data else xtsDec v.key v.line b.data
  let mac := match m with
    | .full => b.mac == macFull v.mac v.line v.ctr v.tag b.data
    | .mac => b.mac == macOnly v.mac v.line v.tag b.data
    | .cipher => true
  [BitVec.ofNat 8 (flag (b.ktag == v.tag)), BitVec.ofNat 8 (flag mac)] ++ lineBytes (linkCrypt v.link v.iv 0 pt)

/-- The passes of a set: a write pass and a read pass in full freshness and in each counterless form. -/
def katPasses (v : KatVec) : List Bytes := [Mode.full, .mac, .cipher].flatMap fun m => [katWrite v m, katRead v m]

/-- The expected results of the items of spec/07 R189, in its order: the cipher and the inverse cipher on both paths of both
pipelines, GHASH on both multipliers, the passes, one link window tag (log 96). -/
def katExpected (v : KatVec) : List Bytes :=
  let b := (lineBytes v.data).take 16
  let h := BitVec.ofNat 128 (beNat (aesEnc v.key (List.replicate 16 0)))
  (List.replicate 4 [aesEnc v.key b, aesDec v.key b]).flatten ++
    List.replicate 2 (beBytes 16 (ghash h (blocks16 (lineBytes v.data))).toNat) ++ katPasses v ++
    [beBytes 12 (linkTag v.link v.iv [v.aad] [v.data]).toNat]

/-- A set passes when every item gives the expected result held in the engine. -/
def katPassed (results : List Bytes) : Bool := results == katExpected katVec

/-- Start a set on a lane at its next free slot; its registers take the test vectors. -/
def Dev.startKat (d : Dev) (i : Nat) : Dev :=
  (d.updLane i fun l => { l with katRun := true, vec := katVec }).wake (clusterOf i)

/-! ### Retirement and quarantine -/

/-- A set that the TAP started cannot end, because its lane has left: DONE with PASS 0 (DESIGN CHOICE, log 32). -/
def Tap.katLost (t : Tap) : Tap := if t.kBusy then { t with kBusy := false, kDone := true, kPass := false } else t

/-- A lane has left for good: the set that the TAP may have started on it is lost. -/
def Dev.tapKatLost (d : Dev) (i : Nat) : Dev :=
  if d.tap.kLane.toNat = i then { d with tap := d.tap.katLost } else d

/-- What follows a lane that is out for good: who takes its place. `l` is what it was (spec/07 R171, R197).
LAN_STANDBY_OUT is of service, not of power-up (R198). -/
def Dev.replaced (d : Dev) (i : Nat) (l : Lane) : Dev :=
  let carried := l.st == .active || l.st == .probation || (l.st == .quarantined && !l.wasStandby)
  if l.st == .auditor then d.newAuditor i
  else if !carried then d
  else if l.st == .quarantined && l.standIn.isSome then d.passOn i l.standIn
  else match d.replacement i with
    | some j => (d.passOn i (some (j, (d.lane j).st))).activate j
    | none => let e := d.passOn i none; if d.mgt.phase == .done then e.raise bLan 108 else e

/-- A lane is retired in service (spec/07 R171, R197, R198), or in the safe state, where lane states still change (spec/15
R415, R423). -/
def Dev.retireLane (d : Dev) (i : Nat) (squall : Bool) : Dev :=
  d.lanesChange fun d =>
    let l := d.lane i
    (((d.tapKatLost i).takeOut i .retired squall).updLane i fun l => { l with standIn := none, katRun := false }).replaced i l

/-- A lane enters QUARANTINED and runs one known-answer set (spec/07 R196 steps 1 to 5). -/
def Dev.quarantineLane (d : Dev) (i : Nat) (squall : Bool) : Dev :=
  d.lanesChange fun d =>
    let l := d.lane i
    let spare := l.st.spare
    let e := (((d.takeOut i .quarantined squall).startKat i).updLane i fun l =>
      { l with failedAt := some d.mgt.tref, wasStandby := spare, standIn := none }).wake (clusterOf i)
    if l.st == .auditor then e.newAuditor i
    else if spare then e
    else match e.replacement i with
      | some j => (e.updLane i fun x => { x with standIn := some (j, (e.lane j).st) }).activate j
      | none => e

/-- A lane failure (spec/07 R196). -/
def Dev.laneFailed (d : Dev) (i : Nat) (squall : Bool) : Dev :=
  let l := d.lane i
  if l.st == .probation || l.st == .quarantined || (l.st.spare && d.recentFailure i) then
    (d.updLane i fun l => { l with failedAt := some d.mgt.tref }).retireLane i squall
  else d.quarantineLane i squall

/-- A quarantined lane has passed its set (spec/07 R196 step 7). -/
def Dev.quarantinePassed (d : Dev) (i : Nat) : Dev :=
  d.lanesChange fun d =>
    let l := d.lane i
    if l.wasStandby then d.updLane i fun l => { l with st := .standby } else
      let e := match l.standIn with
        | some p => Dev.standDown Config.lanes p d
        | none => d
      e.updLane i fun l => { l with st := .probation, standIn := none }

/-- Lanes a set may run on in service (spec/07 R190). -/
def LaneSt.tested : LaneSt → Bool
  | .off | .retired | .disabled => false
  | _ => true
/-- Lanes a set may be started on (spec/07 R191). -/
def LaneSt.startable : LaneSt → Bool
  | .active | .standby | .auditor | .probation => true
  | _ => false

def wLanKatRunLo : Nat := 0x20004

def execLanKatRun (hi : Word32) (s : State) : Host.Outcome State Fault Refusal :=
  s.core fun d =>
    let lo := d.mgt.loHeld.get wLanKatRunLo
    forAll (List.range Config.lanes) (fun i e =>
      if (if i < 32 then bit lo i else bit hi (i - 32)) && (e.lane i).st.startable then e.startKat i else e) d

/-- A period is about to end with the set incomplete: within the last 2 µs of it (log 20). -/
def execKatPeriodExpiry (lane : Fin 36) (s : State) : Host.Outcome State Fault Refusal :=
  s.serve fun d =>
    let l := d.lane lane
    if l.st.tested && d.passed l.katAt (d.lan.katPeriod - 2) then
      (d.startKat lane).updLane lane fun l => { l with katHold := true }
    else d

/-- A set started through the TAP reports to it (spec/17 R462). -/
def Dev.tapKatDone (d : Dev) (i : Nat) (pass : Bool) : Dev :=
  if d.tap.kBusy && d.tap.kLane.toNat = i
  then { d with tap.kBusy := false, tap.kDone := true, tap.kPass := pass, tap.kRefused := false } else d

/-- A set may end on a lane: in service any, and before READY or in the safe state one that is under way there, which only
QUARANTINED or a GO through the TAP begins (spec/07 R190, spec/17 R462, spec/15 R423). -/
def Dev.katMayEnd (d : Dev) (i : Nat) (squall : Bool) : Bool :=
  (d.lane i).st.tested && d.up (clusterOf i) && ((d.mgt.ready && !squall) || (d.lane i).katRun)

/-- A set ends with the results that the lane gave, and passes when all are as expected (spec/07 R189). Before READY and in
the safe state a failed set is a lane failure too (DESIGN CHOICE, log 138), and LAN_KAT_FAIL is of service (R198). -/
def execKatSetDone (lane : Fin 36) (results : List Bytes) (s : State) : Host.Outcome State Fault Refusal :=
  s.act fun d =>
    let i := lane.val
    let pass := katPassed results
    if !d.katMayEnd i s.safe.active then d else
      let d := (d.updLane i fun l => { l with katRun := false, katHold := false, katAt := d.mgt.tref, vec := katVec }).tapKatDone i pass
      if pass then (if (d.lane i).st == .quarantined then d.quarantinePassed i else d)
      else
        let d := d.updLane i fun l => { l with katFails := satAdd 255 l.katFails 1 }
        (if d.mgt.phase == .done then d.raise bLan (36 + i) else d).laneFailed i s.safe.active

def execProbationEnd (lane : Fin 36) (s : State) : Host.Outcome State Fault Refusal :=
  s.serve fun d =>
    let i := lane.val
    if (d.lane i).st == .probation && !d.recentFailure i then
      (d.lanesChange fun d => d.activate i).raise bLan (112 + i)
    else d

def execStandbyKatRepeat (lane : Fin 36) (s : State) : Host.Outcome State Fault Refusal :=
  s.serve fun d =>
    let l := d.lane lane
    if l.st == .standby && d.recentFailure lane && d.passed l.katAt 100 then d.startKat lane else d

/-- An access is between two passes in a lane of the cluster: the first is over and the next follows at once. -/
def Dev.clusterHolds (d : Dev) (k : Nat) : Bool :=
  d.fab.accs.any fun a => a.stage == .lane && a.lane.any fun i => clusterOf i = k

/-- A cluster with no work for 64 CCL cycles, in every power-up phase and in the safe state too (spec/03 R99). A lane that is
OFF with its clock running has its power-up check. The cycle count is the sender's to keep. -/
def execClusterIdleGate (k : Fin 9) (s : State) : Host.Outcome State Fault Refusal :=
  s.act fun d =>
    let ls := (List.range 4).map fun j => d.lane (4 * k + j)
    if d.mgt.clusterGate.getLsbD k && d.up k && !d.clusterHolds k &&
        ls.all fun l => !l.katRun && l.st != .auditor && l.st != .off then
      { d with mgt.clusterIdle := d.mgt.clusterIdle ||| BitVec.ofNat 9 (2 ^ k.val) }
    else d

/-- MGT_CLUSTER_STAT.GATED (spec/03 R97, R99). -/
def Dev.gated (d : Dev) (k : Nat) : Bool :=
  d.mgt.clusterIdle.getLsbD k ||
    (List.range 4).all fun j => (d.lane (4 * k + j)).st == .retired || (d.lane (4 * k + j)).st == .disabled

/-- A pass of lane `x` would be sampled now (spec/07 R192). -/
def Dev.samples (d : Dev) (x : Nat) : Bool :=
  (d.lane x).st == .probation || (d.lan.auditEn && decide ((d.lane x).audit ≤ 1))

/-- Count a pass of lane `x` for sampling; true when it is sampled (spec/07 R192). A retry check is not counted; on a lane in
PROBATION it is audited like every pass (R169). While LAN_AUDIT_CFG.EN is 0 the down-counter stays as it is (DESIGN CHOICE, log
134). -/
def Dev.samplePass (d : Dev) (x : Nat) (counts : Bool) : Dev × Bool :=
  if (d.lane x).st == .probation then (d, true)
  else if !d.lan.auditEn || !counts then (d, false)
  else if d.samples x then (d.drawAudit x, true)
  else (d.updLane x fun l => { l with audit := l.audit - 1 }, false)

/-! ### Key caches (spec/07 R173) -/

/-- The keys of a pass: storage key sets and session key registers. -/
structure PassKeys where
  slots : List (Nat × KeySet)
  regs : List (Nat × BitVec 256)
  deriving DecidableEq, Repr

/-- A slot's key set with the values that the mask path derives. -/
def keySet (k : Kslot) : KeySet :=
  ⟨k.data, k.mac, k.tag, BitVec.ofNat 128 (beNat (aesEnc k.mac (List.replicate 16 0))), tweakKey k.data⟩

/-- The keys come into the lane's key cache, 16 of each kind; those used longest ago leave (log 36). -/
def Dev.loadKeys (d : Dev) (x : Nat) (k : PassKeys) : Dev :=
  d.updLane x fun l => { l with
    slots := (k.slots ++ l.slots.filter fun p => k.slots.all fun q => decide (q.1 ≠ p.1)).take 16
    regs := (k.regs ++ l.regs.filter fun p => k.regs.all fun q => decide (q.1 ≠ p.1)).take 16 }

/-- The lane holds the keys of a pass. -/
def Lane.holds (l : Lane) (k : PassKeys) : Bool :=
  (k.slots.all fun q => l.slots.any fun p => p.1 == q.1) && k.regs.all fun q => l.regs.any fun p => p.1 == q.1

/-- A lane can begin a new pass: its cluster's clock runs and it holds back for no known-answer set (spec/07 R190). -/
def Dev.laneFree (d : Dev) (i : Nat) : Bool := !(d.lane i).katHold && d.up (clusterOf i)

/-- A lane that may take a pass (spec/07 R172): it takes passes, and holds the keys where some such lane does. Which of these
is the least loaded is the sender's to say (log 26). -/
def Dev.passLane (d : Dev) (x : Nat) (k : PassKeys) : Bool :=
  let can := (d.lanesIn LaneSt.takes).filter d.laneFree
  can.contains x && ((d.lane x).holds k || !can.any fun i => (d.lane i).holds k)

/-! ### Audit (spec/07 R192-R195) -/

/-- While there is no AUDITOR, a sampled pass makes one of the lowest STANDBY lane that may be one (log 37). -/
def Dev.withAuditor (d : Dev) (x : Nat) : Dev := if d.auditor.isSome then d else d.newAuditor x

/-- The lane that recomputes a sampled pass of lane `x`: the AUDITOR, else another ACTIVE lane, chosen as for a normal pass
(spec/07 R193, R195); the lowest where that leaves a choice (log 37). An ACTIVE lane recomputes too while the only STANDBY lanes are within 1 ms of
a failure, with AUDIT_FALLBACK at 0 (DESIGN CHOICE, log 115). -/
def Dev.auditorFor (d : Dev) (x : Nat) (k : PassKeys) : Option Nat :=
  d.auditor.orElse fun _ =>
    let can := (d.lanesIn fun s => s == .active).filter fun i => decide (i ≠ x) && d.laneFree i
    (can.find? fun i => (d.lane i).holds k).orElse fun _ => can.head?

/-- ACTIVE lanes that may decide between two outputs that differ (spec/07 R194). -/
def Dev.thirdLanes (d : Dev) (x y : Nat) : List Nat := (d.lanesIn fun s => s == .active).filter fun z => decide (z ≠ x ∧ z ≠ y)

/-- A mismatch is decided on a third lane only once one is free: one that a known-answer set holds back takes no pass
(spec/07 R190). -/
def Dev.rerunReady (d : Dev) (x : Nat) (k : PassKeys) (a : Audit) : Bool :=
  a == .agree || match d.auditorFor x k with
    | some y => (d.thirdLanes x y).isEmpty || (d.thirdLanes x y).any d.laneFree
    | none => true

/-- A recomputation need not wait for a lane that a known-answer set holds back. -/
def Dev.auditReady (d : Dev) (x : Nat) (k : PassKeys) : Bool :=
  match d.auditorFor x k with
  | some y => d.laneFree y
  | none => ((d.lanesIn fun s => s == .active).filter (· ≠ x)).isEmpty

/-- A lane is found faulty under spec/07 R194. -/
def Dev.faulty (d : Dev) (i : Nat) : Dev :=
  (({ d with lan.mismatchCnt := satAdd 0xFFFFFFFF d.lan.mismatchCnt 1 }.updLane i
    fun l => { l with mismatches := satAdd 255 l.mismatches 1 }).raise bLan i).laneFailed i false

/-- The audit of a pass of lane `x`; false when no output is released (spec/07 R192-R195). With no lane to recompute it a
sampled pass is released unaudited (DESIGN CHOICE, log 113); the third lane is the lowest free ACTIVE one, never one in
PROBATION (DESIGN CHOICE, log 114). A recomputation and the rerun count in no down-counter of the lane that makes them (DESIGN
CHOICE, log 136). -/
def Dev.auditPass (d : Dev) (x : Nat) (k : PassKeys) (counts : Bool) (a : Audit) : Dev × Bool :=
  let r := d.samplePass x counts
  if !r.2 then (r.1, true) else
    match r.1.auditorFor x k with
    | none => (r.1, true)
    | some y =>
      let d := { (r.1.loadKeys y k).wake (clusterOf y) with lan.auditCnt := satAdd (2 ^ 64 - 1) r.1.lan.auditCnt 1 }
      let count := { d with lan.mismatchCnt := satAdd 0xFFFFFFFF d.lan.mismatchCnt 1 }
      if a = .agree then (d, true)
      else
        match (d.thirdLanes x y).find? d.laneFree with
        | none => (count.raise bLan 109, false)
        | some z =>
          let d := (d.loadKeys z k).wake (clusterOf z)
          match a with
          | .laneFaulty => (d.faulty x, true)
          | .auditorFaulty => (d.faulty y, true)
          | _ => (count.raise bLan 109, false)

end Machine
end Sys2Proof
end

