-- ==== Sys2Proof/Machine/Keys.lean ====
section
/-! DEFINITION. The key store, key commands, the random bit generator and MEASURE (spec/11, spec/13 R368, R369,
R377). -/

namespace Sys2Proof
namespace Machine

/-! ### Derivation (spec/11 R287, R288) -/

/-- The device root seed: word w of the fuses holds its bits 32w + 31 to 32w (spec/02 R77). -/
def Dev.seed (d : Dev) : BitVec 256 :=
  BitVec.ofNat 256 ((List.range 8).foldl (fun a w => a + (d.mgt.fuse.getD w 0).toNat * 2 ^ (32 * w)) 0)

/-- `n` bytes derived from the seed. -/
def Dev.derive (d : Dev) (label : String) (ctx : Bytes) (n : Nat) : Bytes := kdf (keyBytes d.seed) label ctx n

/-- The keys derived once the self-tests pass (spec/11 R288, R304). -/
def Dev.deriveAll (d : Dev) : Dev :=
  { d with key.derived := some { image := bytesKey (d.derive "DN512 IMAGE" [] 32),
                                 measure := bytesKey (d.derive "DN512 MEASURE" [] 32),
                                 mset := bytesKey (d.derive "DN512 MSET" [] 32) } }

/-! ### The random bit generator (spec/11 R305-R309, R490) -/

def Dev.sourceOk (d : Dev) : Bool := d.key.ent.any fun p => p.2.st == .ok
def Dev.reseedDue (d : Dev) : Bool := d.key.reseedNow || decide (2 ^ d.key.reseedLog2 ≤ d.key.drbg.served)

/-- One generate request of `n` bytes. -/
def Dev.generate (d : Dev) (n : Nat) : Bytes × Dev :=
  let r := drbgGenerate d.key.drbg.key d.key.drbg.v n
  (r.1, { d with key.drbg.key := r.2.1, key.drbg.v := r.2.2, key.drbg.served := d.key.drbg.served + 1 })

/-- 32 bits of a byte string as a seed; 0 becomes 1 (spec/09 R239, spec/11 R309). -/
def seedWord (b : Bytes) (i : Nat) : Word32 :=
  let v := BitVec.ofNat 32 (beNat (slice b (4 * i) 4))
  if v = 0 then 1 else v

/-- Load the 32 replacement LFSRs. -/
def Dev.loadLfsrs (d : Dev) (b : Bytes) : Dev :=
  forAll (List.range 32) (fun k e => { e with can.lfsr := e.can.lfsr.put k (seedWord b k) }) d

/-- The DRBG turns ERROR; a CAN_LFSR_RESEED that waited for the reseed is drawn without it (spec/11 R308). -/
def Dev.drbgFails (d : Dev) : Dev :=
  let e := { d with key.drbg.st := .error }
  if !e.key.lfsrWait then e else
    let r := e.generate 128
    { r.2.loadLfsrs r.1 with key.lfsrWait := false }

/-- A reseed that falls due with no source OK turns the DRBG to ERROR (spec/11 R308). -/
def Dev.noteDue (d : Dev) : Dev :=
  if d.key.drbg.st == .ready && d.reseedDue && !d.sourceOk then d.drbgFails else d

/-- What a draw gives: bytes, a wait for instantiation or a reseed, or nothing. -/
inductive Draw where
  | got (b : Bytes) (d : Dev) | wait | fail

/-- A draw, of key material or of an IV or seed. -/
def Dev.draw (d : Dev) (n : Nat) (secret : Bool) : Draw :=
  match d.key.drbg.st with
  | .ready => if d.reseedDue then .wait else let r := d.generate n; .got r.1 r.2.noteDue
  | .error => if secret then .fail else if d.key.drbg.instantiated then (let r := d.generate n; .got r.1 r.2) else .wait
  | _ => .wait

/-- The command of a ready entry finds that its draw must wait; from PF_WARN on it ends instead (spec/13 R360). -/
def Dev.waitDraw (d : Dev) (q : Nat) (pos : QPos) : Dev :=
  if d.mgt.pfWarn then d.finish q pos (Cpl.aborted 3) else d.updExec q pos fun y => { y with waits := true }

/-! ### Key material drawn and not yet installed (spec/08 R215, spec/11 R296, R306) -/

def Dev.drawnOf (d : Dev) (q pos : Nat) : Bytes :=
  match d.key.drawn.find? fun x => x.q == q && x.pos == pos with
  | some x => x.bytes
  | none => []

def Dev.dropDrawn (d : Dev) (q pos : Nat) : Dev :=
  { d with key.drawn := d.key.drawn.filter fun x => !(x.q == q && x.pos == pos) }

def Dev.keepDrawn (d : Dev) (q pos : Nat) (b : Bytes) : Dev :=
  { d.dropDrawn q pos with key.drawn := (d.dropDrawn q pos).key.drawn ++ [⟨q, pos, b⟩] }

/-- Draw a metadata key for each of `n` zones of a command, one request each; what is drawn before a reseed falls due is
kept for the command. None while it waits; else the keys, none of them where the DRBG serves no key. -/
def Dev.drawKeys (q pos : Nat) : Nat → Dev → Dev × Option (Option Bytes)
  | 0, d => (d.dropDrawn q pos, some (some (d.drawnOf q pos)))
  | n + 1, d =>
    match d.noteDue.draw 32 true with
    | .got b e => Dev.drawKeys q pos n (e.keepDrawn q pos (d.drawnOf q pos ++ b))
    | .fail => (d.noteDue.dropDrawn q pos, some none)
    | .wait => (d.noteDue, none)

/-! ### The replacement and audit LFSRs (spec/09 R239, spec/11 R309) -/

/-- Seed the lanes' audit LFSRs. -/
def Dev.seedLanes (d : Dev) (ws : List Word32) : Dev :=
  forAll (List.range Config.lanes) (fun i e => e.updLane i fun l => { l with lfsr := ws.getD i 0 }) d

/-- The seeds used when no source passes its start-up tests (spec/11 R309). -/
def Dev.fallbackSeeds (d : Dev) : Dev :=
  let b := d.derive "DN512 LFSR" [] 272
  (d.loadLfsrs b).seedLanes ((List.range Config.lanes).map fun i => seedWord b (32 + i))

/-- CAN_LFSR_RESEED takes its draw, or waits for a reseed; without a DRBG state there is nothing to draw and the
instantiation to come loads the LFSRs. -/
def Dev.reseedLfsrs (d : Dev) : Dev :=
  match d.noteDue.draw 128 false with
  | .got b e => { e.loadLfsrs b with key.lfsrWait := false }
  | _ => { d with key.lfsrWait := d.key.drbg.instantiated }

/-- Draw again for a CAN_LFSR_RESEED that waits. -/
def Dev.retryLfsrs (d : Dev) : Dev := if d.key.lfsrWait then d.reseedLfsrs else d

def execCanLfsrReseed (v : Word32) (drbg : Option Bool) (s : State) : Host.Outcome State Fault Refusal :=
  s.core fun d => if bit v 0 then (if d.key.drbg.instantiated then d.drbgRead drbg else d).reseedLfsrs else d

def execKeyDrbgReseed (v : Word32) (s : State) : Host.Outcome State Fault Refusal :=
  s.core fun d => if bit v 0 then { d with key.reseedNow := true }.noteDue else d

def execKeyCntClr (v : Word32) (s : State) : Host.Outcome State Fault Refusal :=
  s.core fun d => if bit v 0 then { d with key.unwrapCnt := 0, key.reseedCnt := 0 } else d

/-! ### Entropy sources and their health tests (spec/11 R302, R303) -/

/-- Samples packed in collection order, the first in bit 7 of byte 0 (spec/11 R305). -/
def sampleBits (b : Bytes) : List Bool := b.flatMap fun x => (List.range 8).map fun k => x.getLsbD (7 - k)

/-- A run of 61 identical samples, after `n` samples equal to `v`. -/
def longRun : Bool → Nat → List Bool → Bool
  | _, _, [] => false
  | v, n, x :: r =>
    let k := if x == v then n + 1 else 1
    decide (61 ≤ k) || longRun x k r

/-- The repetition count test fails. -/
def rctFails (l : List Bool) : Bool := longRun false 0 l

/-- The adaptive proportion test fails on the window that begins with `l`. -/
def aptFails (l : List Bool) : Bool :=
  match l with
  | [] => false
  | x :: _ => decide (832 ≤ ((l.take 1024).filter (· == x)).length)

/-- Every `n`-th element of a list, from the `k`-th on. -/
def everyNth (n k : Nat) (l : List Bool) : List Bool := (l.zipIdx.filter fun p => decide (p.2 % n = k)).map (·.1)

def Dev.ent (d : Dev) (n : Nat) : Ent := d.key.ent.get n
def Dev.setEnt (d : Dev) (n : Nat) (e : Ent) : Dev := { d with key.ent := d.key.ent.put n e }

/-- A source has stopped being OK: a due reseed may find none left; an instantiation that has lost its last source ends
in ERROR. -/
def Dev.sourceLost (d : Dev) : Dev :=
  let d := d.noteDue
  if d.key.drbg.st == .instantiating && !d.sourceOk then { d with key.drbg.st := .error }.fallbackSeeds else d

/-- A source fails a test. -/
def Dev.sourceFails (d : Dev) (n : Nat) (rct apt : Bool) : Dev :=
  let e := d.ent n
  (d.setEnt n { st := .failed, rct := satAdd 255 e.rct (flag rct), apt := satAdd 255 e.apt (flag apt) }).sourceLost

def execKeyEntEn (v : Word32) (s : State) : Host.Outcome State Fault Refusal :=
  s.core fun d =>
    let old := d.key.entEn
    let d := { d with key.entEn := v.extractLsb' 0 8 }
    (forAll (List.range 8) (fun n e =>
      if !bit v n then e.setEnt n { e.ent n with st := .off }
      else if !old.getLsbD n && e.up (domEnt n) then e.setEnt n { e.ent n with st := .startup }
      else e) d).sourceLost

/-- The start-up tests of a source end; a DRBG never instantiated begins to instantiate (spec/11 R302, R305, R309). -/
def Dev.startupDone (d : Dev) (n : Nat) (rct apt : Bool) : Dev :=
  if (d.ent n).st != .startup then d
  else if rct || apt then d.sourceFails n rct apt
  else
    let e := (d.setEnt n { d.ent n with st := .ok }).raise bKey (15 + n)
    if e.key.drbg.st == .error && !e.key.drbg.instantiated then { e with key.drbg.st := .instantiating } else e

/-- ENTROPY_STARTUP_DONE: both tests over the first 1,024 samples. -/
def execEntropyStartupDone (n : Fin 8) (samples : Bytes) (s : State) : Host.Outcome State Fault Refusal :=
  s.act fun d =>
    if s.safe.active || !d.up (domEnt n) || !d.up domCore || decide (samples.length ≠ 128) then d else
      let l := sampleBits samples
      d.startupDone n (rctFails l) (aptFails l)

/-- ENTROPY_HEALTH_FAIL: `samples` end with the run, or are the window, that a test fails on. -/
def execEntropyHealthFail (n : Fin 8) (samples : Bytes) (s : State) : Host.Outcome State Fault Refusal :=
  s.act fun d =>
    let l := sampleBits samples
    if s.safe.active || !d.up (domEnt n) || !d.up domCore || (d.ent n).st != .ok || !(rctFails l || aptFails l) then d
    else d.sourceFails n (rctFails l) (!rctFails l)

/-! ### Reseeding (spec/11 R305, R306, R308) -/

/-- The sources in state OK, which give the samples of a collection in rotation. -/
def Dev.okSources (d : Dev) : List Nat := (List.range 8).filter fun n => (d.ent n).st == .ok

/-- 1,024 samples are collected. A source whose samples among them fail the repetition count test fails and drops out; the
collection then goes on, and these samples are not used (log 97). -/
def Dev.collected (d : Dev) (samples : Bytes) : Dev × Bool :=
  let ok := d.okSources
  let bad := (ok.zipIdx.filter fun p => rctFails (everyNth ok.length p.2 (sampleBits samples))).map (·.1)
  (forAll bad (fun n e => e.sourceFails n true false) d, bad.isEmpty && decide (samples.length = 128))

/-- KEY_DRBG_READY when the DRBG has turned READY (spec/15 R414). -/
def Dev.drbgReady (d : Dev) (before : DrbgSt) : Dev :=
  if before != .ready && d.key.drbg.st == .ready then d.raise bKey 23 else d

/-- A reseed that is due, or that ends ERROR, completes with 1,024 fresh samples (spec/11 R306, R308). -/
def execDrbgReseedDone (samples : Bytes) (drbg : Option Bool) (s : State) : Host.Outcome State Fault Refusal :=
  s.serve fun d =>
    let g := d.key.drbg
    if d.sourceOk && g.instantiated && (d.reseedDue || g.st == .error) && (g.st == .ready || g.st == .error) then
      let c := d.collected samples
      if !c.2 then c.1 else
      let r := drbgUpdate g.key g.v (drbgDf samples)
      let d := d.drbgRead drbg
      { d with key.drbg := { g with key := r.1, v := r.2, served := 0, st := .ready }, key.reseedNow := false,
               key.reseedCnt := satAdd 0xFFFFFFFF d.key.reseedCnt 1 }.drbgReady g.st |>.retryLfsrs
    else d

/-! ### Blobs (spec/11 R290-R292) -/

def slotKcv (k : Kslot) : Word32 := kcv k.data ^^^ kcv k.mac

/-- What an unwrap gives: the plaintext, or the status it ends with. -/
inductive Unwrap where
  | ok (pt : Bytes) | bad (c : Cpl) (counted : Bool)
  deriving DecidableEq, Repr

/-- Unwrap a blob and check MLI, TYPE and VERSION. -/
def unwrapBlob (k : BitVec 256) (typ mli : Nat) (blob : Bytes) : Unwrap :=
  match keyUnwrap k blob with
  | none => .bad .unwrapFailed true
  | some pt => if pt.length = mli ∧ field pt 0 1 = typ ∧ field pt 1 1 = 1 then .ok pt else .bad (Cpl.invalid 2 0) false

/-- A failed unwrap is counted and raised. -/
def Dev.unwrapEnds (d : Dev) (c : Cpl) (counted : Bool) : Dev × Cpl :=
  (if counted then { d with key.unwrapCnt := satAdd 0xFFFFFFFF d.key.unwrapCnt 1 }.raise bKey 2 else d, c)

/-- Conditions on a KEK slot that a command names (spec/13 R369); `o` is the operand's offset and `kind` its kind. -/
def Dev.kekBad (d : Dev) (j : Nat) (kind o : Nat) : Option Cpl :=
  let k := d.key.keks.get j
  if !k.loaded then some .notFound else if k.transport then some (Cpl.invalid kind o) else none

/-- Conditions on a KSLOT to be filled. -/
def Dev.slotBad (d : Dev) (i : Nat) : Option Cpl :=
  match (d.key.slots.get i).st with
  | .loaded => some .exists
  | .draining => some .busy
  | .empty => none

/-- KEY_INSTALL of one blob (spec/11 R295). -/
def Dev.keyInstall (d : Dev) (i j kind o : Nat) (blob : Bytes) : Dev × Cpl :=
  match (d.kekBad j kind o).orElse fun _ => d.slotBad i with
  | some c => (d, c)
  | none =>
    match unwrapBlob (d.key.keks.get j).key 1 68 blob with
    | .bad c u => d.unwrapEnds c u
    | .ok pt =>
      if field pt 3 1 ≠ 0 then (d, Cpl.invalid 2 0) else
        let k : Kslot := ⟨.loaded, bytesKey (slice pt 4 32), bytesKey (slice pt 36 32), pt.getD 2 0⟩
        ({ d with key.slots := d.key.slots.put i k }, Cpl.ok (slotKcv k))

/-- An element of a KEY_INSTALL batch (spec/13 R368). -/
def keyElem (b : Bytes) (d : Dev) : Dev × Cpl :=
  if 16 ≤ field b 2 1 then (d, Cpl.invalid 6 2) else
    match (List.range 13).find? fun k => field b (3 + k) 1 ≠ 0 with
    | some k => (d, Cpl.invalid 6 (3 + k))
    | none => d.keyInstall (field b 0 2) (field b 2 1) 6 2 (slice b 16 80)

/-- A key command has not ended. -/
def Dev.keyOpen (d : Dev) (c : Nat × QPos) : Bool := (d.exec1 c.1 c.2).any fun x => x.st != .completing

/-- A key command arrives at KEY, once; those that have ended leave. -/
def Dev.keyArrives (d : Dev) (q : Nat) (pos : QPos) : Dev :=
  let l := d.key.cmds.filter d.keyOpen
  { d with key.cmds := if l.contains (q, pos) then l else l ++ [(q, pos)] }

/-- A key command row: it runs once every key command that arrived before it has ended (spec/11 R286); the limits of
lifecycle BLANK (spec/11 R300). -/
def Dev.keyCommand (d : Dev) (q : Nat) (pos : QPos) (op : Nat) (derives : Bool) (act : Exec → Dev → Dev) : Dev :=
  if (d.readyEntry q pos op).isNone then d else
    let d := d.keyArrives q pos
    if d.key.cmds.head? != some (q, pos) then d else
      d.command q pos op noRules fun x d =>
        if d.lifecycle = 0 && !derives then d.finish q pos (Cpl.invalid 3 0) else act x d

/-- The slot that 64 drawn bytes give. -/
def drawnSlot (b : Bytes) (tag : Byte) : Kslot := ⟨.loaded, bytesKey (b.take 32), bytesKey (b.drop 32), tag⟩

/-- The blob of a KEY_GENERATE has been written, or a write has failed. -/
def Dev.generated (d : Dev) (q : Nat) (pos : QPos) (x : Exec) (failed : Bool) : Dev :=
  let k := drawnSlot (d.drawnOf q pos.toNat) (BitVec.ofNat 8 (num x.entry 11 1))
  let d := d.dropDrawn q pos.toNat
  if failed then d else { d with key.slots := d.key.slots.put (num x.entry 8 2) k }

/-- An open or queued window of a session direction names a key register; a window that is complete and has no result
yet still does (log 22). -/
def Dev.regNamed (d : Dev) (g dir k : Nat) : Bool :=
  let s := d.session g
  if dir = 0 then (s.wwin.any fun w => w.k = k) || s.wdone.any fun w => w.k = k
  else s.rwins.any fun w => w.k = k

/-! ### Destruction (spec/11 R298, R299) -/

/-- A rekey part names a slot. -/
def Dev.rekeyNames (d : Dev) (k : BitVec 16) : Bool :=
  d.rmp.rekey.any fun p => p.2.st != .idle && (p.2.old == k || p.2.new == k)

/-- The storage slots that a service step names: those its lines are read, written or tried under. -/
def Step.names (s : Step) : List (BitVec 16) :=
  match s.kind with
  | .front | .transcode => [s.slotA, s.slotB]
  | .drizzle | .scrub => s.slots
  | .seal | .unseal => [s.slotA]
  | .sanitize => if s.reset then [] else [s.slotA]

/-- Requests admitted with a slot, and service accesses that name it, those of a step which does. A granted request uses the
slot chosen at its grant, which may be another (spec/06 R155). -/
def Dev.slotUsed (d : Dev) (k : BitVec 16) : Bool :=
  (d.fab.accs.any fun a => a.inFlight && (match a.origin with | .port _ => true | .step _ => false) &&
      (a.kslot == k || (a.stage != .unbound && a.stage != .gated && a.slot == k))) ||
    d.svc.steps.any fun s => decide (s.left ≠ 0) && s.names.contains k

/-- SEAL and UNSEAL that run and name a KEK slot. -/
def Dev.kekUsed (d : Dev) (j : Nat) : Bool :=
  d.svc.cmds.any fun c => c.running && (c.kind == .seal || c.kind == .unseal) && decide (c.kek = j)

/-- A key entry is overwritten and its copies in the lanes, and those kept for the writes of passed windows, are cleared: step
3. -/
def Dev.overwrite (d : Dev) (t : KTarget) : Dev :=
  let lanes (f : Lane → Lane) (d : Dev) := forAll (List.range Config.lanes) (fun i e => e.updLane i f) d
  match t with
  | .slot i => lanes (fun (l : Lane) => { l with slots := l.slots.filter fun p => p.1 ≠ i })
      { d with key.slots := d.key.slots.put i { (default : Kslot) with st := .draining } }
  | .reg i => lanes (fun (l : Lane) => { l with regs := l.regs.filter fun p => p.1 ≠ i })
      { d with key.regs := d.key.regs.put i (some 0)
               fab.accs := d.fab.accs.map fun (a : Access) =>
                 if a.isWrite && decide (regIndex a.sess 0 a.winK = i) then { a with winKey := none } else a }
  | .kek i => { d with key.keks := d.key.keks.put i { (default : Kek) with loaded := true } }

/-- A lane still finishes a partial pass that holds the key of a session key register (spec/07 R174). -/
def Dev.laneHolds (d : Dev) : KTarget → Bool
  | .reg r => d.fab.accs.any fun a => a.linkKey.isSome && decide (regIndex a.sess 0 a.winK = r) && a.stage != .done &&
      (a.pass == .partialRead || a.pass == .partialWrite)
  | _ => false

/-- The entry turns EMPTY: step 4. -/
def Dev.emptyKey (d : Dev) : KTarget → Dev
  | .slot i => { d with key.slots := d.key.slots.put i default }
  | .reg i => { d with key.regs := d.key.regs.put i none }
  | .kek i => { d with key.keks := d.key.keks.put i default }

/-- What a KEY_DESTROY names. -/
def destroyTarget (e : Line) : KTarget :=
  if num e 8 1 = 0 then .slot (num e 10 2)
  else if num e 8 1 = 1 then .reg (regIndex (num e 10 2) (num e 12 1) (num e 13 1))
  else .kek (num e 14 1)

/-- The conditions of spec/11 R299, and the retirement list of spec/14 R390. -/
def Dev.destroyBad (d : Dev) (e : Line) : Option Cpl :=
  match destroyTarget e with
  | .slot i =>
    if d.rekeyNames (BitVec.ofNat 16 i) || d.svc.retire.any (fun r => r.2.1 == BitVec.ofNat 16 i) then some .busy
    else if (d.key.slots.get i).st == .empty then some .notFound else none
  | .reg i =>
    if d.regNamed (num e 10 2) (num e 12 1) (num e 13 1) then some .busy
    else if (d.key.regs.get i).isNone then some .notFound else none
  | .kek i => if !(d.key.keks.get i).loaded then some .notFound else none

/-- The destruction that an entry runs. -/
def Dev.destroy1 (d : Dev) (q pos : Nat) : Option Destroy := d.key.destroys.find? fun x => x.q == q && x.pos == pos

def Dev.targetUsed (d : Dev) : KTarget → Bool
  | .slot i => d.slotUsed (BitVec.ofNat 16 i)
  | .reg _ => false
  | .kek i => d.kekUsed i

/-! ### Measurement (spec/11 R310-R312) -/

/-- Item header of spec/11 R310. -/
def itemHeader (b n : Nat) : Bytes := leBytes 1 (b + 1) ++ List.replicate 3 0 ++ leBytes 4 n

/-- The stream sum: AES blocks as numbers, byte 0 most significant, added modulo 2^128. -/
def streamSum (k : BitVec 256) (t : StlSet) : Nat :=
  t.tab.foldl (fun a p => match p.2 with
    | some e => (a + beNat (aesEnc k (slice (SEntry.bytes { e with age := 0 }) 0 16))) % 2 ^ 128
    | none => a) 0

def Dev.measureItem (d : Dev) (b : Nat) : Bytes :=
  match b with
  | 0 => [8, 9, 10].flatMap fun w => leBytes 4 (d.mgt.fuse.getD w 0).toNat
  | 1 =>
    let t := d.rmpSet d.activeSet
    (List.range 4096).flatMap fun i =>
      let r := d.rekey i
      leBytes 16 (t.bits i) ++
        rekeyBytes { r with front := 0, st := if r.st = RkSt.done then RkSt.active else r.st }
  | 2 =>
    let t := d.stlSet d.activeSet
    leBytes 4 t.size.toNat ++ leBytes 4 t.tab.length ++ List.replicate 8 0 ++
      leBytes 16 (streamSum ((d.key.derived.map (·.mset)).getD 0) t)
  | 3 => (d.key.slots.filter fun p => p.2.st == .loaded).flatMap fun p =>
      leBytes 2 p.1 ++ leBytes 1 p.2.tag.toNat ++ [0#8] ++ leBytes 4 (slotKcv p.2).toNat
  | 4 =>
    ((List.range 1024).flatMap fun i => match d.key.regs.get i with
      | some k => leBytes 4 1 ++ leBytes 4 (kcv k).toNat
      | none => List.replicate 8 0) ++
    ((List.range 16).flatMap fun j =>
      let k := d.key.keks.get j
      leBytes 1 (flag k.loaded) ++ leBytes 1 (flag k.transport) ++ leBytes 1 (flag k.unwrapped) ++ [0#8] ++
        leBytes 4 (if k.loaded then (kcv k.key).toNat else 0) ++ slice k.context 0 32)
  | _ => leBytes 4 d.frs.zoneLimit ++ leBytes 8 d.frs.metaBase ++
      (List.range d.frs.zoneLimit).flatMap fun z => leBytes 1 (d.zone z).st.code

/-- The 160 bytes of a measurement. -/
def Dev.measurement (d : Dev) (nonce : Bytes) (mask : Nat) : Bytes :=
  let header := leBytes 4 0x5A4E4D31 ++ leBytes 2 1 ++ leBytes 2 mask ++ leBytes 4 d.rmp.gen.toNat ++ List.replicate 4 0 ++
    leBytes 6 d.stamp ++ List.replicate 10 0 ++ slice nonce 0 32
  let digest := sha384 ((List.range 6).flatMap fun b =>
    if mask / 2 ^ b % 2 = 1 then (let i := d.measureItem b; itemHeader b i.length ++ i) else [])
  header ++ digest ++ hmac384 (keyBytes ((d.key.derived.map (·.measure)).getD 0)) (header ++ digest)

end Machine
end Sys2Proof
end

