-- ==== Sys2Proof/Machine/Queue.lean ====
section
/-! DEFINITION. The Iaren queue protocol: doorbells, fetching, consumption, fragment tables, event records, vectors,
queue states (spec/12). -/

namespace Sys2Proof
namespace Machine

/-! ### Queue state changes -/

def Queue.submission (x : Queue) : Bool := x.ty == .admin || x.ty == .io

def RdWhy.fetchOf (q : Nat) : RdWhy → Option Nat
  | .entries p _ n _ => if p = q then some n else none
  | _ => none

/-- Reads of entries of a queue that are outstanding or wait, by their entry counts; 0 for a read whose data is
dropped. -/
def Dev.fetches (d : Dev) (q : Nat) : List Nat :=
  (d.qmg.rdWait.filterMap fun r => r.why.fetchOf q) ++
    d.qmg.rdOut.filterMap fun p => match p.2 with | some r => r.why.fetchOf q | none => none

/-- A queue enters ERROR (spec/12 R334). -/
def Dev.queueError (d : Dev) (q cause : Nat) (pos : QPos) : Dev :=
  let x := d.queue q
  if x.st == .none || x.st == .error then d else
    ((d.setQueue q { x with st := .error, cause := cause, pos := pos, cached := [], scanning := false, again := false
                            stopped := false, fetch := if x.submission then x.head else x.fetch }).dropReads q).raise bQmg 1

/-! ### Vectors (spec/12 R341-R346) -/

def Dev.vec (d : Dev) (v : Nat) : Vec := d.qmg.vecs.get v
def Dev.setVec (d : Dev) (v : Nat) (x : Vec) : Dev := { d with qmg.vecs := d.qmg.vecs.put v x }

def Dev.vecDue (d : Dev) (x : Vec) : Bool :=
  decide (1 ≤ x.n) && (decide (x.count ≤ 1) || decide (x.count ≤ x.n) || (decide (1 ≤ x.time) && d.passed x.t0 x.time))

/-- A message may be issued: LOADED, not masked, no HOST_HOLDOFF, HDMA out of reset with its clock (spec/03 R94). -/
def Dev.msgOpen (d : Dev) (x : Vec) : Bool := x.loaded && !x.mask && !d.mgt.holdoff && d.up domHdma

/-- QMG_STAT.DRAIN_BUSY. -/
def Dev.drainBusy (d : Dev) : Bool := !d.qmg.drains.isEmpty || !d.qmg.drainDue.isEmpty || !d.qmg.drainVecs.isEmpty

/-- QMG_DRAIN_DONE when DRAIN_BUSY falls (spec/15 R414). -/
def Dev.noteDrained (before d : Dev) : Dev := if before.drainBusy && !d.drainBusy then d.raise bQmg 9 else d

/-- Issue a vector's message, whose write goes out at once; a DRAIN that has made the vector due waits for it by its name. -/
def Dev.sendMsg (d : Dev) (v : Nat) : Dev :=
  let x := d.vec v
  let d := if d.qmg.drainDue.contains v
    then { d with qmg.drainDue := without v d.qmg.drainDue, qmg.drainVecs := d.qmg.drainVecs ++ [d.seq] } else d
  (d.setVec v { x with n := 0, pend := false }).hostWrite x.addr.toNat (leBytes 4 x.data.toNat) 0 (.message v)

/-- A vector is due: its message is issued, or waits for a credit or a tag, or PEND is set (spec/12 R343). -/
def Dev.fallDue (d : Dev) (v : Nat) : Dev :=
  if d.msgOpen (d.vec v) then (if d.wrRoom then d.sendMsg v else d)
  else Dev.noteDrained d { d.setVec v { d.vec v with pend := true } with qmg.drainDue := without v d.qmg.drainDue }

/-- Send every pending vector that may be sent, in ascending order (spec/12 R344). -/
def Dev.sendPending (d : Dev) : Dev :=
  forAll (Tab.which d.qmg.vecs fun x => x.pend) (fun v e => if e.msgOpen (e.vec v) && e.wrRoom then e.sendMsg v else e) d

/-- Writes that a DRAIN waits for. -/
def WrWhy.drains : WrWhy → Bool
  | .completion _ _ _ | .recordLow _ _ | .recordHigh _ _ => true
  | _ => false

/-- Completion and record writes outstanding that were issued before `o`. -/
def Dev.writesBefore (d : Dev) (o : Nat) : Bool :=
  d.qmg.wrOut.any fun p => match p.2 with | some w => w.why.drains && decide (w.issued < o) | none => false

/-- DRAIN doorbells whose writes are acknowledged make every vector with items due (spec/12 R345); each of these goes as far as
it may. -/
def Dev.pumpDrains (d : Dev) : Dev :=
  let e := if d.qmg.drains.all fun o => d.writesBefore o then d else
    { d with qmg.drains := d.qmg.drains.filter fun o => d.writesBefore o
             qmg.drainDue := (Tab.which d.qmg.vecs fun x => decide (1 ≤ x.n)).foldl (fun l v => insSorted v l) d.qmg.drainDue }
  Dev.noteDrained d (forAll e.qmg.drainDue (fun v x => x.fallDue v) e)

/-- What waits for a credit or a tag of host writes goes on: writes in their order, pending vectors, those a DRAIN has made
due. -/
def Dev.pumpVecs (d : Dev) : Dev := d.pumpHdma.sendPending.pumpDrains

/-- VECTOR_DUE, by its count, by its time or by a DRAIN that has made it due (spec/12 R343, R345). -/
def execVectorDue (vec : BitVec 11) (s : State) : Host.Outcome State Fault Refusal :=
  s.serve fun d => if d.vecDue (d.vec vec.toNat) || d.qmg.drainDue.contains vec.toNat then d.fallDue vec.toNat else d

def execHostHoldoffRise (s : State) : Host.Outcome State Fault Refusal :=
  s.act fun d => { d with mgt.holdoff := true }

def execHostHoldoffFall (s : State) : Host.Outcome State Fault Refusal :=
  s.act fun d =>
    let e := { d with mgt.holdoff := false }
    let e := if d.mgt.holdoff then e.raise bQmg 10 else e
    if s.safe.active || !e.mgt.ready then e else e.sendPending

/-- The reads of a whole vector table at `base`: first vector and number of each, none over more than 512 bytes of whole
32-byte units (spec/02 R56). -/
def vecReads (base : Nat) : Nat → Nat → List (Nat × Nat)
  | 0, _ => []
  | fuel + 1, k =>
    if 2048 ≤ k then [] else
      let n := min (2048 - k) ((512 - (base + 16 * k) % 32) / 16)
      (k, n) :: vecReads base fuel (k + n)

/-- QMG_VEC_LOAD (spec/12 R341, R351). -/
def execQmgVecLoad (v : Word32) (s : State) : Host.Outcome State Fault Refusal :=
  s.core fun d =>
    if d.qmg.vecLoading ≠ 0 then { d with qmg.cfgIgn := true }
    else if bit v 31 then
      let rs := vecReads d.qmg.vecBase 65 0
      forAll rs (fun r e => e.hostRead (e.qmg.vecBase + 16 * r.1) (16 * r.2) (.vectors r.1 r.2))
        { d with qmg.vecLoading := rs.length }
    else { d with qmg.vecLoading := 1 }.hostRead (d.qmg.vecBase + 16 * bits v 10 0) 16 (.vectors (bits v 10 0) 1)

/-- One vector table entry replaces the engine's copy. -/
def Dev.loadVec (d : Dev) (v : Nat) (b : Bytes) : Dev :=
  let a := field b 0 8
  let e := d.setVec v { d.vec v with addr := BitVec.ofNat 64 a, data := BitVec.ofNat 32 (field b 8 4),
                                     mask := decide (field b 12 1 % 2 = 1), loaded := decide (a % 4 = 0) }
  if a % 4 = 0 then e else e.raise bQmg 6

/-! ### Fetching (spec/12 R324-R328) -/

def Queue.held (x : Queue) : Nat := x.cached.length + x.exec.length
/-- QMG_STAT.CACHE_USED. -/
def Dev.cacheUsed (d : Dev) : Nat := d.qmg.queues.foldl (fun a p => a + p.2.held) 0

/-- Slots that outstanding reads will fill. -/
def Dev.cacheReserved (d : Dev) : Nat :=
  let f : RdWhy → Nat := fun w => match w with | .entries _ _ n _ => n | _ => 0
  (d.qmg.rdWait.foldl (fun a r => a + f r.why) 0) +
    d.qmg.rdOut.foldl (fun a p => a + match p.2 with | some r => f r.why | none => 0) 0

/-- The queue has entries to fetch. -/
def Queue.wants (x : Queue) : Bool := x.st == .active && x.submission && (x.fetch != x.tail || x.scanning)

/-- Cache slots a queue would fill if all were free: none while a read of its entries is outstanding. -/
def Dev.slotsWanted (d : Dev) (q : Nat) : Nat :=
  let x := d.queue q
  if !x.wants || (d.fetches q).any (· ≠ 0) then 0 else
    min (Config.cachePerQueue - x.held)
      (if x.fetch == x.tail then x.size - (occ x.size x.old x.tail).toNat else (occ x.size x.fetch x.tail).toNat)

/-- Cache slots that no entry and no outstanding read holds; those queue 0 wants are kept for it. -/
def Dev.freeSlots (d : Dev) (q : Nat) : Nat :=
  Config.cacheSlots - d.cacheUsed - d.cacheReserved - (if q = 0 then 0 else d.slotsWanted 0)

/-- It is the queue's turn for free slots: where they do not suffice for all the queues other than 0 that want some, these
take them in rotation by ascending QID (spec/12 R327). -/
def Dev.fetchTurn (d : Dev) (q : Nat) : Bool :=
  let ws := (d.qmg.queues.map (·.1)).filter fun k => decide (k ≠ 0 ∧ d.slotsWanted k ≠ 0)
  decide (q = 0) || decide (ws.foldl (fun a k => a + d.slotsWanted k) 0 ≤ d.freeSlots q) ||
    ((ws.find? fun k => decide (d.qmg.lastFetch < k)).orElse fun _ => ws.head?) == some q

/-- Issue one read of entries from F toward T, or from T onward while a scan is asked for (spec/12 R324, R325). -/
def Dev.fetchMore (d : Dev) (q limit : Nat) : Dev :=
  let x := d.queue q
  let n := min (min limit (min (d.slotsWanted q) (d.freeSlots q))) (x.size - posI x.fetch)
  if n = 0 || !d.fetchTurn q then d else
    { d with qmg.lastFetch := if q = 0 then d.qmg.lastFetch else q }.hostRead (x.at x.fetch) (64 * n)
      (.entries q x.fetch n (x.fetch == x.tail))

/-- A scan has found OWN = 0: it stops, or starts again for a SCAN that came meanwhile. -/
def Dev.scanStops (d : Dev) (q : Nat) : Dev :=
  d.updQueue q fun x => { x with scanning := x.again, again := false, stopped := !x.again && x.scanOnly, polledAt := d.mgt.tref }

/-- Take `n` entries that have arrived. A scan extends T over those it finds, unless a TAIL has passed them. -/
def Dev.takeEntries (q : Nat) (scan : Bool) : Nat → QPos → Bytes → Dev → Dev
  | 0, _, _, d => d
  | n + 1, pos, b, d =>
    let x := d.queue q
    let e := bytesLine (b.take 64)
    if ownFlag e then
      let p := adv x.size pos
      Dev.takeEntries q scan n p (b.drop 64)
        (d.setQueue q { x with cached := x.cached ++ [⟨pos, e⟩], fetch := p
                               tail := if scan && x.tail == pos then p else x.tail })
    else if scan then d.scanStops q
    else d.queueError q 5 pos

/-- A read of entries has ended; n is 0 where its data is dropped. A failed one turns its queue ERROR all the same (spec/12
R335). -/
def Dev.entriesArrive (d : Dev) (q : Nat) (pos : QPos) (n : Nat) (scan : Bool) (b : Bytes) (err : Bool) : Dev :=
  let d := if err then d.raise bQmg 2 else d
  if err then d.queueError q 7 pos else if n = 0 then d else Dev.takeEntries q scan n pos b d

def execEntryFetch (q : BitVec 14) (s : State) : Host.Outcome State Fault Refusal :=
  s.serve fun d => d.fetchMore q.toNat 8

def execScanPoll (q : BitVec 14) (s : State) : Host.Outcome State Fault Refusal :=
  s.serve fun d =>
    let x := d.queue q.toNat
    if x.st == .active && x.submission && x.scanOnly && x.stopped && d.passed x.polledAt d.qmg.scanPeriod then
      (d.setQueue q.toNat { x with stopped := false, scanning := true, polledAt := d.mgt.tref }).fetchMore q.toNat 1
    else d

/-! ### Doorbells (spec/12 R320, R321, R328, R345) -/

def doorPos (low : BitVec 30) : QPos := low.extractLsb' 0 16

/-- A read of entries by scan is outstanding. -/
def Dev.scanOut (d : Dev) (q : Nat) : Bool :=
  d.qmg.rdOut.any fun p => p.2.any fun (r : HRd) => match r.why with
    | .entries k _ n s => decide (k = q ∧ n ≠ 0) && s
    | _ => false

/-- A SCAN, or a TAIL on a scan-only queue. -/
def Dev.ringScan (d : Dev) (q : Nat) : Dev :=
  let x := d.queue q
  if x.submission && x.st == .active then
    (d.setQueue q { x with scanning := true, again := d.scanOut q, stopped := false }).fetchMore q 8
  else d

/-- A new position of a TAIL doorbell. -/
def Dev.ringTail (d : Dev) (q : Nat) (t : QPos) : Dev :=
  let x := d.queue q
  if x.ty == .event then
    if posI t < x.size ∧ 0 ≤ occ x.size x.tail t ∧ occ x.size x.tail t ≤ occ x.size x.tail x.head
    then d.setQueue q { x with tail := t } else d.queueError q 6 t
  else if x.scanOnly then d.ringScan q
  else if posI t < x.size ∧ occ x.size x.head x.tail ≤ occ x.size x.head t ∧ occ x.size x.head t ≤ x.size
  then d.setQueue q { x with tail := t } else d.queueError q 6 t

def Dev.ringInvalidate (d : Dev) (q : Nat) : Dev :=
  let x := d.queue q
  if x.submission then ((d.setQueue q { x with cached := [], fetch := x.head }).dropReads q).fetchMore q 8 else d

def Dev.ringDrain (d : Dev) : Dev := { d with qmg.drains := d.qmg.drains ++ [d.seq] }.bump.pumpDrains

/-- A doorbell at the queue manager: discarded, or with its effect. -/
def Dev.doorbell (d : Dev) (slot : BitVec 14) (low : BitVec 30) (be : BitVec 8) (f : Dev → Dev) : Dev :=
  let x := d.queue slot.toNat
  if be.extractLsb' 0 4 != 15 || low.extractLsb' 16 14 != 0 || x.st == .none || x.st == .error then d.raise bQmg 0 else f d

/-- A DB transfer: its credit goes back; it has no effect before READY or in the safe state (spec/02 R65, spec/15
R423). -/
def State.ring (s : State) (slot : BitVec 14) (low : BitVec 30) (be : BitVec 8) (f : Dev → Dev) :
    Host.Outcome State Fault Refusal :=
  s.act fun d =>
    if !d.up domHdma || !d.up domCore then d else
      (if s.safe.active || !d.mgt.ready then d else d.doorbell slot low be f).emit .dbCredit

def execTail (slot : BitVec 14) (low : BitVec 30) (be : BitVec 8) (s : State) : Host.Outcome State Fault Refusal :=
  s.ring slot low be fun d => d.ringTail slot.toNat (doorPos low)
def execScan (slot : BitVec 14) (low : BitVec 30) (be : BitVec 8) (s : State) : Host.Outcome State Fault Refusal :=
  s.ring slot low be fun d => d.ringScan slot.toNat
def execInvalidate (slot : BitVec 14) (low : BitVec 30) (be : BitVec 8) (s : State) : Host.Outcome State Fault Refusal :=
  s.ring slot low be fun d => d.ringInvalidate slot.toNat
def execDrain (slot : BitVec 14) (low : BitVec 30) (be : BitVec 8) (s : State) : Host.Outcome State Fault Refusal :=
  s.ring slot low be fun d => d.ringDrain

/-! ### Input of an entry: fragment tables and buffers (spec/12 R332, R333) -/

/-- What one fragment of a table is. -/
inductive FragIs where
  | data (f : Frag) | chain (addr count : Nat) | bad
  deriving DecidableEq, Repr

def fragOf (b : Bytes) (last : Bool) : FragIs :=
  let a := field b 0 8
  let n := field b 8 4
  if a % 16 ≠ 0 ∨ field b 13 3 ≠ 0 then .bad
  else if field b 12 1 = 0 then (if 16 ≤ n ∧ n ≤ 16777216 ∧ n % 16 = 0 then .data ⟨a, n⟩ else .bad)
  else if field b 12 1 = 1 ∧ last then (if 1 ≤ n ∧ n ≤ 4096 then .chain a n else .bad)
  else .bad

/-- Read a whole table: its fragments and where it chains to, or the index of the first bad fragment. -/
def parseTable : Nat → Nat → Bytes → List Frag → Except Nat (List Frag × Option (Nat × Nat))
  | 0, _, _, acc => .ok (acc, none)
  | n + 1, i, b, acc =>
    match fragOf (b.take 16) (n = 0) with
    | .bad => .error i
    | .data f => parseTable n (i + 1) (b.drop 16) (acc ++ [f])
    | .chain a c => .ok (acc, some (a, c))

/-- Address of a byte of the logical buffer, and how many bytes follow in its fragment. -/
def fragAt : List Frag → Nat → Option (Nat × Nat)
  | [], _ => none
  | f :: r, o => if o < f.len then some (f.addr + o, f.len - o) else fragAt r (o - f.len)

/-- Issue the next read of an entry's table or buffer. -/
def Dev.readInput (d : Dev) (q : Nat) (pos : QPos) : Dev :=
  match d.exec1 q pos with
  | none => d
  | some x =>
    let got := x.buf.length
    match x.st with
    | .tables =>
      let a := x.src + got
      d.hostRead a (min (x.need - got) (512 - a % 32)) (.table q pos)
    | .buffer =>
      match fragAt x.frags got with
      | none => d
      | some (a, left) => d.hostRead a (min (min (x.need - got) left) (512 - a % 32)) (.buffer q pos)
    | _ => d

def Dev.inputReady (d : Dev) (q : Nat) (pos : QPos) : Dev := d.updExec q pos fun x => { x with st := .ready }

/-- Begin to read a logical buffer of `n` bytes. -/
def Dev.readBuffer (d : Dev) (q : Nat) (pos : QPos) (n : Nat) : Dev :=
  (d.updExec q pos fun x => { x with st := .buffer, buf := [], need := n }).readInput q pos

/-- A table is in hand. -/
def Dev.tableDone (d : Dev) (q : Nat) (pos : QPos) (x : Exec) : Dev :=
  match parseTable (x.need / 16) 0 x.buf x.frags with
  | .error i => d.finish q pos (Cpl.invalid 1 (4096 * x.tables + i))
  | .ok (fs, some (a, n)) =>
    if x.tables = 15 then d.finish q pos (Cpl.invalid 1 (4096 * 15 + (x.need / 16 - 1)))
    else (d.updExec q pos fun y => { y with frags := fs, tables := y.tables + 1, src := a, need := 16 * n, buf := [] }).readInput q pos
  | .ok (fs, none) =>
    let y := { x with frags := fs, buf := [] }
    let e := d.updExec q pos fun _ => y
    if opcode x.entry = cSeal ∨ opcode x.entry = cUnseal ∨ y.batchOk = false then e.inputReady q pos
    else e.readBuffer q pos y.total

/-- A read of an entry's table or buffer has ended (spec/12 R335). -/
def Dev.inputArrives (d : Dev) (q : Nat) (pos : QPos) (b : Bytes) (err : Bool) : Dev :=
  let d := if err then d.raise bQmg 2 else d
  match d.exec1 q pos with
  | none => d
  | some x =>
    if err then d.finish q pos (Cpl.internal 1) else
    let y := { x with buf := x.buf ++ b }
    let e := d.updExec q pos fun _ => y
    if y.buf.length < y.need then e.readInput q pos
    else if y.st == .tables then e.tableDone q pos y else e.inputReady q pos

/-- An entry that reads its input ends: the read that waits is not issued, and the data of one outstanding is dropped. -/
def Dev.dropInput (d : Dev) (q : Nat) (pos : QPos) : Dev :=
  let mine : RdWhy → Bool := fun w => match w with
    | .table p r => decide (p = q ∧ r = pos)
    | .buffer p r => decide (p = q ∧ r = pos)
    | _ => false
  { d with qmg.rdWait := d.qmg.rdWait.filter fun r => !mine r.why
           qmg.rdOut := d.qmg.rdOut.map fun p =>
             (p.1, p.2.map fun (r : HRd) => if mine r.why then { r with why := .table noQueue pos } else r) }

/-- Bytes of the input buffer of a command without fragments, and its address operand. -/
def inputOf (e : Line) : Option (Nat × Nat) :=
  if opcode e = cKeyInstall then some (num e 16 8, 80)
  else if (opcode e = cKekLoad ∧ num e 9 1 = 1) ∨ opcode e = cSessionKey then some (num e 16 8, 48)
  else none

/-- Begin to read the input of an entry just consumed; an entry with a bad operand reads nothing. -/
def Dev.startInput (d : Dev) (q : Nat) (pos : QPos) (e : Line) : Dev :=
  if (operandBad e []).isSome then d.inputReady q pos
  else if fragFlag e then
    (d.updExec q pos fun x => { x with st := .tables, src := num e 40 8, need := 16 * (num e 36 2 + 1) }).readInput q pos
  else match inputOf e with
    | some (a, n) => (d.updExec q pos fun x => { x with frags := [⟨a, n⟩] }).readBuffer q pos n
    | none => d.inputReady q pos

/-! ### Consumption (spec/12 R329, R330) -/

/-- The queue error of an entry, lowest cause first (log 23). -/
def entryError (x : Queue) (e : Line) : Option Nat :=
  if num e 2 1 ≠ x.fmt.toNat then some 1
  else if !opcodeDefined x.ty (opcode e) then some 2
  else if num e 1 1 / 8 ≠ 0 ∨ num e 3 1 ≠ 0 ∨ (fragFlag e ∧ fragAllowed (opcode e) = false) then some 3
  else if fragFlag e ∧ fragDescOk e = false then some 4
  else none

/-- FENCE keeps the entry back (spec/12 R330). -/
def Queue.fenced (x : Queue) (e : Line) : Bool :=
  (x.exec.any fun y => fenceFlag y.entry) || (fenceFlag e && !x.exec.isEmpty)

/-- Completion writes of a queue that wait: they are not issued, and their entries leave. -/
def Dev.dropCpls (d : Dev) (q : Nat) : Dev :=
  let mine (w : HWr) : Option QPos := match w.why with
    | .completion p pos _ => if p = q then some pos else none
    | _ => none
  forAll (d.qmg.wrWait.filterMap mine) (fun pos e => (e.dropExec q pos).endReset q)
    { d with qmg.wrWait := d.qmg.wrWait.filter fun w => (mine w).isNone }

/-- An uncorrectable check-bit error in a queue's context or cached entry: ERROR with cause CONTEXT, and the completions
of its entries in execution are discarded, those too that wait to be issued (spec/12 R334, R349). A queue already in ERROR
keeps its cause. -/
def Dev.contextLost (d : Dev) (q : Nat) : Dev :=
  let x := d.queue q
  if x.st == .error then d.raise bQmg 8 else
  ((((d.raise bQmg 8).queueError q 10 x.head)).updQueue q fun y =>
    { y with exec := y.exec.map fun e => { e with discard := true } }).dropCpls q

/-- ENTRY_CONSUMPTION. `err`: what the check bits of the queue's context and cached entry show. -/
def execEntryConsumption (q : BitVec 14) (err : Option Bool) (s : State) : Host.Outcome State Fault Refusal :=
  s.serve fun d =>
    let d := if err = some false then d.raise bQmg 7 else d
    let x := d.queue q.toNat
    if err = some true then (if x.st == .none then d else d.contextLost q.toNat) else
    match x.cached with
    | [] => d
    | c :: r =>
      if x.st != .active || d.mgt.pfWarn || x.fenced c.entry then d else
        match entryError x c.entry with
        | some k => d.queueError q.toNat k c.pos
        | none =>
          let y : Exec := { (default : Exec) with pos := c.pos, entry := c.entry, st := .buffer }
          (d.setQueue q.toNat { x with cached := r, head := adv x.size c.pos, exec := x.exec ++ [y] }).startInput
            q.toNat c.pos c.entry

/-! ### Event records (spec/12 R336, R337, R491; spec/13 R378) -/

/-- Bytes 0-47 and 48-63 of a record. -/
def recLow (r : Rec) (pl : Bytes) (fmt seq : Nat) : Bytes :=
  leBytes 2 r.typ ++ leBytes 1 r.source ++ [0#8] ++ leBytes 4 (if fmt = 2 then seq else 0) ++ slice pl 0 32 ++
    (if fmt = 2 then leBytes 6 r.time else List.replicate 6 0) ++ List.replicate 2 0
def recHigh (now : Nat) : Bytes := leBytes 6 now ++ List.replicate 10 0

/-- The source registers, in their order. -/
def evSrcs : List EvSrc := [.stl, .frs, .per, .svc, .flt, .del]

/-- It is the turn of a source register among those that name its queue and hold records: rotation, starting after the
one that wrote last to it (spec/12 R491). -/
def Dev.turnOf (d : Dev) (src : EvSrc) : Bool :=
  let order := (List.range 6).map fun k => ((d.queue (d.evq src).qid.toNat).lastSrc + k) % 6
  let waits (k : Nat) : Bool := match evSrcs[k]? with
    | some x => !(d.qmg.held.get k).isEmpty && (d.evq x).qid == (d.evq src).qid
    | none => false
  order.find? waits == some (evCode src)

def Dev.dropHeld (d : Dev) (src : EvSrc) : Dev :=
  { d with qmg.held := d.qmg.held.upd (evCode src) fun l => l.drop 1 }

/-- Write a record: bytes 0-47 in two pieces, then bytes 48-63, with whose issue P advances (spec/12 R336, R56). The first of
the writes is issued now; the others follow as credits allow, in the ERROR state of the queue too (log 100). -/
def Dev.writeRecord (d : Dev) (q : Nat) (r : Rec) (pl : Bytes) : Dev :=
  let x := d.queue q
  let a := x.at x.head
  let b := recLow r pl x.fmt.toNat x.seq.toNat
  let now := d.stamp
  (((d.setQueue q { x with recWr := x.recWr + 3 }).hostWrite a (b.take 32) q
    (.recordLow q x.head)).hostWrite (a + 32) (b.drop 32) q (.recordLow q x.head)).hostWrite (a + 48) (recHigh now) q
    (.recordHigh q x.head)

/-- EVENT_RECORD_WRITE: the record stays held until its first write can be issued. A learn record that finds its register
naming no event queue is not posted, and counts as written for later joins (DESIGN CHOICE, log 111). -/
def execEventRecordWrite (src : EvSrc) (s : State) : Host.Outcome State Fault Refusal :=
  s.serve fun d =>
    let e := d.evq src
    match d.qmg.held.get (evCode src) with
    | [] => d
    | r :: _ =>
      let x := d.queue e.qid.toNat
      if !e.valid then d.dropHeld src
      else if x.st == .none || x.ty != .event then ((d.dropHeld src).learnWritten r).raise bQmg 5
      else if !d.canTake e || !d.turnOf src || !d.wrRoom then d
      else
        let y := (d.dropHeld src).updQueue e.qid.toNat fun x => { x with lastSrc := evCode src + 1 }
        (y.writeRecord e.qid.toNat r (d.recPayload r)).learnWritten r

/-! ### The end of an entry's writes (spec/12 R331, R335) -/

/-- An entry's completion is acknowledged, or has failed. -/
def Dev.cplAcked (d : Dev) (q : Nat) (pos : QPos) (counts err : Bool) : Dev :=
  let d := d.dropExec q pos
  let d := if err then (d.raise bQmg 3).queueError q 8 pos else
    let x := d.queue q
    let e := d.setQueue q { x with done := x.done + 1 }
    if counts && x.vecEn then e.countItem x.vec.toNat 1 else e
  d.endReset q

/-- A result-buffer write has ended; after the last one the completion follows. -/
def Dev.resultAcked (d : Dev) (q : Nat) (pos : QPos) (err : Bool) : Dev :=
  let d := if err then d.raise bQmg 3 else d
  match d.exec1 q pos with
  | none => d
  | some x =>
    let y := { x with wrLeft := x.wrLeft - 1, wrFail := x.wrFail || err }
    let d := d.updExec q pos fun _ => y
    if y.wrLeft ≠ 0 || y.st != .writing then d else
      let d := if opcode y.entry = cKeyGenerate && d.drawnOf q pos.toNat ≠ [] then d.generated q pos y y.wrFail else d
      let d := if y.wrFail then d.updExec q pos fun z => { z with cpl := some (Cpl.internal 2) } else d
      d.writeCpl q pos

/-- A record write has ended. A failed one loses its record: what waits of it is not issued, and a later record that has begun
is written to its end (spec/12 R335, R491, log 100). -/
def Dev.recAcked (d : Dev) (q : Nat) (pos : QPos) (high err : Bool) : Dev :=
  let x := d.queue q
  if x.st == .none then (if err then d.raise bQmg 3 else d) else
  let d := d.setQueue q { x with recWr := x.recWr - 1 }
  if err then ((d.raise bQmg 3).queueError q 9 pos).dropWrites q (some pos)
  else if high then
    let e := d.setQueue q { d.queue q with done := x.done + 1 }
    if x.vecEn then e.countItem x.vec.toNat 1 else e
  else d

/-- The interrupt message named `m` has ended (spec/12 R346). -/
def Dev.msgAcked (d : Dev) (m : Nat) (err : Bool) : Dev :=
  let d := Dev.noteDrained d { d with qmg.drainVecs := without m d.qmg.drainVecs }
  if err then d.raise bQmg 4 else d

/-! ### Queue commands and QMG_QCTL (spec/12 R338-R340, spec/13 R361) -/

def execCreateQueue (q : BitVec 14) (pos : BitVec 16) (s : State) : Host.Outcome State Fault Refusal :=
  s.serve fun d => d.command q.toNat pos cCreateQueue noRules fun x d =>
    let n := num x.entry
    if n 12 1 ≠ 1 ∧ n 12 1 ≠ 2 then d.finish q.toNat pos (Cpl.code 5 0)
    else if (d.queue (n 8 2)).st != .none then d.finish q.toNat pos .exists
    else
      let scan := decide (n 13 1 % 2 = 1)
      let y : Queue := { (default : Queue) with
        st := .active, ty := if n 10 1 = 1 then .io else .event, scanOnly := scan, fmt := BitVec.ofNat 2 (n 12 1), log2 := n 11 1,
        vecEn := decide (n 13 1 / 2 % 2 = 1), vec := BitVec.ofNat 11 (n 14 2), base := n 16 8, stopped := scan, polledAt := d.mgt.tref }
      (d.setQueue (n 8 2) y).finish q.toNat pos (Cpl.ok 0)

def execDeleteQueue (q : BitVec 14) (pos : BitVec 16) (s : State) : Host.Outcome State Fault Refusal :=
  s.serve fun d => d.command q.toNat pos cDeleteQueue noRules fun x d =>
    let k := num x.entry 8 2
    let y := d.queue k
    if y.st == .none then d.finish q.toNat pos .notFound
    else if y.st == .active || y.st == .stopping || !y.exec.isEmpty then d.finish q.toNat pos .busy
    else (d.removeQueue k).finish q.toNat pos (Cpl.ok 0)

def execResetQueue (q : BitVec 14) (pos : BitVec 16) (s : State) : Host.Outcome State Fault Refusal :=
  s.serve fun d => d.command q.toNat pos cResetQueue noRules fun x d =>
    let k := num x.entry 8 2
    let y := d.queue k
    if y.st == .none then d.finish q.toNat pos .notFound
    else if y.st == .active || y.st == .stopping then d.finish q.toNat pos .busy
    else ((d.running q.toNat pos).updQueue k fun z =>
      { z with resetting := true, resetBy := z.resetBy ++ [(q.toNat, pos)] }).endReset k

/-- The context that ENABLE gives queue 0 from its registers. -/
def Dev.adminContext (d : Dev) : Queue :=
  let c := d.qmg.admqCfg
  { (default : Queue) with st := .active, ty := .admin, scanOnly := bit c 15, fmt := c.extractLsb' 13 2, log2 := bits c 19 16,
                           vecEn := bit c 12, vec := c.extractLsb' 0 11, base := d.qmg.admqBase, stopped := bit c 15,
                           polledAt := d.mgt.tref }

def Dev.enableQueue (d : Dev) (q : Nat) : Dev :=
  let x := d.queue q
  match x.st with
  | .active => d
  | .idle | .stopping => d.setQueue q { x with st := .active, stopped := x.scanOnly, polledAt := d.mgt.tref }
  | .none => if q = 0 then d.setQueue 0 d.adminContext else { d with qmg.cfgIgn := true }
  | .error => { d with qmg.cfgIgn := true }

def Dev.disableQueue (d : Dev) (q : Nat) : Dev :=
  let x := d.queue q
  if x.st == .active then d.setQueue q { x with st := .stopping } else d

def Dev.resetAdmin (d : Dev) (q : Nat) : Dev :=
  let x := d.queue q
  if q = 0 ∧ (x.st = .idle ∨ x.st = .error) then (d.setQueue 0 { x with resetting := true }).endReset 0
  else { d with qmg.cfgIgn := true }

def execEnable (q : BitVec 14) (s : State) : Host.Outcome State Fault Refusal := s.core fun d => d.enableQueue q.toNat
def execDisable (q : BitVec 14) (s : State) : Host.Outcome State Fault Refusal := s.core fun d => d.disableQueue q.toNat
def execAdminReset (q : BitVec 14) (s : State) : Host.Outcome State Fault Refusal := s.core fun d => d.resetAdmin q.toNat

def execQueueIdle (q : BitVec 14) (s : State) : Host.Outcome State Fault Refusal :=
  s.serve fun d =>
    let x := d.queue q.toNat
    if x.st == .stopping && x.exec.isEmpty && (d.fetches q.toNat).isEmpty && decide (x.recWr = 0)
    then d.setQueue q.toNat { x with st := .idle } else d

end Machine
end Sys2Proof
end

