-- ==== Sys2Proof/Machine/Service.lean ====
section
/-! DEFINITION. Front, Drizzle, the service commands, and the zone commands that share their tree reset (spec/14,
spec/08 R212-R217, R229, spec/13 R366, R373, R374). -/

namespace Sys2Proof
namespace Machine

/-! ### Ranges in 4 KiB units -/

/-- 4 KiB units of a zone. -/
def zoneUnits : Nat := 2 ^ 21

/-- The region of the active set that holds a unit. -/
def Dev.regionOf (d : Dev) (unit : Nat) : Option (Nat × RegionCfg) :=
  (d.rmpSet d.activeSet).lookup (BitVec.ofNat 40 (64 * unit))

/-- First unit, and the unit after the last, of a region. -/
def RegionCfg.lo (r : RegionCfg) : Nat := 512 * r.base
def RegionCfg.hi (r : RegionCfg) : Nat := 512 * (r.limit + 1)

/-- Zones that units `lo` to `hi - 1` touch. -/
def zonesOf (lo hi : Nat) : List Nat :=
  (List.range ((hi - 1) / zoneUnits + 1 - lo / zoneUnits)).map fun k => lo / zoneUnits + k

/-- Zones of the full-freshness parts of a range. -/
def Dev.fullZones (d : Dev) (base units : Nat) : List Nat :=
  ((d.rmpSet d.activeSet).tab.flatMap fun p => match p.2 with
    | some r =>
      let lo := max base r.lo
      let hi := min (base + units) r.hi
      if r.mode == .full && decide (lo < hi) then zonesOf lo hi else []
    | none => []).eraseDups

/-- Zones wholly inside a range. -/
def wholeZones (base units : Nat) : List Nat :=
  (zonesOf base (base + units)).filter fun z => decide (base ≤ z * zoneUnits ∧ (z + 1) * zoneUnits ≤ base + units)

/-- The zones of a service command that SANITIZE resets whole. -/
def Dev.cmdWhole (d : Dev) (c : SCmd) : List Nat :=
  if c.kind == .sanitize then (wholeZones c.base c.units).filter fun z => (d.zone z).cmd == some (c.q, c.pos) else []

/-! ### How a service command ends (spec/13 R374, spec/08 R213) -/

def Dev.scmd (d : Dev) (q pos : Nat) : Option SCmd := d.svc.cmds.find? fun c => c.q == q && c.pos == pos
def Dev.updScmd (d : Dev) (q pos : Nat) (f : SCmd → SCmd) : Dev :=
  { d with svc.cmds := d.svc.cmds.map fun (c : SCmd) => if c.q = q ∧ c.pos = pos then f c else c }
def Dev.runningCmds (d : Dev) : Nat := (d.svc.cmds.filter fun c => c.running).length

/-- A status with the progress P. -/
def SCmd.report (c : SCmd) (x : Cpl) : Cpl :=
  { x with result := BitVec.ofNat 32 c.prog
           resultX := if x.status = 4 then x.resultX else BitVec.ofNat 8 (c.prog / 2 ^ 32) }

/-- Accesses and steps that a zone's departure waits for (spec/04 R106, spec/14 R385). -/
def Dev.zoneBusy (d : Dev) (z : Nat) : Bool :=
  (d.fab.accs.any fun a => a.inFlight && a.mode == .full && decide (zoneOf a.line = z)) ||
    d.svc.steps.any fun s => s.mode == .full && decide (s.unit / zoneUnits = z)

/-- A SANITIZE that ends gives a zone back: ONLINE after its tree reset, else the state it had. -/
def Dev.zoneBack (z : Nat) (d : Dev) : Dev :=
  let x := d.zone z
  (d.zoneTo z (if x.treeDone then .online else x.prev) cSanitize).updZone z fun y =>
    { y with cmd := none, drawn := none, leaving := false, treeDone := false }

def Dev.svcFinish (d : Dev) (c : SCmd) (x : Cpl) : Dev :=
  let d := forAll (d.cmdWhole c) Dev.zoneBack d
  { d with svc.cmds := d.svc.cmds.filter fun y => !(y.q == c.q && y.pos == c.pos) }.finish c.q
    (BitVec.ofNat 16 c.pos) (c.report x)

/-- End a service command when nothing of it remains; one that has taken a zone out of ONLINE waits for what was admitted before
(spec/04 R106), and gives none back while a MEASURE runs (spec/11 R312). -/
def Dev.svcCheck (d : Dev) (q pos : Nat) : Dev :=
  match d.scmd q pos with
  | none => d
  | some c =>
    if (d.svc.steps.any fun s => s.who == .cmd q pos) ||
        (d.cmdWhole c).any (fun z => ((d.zone z).leaving && d.zoneBusy z) || d.measuring) then d else
      match c.ending with
      | some x => d.svcFinish c x
      | none =>
        if c.running && decide (c.units ≤ c.next) && (d.cmdWhole c).all (fun z => (d.zone z).treeDone)
        then d.svcFinish c (Cpl.ok 0) else d

/-- A service command must end with a status once its step in progress has ended; the first reason stands. -/
def Dev.svcStop (d : Dev) (q pos : Nat) (x : Cpl) : Dev :=
  (d.updScmd q pos fun c => { c with ending := c.ending.orElse fun _ => some x }).svcCheck q pos

/-- A zone leaves ONLINE: the service commands with full-freshness lines in it end ABORTED (spec/13 R374). -/
def Dev.cancelZone (d : Dev) (z : Nat) : Dev :=
  forAll (d.svc.cmds.filter fun c => (d.fullZones c.base c.units).contains z && (d.zone z).cmd != some (c.q, c.pos))
    (fun c e => e.svcStop c.q c.pos (Cpl.aborted 4)) d

/-! ### Zone commands (spec/08 R213-R215, spec/13 R366) -/

/-- A command takes a zone into FORMATTING or SANITIZING. -/
def Dev.takeZone (d : Dev) (z : Nat) (st : ZoneSt) (q pos op : Nat) (key : Bytes) : Dev :=
  let x := d.zone z
  let d := (d.zoneTo z st op).updZone z fun y =>
    { y with prev := x.st, drawn := some (bytesKey key), cmd := some (q, pos), leaving := x.st == .online, treeDone := false }
  if x.st == .online then d.cancelZone z else d

/-- An adoption of the zone runs (spec/10 R277). -/
def Dev.adopting (d : Dev) (z : Nat) : Bool := d.per.adopt.any fun a => a.zone = z

def execFormatZone (q : BitVec 14) (pos : BitVec 16) (zenith : Bool) (drbg : Option Bool) (s : State) :
    Host.Outcome State Fault Refusal :=
  s.serve fun d =>
    if d.ckptHold || d.measuring then d else
      d.command q.toNat pos cFormatZone (fun d x => [(8, decide (num x.entry 8 2 < d.frs.zoneLimit))]) fun x d =>
        let z := num x.entry 8 2
        let d := d.zenithRead zenith
        if !d.per.armed then d.finish q.toNat pos .busy
        else if (d.zone z).st == .formatting || (d.zone z).st == .sanitizing then d.finish q.toNat pos .busy
        else if d.adopting z then d
        else
          let d := d.noteDue
          match d.draw 32 true with
          | .wait => d.waitDraw q.toNat pos
          | .fail => d.finish q.toNat pos noEntropy
          | .got b d => ((d.drbgRead drbg).running q.toNat pos).takeZone z .formatting q.toNat pos.toNat cFormatZone b

/-- TREE_RESET: steps 3 to 5 of spec/08 R214, then step 6 of a format. -/
def execTreeReset (z : BitVec 13) (zenith : Bool) (s : State) : Host.Outcome State Fault Refusal :=
  s.serve fun d =>
    let k := z.toNat
    let x := d.zone k
    let format := x.st == .formatting
    let runs := match x.cmd with
      | some (q, pos) => format || (match d.scmd q pos with | some c => c.running && c.ending.isNone | none => false)
      | none => false
    if !(format || x.st == .sanitizing) || x.leaving || x.treeDone || d.ckptHold || d.measuring || !runs then d else
      let d := (d.zenithRead zenith).dropSubtree ⟨k, 8, 0⟩
      let d := { d with frs.marks := d.frs.marks.filter fun m => m.zone ≠ k }
      let d := d.updZone k fun y => { y with
        key := y.drawn, treeDone := true
        root := if format then 0 else BitVec.ofNat 56 (0xFE * 2 ^ 48 + y.ceil.toNat / 256)
        ceil := if format then 0 else y.ceil }
      match x.cmd with
      | none => d
      | some (q, pos) =>
        let d := d.pumpMaint
        if format then
          ((d.zoneTo k .online cFormatZone).updZone k fun y =>
            { y with cmd := none, drawn := none, treeDone := false }).finish q (BitVec.ofNat 16 pos) (Cpl.ok 0)
        else (d.updScmd q pos fun c => { c with prog := c.prog + zoneUnits }).svcCheck q pos

/-! ### Rekeys (spec/13 R373, spec/14 R388-R390) -/

/-- A striped index takes a new step only while its GROUP is the engine's own and GSTATE is WHOLE (spec/16 R443,
spec/14 R390). -/
def Dev.groupFree (d : Dev) (g : BitVec 4) : Bool := d.del.group == some g && d.del.gstate == .whole

def execRekeyStart (q : BitVec 14) (pos : BitVec 16) (s : State) : Host.Outcome State Fault Refusal :=
  s.serve fun d =>
    if d.ckptHold || d.measuring then d else d.command q.toNat pos cRekeyStart noRules fun x d =>
      let i := num x.entry 8 2
      match (d.rmpSet d.activeSet).tab.get i with
      | none => d.finish q.toNat pos .notFound
      | some r =>
        let new := bv16 (num x.entry 12 2)
        if !d.slotLoaded new then d.finish q.toNat pos .notFound
        else if (d.rekey i).st != .idle then d.finish q.toNat pos stateKind
        else if r.striped && decide (16 ≤ d.svc.retire.length) then d.finish q.toNat pos .busy
        else
          let d := d.setRekey i ⟨.active, bv16 (num x.entry 10 2), new, r.base * 512⟩
          { d with svc.fronts := d.svc.fronts.put i ⟨num x.entry 14 1, 64000, false⟩ }.finish q.toNat pos (Cpl.ok 0)

/-- REKEY_ABORT of an entry ends the service commands whose range meets the entry's (spec/13 R374, log 98). -/
def Dev.cancelRegion (d : Dev) (r : RegionCfg) : Dev :=
  forAll (d.svc.cmds.filter fun c => decide (c.base < r.hi ∧ r.lo < c.base + c.units))
    (fun c e => e.svcStop c.q c.pos (Cpl.aborted 4)) d

def execRekeyAbort (q : BitVec 14) (pos : BitVec 16) (s : State) : Host.Outcome State Fault Refusal :=
  s.serve fun d =>
    match d.readyEntry q.toNat pos cRekeyAbort with
    | none => d
    | some y =>
      if d.ckptHold || d.measuring || (d.svc.fronts.get (num y.entry 8 2)).busy then d else
        d.command q.toNat pos cRekeyAbort noRules fun x d =>
          let i := num x.entry 8 2
          match (d.rmpSet d.activeSet).tab.get i with
          | none => d.finish q.toNat pos .notFound
          | some r =>
            if (d.rekey i).st != .active then d.finish q.toNat pos stateKind else
              let f := (d.rekey i).front
              { (d.setRekey i default).cancelRegion r with svc.fronts := d.svc.fronts.put i default }.finish q.toNat pos
                (Cpl.ok (BitVec.ofNat 32 f))

/-! ### Acceptance of service commands (spec/13 R374, spec/14 R396-R400) -/

/-- Operand rules that need the state. -/
def svcRules (d : Dev) (x : Exec) : List (Nat × Bool) :=
  let e := x.entry
  let o := opcode e
  let base := num e 16 8 / 4096
  let units := num e 24 8 / 4096
  let r := d.regionOf base
  let inside := match r with | some (_, c) => decide (base + units ≤ c.hi) | none => false
  let full := match r with | some (_, c) => c.mode == .full | none => false
  [(16, o = cScrub || inside), (24, !(o = cSeal) || decide (num e 24 8 ≤ 2 ^ 44)),
   (8, !(o = cSanitize && full) || decide (num e 8 2 = 0)),
   (36, !(fragFlag e && (o = cSeal || o = cUnseal)) || decide (units * 4144 ≤ x.total))]

def svcKind (o : Nat) : SKind :=
  if o = cSanitize then .sanitize else if o = cScrub then .scrub else if o = cSeal then .seal
  else if o = cUnseal then .unseal else .transcode

/-- Statuses of acceptance, in table order. -/
def Dev.svcBad (d : Dev) (e : Line) (full : Bool) (base units : Nat) : Option Cpl :=
  let o := opcode e
  let slots := if o = cScrub ∨ (o = cSanitize ∧ full = true) then []
               else if o = cTranscode then [num e 8 2, num e 10 2] else [num e 8 2]
  let kek := o = cSeal ∨ o = cUnseal
  let zs := d.fullZones base units
  let whole := if o = cSanitize then wholeZones base units else []
  if slots.any (fun k => (d.key.slots.get k).st == .empty) || (kek && !(d.key.keks.get (num e 12 1)).loaded) then some .notFound
  else if kek && !(d.key.keks.get (num e 12 1)).transport then some (Cpl.invalid 0 12)
  else if zs.any fun z => decide (d.frs.zoneLimit ≤ z) || (d.zone z).st == .offline then some stateKind
  else if zs.any fun z => (d.zone z).st == .formatting || (d.zone z).st == .sanitizing then some .busy
  else if zs.any fun z => (d.zone z).st == .quarantined && !whole.contains z then some .quarantined
  else none

/-- Issue the next read of the chunk that an UNSEAL takes next: it is read before its step begins, so that no access waits
for host memory behind the step's hold (spec/01 R28, log 99). -/
def Dev.readChunk (d : Dev) (q pos : Nat) : Dev :=
  match d.scmd q pos, d.exec1 q (BitVec.ofNat 16 pos) with
  | some c, some x =>
    let got := c.buf.length
    if c.kind != .unseal || !c.running || c.ending.isSome || c.fetch.isSome || d.mgt.pfWarn || decide (4144 ≤ got)
      || decide (c.units ≤ c.next) then d else
      match fragAt x.frags (4144 * c.next + got) with
      | none => d
      | some (a, left) =>
        ((d.updScmd q pos fun y => { y with fetch := some d.seq }).bump).hostRead a
          (min (min (4144 - got) left) (512 - a % 32)) (.chunk d.seq)
  | _, _ => d

/-- Accept a service command; it runs at once while fewer than 4 run. -/
def Dev.svcAccept (d : Dev) (q pos : Nat) (e : Line) (region : Nat) (salt : Bytes) : Dev :=
  let n := num e
  let c : SCmd := {
    q := q, pos := pos, kind := svcKind (opcode e), base := n 16 8 / 4096, units := n 24 8 / 4096, slotA := bv16 (n 8 2),
    slotB := bv16 (n 10 2), kek := n 12 1, nodesOnly := n 13 1 = 1, running := decide (d.runningCmds < 4), next := 0, prog := 0,
    salt := salt, ending := none, region := region, slots := [], slotRegion := none, buf := [], fetch := none }
  let d := d.running q (BitVec.ofNat 16 pos)
  let d := if !fragFlag e && (opcode e = cSeal || opcode e = cUnseal) then
      d.updExec q (BitVec.ofNat 16 pos) fun x => { x with frags := [⟨n 40 8, c.units * 4144⟩] } else d
  { d with svc.cmds := d.svc.cmds ++ [c] }.readChunk q pos

/-- A service command row. -/
def Dev.svcCommand (d : Dev) (q : Nat) (pos : QPos) (op : Nat) (zenith : Bool) (drbg : Option Bool) : Dev :=
  if (d.ckptHold || d.measuring) && op = cSanitize then d else d.command q pos op svcRules fun x d =>
    let ends (c : Cpl) (d : Dev) : Dev := (d.dropDrawn q pos.toNat).finish q pos c
    if d.mgt.pfWarn then ends (Cpl.aborted 3) d else
    let e := x.entry
    let base := num e 16 8 / 4096
    let units := num e 24 8 / 4096
    let r := d.regionOf base
    let full := match r with | some (_, c) => c.mode == .full | none => false
    let region := match r with | some (i, _) => i | none => 0
    let d := d.zenithRead (zenith && !(d.fullZones base units).isEmpty)
    match d.svcBad e full base units with
    | some c => ends c d
    | none =>
      if op = cSeal then
        let d := d.noteDue
        match d.draw 8 false with
        | .got b d => (d.drbgRead drbg).svcAccept q pos.toNat e region b
        | _ => d
      else if op = cUnseal then
        if d.key.drbg.st == .ready || d.key.drbg.st == .error then d.svcAccept q pos.toNat e region [] else d
      else if op = cSanitize && full && !(wholeZones base units).isEmpty then
        let zs := wholeZones base units
        if zs.any fun z => d.adopting z then d else
          match Dev.drawKeys q pos.toNat (zs.length - (d.drawnOf q pos.toNat).length / 32) d with
          | (d, none) => d
          | (d, some none) => d.finish q pos noEntropy
          | (d, some (some b)) =>
            forAll zs.zipIdx (fun p e => e.takeZone p.1 .sanitizing q pos.toNat cSanitize (slice b (32 * p.2) 32))
              ((d.drbgRead drbg).svcAccept q pos.toNat e region [])
      else d.svcAccept q pos.toNat e region []

def execSanitize (q : BitVec 14) (pos : BitVec 16) (zenith : Bool) (drbg : Option Bool) (s : State) :
    Host.Outcome State Fault Refusal :=
  s.serve fun d => d.svcCommand q.toNat pos cSanitize zenith drbg
def execScrub (q : BitVec 14) (pos : BitVec 16) (zenith : Bool) (s : State) : Host.Outcome State Fault Refusal :=
  s.serve fun d => d.svcCommand q.toNat pos cScrub zenith none
def execSeal (q : BitVec 14) (pos : BitVec 16) (zenith : Bool) (drbg : Option Bool) (s : State) :
    Host.Outcome State Fault Refusal :=
  s.serve fun d => d.svcCommand q.toNat pos cSeal zenith drbg
def execUnseal (q : BitVec 14) (pos : BitVec 16) (zenith : Bool) (s : State) : Host.Outcome State Fault Refusal :=
  s.serve fun d => d.svcCommand q.toNat pos cUnseal zenith none
def execTranscode (q : BitVec 14) (pos : BitVec 16) (zenith : Bool) (s : State) : Host.Outcome State Fault Refusal :=
  s.serve fun d => d.svcCommand q.toNat pos cTranscode zenith none

/-- The KEK slot of a SEAL or UNSEAL that starts: what it ends with where the slot has been emptied or given another USE since
its acceptance (spec/11 R294). -/
def Dev.startBad (d : Dev) (c : SCmd) : Option Cpl :=
  let k := d.key.keks.get c.kek
  if c.kind != .seal && c.kind != .unseal then none
  else if !k.loaded then some .notFound
  else if !k.transport then some (Cpl.invalid 0 12)
  else none

/-- SERVICE_COMMAND_START: the first command that waits starts (spec/14 R400). -/
def execServiceCommandStart (q : BitVec 14) (pos : BitVec 16) (s : State) : Host.Outcome State Fault Refusal :=
  s.serve fun d =>
    match d.svc.cmds.find? fun c => !c.running with
    | none => d
    | some c =>
      if c.q = q.toNat ∧ c.pos = pos.toNat ∧ d.runningCmds < 4 then
        match d.startBad c with
        | some x => d.svcStop c.q c.pos x
        | none => (d.updScmd c.q c.pos fun c => { c with running := true }).readChunk c.q c.pos
      else d

/-! ### The governor (spec/14 R384) -/

/-- Lines per 10 µs of media bandwidth: the measured frequencies, in 100 kHz, of the channels not retired. -/
def Dev.bandwidth (d : Dev) : Nat :=
  (List.range Config.channels).foldl (fun a c => if d.retired c then a else a + (d.mgt.clkMeas.get (domMch c)).freq.toNat) 0

/-- Accrue every credit up to now, in thousandths of a beat, up to 64 beats; each ACTIVE index has its own (spec/14 R388). -/
def Dev.accrue (d : Dev) : Dev :=
  let add (r : Nat) : Nat := r * d.bandwidth * (d.mgt.tref - d.svc.accruedAt) / 100
  { d with
    svc.bulkCredit := min 64000 (d.svc.bulkCredit + add d.svc.bulkRate)
    svc.drizzleCredit := min 64000 (d.svc.drizzleCredit + add d.svc.drizzleRate)
    svc.fronts := forAll (Tab.which d.rmp.rekey fun r => r.st == .active) (fun i (t : Tab Front) => t.upd i fun f =>
      { f with credit := min 64000 (f.credit + add (if f.rate = 0 then d.svc.frontRate else f.rate)) }) d.svc.fronts
    svc.accruedAt := d.mgt.tref }

/-! ### Steps (spec/14 R380-R383) -/

/-- Service accesses in flight of one kind. -/
def Dev.svcInFlight (d : Dev) (write : Bool) : Nat :=
  (d.fab.accs.filter fun a => a.inFlight && a.isWrite == write && match a.origin with | .step _ => true | .port _ => false).length

/-- In-flight slots for the 64 accesses of a step. -/
def Dev.stepRoom (d : Dev) (write : Bool) : Bool :=
  decide (d.svcInFlight write + 64 ≤ Config.maxSvc) &&
    (if write then decide (d.writesInFlight + 64 ≤ Config.maxWrites) else decide (d.readsInFlight + 64 ≤ Config.maxReads))

/-- A hold and the in-flight slots of a step are free. -/
def Dev.stepFits (d : Dev) (write : Bool) : Bool := decide (d.fab.holds.length < 8) && d.stepRoom write

/-- Kinds whose accesses take write slots. -/
def SKind.writes : SKind → Bool
  | .drizzle | .scrub | .seal => false
  | _ => true

/-- The place of a service in the rotation of spec/04 R109; SCRUB, whose steps check as Drizzle's do, takes Drizzle's (log 92). -/
def SKind.turn : SKind → Nat
  | .front => 0
  | .drizzle => 1
  | .scrub => 1
  | .sanitize => 2
  | .transcode => 3
  | .seal => 4
  | .unseal => 5

/-- Place a range hold and begin a step. -/
def Dev.beginStep (d : Dev) (s : Step) : Dev × Step × Nat :=
  let s := { s with id := d.seq }
  let place := d.seq + 1
  let h : Hold := ⟨64 * s.unit, 64 * (s.unit + s.units) - 1, place, s.id⟩
  ({ d with svc.steps := d.svc.steps ++ [s], svc.lastService := s.kind.turn, fab.holds := d.fab.holds ++ [h], seq := d.seq + 2 }, s, place)

def Dev.releaseHold (d : Dev) (id : Nat) : Dev := { d with fab.holds := d.fab.holds.filter fun h => h.step ≠ id }
def Dev.dropStep (d : Dev) (id : Nat) : Dev :=
  { d.releaseHold id with svc.steps := d.svc.steps.filter fun s => s.id ≠ id
                          fab.accs := d.fab.accs.filter fun a => a.origin ≠ .step id }

/-- A step ends with no more of it done: what waits for its hold and its in-flight slots goes on. -/
def Dev.abortStep (d : Dev) (id : Nat) : Dev := (d.dropStep id).noteHold.retryReceived

/-- The 64 line accesses of a step; they count as having arrived with its hold. Those of UNSEAL hash first (spec/14 R399). -/
def Dev.addAccesses (d : Dev) (s : Step) (place : Nat) (stage : Stage) : Dev :=
  let accs := (List.range 64).map fun k =>
    { (default : Access) with
      id := d.seq + k, origin := .step s.id, isWrite := s.kind.writes, line := BitVec.ofNat 40 (64 * s.unit + k), gen := s.gen,
      region := s.region, mode := s.mode, kslot := s.slotA, slot := s.slotA, inFlight := true, win := .passed, place := some place,
      stage := stage, pass := if stage = .lane then .hash else default, mask := BitVec.allOnes 64 }
  ({ d with fab.accs := d.fab.accs ++ accs, seq := d.seq + 64 }.updStep s.id fun t => { t with left := 64 }).noteHold

/-- A step with the fields every service shares. -/
def Dev.newStep (d : Dev) (who : SvcWho) (kind : SKind) (unit units region : Nat) (m : Mode) (a b : BitVec 16) : Step :=
  { (default : Step) with who := who, kind := kind, unit := unit, units := units, gen := d.rmp.gen, region := region, mode := m,
                          slotA := a, slotB := b }

/-! ### Front steps -/

def Dev.frontSteps (d : Dev) : Nat := (d.svc.steps.filter fun s => s.kind == .front).length

/-- A Front may take a step now (spec/14 R384-R390, spec/10 R267). -/
def Dev.frontMay (d : Dev) (i : Nat) : Bool :=
  let r := d.rekey i
  let f := d.svc.fronts.get i
  r.st == .active && !f.busy && decide (64000 ≤ f.credit) && decide (d.frontSteps < 8) && !d.mgt.pfWarn && !d.ckptHold &&
    match (d.rmpSet d.activeSet).tab.get i with
    | none => false
    | some c => (c.mode != .full || (d.zone (r.front / zoneUnits)).st == .online) && (!c.striped || d.groupFree c.group)

/-- Indices take turns in ascending order. -/
def Dev.frontTurn (d : Dev) (i : Nat) : Bool :=
  let may := (d.rmp.rekey.map (·.1)).filter fun k => d.frontMay k
  ((may.find? fun k => decide (d.svc.lastFront < k)).orElse fun _ => may.head?) == some i

/-- A Front may take a step, and the step finds its hold and its slots. -/
def Dev.frontReady (d : Dev) (i : Nat) : Bool := d.frontTurn i && d.stepFits true

/-! ### Drizzle (spec/14 R391-R393) -/

/-- Insert a slot into a rising list. -/
def insSlot (x : BitVec 16) : List (BitVec 16) → List (BitVec 16)
  | [] => [x]
  | y :: r => if x.toNat < y.toNat then x :: y :: r else if x = y then y :: r else y :: insSlot x r

/-- The distinct slots that the streams of a region name, in the order in which a scan of the table's buckets meets them, and
after them NEW_KSLOT of its rekey part. -/
def Dev.slotsFor (d : Dev) (i : Nat) (c : RegionCfg) : List (BitVec 16) :=
  let named := (d.stlSet d.activeSet).tab.filterMap fun p => match p.2 with
    | some e => if c.kidLo.toNat ≤ e.kid.toNat ∧ e.kid.toNat ≤ c.kidHi.toNat then some e.kslot else none
    | none => none
  (named ++ (if (d.rekey i).st = .idle then [] else [(d.rekey i).new])).eraseDups

/-- The list on entering a region: the first 64 slots, then in ascending order. `chk`: what the check bits of the stream
table show to the scan (spec/05 R130). -/
def Dev.listSlots (d : Dev) (i : Nat) (c : RegionCfg) (chk : List Chk) : Dev × List (BitVec 16) :=
  let d := d.slotErrors d.activeSet (fun _ => true) chk
  let l := d.slotsFor i c
  (if 64 < l.length then { d with svc.slotOvf := true }.raise bSvc 2 else d, (l.take 64).foldr insSlot [])

/-- Check ladders for the eight leaves of a unit (spec/14 R391). -/
def Dev.checkNodes (d : Dev) (s : Step) : Dev :=
  let z := s.unit / zoneUnits
  let root := (d.zone z).root
  if isZero root || isPoison root then d else
    let d := d.updStep s.id fun t => { t with nodes := 8 }
    forAll (List.range 8) (fun k e => (e.startLadder z (64 * (s.unit % zoneUnits) + 8 * k) 0 true true (.scrub s.id)).1) d

/-- The zone Drizzle walks: the one it is in unless that has left ONLINE, else the next ONLINE zone (spec/14 R391). -/
def Dev.drizzleSeek (d : Dev) (after : Bool) : Option Dev :=
  let z := d.svc.drizzleZone
  if !after && (d.zone z).st == .online && !d.svc.drizzleLost then some d else
    let on := Tab.which d.frs.zones fun x => x.st == .online
    let go (k : Nat) (wrap : Bool) : Dev :=
      let e := if wrap then d.raise bSvc 5 else d
      { e with
        svc.drizzleZone := k, svc.drizzleUnit := 0, svc.drizzleLines := 0, svc.drizzleNodes := 0, svc.drizzleFinds := 0
        svc.drizzleLost := false, svc.slotRegion := none
        svc.drizzlePasses := if wrap then (d.svc.drizzlePasses + 1) % 2 ^ 32 else d.svc.drizzlePasses }
    match on.find? fun k => decide (z < k) with
    | some k => some (go k false)
    | none => on.head?.map fun k => go k true

/-- Drizzle may take a step: the walk with its zone sought, when it may. -/
def Dev.drizzleReady (d : Dev) : Option Dev :=
  if !d.svc.drizzleEn || d.mgt.pfWarn || decide (d.svc.drizzleCredit < 64000) || (d.svc.steps.any fun s => s.kind == .drizzle)
    || !d.stepFits false then none else
    match d.drizzleSeek false with
    | some e => if zoneUnits ≤ e.svc.drizzleUnit then none else some e
    | none => none

/-- SCRUB_DONE (spec/14 R391). -/
def execScrubDone (s : State) : Host.Outcome State Fault Refusal :=
  s.serve fun d =>
    if d.svc.drizzleUnit < zoneUnits || d.svc.steps.any (fun s => s.kind == .drizzle) then d else
      let v := d.svc
      let d := if (d.zone v.drizzleZone).st == .online && !v.drizzleLost then
          d.event .svc 0x0032 bSvc .scrub [(8, 2, v.drizzleZone), (16, 8, v.drizzleLines), (24, 4, v.drizzleNodes), (28, 4, v.drizzleFinds)]
        else d
      (d.drizzleSeek true).getD d

/-! ### Steps of service commands (spec/14 R396-R399) -/

/-- The next unit of a range and the size of its step: a covering counter for a SANITIZE in full freshness. -/
def coverSize (base units u : Nat) : Nat :=
  (List.range 7).foldl (fun a j => if u % 8 ^ j = 0 ∧ u + 8 ^ j ≤ base + units then 8 ^ j else a) 1

/-- Skip the whole zones of a SANITIZE: they are reset as trees. -/
def skipWhole (whole : List Nat) : Nat → Nat → Nat
  | 0, u => u
  | fuel + 1, u => if whole.contains (u / zoneUnits) then skipWhole whole fuel ((u / zoneUnits + 1) * zoneUnits) else u

/-- Begin a step of a service command at unit `u`. -/
def Dev.cmdStep (d : Dev) (c : SCmd) (u : Nat) (chk : List Chk) : Dev :=
  let r := d.regionOf u
  let who := SvcWho.cmd c.q c.pos
  let go (s : Step) (n : Nat) (d : Dev) : Dev × Step × Nat :=
    { d with svc.bulkCredit := d.svc.bulkCredit - 64000 }.updScmd c.q c.pos (fun y => { y with next := u + n - c.base }) |>.beginStep s
  let plain (m : Mode) (stage : Stage) (d : Dev) : Dev :=
    let b := go { d.newStep who c.kind u 1 c.region m c.slotA c.slotB with salt := c.salt } 1 d
    b.1.addAccesses b.2.1 b.2.2 stage
  match c.kind with
  | .scrub =>
    match r with
    | none => (go (d.newStep who .scrub u 1 0 .cipher 0 0) 1 d).1
    | some (i, g) =>
      let l := if c.slotRegion = some i then (d, c.slots) else d.listSlots i g chk
      let d := l.1.updScmd c.q c.pos fun y => { y with slots := l.2, slotRegion := some i }
      let b := go { d.newStep who .scrub u 1 i g.mode 0 0 with slots := l.2 } 1 d
      let d := if g.mode == .full then b.1.checkNodes b.2.1 else b.1
      if g.mode == .cipher || (c.nodesOnly && g.mode == .full) then d else d.addAccesses b.2.1 b.2.2 .gated
  | .sanitize =>
    match r with
    | some (_, g) =>
      if g.mode == .full then
        let n := coverSize c.base c.units u
        (go { d.newStep who .sanitize u n c.region .full 0 0 with reset := true } n d).1
      else plain g.mode .gated d
    | none => d
  | .unseal =>
    let m := match r with | some (_, g) => g.mode | none => .full
    let s := d.newStep who .unseal u 1 c.region m c.slotA c.slotB
    let b := go { s with
      salt := slice c.buf 24 8, void := BitVec.ofNat 64 (field c.buf 8 8), buf := c.buf
      blocks := (List.range 64).map fun k => (k, bytesLine (slice c.buf (32 + 64 * k) 64)) } 1 d
    (b.1.updScmd c.q c.pos fun y => { y with buf := [] }).addAccesses b.2.1 b.2.2 .lane
  | _ => plain (match r with | some (_, g) => g.mode | none => .full) .gated d

/-- Units of the next step of a command at unit `u`. -/
def Dev.stepUnits (d : Dev) (c : SCmd) (u : Nat) : Nat :=
  match d.regionOf u with
  | some (_, g) => if c.kind == SKind.sanitize && g.mode == Mode.full then coverSize c.base c.units u else 1
  | none => 1

/-- The region that a command names still covers the next step (spec/14 R382), and full-freshness lines of the step lie in
an ONLINE zone (spec/13 R374, spec/14 R385, log 98). -/
def Dev.stepCovered (d : Dev) (c : SCmd) (u : Nat) : Bool :=
  match d.regionOf u with
  | some (i, g) =>
    (c.kind == .scrub || decide (i = c.region ∧ u + d.stepUnits c u ≤ g.hi)) &&
      (g.mode != .full || (d.zone (u / zoneUnits)).st == .online)
  | none => c.kind == .scrub

/-- The unit of a command's next step. -/
def Dev.nextUnit (d : Dev) (c : SCmd) : Nat :=
  let whole := d.cmdWhole c
  skipWhole whole (whole.length + 1) (c.base + c.next)

/-- A command may go on: to its next step, or to its end where none is left. -/
def Dev.cmdReady (d : Dev) (c : SCmd) : Bool :=
  c.running && c.ending.isNone && !d.mgt.pfWarn && decide (64000 ≤ d.svc.bulkCredit) && d.stepFits c.kind.writes &&
    !(d.svc.steps.any fun s => s.who == .cmd c.q c.pos) && (d.cmdWhole c).all (fun z => (d.zone z).treeDone)

/-- A command may take a step now. -/
def Dev.cmdSteps (d : Dev) (c : SCmd) : Bool :=
  d.cmdReady c && decide (d.nextUnit c < c.base + c.units) && !(c.kind == .unseal && decide (c.buf.length ≠ 4144)) &&
    d.stepCovered c (d.nextUnit c)

/-! ### The rotation among the services (spec/04 R109) -/

/-- A service may take a step now. -/
def Dev.serviceReady (d : Dev) (k : Nat) : Bool :=
  (decide (k = 0) && d.stepFits true && d.rmp.rekey.any fun p => d.frontMay p.1) ||
    (decide (k = 1) && d.drizzleReady.isSome) ||
    d.svc.cmds.any fun c => decide (c.kind.turn = k) && d.cmdSteps c

/-- The next step is this service's: the first after the one that took the last step among those that may take one. -/
def Dev.turnOfService (d : Dev) (k : Nat) : Bool :=
  ((List.range 6).map fun j => (d.svc.lastService + 1 + j) % 6).find? (fun j => d.serviceReady j) == some k

def Dev.frontStart (d : Dev) (i : Nat) (chk : List Chk) : Dev :=
  let d := d.accrue
  if !d.frontReady i || !d.turnOfService 0 then d else d.withRegions chk fun (d : Dev) =>
    match (d.rmpSet d.activeSet).tab.get i with
    | none => d
    | some c =>
      let d := d.zoneRead (c.mode == .full) chk
      let r := d.rekey i
      let b := d.beginStep (d.newStep (.front i) .front r.front 1 i c.mode r.old r.new)
      let d := { b.1 with svc.lastFront := i
                          svc.fronts := b.1.svc.fronts.upd i fun f => { f with busy := true, credit := f.credit - 64000 } }
      d.addAccesses b.2.1 b.2.2 .gated

def Dev.drizzleStart (d : Dev) (chk : List Chk) : Dev :=
  let d := d.accrue
  if !d.turnOfService 1 then d else
    match d.drizzleReady with
    | none => d
    | some d =>
      let d := d.zoneRead true chk
      let u := d.svc.drizzleZone * zoneUnits + d.svc.drizzleUnit
      let d := { d with svc.drizzleCredit := d.svc.drizzleCredit - 64000 }
      d.withRegions chk fun (d : Dev) =>
      match d.regionOf u with
      | some (i, c) =>
        let r := if d.svc.slotRegion = some i then (d, d.svc.slotList) else d.listSlots i c chk
        let d := { r.1 with svc.slotRegion := some i, svc.slotList := r.2 }
        let b := d.beginStep { d.newStep .drizzle .drizzle u 1 i .full 0 0 with slots := r.2 }
        let d := b.1.checkNodes b.2.1
        if c.mode == .full then d.addAccesses b.2.1 b.2.2 .gated else d
      | none =>
        let b := { d with svc.slotRegion := none }.beginStep (d.newStep .drizzle .drizzle u 1 0 .full 0 0)
        b.1.checkNodes b.2.1

def Dev.cmdStart (d : Dev) (q pos : Nat) (chk : List Chk) : Dev :=
  let d := d.accrue
  match d.scmd q pos with
  | none => d
  | some c =>
    let u := d.nextUnit c
    if !d.cmdReady c then d
    else if c.base + c.units ≤ u then (d.updScmd q pos fun y => { y with next := c.units }).svcCheck q pos
    else if c.kind == .unseal && decide (c.buf.length ≠ 4144) then d
    else
      let full := match d.regionOf u with | some (_, g) => g.mode == .full | none => false
      let stop (d : Dev) : Dev := d.svcStop q pos (Cpl.aborted 4)
      if !d.stepCovered c u then (d.zoneRead full chk).withRegions chk stop
      else if !d.turnOfService c.kind.turn then d
      else (d.zoneRead full chk).withRegions chk fun (d : Dev) => if d.stepCovered c u then d.cmdStep c u chk else stop d

/-- SERVICE_STEP_START. `chk`: what the check bits of the region entries and stream table slots that it reads show. -/
def execServiceStepStart (who : SvcWho) (chk : List Chk) (s : State) : Host.Outcome State Fault Refusal :=
  s.serve fun d =>
    match who with
    | .front i => d.frontStart i chk
    | .drizzle => d.drizzleStart chk
    | .cmd q pos => d.cmdStart q pos chk

/-! ### The end of a step -/

/-- A step's effect stands: hold released, progress counted. -/
def Dev.stepEnds (d : Dev) (s : Step) : Dev :=
  let d := d.dropStep s.id
  match s.who with
  | .front _ => d
  | .drizzle => { d with svc.drizzleUnit := d.svc.drizzleUnit + 1 }
  | .cmd q pos => ((d.updScmd q pos fun c => { c with prog := c.prog + s.units }).svcCheck q pos).readChunk q pos

/-- Write a byte string into a logical buffer from an offset: pieces of at most 32 bytes. -/
def fragPieces : Nat → List Frag → Nat → Bytes → List (Nat × Bytes)
  | 0, _, _, _ => []
  | fuel + 1, fs, o, b =>
    if b = [] then [] else
      match fragAt fs o with
      | none => []
      | some (a, left) => splitWrite (left + 1) a (b.take left) ++ fragPieces fuel fs (o + left) (b.drop left)

/-- The 32 header bytes of a chunk. -/
def chunkHeader (void : BitVec 64) (offset : Nat) (salt : Bytes) : Bytes :=
  leBytes 4 0x5A4E5331 ++ leBytes 2 1 ++ leBytes 2 0 ++ leBytes 8 void.toNat ++ leBytes 8 offset ++ slice salt 0 8

/-- Line `k` of the blocks of a step. -/
def Step.block (s : Step) (k : Nat) : Line := match s.blocks.find? fun p => p.1 = k with | some p => p.2 | none => 0

/-- The chunk a SEAL step has sealed. -/
def Dev.sealedChunk (d : Dev) (c : SCmd) (s : Step) : Bytes :=
  let t := d.transport s
  let h := chunkHeader s.void (4096 * (s.unit - c.base)) s.salt
  let ct := (List.range 64).flatMap fun k => lineBytes (s.block k)
  h ++ ct ++ natBlock (gcmTag t.1 (beBytes 12 t.2.toNat) h ct)

/-- Issue the writes of a sealed chunk. -/
def Dev.postChunk (d : Dev) (c : SCmd) (s : Step) : Dev :=
  match d.exec1 c.q (BitVec.ofNat 16 c.pos) with
  | none => d
  | some x =>
    let ps := fragPieces 4145 x.frags (4144 * (s.unit - c.base)) (d.sealedChunk c s)
    let d := (d.releaseHold s.id).updStep s.id fun t => { t with posted := true, wrLeft := ps.length, lane := none }
    forAll ps (fun p e => e.hostWrite p.1 p.2 c.q (.chunk s.id)) d

/-- A write of a chunk has ended (spec/13 R374). -/
def Dev.chunkAcked (d : Dev) (id : Nat) (err : Bool) : Dev :=
  let d := if err then d.raise bQmg 3 else d
  match d.step1 id with
  | none => d
  | some s =>
    let d := if err then (match s.who with
        | .cmd q pos => d.updScmd q pos fun c => { c with ending := c.ending.orElse fun _ => some (Cpl.internal 2) }
        | _ => d) else d
    let s := { s with wrLeft := s.wrLeft - 1, void := s.void, posted := true, reset := s.reset || err }
    let d := d.updStep id fun _ => s
    if s.wrLeft ≠ 0 then d
    else if s.reset then (match s.who with | .cmd q pos => (d.dropStep id).svcCheck q pos | _ => d.dropStep id)
    else d.stepEnds s

/-- A read of a chunk has ended; the header of a whole chunk is checked (spec/14 R399 step 1). -/
def Dev.chunkArrives (d : Dev) (id : Nat) (b : Bytes) (err : Bool) : Dev :=
  let d := if err then d.raise bQmg 2 else d
  match d.svc.cmds.find? fun c => c.fetch == some id with
  | none => d
  | some c =>
    let buf := c.buf ++ b
    let d := d.updScmd c.q c.pos fun y => { y with buf := buf, fetch := none }
    if err then d.svcStop c.q c.pos (Cpl.internal 1)
    else if buf.length < 4144 then d.readChunk c.q c.pos
    else if field buf 0 4 ≠ 0x5A4E5331 ∨ field buf 4 2 ≠ 1 ∨ field buf 16 8 ≠ 4096 * c.next then
      d.svcStop c.q c.pos (Cpl.invalid 0 40)
    else d

/-- The 64 hash passes of a chunk have ended: where its tag verifies its lines may be granted (spec/14 R399 steps 2, 3). -/
def Dev.chunkHashed (d : Dev) (s : Step) : Dev :=
  let t := d.transport s
  let ct := (s.buf.drop 32).take 4096
  if slice s.buf 4128 16 = natBlock (gcmTag t.1 (beBytes 12 t.2.toNat) (s.buf.take 32) ct) then
    { d.updStep s.id fun x => { x with buf := [], posted := true } with
      fab.accs := d.fab.accs.map fun (a : Access) =>
        if a.origin = .step s.id then { a with stage := .gated, pass := default } else a }
  else match s.who with
    | .cmd q pos => (d.abortStep s.id).svcStop q pos .unwrapFailed
    | _ => d

/-- An earlier access to the range of a hold remains at the gate. -/
def Dev.earlierIn (d : Dev) (h : Hold) : Bool :=
  d.fab.accs.any fun a => decide (h.lo ≤ a.line.toNat ∧ a.line.toNat ≤ h.hi) &&
    match a.place with | some p => decide (p < h.place) | none => false

/-- Level of the node whose slot covers `units` units. -/
def coverLevel (units : Nat) : Nat := 2 + ((List.range 7).find? fun j => 8 ^ j = units).getD 0

/-- Some node of levels `hi - 1` down to `lo` that is not cached lies on a retired channel. -/
def Dev.nodeAddrsRetired (d : Dev) (z n hi lo : Nat) : Bool :=
  (levelsDown hi lo).any fun v => !(d.find (nodeOf z n v)).isSome && d.retired (channelOf (d.nodeAddr (nodeOf z n v)))

/-- Steps 2 to 4 of spec/08 R229 for a reset unit, when the covering counter's node is at hand; else fetch it. A unit
under a poison mark, or whose node lies on a retired channel, is left as it is (log 24). -/
def Dev.resetUnit (d : Dev) (s : Step) (zenith : Bool) : Dev :=
  let z := s.unit / zoneUnits
  let n := 64 * (s.unit % zoneUnits)
  let l := coverLevel s.units
  let x := nodeOf z n l
  let p := d.probe z n l
  let r := d.countAnchor z n l
  let set (e : Dev) : Dev :=
    let child := nodeOf z n (l - 1)
    let e := (e.zenithRead zenith).dropSubtree child
    let e := { e with frs.marks := e.frs.marks.filter fun m => !under child m }
    (e.setSlot z n l (BitVec.ofNat 56 (0xFE * 2 ^ 48 + (e.zone z).ceil.toNat / 256))).stepEnds s
  if d.frs.marks.any fun m => under m x then d.stepEnds s
  else if p.1 = l then
    if !(match d.find x with | some k => (d.can1 k).dirty | none => false) && decide (d.budget ≤ d.dirtyCount) then d else set r
  else if isPoison p.2 then r.stepEnds s
  else if isZero p.2 then
    match Dev.synthPath z n p.2 (levelsDown p.1 l) r with
    | none => (match Dev.synthWaits z n p.2 (levelsDown p.1 l) d with | some y => d.wantSet y | none => d)
    | some e => set e
  else if (d.nodeAddrsRetired z n p.1 l) then r.stepEnds s
  else if s.nodes ≠ 0 then d
  else (r.updStep s.id fun t => { t with nodes := 1 }).startLadder z n l false false (.scrub s.id) |>.1

/-- SERVICE_STEP_DONE: every line of the step has been handled. -/
def execServiceStepDone (step : Nat) (zenith : Bool) (s : State) : Host.Outcome State Fault Refusal :=
  s.serve fun d =>
    match d.step1 step with
    | none => d
    | some t =>
      if t.kind == .front || decide (t.left ≠ 0) then d
      else if t.reset && t.kind == .sanitize then
        match d.fab.holds.find? fun h => h.step = t.id with
        | some h => if d.earlierIn h || d.ckptHold then d else d.resetUnit t zenith
        | none => d
      else if t.nodes ≠ 0 then d
      else match t.kind, t.who with
        | .seal, .cmd q pos =>
          if t.posted then d else match d.scmd q pos with | some c => d.postChunk c t | none => d
        | .unseal, _ => if t.posted then d.stepEnds t else d
        | _, _ => d.stepEnds t

/-! ### Errors of the key store (spec/11 R313) -/

/-- An uncorrectable error in a key entry: it is zeroised and turns EMPTY; a zone's key is cleared and its root marked.
SEAL and UNSEAL commands that lose their KEK end as if it had not been loaded (log 25). For a derived key and the DRBG working
state the spec states nothing but the source (log 123). -/
def Dev.keyLost (d : Dev) : KeyRef → Dev
  | .slot i => (d.overwrite (.slot i.toNat)).emptyKey (.slot i.toNat)
  | .reg i => (d.overwrite (.reg i.toNat)).emptyKey (.reg i.toNat)
  | .kek i =>
    let d := d.emptyKey (.kek i.toNat)
    let hit := d.svc.cmds.filter fun c => c.running && (c.kind == .seal || c.kind == .unseal) && decide (c.kek = i.toNat)
    forAll hit (fun (c : SCmd) e =>
      let gone := e.svc.steps.filter fun t => t.who == .cmd c.q c.pos
      (forAll gone (fun (t : Step) x => x.abortStep t.id) e).svcStop c.q c.pos .notFound) d
  | .zone z => (d.updZone z.toNat fun x => { x with key := none }).nodeError ⟨z.toNat, 8, 0⟩ 5
  | .derived _ => d
  | .drbg => d

def Dev.keyError (d : Dev) : Option (KeyRef × Bool) → Dev
  | none => d
  | some (r, u) => if u then (d.raise bKey 1).keyLost r else d.raise bKey 0

def execSvcCntClr (v : Word32) (s : State) : Host.Outcome State Fault Refusal :=
  s.core fun d => if bit v 0 then
    { d with svc.skipCnt := 0, svc.foreignCnt := 0, svc.findingCnt := 0, svc.unattrCnt := 0 } else d

end Machine
end Sys2Proof
end

