-- ==== Sys2Proof/Machine/Host.lean ====
section
/-! DEFINITION. The answers of host memory: acknowledgements of writes, data of reads, and the failure of all that is
outstanding (spec/02 R57-R62, spec/03 R94, spec/12 R331, R335, R341). -/

namespace Sys2Proof
namespace Machine

/-- A host write has ended: what follows for the operation it served. -/
def Dev.writeEnds (d : Dev) (w : HWr) (err : Bool) : Dev :=
  match w.why with
  | .completion q pos counts => d.cplAcked q pos counts err
  | .result q pos => d.resultAcked q pos err
  | .recordLow q pos => d.recAcked q pos false err
  | .recordHigh q pos => d.recAcked q pos true err
  | .message _ => d.msgAcked w.order err
  | .chunk id => d.chunkAcked id err

/-- Vector table entries have arrived; a failed read leaves the entries it carried unchanged (spec/12 R341). -/
def Dev.vectorsArrive (d : Dev) (first n : Nat) (b : Bytes) (err : Bool) : Dev :=
  let e := if err then d.raise bQmg 2
    else forAll (List.range n) (fun k e => e.loadVec (first + k) (slice b (16 * k) 16)) d
  { e with qmg.vecLoading := e.qmg.vecLoading - 1 }.sendPending

/-- The bytes a read asked for, out of the 32-byte units that arrived. -/
def HRd.data (r : HRd) : Bytes := slice r.got (r.addr % 32) r.len

/-- A host read has ended: what follows for the operation it served. -/
def Dev.readEnds (d : Dev) (r : HRd) : Dev :=
  match r.why with
  | .entries q pos n scan => d.entriesArrive q pos n scan r.data r.err
  | .table q pos => d.inputArrives q pos r.data r.err
  | .buffer q pos => d.inputArrives q pos r.data r.err
  | .vectors first n => d.vectorsArrive first n r.data r.err
  | .chunk id => d.chunkArrives id r.data r.err

/-- What waits for a tag, a credit or an acknowledgement goes on. -/
def Dev.hostGoesOn (d : Dev) : Dev :=
  let e := d.pumpVecs.pumpTables
  { e with key.cmds := e.key.cmds.filter e.keyOpen }

/-- HDMA_READ_DATA: 32 bytes of a read; its tag is free after the transfer with LAST. -/
def execHdmaReadData (tag : BitVec 8) (data : BitVec 256) (last err : Bool) (s : State) : Host.Outcome State Fault Refusal :=
  s.act fun d =>
    match d.qmg.rdOut.get tag.toNat with
    | none => d
    | some r =>
      let r := { r with got := r.got ++ leBytes 32 data.toNat, err := r.err || err }
      if !last then { d with qmg.rdOut := d.qmg.rdOut.put tag.toNat (some r) } else
        let d := { d with qmg.rdOut := d.qmg.rdOut.put tag.toNat none }
        if s.safe.active then d else (d.readEnds r).hostGoesOn

/-- Every outstanding transfer fails, and the credits of the two channels restart (spec/03 R94, spec/02 R35). The
domain no longer issues anything when this runs. -/
def Dev.hdmaFail (d : Dev) (squall : Bool) : Dev :=
  let ws := d.qmg.wrOut.filterMap (·.2)
  let rs := d.qmg.rdOut.filterMap (·.2)
  let d := { d with qmg.wrOut := [], qmg.rdOut := [], qmg.wrCredit := 0, qmg.rdCredit := 0 }
  if squall then d else
    (forAll rs (fun (r : HRd) e => e.readEnds { r with err := true }) (forAll ws (fun w e => e.writeEnds w true) d)).pumpDrains.pumpTables

end Machine
end Sys2Proof
end

