-- ==== Sys2Proof/Machine/Group.lean ====
section
/-! DEFINITION. Stripe groups: membership, coordinator, the frames of pool checkpoints, key retirement (spec/16
R441-R448). -/

namespace Sys2Proof
namespace Machine

def Dev.memberOf (d : Dev) (p : Nat) : Member := d.del.members.get p
def Dev.setMember (d : Dev) (p : Nat) (m : Member) : Dev := { d with del.members := d.del.members.put p m }

/-- Members of the engine's group: itself, and the pool IDs in state MEMBER or SILENT with that group (spec/16 R441). -/
def Dev.groupMembers (d : Dev) : List Nat :=
  (List.range 64).filter fun p => decide (p = d.del.poolId.toNat) ||
    ((d.memberOf p).st != .absent && (d.memberOf p).group == d.del.group)

/-- The coordinator: the lowest pool ID among the members in state MEMBER. -/
def Dev.coord (d : Dev) : Nat :=
  ((List.range 64).find? fun p => decide (p = d.del.poolId.toNat) ||
    ((d.memberOf p).st == .member && (d.memberOf p).group == d.del.group)).getD d.del.poolId.toNat
def Dev.isCoord (d : Dev) : Bool := decide (d.coord = d.del.poolId.toNat)

/-- In a group whose state admits pool checkpoints (spec/16 R443, R444). -/
def Dev.poolWhole (d : Dev) : Bool := d.del.inPool && d.del.group.isSome && d.del.gstate == .whole

def Dev.groupWord (d : Dev) : Nat := match d.del.group with | some g => g.toNat | none => 0

/-- GROUP, then a PCK with its low word first (spec/16 R438). -/
def Dev.pckWords (d : Dev) (q : BitVec 64) (fail : Bool) : List Word32 :=
  [pk [(0, d.groupWord), (8, flag fail)], q.extractLsb' 0 32, q.extractLsb' 32 32]

def Dev.toCoord (d : Dev) (typ : Nat) (pl : List Word32) : Dev := d.sendTo (BitVec.ofNat 6 d.coord) typ pl

/-- Links that are UP, bit n for link n. -/
def Dev.linksUp (d : Dev) : Nat :=
  (List.range 4).foldl (fun a n => if (d.link n).st = LinkSt.up then a + 2 ^ n else a) 0

/-- Post POOL_STATE (spec/13 R379). -/
def Dev.poolState (d : Dev) (code : Nat) : Dev :=
  d.event .del 0x0050 bDel .plain [(8, 1, code), (9, 1, d.groupWord), (10, 1, d.linksUp), (16, 8, d.del.ident.toNat)]

/-! ### Coordinated key retirement (spec/16 R447) -/

def reportWords (g i old new : Nat) : List Word32 := [pk [(0, g), (16, i)], pk [(0, old), (16, new)]]

/-- RETIRE: the entry leaves the retirement list. -/
def Dev.retireEntry (d : Dev) (i : Nat) (old : BitVec 16) : Dev :=
  { d with svc.retire := d.svc.retire.filter fun r => !(decide (r.1 = i) && r.2.1 == old) }

/-- A member has reported an index and OLD_KSLOT. -/
def Dev.reported (d : Dev) (i : Nat) (old : BitVec 16) (m : Nat) : Bool :=
  d.del.reports.any fun x => decide (x.1 = i) && x.2.1 == old && decide (x.2.2.2 = m)

/-- Once every member has reported an index and OLD_KSLOT, the coordinator broadcasts RETIRE. -/
def Dev.tally (d : Dev) (i : Nat) (old new : BitVec 16) : Dev :=
  if d.groupMembers.all fun m => d.reported i old m then
    ({ d with del.reports := d.del.reports.filter fun x => !(decide (x.1 = i) && x.2.1 == old) }.broadcast tRetire
      (reportWords d.groupWord i old.toNat new.toNat)).retireEntry i old
  else d

/-- The coordinator takes a REPORT. -/
def Dev.takeReport (d : Dev) (p i : Nat) (old new : BitVec 16) : Dev :=
  if d.del.gstate != .whole then d else
    { d with del.reports := if d.reported i old p then d.del.reports else d.del.reports ++ [(i, old, new, p)] }.tally i old new

/-- The tally once a member has left. -/
def Dev.tallyAll (d : Dev) : Dev :=
  if d.del.gstate != .whole || !d.isCoord then d
  else forAll d.del.reports (fun r e => if e.reported r.1 r.2.1 r.2.2.2 then e.tally r.1 r.2.1 r.2.2.1 else e) d

/-- Send a REPORT to the coordinator, or take it as the coordinator. -/
def Dev.sendReport (d : Dev) (i : Nat) (old new : BitVec 16) : Dev :=
  if !d.del.inPool || d.del.group.isNone then d
  else if d.isCoord then d.takeReport d.del.poolId.toNat i old new
  else d.toCoord tReport (reportWords d.groupWord i old.toNat new.toNat)

/-- REPORT again for every entry of the retirement list. -/
def Dev.reportAll (d : Dev) : Dev := forAll d.svc.retire (fun r e => e.sendReport r.1 r.2.1 r.2.2) d

/-! ### Reconciliation (spec/16 R448) -/

/-- A POOL_RECONCILE that waits ends. -/
def Dev.reconEnds (d : Dev) (c : Cpl) : Dev :=
  match d.del.recon with
  | none => d
  | some (q, pos) => { d with del.recon := none, del.reconSkip := [], del.reconAt := none }.finish q (BitVec.ofNat 16 pos) c

/-- The pool checkpoint Q, or this engine's part of it, has failed: it ends a POOL_RECONCILE that waits for it. One that was
under way before the command, or that the coordinator began for no RECON, does not (log 52). -/
def Dev.reconFails (d : Dev) (q : BitVec 64) (c : Cpl) : Dev := if d.del.reconSkip.contains q then d else d.reconEnds c

/-- This engine's part of the pool checkpoint Q has committed: a POOL_RECONCILE waits for RECON_DONE(Q) from now on. -/
def Dev.reconPart (d : Dev) (q : BitVec 64) : Dev :=
  if d.del.recon.isSome && !d.del.reconSkip.contains q then { d with del.reconAt := some d.mgt.tref } else d

/-- RECON_DONE(Q): the group is WHOLE, REPORTs go out again, and a waiting POOL_RECONCILE completes. -/
def Dev.reconciled (d : Dev) (q : BitVec 64) : Dev :=
  ({ d with del.gstate := .whole }.reportAll).reconEnds (Cpl.ok (q.extractLsb' 0 32))

/-! ### The coordinator's transaction (spec/16 R445) -/

/-- With DONE from every member the pool checkpoint is complete. -/
def Dev.doneAll (d : Dev) : Dev :=
  match d.del.txn with
  | none => d
  | some t =>
    if d.groupMembers.all fun m => t.done.contains m then
      let d := { d with del.txn := none }
      if !t.recon then d
      else if t.failed then d.reconEnds .split
      else (d.broadcast tReconDone (d.pckWords t.pck false)).reconciled t.pck
    else d

/-- A member's DONE at the coordinator. -/
def Dev.takeDone (d : Dev) (p : Nat) (q : BitVec 64) (fail : Bool) : Dev :=
  match d.del.txn with
  | none => d
  | some t =>
    if t.pck ≠ q then d
    else { d with del.txn := some { t with done := insSorted p t.done, failed := t.failed || fail } }.doneAll

/-- This engine coordinates the pool checkpoint Q. -/
def Dev.ownTxn (d : Dev) (q : BitVec 64) : Bool := match d.del.txn with | some t => t.pck == q | none => false

/-- DONE(Q) of this engine. -/
def Dev.sendDone (d : Dev) (q : BitVec 64) (fail : Bool) : Dev :=
  if d.ownTxn q then d.takeDone d.del.poolId.toNat q fail
  else if d.isCoord then d else d.toCoord tDone (d.pckWords q fail)

end Machine
end Sys2Proof
end

