-- ==== Sys2Proof/Machine/Persist.lean ====
section
/-! DEFINITION. Checkpoints, the sealed image, the Anvil, arming, restore and adoption (spec/10, spec/13 R365, R366,
R375, spec/16 R444-R446). -/

namespace Sys2Proof
namespace Machine

/-! ### Media commands that nothing waits for any more -/

/-- A purpose that has ended: an image row or an open-map entry past the last names nothing. -/
def MedWhy.over : MedWhy → MedWhy
  | .openMap _ => .openMap 8192
  | _ => .image Config.imageLines

/-- Commands with a purpose that has ended: those not issued are not issued, and the completion of the others has no
effect but the source that a failure raises (spec/10 R281). -/
def Dev.abandon (d : Dev) (p : MedWhy → Bool) : Dev :=
  let f (m : MCmd) : MCmd := if p m.why then { m with why := m.why.over } else m
  { d with med.ch := d.med.ch.mapAll fun _ (c : Channel) =>
      { c with waiting := c.waiting.filter fun m => !p m.why, out := c.out.map fun o => (o.1, o.2.map f) } }

def MedWhy.isImage : MedWhy → Bool | .image _ => true | _ => false
def MedWhy.isArm : MedWhy → Bool | .armMap _ => true | _ => false
def MedWhy.isOpen : MedWhy → Bool | .openMap _ => true | _ => false

/-- Whether the line's channel is retired. -/
def Dev.lineGone (d : Dev) (a : Nat) : Bool := d.retired (channelOf a)

/-- What a failed attempt leaves of the retries of a node read by a restore or an adoption (spec/15 R419): `k` is 0
before the first failure, then the retries left. -/
def nextTry (limit k : Nat) : Option Nat :=
  let r := if k = 0 then limit else k - 1
  if r = 0 then none else some r

/-! ### The sealed image (spec/10 R259-R261, R276; spec/16 R446) -/

/-- The state a zone is recorded with. -/
def Zone.recorded (x : Zone) : ZoneSt :=
  match x.st with
  | .formatting => x.prev
  | .sanitizing => if x.treeDone then .online else x.prev
  | st => st

/-- A zone's entry of the zone table. -/
def Dev.zoneEntry (d : Dev) (z : Nat) : Nat :=
  let x := d.zone z
  if d.frs.zoneLimit ≤ z ∨ x.recorded = .offline then 0 else x.root.toNat + x.recorded.code * 2 ^ 56

/-- The 12 pool bytes of a header; `pck` is the PCK it carries. -/
def Dev.poolBytes (d : Dev) (pck : BitVec 64) : Bytes :=
  if !d.del.inPool then List.replicate 12 0
  else leBytes 1 (1 + 2 * flag d.del.group.isSome) ++ leBytes 1 d.del.poolId.toNat ++ leBytes 1 d.groupWord ++ [0#8]
    ++ leBytes 8 pck.toNat

/-- A checkpoint that cuts as a pool checkpoint. -/
def Ckpt.pool (c : Ckpt) : Option (BitVec 64) := if c.localCut then none else c.pck

/-- A pool checkpoint runs on the engine (DEL_STAT.TXN): its own part of one, or as the coordinator until every DONE is
there (spec/16 R445 step 5). -/
def Dev.poolCkpt (d : Dev) : Bool := d.del.txn.isSome || d.per.ckpt.any fun c => c.pool.isSome

/-- The 64-byte header. -/
def Dev.imageHeader (d : Dev) (c : Ckpt) (iv : Bytes) : Bytes :=
  leBytes 4 0x5A4E4831 ++ leBytes 2 1 ++
    leBytes 2 (flag (c.trigger = 2) + 2 * flag (d.del.inPool && d.del.group.isSome && c.pool.isNone)) ++
    leBytes 8 c.seq.toNat ++ leBytes 8 d.frs.metaBase ++ leBytes 2 d.frs.zoneLimit ++
    leBytes 1 (d.rmpSet d.activeSet).fmt.toNat ++ [0#8] ++ leBytes 4 d.per.adoptCnt ++ leBytes 6 c.cutTime ++ leBytes 2 0 ++
    slice iv 0 12 ++ d.poolBytes (c.pool.getD d.del.pck)

/-- The 524,288 bytes that are sealed. -/
def Dev.imageBody (d : Dev) : Bytes :=
  let t := d.rmpSet d.activeSet
  ((List.range 8192).flatMap fun z => leBytes 8 (d.zoneEntry z)) ++
    ((List.range 8192).flatMap fun z => leBytes 8 (if z < d.frs.zoneLimit then (d.zone z).ceil.toNat else 0)) ++
    ((List.range 8192).flatMap fun z => match (d.zone z).key with
      | some k => if d.zoneEntry z = 0 then List.replicate 32 0 else keyBytes k
      | none => List.replicate 32 0) ++
    ((List.range 4096).flatMap fun i => leBytes 16 (((t.tab.get i).map regionBits).getD 0)) ++
    ((List.range 4096).flatMap fun i => rekeyBytes (d.rekey i))

def Dev.imageKey (d : Dev) : BitVec 256 := (d.key.derived.map (·.image)).getD 0

/-- The 524,416 bytes of an image copy. -/
def Dev.imageCopy (d : Dev) (c : Ckpt) (iv : Bytes) : Bytes :=
  let h := d.imageHeader c iv
  let r := gcmSeal d.imageKey (slice iv 0 12) h d.imageBody
  h ++ r.1 ++ natBlock r.2 ++ List.replicate 48 0

/-- Media line address of a row of a copy. -/
def Dev.imageLine (d : Dev) (copy row : Nat) : Nat := d.anchorLine (0x100000 * copy) + row

/-- The 16 words of an Anvil record (spec/10 R262). -/
def anvilRecord (copy : Nat) (seq : BitVec 64) (digest : Bytes) : List Word32 :=
  let b := leBytes 1 1 ++ leBytes 1 copy ++ leBytes 2 0 ++ leBytes 8 seq.toNat ++ slice digest 0 48
  ((List.range 15).map fun i => BitVec.ofNat 32 (field b (4 * i) 4)) ++ [crc32 b]

/-! ### Starting checkpoints (spec/10 R265, R266; spec/16 R444, R445) -/

/-- A checkpoint begins its pre-flush. -/
def Dev.startCkpt (d : Dev) (trigger : Nat) (cmds : List (Nat × Nat)) (pck : Option (BitVec 64)) : Dev :=
  let copy := match d.per.committed with | some k => 1 - k | none => 0
  let c : Ckpt := {
    phase := .preFlush, trigger := if cmds.isEmpty then trigger else 0, cmds := cmds
    want := (d.can.lines.filter fun p => p.2.dirty).map (·.1), copy := copy, seq := 0, cutTime := 0, left := 0, digest := []
    word := 0, pck := pck, cutSeen := false, heldAt := 0, held := false, localCut := false }
  { d with per.ckpt := some c }

/-- Nothing stops a checkpoint from starting: none runs, no adoption runs, no power-fail flush (spec/10 R265). -/
def Dev.ckptFree (d : Dev) : Bool := d.per.ckpt.isNone && d.per.adopt.isNone && !d.mgt.pfWarn && d.mgt.pfw == .none

/-- A member enters the pool checkpoint Q, with its waiting commands. -/
def Dev.joinPool (d : Dev) (trigger : Nat) (q : BitVec 64) : Dev :=
  { d with per.waiting := [], del.prepared := none }.startCkpt trigger d.per.waiting (some q)

/-- The coordinator starts a pool checkpoint. -/
def Dev.startPool (d : Dev) (trigger : Nat) (recon : Bool) : Dev :=
  let top := d.groupMembers.foldl (fun m p => max m (d.memberOf p).pck.toNat) (max d.del.proposal.toNat d.del.pck.toNat)
  let q : BitVec 64 := BitVec.ofNat 64 (top + 1)
  let t : Txn := ⟨q, [], [], false, false, d.mgt.tref, recon⟩
  let skip := if d.del.recon.isSome && !recon then d.del.reconSkip ++ [q] else d.del.reconSkip
  ({ d with del.proposal := q, del.ckreq := false, del.reconReq := false, del.txn := some t, del.reconSkip := skip }.broadcast tPrepare (d.pckWords q false)).joinPool trigger q

/-- GSTATE lets pool checkpoints run; in REUNITED only a reconciliation starts one (spec/16 R443, R448, log 54). -/
def Dev.poolAdmits (d : Dev) : Bool := d.del.gstate == .whole || d.del.gstate == .reunited

/-! ### The end of an adoption (spec/10 R278) -/

/-- The closing checkpoint has ended: the zone is ONLINE and the command completes. A MEASURE that runs is ended first (spec/11
R312). -/
def Dev.adoptEnds (d : Dev) (ok : Bool) : Dev :=
  match d.per.adopt with
  | none => d
  | some a =>
    if d.measuring then { d with per.adopt := some { a with outcome := some ok } } else
    let d := { d with per.adopt := none }.zoneTo a.zone .online cAdoptZone
    let p := BitVec.ofNat 16 a.pos
    if !ok then d.finish a.q p (Cpl.aborted 5) else
      let buf := match d.exec1 a.q p with | some x => num x.entry 16 8 | none => 0
      let b := leBytes 4 a.rewritten ++ leBytes 4 a.poisoned ++ leBytes 8 (d.zone a.zone).ceil.toNat
      d.finishWith a.q p (Cpl.ok (BitVec.ofNat 32 a.rewritten)) (if buf = 0 then [] else [(buf, b)])

/-! ### Adoption (spec/10 R277-R279) -/

def Dev.setAdopt (d : Dev) (a : Adopt) : Dev := { d with per.adopt := some a }

/-- The largest count among counters. -/
def topCount (m : Nat) (cs : List Ctr) : Nat := cs.foldl (fun m c => if isCount c then max m c.toNat else m) m

/-- Dirty lines of the zone that can still be written back, or are being. -/
def Dev.adoptLines (d : Dev) (z : Nat) : List Nat :=
  (d.can.lines.filter fun p => decide (p.2.node.zone = z) && p.2.valid && (p.2.wb || (p.2.dirty && !d.cannotWrite p.2))).map (·.1)

/-- The effects of a node error that an adoption places, but the mark (spec/10 R278, spec/08 R227). -/
def Dev.adoptError (d : Dev) (a : Adopt) (x : NodeId) (cause : Nat) : Dev × Adopt :=
  (d.nodeErrorCore x cause, { a with poisoned := a.poisoned + 1 })

/-- The metadata key K' drawn for an adoption. -/
def Dev.adoptKey (d : Dev) (a : Adopt) : BitVec 256 := bytesKey (d.drawnOf a.q a.pos)

/-- The walk has ended with a root. -/
def Dev.adoptWalked (d : Dev) (a : Adopt) (root : Ctr) : Dev :=
  { d with per.adopt := some { a with closing := true, stack := [], root := root } }

/-- Steps 6 to 8, in one step: until then a final image records the zone as it was (spec/10 R279, log 101). -/
def Dev.adoptCloses (d : Dev) (a : Adopt) : Dev :=
  let top := topCount a.top [a.root]
  let e := (d.updZone a.zone fun x => { x with root := a.root, ceil := BitVec.ofNat 56 top, key := some (d.adoptKey a) }).dropDrawn
    a.q a.pos
  { e with per.adoptCnt := satAdd 0xFFFFFFFF d.per.adoptCnt 1 }.startCkpt 3 [] none

/-- The node at the top of the stack has failed. -/
def Dev.adoptFails (d : Dev) (a : Adopt) (cause : Nat) : Dev :=
  match a.stack with
  | [] => d
  | h :: rest =>
    let r := d.adoptError a h.node cause
    match rest with
    | [] => r.1.adoptWalked r.2 (mark true (d.zone a.zone).root)
    | p :: ps =>
      let s := h.node.index % 8
      r.1.setAdopt { r.2 with stack := { p with ctr := p.ctr.set s (mark true (p.ctr.getD s 0)) } :: ps }

/-- Issue the read of a node, or none where its channel is retired. -/
def Dev.adoptReadNode (d : Dev) (x : NodeId) : Option Dev :=
  let a := d.nodeAddr x
  if d.lineGone a then none else some (d.media 2 a default (.adoptRead x))

/-- Rewrite the node at the top of the stack under the new key (step 5); it waits for its zone's open-map entry. -/
def Dev.adoptRewrite (d : Dev) (a : Adopt) (h : AdNode) (rest : List AdNode) : Dev :=
  let x := h.node
  let write (d : Dev) : Dev :=
    let beat := metaBeat (Node.line ⟨h.ctr, nodeMac (d.adoptKey a) x h.ctr h.parent⟩)
    ({ d with per.openSkip := without a.zone d.per.openSkip }.setAdopt { a with stack := { h with writing := true } :: rest }).media
      3 (d.nodeAddr x) beat (.adoptWrite x)
  if d.per.opened.contains a.zone || d.per.openSkip.contains a.zone then write d
  else if d.per.opening.contains a.zone then d
  else
    let e := d.openZone a.zone
    if e.per.openSkip.contains a.zone then write e else e

/-- One advance of the walk: the next child to visit, or the rewrite of the node. -/
def Dev.walkOn : Nat → Dev → Dev
  | 0, d => d
  | fuel + 1, d =>
    match d.per.adopt with
    | none => d
    | some a =>
      match a.stack with
      | [] => d
      | h :: rest =>
        if h.reading || h.writing then d
        else if h.slot < 8 && h.node.level ≠ 0 then
          let v := h.ctr.getD h.slot 0
          let a' := { a with stack := { h with slot := h.slot + 1 } :: rest }
          if isCount v && v ≠ 0 then
            let x : NodeId := ⟨a.zone, h.node.level - 1, 8 * h.node.index + h.slot⟩
            let a'' := { a' with stack := ⟨x, [], v, 0, 0, true, false⟩ :: a'.stack }
            match (d.setAdopt a'').adoptReadNode x with
            | some e => e
            | none => Dev.walkOn fuel (d.adoptFails a'' 6)
          else Dev.walkOn fuel (d.setAdopt a')
        else if d.lineGone (d.nodeAddr h.node) then Dev.walkOn fuel (d.adoptFails a 6)
        else d.adoptRewrite a h rest

/-- Step 3 with an L8 node that cannot be read. -/
def Dev.adoptNoTop (d : Dev) (a : Adopt) (cause : Nat) : Dev :=
  let root := (d.zone a.zone).root
  if isZero root then d.adoptWalked a 0 else
    let r := d.adoptError a ⟨a.zone, 8, 0⟩ cause
    r.1.adoptWalked r.2 (mark true root)

/-- Step 1: write back and invalidate the lines of the zone; then read the L8 node. -/
def Dev.adoptFlush (d : Dev) (a : Adopt) : Dev :=
  let ks := d.adoptLines a.zone
  if (d.zone a.zone).leaving then d
  else if !ks.isEmpty then
    forAll ks (fun k e => if (e.can1 k).dirty then e.wantLine k else e) d
  else
    let x : NodeId := ⟨a.zone, 8, 0⟩
    let d := d.dropSubtree x
    let d := { d with frs.marks := d.frs.marks.filter fun m => m.zone ≠ a.zone }
    let a := { a with started := true, stack := [⟨x, [], 1, 0, 0, true, false⟩] }
    match (d.setAdopt a).adoptReadNode x with
    | some e => e
    | none => d.adoptNoTop a 6

/-- The adoption goes on; a checkpoint hold keeps it waiting (spec/10 R267). Its closing checkpoint starts once no other
runs. -/
def Dev.pumpAdopt (d : Dev) : Dev :=
  match d.per.adopt with
  | none => d
  | some a =>
    if a.outcome.isSome then d.adoptEnds (a.outcome == some true) else
    if d.ckptHold then d else
    let d := if !a.started then d.adoptFlush a else d
    let d := Dev.walkOn 200 d
    match d.per.adopt with
    | some a =>
      if a.closing && d.per.ckpt.isNone && !d.mgt.pfWarn && d.mgt.pfw == .none then d.adoptCloses a else d
    | none => d

/-! ### What follows a checkpoint -/

/-- A checkpoint, a pool checkpoint or an adoption has ended: the starts that waited for it, an adoption's closing checkpoint
before the others (spec/10 R278). A pool checkpoint whose DONEs
are not all there keeps the coordinator from starting another (log 122). -/
def Dev.ckptNext (d : Dev) : Dev :=
  let d := d.pumpAdopt
  if !d.ckptFree then d else
    match d.del.prepared.filter fun _ => d.poolAdmits with
    | some q => d.joinPool 4 q
    | none =>
      let d := { d with del.prepared := none }
      if d.del.reconReq && d.per.armed && d.isCoord && d.poolAdmits && d.del.txn.isNone then d.startPool 4 true
      else if d.poolWhole then
        if d.isCoord && d.del.txn.isNone && (d.del.ckreq || !d.per.waiting.isEmpty) then d.startPool 4 false else d
      else if d.per.waiting.isEmpty then d
      else { d with per.waiting := [] }.startCkpt 0 d.per.waiting none

/-! ### Commit and failure (spec/10 R266, R269, R270; spec/16 R445, R447, R448) -/

/-- CHECKPOINT_DONE or CHECKPOINT_FAILED, for a checkpoint that completes no command. -/
def Dev.ckptEvent (d : Dev) (c : Ckpt) (cause : Option Nat) : Dev :=
  match cause with
  | none => d.event .per 0x0020 bPer .plain [(8, 8, c.seq.toNat), (16, 1, c.trigger), (20, 6, c.cutTime)]
  | some k => d.event .per 0x0021 bPer .plain [(8, 8, c.seq.toNat), (16, 1, c.trigger), (17, 1, k)]

def Dev.finishAll (d : Dev) (xs : List (Nat × Nat)) (c : Cpl) : Dev :=
  forAll xs (fun p e => e.finish p.1 (BitVec.ofNat 16 p.2) c) d

/-- The checkpoint fails: its hold ends and it writes nothing more. -/
def Dev.ckptFail (d : Dev) (cause : Nat) : Dev :=
  match d.per.ckpt with
  | none => d
  | some c =>
    let d := d.abandon MedWhy.isImage
    let d := { d with per.ckpt := none, per.failCnt := satAdd 0xFFFFFFFF d.per.failCnt 1, per.timerAt := d.mgt.tref,
                      per.anvil := d.per.anvil.map fun (x : Anv) => { x with stale := true } }
    let d := if c.cmds.isEmpty then d.ckptEvent c (some cause) else d.finishAll c.cmds (Cpl.aborted cause)
    let d := match c.pck with
      | some q => let d := d.reconFails q (Cpl.aborted cause); if c.localCut then d else d.sendDone q true
      | none => d
    (if c.trigger = 3 then d.adoptEnds false else d).ckptNext

/-- The record is in the Anvil. -/
def Dev.ckptCommit (d : Dev) (c : Ckpt) : Dev :=
  let d := { d with per.ckpt := none, per.committed := some c.copy, per.seq := c.seq, per.ckptTime := BitVec.ofNat 48 c.cutTime,
                    per.ckptCnt := satAdd 0xFFFFFFFF d.per.ckptCnt 1, per.timerAt := d.mgt.tref }
  let d := (if c.cmds.isEmpty then d.ckptEvent c none else d.finishAll c.cmds (Cpl.ok (c.seq.extractLsb' 0 32))).raise bPer 5
  let d := match c.pool with
    | some q =>
      let d := (({ d with del.pck := q }.reconPart q).sendDone q false).reportAll
      if d.poolAdmits then d else d.reconFails q .split
    | none => match c.pck with
      | some q => d.reconFails q .split
      | none => d
  (if c.trigger = 3 then d.adoptEnds true else d).ckptNext

/-! ### The cut (spec/10 R266, R267, R271) -/

/-- A write that changed a counter in bypass and whose leaf is not persistent yet. -/
def Dev.bypassWrite (d : Dev) : Bool :=
  !d.can.en && d.fab.accs.any fun a => a.mode == .full &&
    (a.stage == .waitLeaf || ((a.stage == .lane || a.stage == .writing) &&
      (a.pass == .write || a.pass == .partialWrite || a.pass == .rekeyWrite || a.pass == .unseal)))

/-- A rewrite of an adoption, which is a write-back (spec/10 R263, R278), is in flight. -/
def Dev.adoptWriting (d : Dev) : Bool := d.per.adopt.any fun a => a.stack.any fun h => h.writing

/-- Every dirty line left is STUCK or blocked, no write-back is in flight, and what the hold lets complete has. -/
def Dev.cutReady (d : Dev) : Bool := !d.flushing && !d.adoptWriting && decide (d.frontSteps = 0) && !d.bypassWrite

/-- Issue the lines of the copy; the first that lies on a retired channel fails the checkpoint. -/
def Dev.issueImage (img : Bytes) (copy : Nat) : List Nat → Dev → Dev
  | [], d => d
  | r :: rs, d =>
    let a := d.imageLine copy r
    if d.lineGone a then (d.raise bPer 0).ckptFail 1
    else Dev.issueImage img copy rs (d.media 3 a (metaBeat (bytesLine (slice img (64 * r) 64))) (.image r))

/-- The cut, in one step; it waits where the draw of the IV waits. -/
def Dev.cutNow (d : Dev) (c : Ckpt) : Dev :=
  match d.noteDue.draw 12 false with
  | .got iv d =>
    let c := { c with seq := d.per.epoch, cutTime := d.stamp, phase := .image, left := Config.imageLines }
    let img := d.imageCopy c iv
    let d := d.abandon MedWhy.isOpen
    let d := { d with per.epoch := d.per.epoch + 1, per.opened := [], per.opening := [], per.openSkip := [],
                      per.ckpt := some { c with digest := sha384 img } }
    Dev.issueImage img c.copy (List.range Config.imageLines) d
  | _ => { d.noteDue with per.ckpt := some c }

/-- With HELD(Q) from every member the coordinator broadcasts CUT(Q). -/
def Dev.heldAll (d : Dev) : Dev :=
  match d.del.txn with
  | none => d
  | some t =>
    if !t.cut && d.groupMembers.all fun m => t.held.contains m then
      let d := { d with del.txn := some { t with cut := true } }.broadcast tCut (d.pckWords t.pck false)
      { d with per.ckpt := d.per.ckpt.map fun (c : Ckpt) => if c.pck = some t.pck then { c with cutSeen := true } else c }
    else d

/-- The coordinator takes HELD(Q). -/
def Dev.takeHeld (d : Dev) (p : Nat) (q : BitVec 64) : Dev :=
  match d.del.txn with
  | none => d
  | some t =>
    if t.pck ≠ q || t.cut then d
    else { d with del.txn := some { t with held := insSorted p t.held } }.heldAll

/-- HELD(Q) of this engine. -/
def Dev.sendHeld (d : Dev) (q : BitVec 64) : Dev :=
  if d.ownTxn q then d.takeHeld d.del.poolId.toNat q else d.toCoord tHeld (d.pckWords q false)

/-- The running checkpoint is ready to cut: a pool checkpoint first reports HELD and waits for CUT. -/
def Dev.ckptCut (d : Dev) (c : Ckpt) : Dev :=
  match c.pool with
  | none => d.cutNow c
  | some q =>
    if c.cutSeen then d.cutNow c
    else if c.held then d
    else
      let d := { d with per.ckpt := some { c with held := true, heldAt := d.mgt.tref } }.sendHeld q
      match d.per.ckpt with
      | some c => if c.cutSeen then d.cutNow c else d
      | none => d

/-- Admitted writes that have not completed (spec/10 R271). -/
def Dev.writesLeft (d : Dev) : Bool := d.fab.accs.any fun a => a.isWrite && a.inFlight && a.stage != .done

/-- The power-fail flush has flushed, and its checkpoint has not begun. -/
def Dev.pfCutDue (d : Dev) : Bool :=
  d.mgt.pfw == .flushing && d.per.armed && d.per.ckpt.isNone && !d.per.pfCut && !d.writesLeft && decide (d.frontSteps = 0) && !d.flushing && !d.adoptWriting

def execHold (s : State) : Host.Outcome State Fault Refusal :=
  s.serve fun d =>
    match d.per.ckpt with
    | none => d
    | some c =>
      if c.phase == .preFlush && c.want.all (fun k => !(d.can1 k).dirty || d.cannotWrite (d.can1 k))
      then { d with per.ckpt := some { c with phase := .hold } } else d

/-! ### The Anvil (spec/02 R67, R68; spec/10 R262, R274) -/

/-- The next access: direction, word address, data. -/
def Dev.anvilWants (d : Dev) : Option (Bool × Nat × Word32) :=
  match d.per.restore with
  | some r => if r.stage == .records && decide (r.words.length < 32) then some (false, r.words.length, 0) else none
  | none =>
    match d.per.ckpt with
    | some c =>
      if c.phase == .anvil && decide (c.word < 16)
      then some (true, 16 * c.copy + c.word, (anvilRecord c.copy c.seq c.digest).getD c.word 0) else none
    | none => none

/-- A word of a record has been read. -/
def Dev.recordWord (d : Dev) (w : Option Word32) : Dev :=
  { d with per.restore := d.per.restore.map fun (r : Restore) => { r with words := r.words ++ [w] } }

/-- What an access that has ended leaves: none for a failed one, which raises PER_ANVIL_FAIL (spec/10 R281). -/
def Dev.anvilEnds (d : Dev) (write : Bool) (ans : Option Word32) : Dev :=
  let d := if ans.isNone then d.raise bPer 1 else d
  if !write then d.recordWord ans
  else if ans.isNone then d.ckptFail 2
  else { d with per.ckpt := d.per.ckpt.map fun (c : Ckpt) => { c with word := c.word + 1 } }

/-- Issue the next access; while the ANV domain is in reset or without its clock it fails at once. -/
def Dev.pumpAnvil : Nat → Dev → Dev
  | 0, d => d
  | fuel + 1, d =>
    if d.per.anvil.isSome then d else
      match d.anvilWants with
      | none => d
      | some (w, a, v) =>
        if d.up domAnv then { d with per.anvil := some ⟨w, a, v, d.mgt.tref, false⟩ }.emit (.anvil w a v)
        else Dev.pumpAnvil fuel (d.anvilEnds w none)

/-! ### Arming (spec/10 R264; spec/11 R490) -/

/-- Issue the 1,024 open-map writes; the first that lies on a retired channel fails the arming. -/
def Dev.issueMap : List Nat → Dev → Dev
  | [], d => d
  | r :: rs, d =>
    let a := d.anchorLine 0x200000 + r
    if d.lineGone a then { (d.abandon MedWhy.isArm).raise bPer 0 with per.armBad := true }
    else Dev.issueMap rs (d.media 3 a (metaBeat 0) (.armMap r))

def Dev.startArm (d : Dev) : Dev :=
  Dev.issueMap (List.range 1024)
    { d with per.openMap := [], per.epoch := 1, per.opened := [], per.opening := [], per.openSkip := [],
             per.arming := some 1024, per.armBad := false, per.armHeld := false }

/-- Checkpointing is armed. -/
def Dev.arm (d : Dev) : Dev :=
  ({ d with per.armed := true, per.arming := none, per.timerAt := d.mgt.tref }.raise bPer 7).ckptNext

/-- An open-map initialisation write has ended. -/
def Dev.armWritten (d : Dev) (ok : Bool) : Dev :=
  if d.per.armBad then (if ok then d else d.raise bPer 0)
  else if ok then { d with per.arming := d.per.arming.map (· - 1) }
  else { (d.abandon MedWhy.isArm).raise bPer 0 with per.armBad := true }

/-! ### Restore (spec/10 R274-R276, spec/13 R365) -/

/-- Record k as bytes, when its 16 words were read and it is valid (spec/10 R262). -/
def validRecord (words : List (Option Word32)) (k : Nat) : Option Bytes :=
  let ws := (words.drop (16 * k)).take 16
  if ws.any (·.isNone) then none else
    let b := ws.flatMap fun w => leBytes 4 (w.getD 0).toNat
    if field b 60 4 = (crc32 (slice b 0 60)).toNat ∧ field b 0 1 = 1 ∧ field b 1 1 = k then some b else none

def recordSeq (b : Bytes) : Nat := field b 4 8

/-- The bytes of the copy that has been read, when every line could be. -/
def Restore.copy (r : Restore) : Option Bytes :=
  if (List.range Config.imageLines).all fun i => (r.rows.get i).isSome
  then some ((List.range Config.imageLines).flatMap fun i => lineBytes ((r.rows.get i).getD 0)) else none

/-- The header and the plaintext body of a copy that passes the tests of R274 step 2 against its record. -/
def Dev.openImage (d : Dev) (rec img : Bytes) : Option (Bytes × Bytes) :=
  let h := img.take 64
  let ct := (img.drop 64).take 524288
  let iv := slice h 40 12
  if sha384 img = slice rec 12 48 ∧ field h 0 4 = 0x5A4E4831 ∧ field h 4 2 = 1 ∧ field h 8 8 = recordSeq rec ∧
      slice img 524352 16 = natBlock (gcmTag d.imageKey iv h ct)
  then some (h, (gcmSeal d.imageKey iv h ct).1) else none

/-- The completion of ANCHOR_RESTORE with its result buffer. -/
def Dev.restoreEnds (d : Dev) (c : Cpl) (loaded : Bool) : Dev :=
  match d.per.restore with
  | none => d
  | some r =>
    let p := BitVec.ofNat 16 r.pos
    let buf := match d.exec1 r.q p with | some x => num x.entry 16 8 | none => 0
    let count (st : ZoneSt) := (Tab.which d.frs.zones fun z => z.st == st).length
    let seq := if loaded then r.seq.toNat else 0
    let b := leBytes 8 seq ++ leBytes 1 (flag (loaded && r.fallback)) ++ leBytes 1 r.valid ++ leBytes 2 0 ++
      leBytes 2 (count .online) ++ leBytes 2 (count .quarantined) ++ leBytes 4 (if loaded then d.per.adoptCnt else 0) ++
      leBytes 2 (if loaded then d.frs.zoneLimit else 0) ++ List.replicate 10 0
    { d with per.restore := none }.finishWith r.q p c (if buf = 0 then [] else [(buf, b)])

/-- A restore that accepted an image ends: ARMED. -/
def Dev.restored (d : Dev) (r : Restore) : Dev :=
  ((if r.fallback then d.raise bPer 3 else d).arm).restoreEnds
    (Cpl.okx (r.seq.extractLsb' 0 32) (BitVec.ofNat 8 (flag r.fallback))) true

/-- Every zone is decided and no L8 check is outstanding. -/
def Dev.restoreCheck (d : Dev) : Dev :=
  match d.per.restore with
  | some r => if r.stage == .zones && r.checks.isEmpty then d.restored r else d
  | none => d

def Dev.setChecks (d : Dev) (f : List (Nat × Nat) → List (Nat × Nat)) : Dev :=
  { d with per.restore := d.per.restore.map fun (r : Restore) => { r with checks := f r.checks } }

/-- The decision on one zone below Z; `prev` holds the state in the image (spec/10 R276). -/
def Dev.decideZone (s : Nat) (z : Nat) (d : Dev) : Dev :=
  let x := d.zone z
  let turn (st : ZoneSt) := d.zoneTo z st cAnchorRestore
  match x.prev with
  | .quarantined => turn .quarantined
  | .online =>
    if s < (d.per.openMap.get z).toNat then turn .quarantined
    else if isPoison x.root then turn .online
    else if x.key.isNone then turn .quarantined
    else if isZero x.root then turn .online
    else
      let a := d.nodeAddr ⟨z, 8, 0⟩
      if d.lineGone a then turn .quarantined
      else (d.setChecks fun l => l ++ [(z, 0)]).media 2 a default (.restoreL8 z)
  | _ => d

/-- The open map has been read: every zone is decided. -/
def Dev.decideZones (d : Dev) (r : Restore) : Dev :=
  let d := { d with per.restore := some { r with stage := .zones } }
  (forAll (List.range d.frs.zoneLimit) (Dev.decideZone r.seq.toNat) d).restoreCheck

/-- An L8 node has been read. True when it passed on a retry. -/
def Dev.restoreL8 (d : Dev) (z : Nat) (b : Beat) (ecc : BitVec 2) : Dev × Bool :=
  match d.per.restore.bind fun r => r.checks.find? fun c => c.1 = z with
  | none => (d, false)
  | some (_, k) =>
    let x := lineNode b.data
    let v := d.zone z
    let drop (e : Dev) := e.setChecks fun l => l.filter fun c => c.1 ≠ z
    let bad := ((drop d).zoneTo z .quarantined cAnchorRestore).restoreCheck
    if 2 ≤ ecc.toNat || v.key.isNone then (bad, false)
    else if nodeMac (v.key.getD 0) ⟨z, 8, 0⟩ x.ctr v.root = x.mac then
      let e := (drop d).zoneTo z .online cAnchorRestore
      (((e.fillNode ⟨z, 8, 0⟩ x.ctr x.mac).getD e).restoreCheck, k ≠ 0)
    else match nextTry d.med.retryLimit k with
      | none => (bad, false)
      | some k' =>
        ((d.setChecks fun l => l.map fun c => if c.1 = z then (z, k') else c).media 2 (d.nodeAddr ⟨z, 8, 0⟩) default (.restoreL8 z), false)

/-- The channel of an L8 node has been retired. -/
def Dev.restoreL8Gone (d : Dev) (z : Nat) : Dev :=
  (((d.setChecks fun l => l.filter fun c => c.1 ≠ z).zoneTo z .quarantined cAnchorRestore)).restoreCheck

/-- The rekey part that 16 bytes hold. -/
def rekeyOf (v : Nat) : Rekey :=
  if v % 4 = 1 ∨ v % 4 = 2 then
    ⟨if v % 4 = 1 then .active else .done, bv16 (v / 2 ^ 16), bv16 (v / 2 ^ 32), v / 2 ^ 48 % 2 ^ 34⟩ else default

/-- The zone that an image gives: its state waits in `prev`. -/
def imageZone (z : Nat) (body : Bytes) : Zone :=
  let v := field body (8 * z) 8
  let code := v / 2 ^ 56 % 8
  let k := bytesKey (slice body (131072 + 32 * z) 32)
  { (default : Zone) with
    root := BitVec.ofNat 56 v, ceil := BitVec.ofNat 56 (field body (65536 + 8 * z) 8)
    key := if k = 0 then none else some k
    prev := if code = 1 then .online else if code = 2 then .quarantined else .offline }

/-- Load an accepted copy (spec/10 R274 step 4, spec/06 R165, spec/16 R446). Region entries are bits [127:0] of spec/06
R152, whatever the set's format (spec/10 R259), which is that of format 2. -/
def Dev.loadImage (d : Dev) (h body : Bytes) (copy : Nat) : Dev :=
  let fmt := field h 26 1
  let zs := (List.range (field h 24 2)).map fun z => (z, imageZone z body)
  let entry (i : Nat) := field body (393216 + 16 * i) 16
  let part (i : Nat) := rekeyOf (field body (458752 + 16 * i) 16)
  let regions := (List.range 4096).filterMap fun i =>
    if entryValid 2 (entry i) then some (i, some (entryCfg 2 (entry i))) else none
  let rekeys := (List.range 4096).filterMap fun i => if (part i).st = .idle then none else some (i, part i)
  let fronts := (List.range 4096).filterMap fun i =>
    if (part i).st = .active then some (i, (⟨0, 64000, false⟩ : Front)) else none
  { d with
    frs.metaBase := field h 16 8 % 2 ^ 47, frs.zoneLimit := field h 24 2
    frs.zones := zs.filter fun p => p.2 ≠ default
    rmp.setA := { tab := regions, stale := [], fmt := BitVec.ofNat 2 fmt, clearing := false }
    rmp.setB := { d.rmp.setB with tab := [], stale := [] }
    rmp.rekey := rekeys, rmp.gen := 1, svc.fronts := fronts
    per.adoptCnt := field h 28 4, per.seq := BitVec.ofNat 64 (field h 8 8), per.epoch := BitVec.ofNat 64 (field h 8 8 + 1)
    per.opened := [], per.opening := [], per.openSkip := [], per.committed := some copy
    del.pck := BitVec.ofNat 64 (field h 56 8) }

/-- Read rows of media lines; false for a row on a retired channel, which counts as read without success. -/
def Dev.readRows (a : Nat) (why : Nat → MedWhy) (rows : List Nat) (d : Dev) : Dev × Nat :=
  rows.foldl (fun (r : Dev × Nat) i =>
    if r.1.lineGone (a + i) then (r.1, r.2) else (r.1.media 2 (a + i) default (why i), r.2 + 1)) (d, 0)

def Dev.setRestore (d : Dev) (r : Restore) : Dev := { d with per.restore := some r }

/-- Read the open map (spec/10 R274 step 4). -/
def Dev.readMap (d : Dev) (r : Restore) : Dev :=
  let x := Dev.readRows (d.anchorLine 0x200000) .restoreMap (List.range 1024) { d with per.openMap := [] }
  let gone := (List.range 1024).filter fun i => d.lineGone (d.anchorLine 0x200000 + i)
  let e := { x.1 with per.openMap := (gone.flatMap fun i => (List.range 8).map fun k => 8 * i + k).foldl
                        (fun (t : Tab (BitVec 64)) z => t.put z (BitVec.allOnes 64)) x.1.per.openMap }
  let r := { r with stage := .openMap, rows := [], left := x.2 }
  if x.2 = 0 then e.decideZones r else e.setRestore r

/-- The copy named by the record being tried has been read. -/
def Dev.checkCopy (d : Dev) (r : Restore) : Option Dev :=
  match r.tries with
  | [] => none
  | (k, seq) :: _ =>
    match validRecord r.words k, r.copy with
    | some rec, some img =>
      (d.openImage rec img).map fun x => (d.loadImage x.1 x.2 k).readMap { r with seq := BitVec.ofNat 64 seq, rows := [] }
    | _, _ => none

/-- Try the next valid record; with none left decide the outcome (spec/10 R275). -/
def Dev.tryRecords : Nat → Restore → Dev → Dev
  | 0, r, d => d.setRestore r
  | fuel + 1, r, d =>
    match r.tries with
    | [] =>
      if r.valid = 0 then (d.setRestore { r with stage := .arming }).startArm
      else ((d.raise bPer 4).setRestore r).restoreEnds .quarantined false
    | (k, _) :: rest =>
      let x := Dev.readRows (d.imageLine k 0) .restoreImage (List.range Config.imageLines) d
      let r := { r with stage := .image, rows := [], left := x.2 }
      if x.2 = 0 then Dev.tryRecords fuel { r with tries := rest, fallback := true } x.1 else x.1.setRestore r

/-- The two records have been read. -/
def Dev.recordsRead (d : Dev) (r : Restore) : Dev :=
  let ok := (List.range 2).filterMap fun k => (validRecord r.words k).map fun b => (k, recordSeq b)
  let tries := match ok with
    | [a, b] => if a.2 < b.2 then [b, a] else [a, b]
    | l => l
  Dev.tryRecords 3 { r with tries := tries, valid := ok.foldl (fun v p => v + 2 ^ p.1) 0 } d

/-- Go on with a restore that reads the records. -/
def Dev.pumpRestore (d : Dev) : Dev :=
  let d := Dev.pumpAnvil 33 d
  match d.per.restore with
  | some r => if r.stage == .records && decide (r.words.length = 32) then d.recordsRead r else d
  | none => d

/-- A row of an image copy has been read, or could not be. -/
def Dev.restoreRow (d : Dev) (row : Nat) (x : Option Line) : Dev :=
  match d.per.restore with
  | none => d
  | some r =>
    if r.stage != .image then d else
      let r := { r with rows := r.rows.put row x, left := r.left - 1 }
      if r.left ≠ 0 then d.setRestore r else
        match d.checkCopy r with
        | some e => e
        | none => Dev.tryRecords 3 { r with tries := r.tries.drop 1, fallback := true } d

/-- A line of the open map has been read, or could not be. -/
def Dev.restoreMapRow (d : Dev) (row : Nat) (x : Option Line) : Dev :=
  match d.per.restore with
  | none => d
  | some r =>
    let val (k : Nat) : BitVec 64 := match x with
      | some l => BitVec.ofNat 64 (field (lineBytes l) (8 * k) 8)
      | none => BitVec.allOnes 64
    let d := { d with per.openMap := (List.range 8).foldl (fun (t : Tab (BitVec 64)) k => t.put (8 * row + k) (val k)) d.per.openMap }
    let r := { r with left := r.left - 1 }
    if r.left = 0 then d.decideZones r else d.setRestore r

/-- A restore or an arming runs or waits (spec/11 R490). -/
def Dev.restoring (d : Dev) : Bool := d.per.restore.isSome || d.per.arming.isSome || d.per.armHeld

def execAnchorRestore (q : BitVec 14) (pos : BitVec 16) (zenith : Bool) (s : State) : Host.Outcome State Fault Refusal :=
  s.serve fun d => if d.measuring then d else d.command q.toNat pos cAnchorRestore noRules fun _ d =>
    let d := d.zenithRead zenith
    if d.per.armed || d.restoring || d.frs.zones.any (fun p => p.2.st != .offline) then d.finish q.toNat pos stateKind
    else if d.fab.portEn ≠ 0 then d.finish q.toNat pos .busy
    else
      let up := d.key.drbg.instantiated
      let st := if up then RsStage.records else RsStage.waiting
      let d := (d.running q.toNat pos).setRestore ⟨q.toNat, pos.toNat, st, [], [], 0, false, [], 0, 0, []⟩
      if !up && d.mgt.pfWarn then d.restoreEnds (Cpl.aborted 3) false else d.pumpRestore

/-- A restore changes what MEASURE measures (spec/11 R312). -/
def Dev.restoreRuns (d : Dev) : Bool := d.per.restore.any fun r => r.stage != .waiting

/-- The DRBG has been instantiated: what waited for it (spec/11 R490); a restore that has not begun waits for a MEASURE that runs
(spec/11 R312). -/
def Dev.drbgUp (d : Dev) : Dev :=
  let d := if d.per.armHeld then d.startArm else d
  match d.per.restore with
  | some r => if r.stage == .waiting && !d.measuring then (d.setRestore { r with stage := .records }).pumpRestore else d
  | none => d

def execPerArm (v : Word32) (s : State) : Host.Outcome State Fault Refusal :=
  s.core fun d =>
    if !bit v 0 then d
    else if d.per.armed || d.restoring then { d with per.cfgIgn := true }
    else if !d.key.drbg.instantiated then { d with per.armHeld := true }
    else d.startArm

/-- ARMING_DONE: every open-map write has reported, or one has failed. -/
def execArmingDone (s : State) : Host.Outcome State Fault Refusal :=
  s.serve fun d =>
    match d.per.arming with
    | none => d
    | some n =>
      if d.per.armBad then
        { d with per.arming := none, per.armBad := false, per.armFail := true }.restoreEnds (Cpl.aborted 1) false
      else if n = 0 then d.arm.restoreEnds .notFound false
      else d

/-- The access outstanding has ended; none, or one that has failed. In the safe state it completes, and nothing goes on (spec/15
R423). What an abandoned record still had out raises its source too (spec/10 R281). -/
def Dev.anvilAnswer (d : Dev) (a : Anv) (ans : Option Word32) (squall : Bool) : Dev :=
  let d := { d with per.anvil := none }
  let e := if a.stale || squall then (if ans.isNone then d.raise bPer 1 else d) else d.anvilEnds a.write ans
  if squall then e else e.pumpRestore.pumpAdopt

def execAnvilResponse (rdata : Word32) (err : Bool) (s : State) : Host.Outcome State Fault Refusal :=
  s.act fun d =>
    match d.per.anvil with
    | none => d
    | some a => d.anvilAnswer a (if err then none else some rdata) s.safe.active

/-- ANVIL_TIMEOUT: no response within 50 ms. -/
def execAnvilTimeout (s : State) : Host.Outcome State Fault Refusal :=
  s.act fun d =>
    match d.per.anvil with
    | none => d
    | some a => if d.passed a.since 50000 then d.anvilAnswer a none s.safe.active else d

/-! ### Checkpoint rows -/

def execCheckpoint (q : BitVec 14) (pos : BitVec 16) (s : State) : Host.Outcome State Fault Refusal :=
  s.serve fun d => d.command q.toNat pos cCheckpoint noRules fun _ d =>
    if !d.per.armed then d.finish q.toNat pos .busy
    else if d.mgt.pfWarn then d.finish q.toNat pos (Cpl.aborted 3)
    else
      let d := { d.running q.toNat pos with per.waiting := d.per.waiting ++ [(q.toNat, pos.toNat)] }
      let d := if d.poolWhole && !d.isCoord then d.toCoord tCkreq (d.pckWords 0 false |>.take 1) else d
      d.ckptNext

/-- PERIODIC_CHECKPOINT: the timer has run out, and neither a checkpoint nor an adoption runs. -/
def execPeriodicCheckpoint (s : State) : Host.Outcome State Fault Refusal :=
  s.serve fun d =>
    if !d.per.armed || !d.ckptFree || !d.passed d.per.timerAt (d.per.periodMin * 60000000) then d
    else if !d.poolWhole then d.startCkpt 1 [] none
    else if d.isCoord && d.del.txn.isNone then d.startPool 1 false
    else d

/-- An image line write has ended; one that has been abandoned raises its source when it fails (spec/10 R281). -/
def Dev.imageWritten (d : Dev) (row : Nat) (ok : Bool) : Dev :=
  if Config.imageLines ≤ row || !d.per.ckpt.any (fun c => c.phase == .image) then (if ok then d else d.raise bPer 0)
  else if ok then { d with per.ckpt := d.per.ckpt.map fun (c : Ckpt) => { c with left := c.left - 1 } }
  else (d.raise bPer 0).ckptFail 1

/-- An open-map entry write has ended (spec/10 R263). -/
def Dev.openWritten (d : Dev) (z : Nat) (ok : Bool) : Dev :=
  if !d.per.opening.contains z then (if ok then d else d.raise bPer 2) else
    let d := { d with per.opening := without z d.per.opening }
    if ok then { d with per.opened := insSorted z d.per.opened }
    else { d.raise bPer 2 with per.openSkip := insSorted z d.per.openSkip }

/-! ### The reads and rewrites of a walk, and the rows of ADOPT_ZONE (spec/10 R277, R278) -/

/-- A node of the walk has been read. True when it passed on a retry. -/
def Dev.adoptNode (d : Dev) (x : NodeId) (b : Beat) (ecc : BitVec 2) : Dev × Bool :=
  match d.per.adopt with
  | none => (d, false)
  | some a =>
    match a.stack with
    | [] => (d, false)
    | h :: rest =>
      if h.node ≠ x || !h.reading then (d, false) else
        let n := lineNode b.data
        let good := (d.setAdopt { a with top := topCount a.top n.ctr, stack := { h with ctr := n.ctr, reading := false } :: rest }).pumpAdopt
        if 2 ≤ ecc.toNat then (if x.level = 8 then (d.adoptNoTop a 1).pumpAdopt else (d.adoptFails a 1).pumpAdopt, false)
        else if x.level = 8 || nodeMac ((d.zone a.zone).key.getD 0) x n.ctr h.parent = n.mac then (good, h.attempts ≠ 0)
        else match nextTry d.med.retryLimit h.attempts with
          | none => ((d.adoptFails a 2).pumpAdopt, false)
          | some k => ((d.setAdopt { a with stack := { h with attempts := k } :: rest }).media 2 (d.nodeAddr x) default (.adoptRead x), false)

/-- The read or rewrite of a node of the walk has met a retired channel, or its rewrite has ended. -/
def Dev.adoptGone (d : Dev) (x : NodeId) : Dev :=
  match d.per.adopt with
  | none => d
  | some a =>
    match a.stack with
    | [] => d
    | h :: _ =>
      if h.node ≠ x then d
      else if h.reading && x.level = 8 then (d.adoptNoTop a 6).pumpAdopt
      else (d.adoptFails a 6).pumpAdopt

def Dev.adoptWritten (d : Dev) (x : NodeId) (ok : Bool) : Dev :=
  match d.per.adopt with
  | none => d
  | some a =>
    match a.stack with
    | [] => d
    | h :: rest =>
      if h.node ≠ x || !h.writing then d
      else if !ok then (d.adoptFails a 4).pumpAdopt
      else
        let a := { a with rewritten := a.rewritten + 1, stack := rest }
        (if rest.isEmpty then d.adoptWalked a 1 else d.setAdopt a).pumpAdopt

/-- An adoption begins: the zone reads QUARANTINED and leaves ONLINE as a zone command makes it (spec/10 R277). -/
def Dev.startAdopt (d : Dev) (a : Adopt) : Dev :=
  let st := (d.zone a.zone).st
  let d := d.setAdopt { a with prev := st }
  let d := if st == .online then
      ((d.zoneTo a.zone .quarantined cAdoptZone).updZone a.zone fun x => { x with leaving := true }).cancelZone a.zone
    else d
  d.pumpAdopt

/-- The checks of R366 after the operand check, in their order; the draw is apart. -/
def Dev.adoptBad (d : Dev) (z : Nat) : Option Cpl :=
  let x := d.zone z
  if !d.per.armed then some .busy
  else if x.st == .formatting || x.st == .sanitizing then some .busy
  else if x.st == .offline || x.key.isNone then some stateKind
  else none

def execAdoptZone (q : BitVec 14) (pos : BitVec 16) (zenith : Bool) (drbg : Option Bool) (s : State) :
    Host.Outcome State Fault Refusal :=
  s.serve fun d =>
    if d.ckptHold || d.measuring then d else
      d.command q.toNat pos cAdoptZone (fun d x => [(8, decide (num x.entry 8 2 < d.frs.zoneLimit))]) fun x d =>
        let z := num x.entry 8 2
        let d := d.zenithRead zenith
        match d.adoptBad z with
        | some c => d.finish q.toNat pos c
        | none =>
          let d := d.noteDue
          match d.draw 32 true with
          | .wait => d.waitDraw q.toNat pos
          | .fail => d.finish q.toNat pos noEntropy
          | .got b d =>
            let a : Adopt := { (default : Adopt) with q := q.toNat, pos := pos.toNat, zone := z }
            let d := ((d.drbgRead drbg).running q.toNat pos).keepDrawn q.toNat pos.toNat b
            if d.per.adopt.isSome then { d with per.adoptWait := d.per.adoptWait ++ [a] } else d.startAdopt a

/-- ADOPTION_START: an adoption that waited is checked again and starts. -/
def execAdoptionStart (zenith : Bool) (s : State) : Host.Outcome State Fault Refusal :=
  s.serve fun d =>
    match d.per.adoptWait with
    | [] => d
    | a :: r =>
      if d.per.adopt.isSome || d.ckptHold || d.measuring then d else
        let d := { d with per.adoptWait := r }.zenithRead zenith
        let ends (c : Cpl) : Dev := (d.dropDrawn a.q a.pos).finish a.q (BitVec.ofNat 16 a.pos) c
        if d.frs.zoneLimit ≤ a.zone then ends (Cpl.invalid 0 8) else
          match d.adoptBad a.zone with
          | some c => ends c
          | none => d.startAdopt a

/-! ### Rows that an adoption waits for -/

/-- Writes in bypass that wait for their leaf: its own write has completed, a node error has discarded it, or it is STUCK
(spec/09 R252). -/
def Dev.leafWaits (d : Dev) : Dev :=
  forAll (d.fab.accs.filter fun a => a.stage == .waitLeaf) (fun a e =>
    if a.lost then e.outcome a.id .poisoned
    else if a.leaf == .done then e.outcome a.id .ok
    else match e.find (nodeOf (zoneOf a.line) (indexOf a.line) 0) with
      | some k => if (e.can1 k).stuck then e.outcome a.id .accessError else e
      | none => e) d

/-- CUT. `err`: a corrected error that the Zenith store shows as the image is taken (spec/08 R230). `key`: what the check bits
of the key entries show that the image carries, is sealed under and draws its IV from (spec/11 R313). -/
def execCut (err : Option CanErr) (key : Option (KeyRef × Bool)) (s : State) : Host.Outcome State Fault Refusal :=
  s.serve fun d =>
    let read (e : Dev) : Dev := (if err = some .zenith then e.canopyError err else e).keyError key
    match d.per.ckpt with
    | some c => if c.phase == .hold && d.cutReady then ((read d).ckptCut c).pumpAdopt else d
    | none =>
      if !d.pfCutDue then d else
        let d := read d
        let d := { d with per.pfCut := true }.startCkpt 2 [] none
        match d.per.ckpt with
        | some c => (d.cutNow { c with phase := .hold }).pumpAdopt
        | none => d

/-- RELEASE: every image line is persistent. -/
def execRelease (s : State) : Host.Outcome State Fault Refusal :=
  s.serve fun d =>
    match d.per.ckpt with
    | none => d
    | some c =>
      if c.phase == .image && decide (c.left = 0)
      then (Dev.pumpAnvil 2 { d with per.ckpt := some { c with phase := .anvil, word := 0 } }).pumpAdopt else d

/-- COMMIT. That of an adoption's closing checkpoint reads the zone's ceiling for the result (spec/10 R278, spec/08 R230). -/
def execCommit (zenith : Bool) (s : State) : Host.Outcome State Fault Refusal :=
  s.serve fun d =>
    match d.per.ckpt with
    | none => d
    | some c =>
      if c.phase == .anvil && decide (c.word = 16) && d.per.anvil.isNone
      then (d.zenithRead (zenith && decide (c.trigger = 3))).ckptCommit c else d

/-- WRITE_BACK: the governor takes one line (spec/09 R241-R243). -/
def execWriteBack (err : Option CanErr) (key : Option (KeyRef × Bool)) (s : State) : Host.Outcome State Fault Refusal :=
  s.serve fun d =>
    let d := (d.canopyError err).keyError key
    (match d.pickWriteBack with
     | some k => (d.writeBackLine k).leafWaits.trimStaging.pumpMaint
     | none => d).pumpAdopt

/-- ZONE_DEPARTURE: nothing admitted while the zone was ONLINE remains. A command that was only waiting for that to end does. -/
def execZoneDeparture (z : BitVec 13) (s : State) : Host.Outcome State Fault Refusal :=
  s.serve fun d =>
    if (d.zone z.toNat).leaving && !d.zoneBusy z.toNat then
      let e := d.updZone z.toNat fun x => { x with leaving := false }
      (match (d.zone z.toNat).cmd with
       | some (q, pos) => e.svcCheck q pos
       | none => e).pumpAdopt
    else d

/-! ### Registers (spec/10 R283, R284) -/

/-- PER_STAT.PHASE. -/
def Dev.perPhase (d : Dev) : Nat :=
  if d.per.arming.isSome then 6
  else match d.per.ckpt with
    | some c => (match c.phase with | .preFlush => 1 | .hold => 2 | .image => 2 | .anvil => 3)
    | none =>
      if d.restoreRuns then 4
      else if d.per.adopt.isSome then 5 else 0

def perBaseLo : Nat := 0x160008 / 4

/-- PER_ANCHOR_BASE: the _HI write takes the held _LO (spec/00 R8). -/
def execPerAnchorBaseWrite (v : Word32) (s : State) : Host.Outcome State Fault Refusal :=
  s.core fun d =>
    if d.per.armed || d.perPhase ≠ 0 then { d with per.cfgIgn := true } else
      let lo := d.mgt.loHeld.get perBaseLo
      { d with per.anchorBase := bits v 14 0 * 2 ^ 32 + bits lo 31 22 * 2 ^ 22 }

def execPerCntClr (v : Word32) (s : State) : Host.Outcome State Fault Refusal :=
  s.core fun d => if bit v 0 then { d with per.ckptCnt := 0, per.failCnt := 0 } else d

end Machine
end Sys2Proof
end

