-- ==== Sys2Proof/Machine/Retire.lean ====
section
/-! DEFINITION. Channel retirement and the transient bucket (spec/02 R55, spec/08 R220, spec/09 R242, spec/15 R421,
R431, R432). -/

namespace Sys2Proof
namespace Machine

/-- A write-back ends because its channel is retired: the line turns STUCK (spec/09 R242). -/
def Dev.writeBackGone (d : Dev) (x : NodeId) : Dev :=
  match d.find x with
  | some k => if (d.can1 k).wb then ((d.updLine k fun c => { c with wb := false }).stick k).leafWaits.pumpMaint else d
  | none => d

/-- The read of a node ends: the ladders that wait for it see a retired rung (spec/08 R220). -/
def Dev.nodeGone (d : Dev) (x : NodeId) : Dev :=
  { d with frs.ladders := d.frs.ladders.map fun (l : Ladder) =>
      { l with rungs := l.rungs.map fun r =>
          if nodeOf l.zone l.n r.level = x && r.node.isNone && !r.bad then { r with retired := true } else r } }

/-- What a command completes as when its channel is retired (spec/02 R55). -/
def Dev.commandGone (d : Dev) : MedWhy → Dev
  | .data id => (match d.acc id with
      | some a => if a.stage == .reading || a.stage == .writing then d.endRetired a else d
      | none => d)
  | .node x => d.nodeGone x
  | .writeBack x => d.writeBackGone x
  | .openMap z => d.openWritten z false
  | .armMap _ => d.armWritten false
  | .image row => d.imageWritten row false
  | .restoreImage row => d.restoreRow row none
  | .restoreMap row => d.restoreMapRow row none
  | .restoreL8 z => d.restoreL8Gone z
  | .adoptRead x => d.adoptGone x
  | .adoptWrite x => d.adoptGone x

/-- A channel is retired, with the CAUSE of MED_CH_STAT: 1 MCn_FAIL or clock loss, 2 MCn_RST_N, 3 threshold. -/
def Dev.retireChannel (d : Dev) (n cause : Nat) : Dev :=
  let c := d.chan n
  if c.retired then d else
    let why := (c.out.filterMap fun o => o.2.map (·.why)) ++ c.waiting.map (·.why)
    let d := if d.mgt.ready then d.accrue else d
    let d := d.setChan n { c with retired := true, cause := cause, waiting := [], out := [] }
    let d := d.event .flt 0x0041 bMed .plain [(8, 1, n), (9, 1, cause), (12, 4, c.bucket)]
    (forAll why (fun w e => e.commandGone w) d).pumpAdopt

/-- The THRESHOLD in force for a bucket (spec/15 R432). -/
def Dev.thresholdOf (d : Dev) (n : Nat) : Nat := (d.chan n).oldThreshold.getD d.med.threshold

/-- A write of MED_LEAK_CFG.THRESHOLD applies from the next fall of each bucket (spec/15 R432, log 124). -/
def Dev.writeThreshold (d : Dev) (v : Nat) : Dev :=
  { forAll (List.range Config.channels) (fun n e =>
      e.setChan n { e.chan n with oldThreshold := (e.chan n).oldThreshold.orElse fun _ => some d.med.threshold }) d with
    med.threshold := max 1 v }

/-- A transient on a channel, of a data read or a node read (spec/15 R421). -/
def Dev.transient (d : Dev) (n : Nat) : Dev :=
  let c := d.chan n
  if c.retired then d else
    let t := d.thresholdOf n
    let b := min (c.bucket + 1) (t + 1)
    let d := d.setChan n { c with bucket := b, transients := satAdd 0xFFFF c.transients 1
                                  leakAt := if c.bucket = 0 then d.mgt.tref else c.leakAt }
    let d := if c.bucket < b && decide (b = (t + 1) / 2) then d.raise bMed (96 + n) else d
    if t < b then d.retireChannel n 3 else d

/-- A channel is retired in the safe state, where nothing that waits for it goes on. -/
def Dev.retireSafe (d : Dev) (n cause : Nat) : Dev :=
  let c := d.chan n
  if c.retired then d else
    (d.setChan n { c with retired := true, cause := cause, waiting := [], out := [] }).event .flt 0x0041 bMed .plain
      [(8, 1, n), (9, 1, cause), (12, 4, c.bucket)]

/-- A level on MCn_FAIL retires the channel, in the safe state too. -/
def execMcnFail (ch : Fin 16) (s : State) : Host.Outcome State Fault Refusal :=
  s.act fun d => if !d.up domCore then d else if s.safe.active then d.retireSafe ch 1 else d.retireChannel ch 1

/-- The bucket falls, in the safe state too; the THRESHOLD of the register applies from now on, and b never exceeds it by
more than 1. -/
def execTransientBucketLeak (ch : Fin 16) (s : State) : Host.Outcome State Fault Refusal :=
  s.act fun d =>
    let c := d.chan ch
    if !d.up domCore || c.bucket = 0 || c.retired || !d.passed c.leakAt (1000000 / d.thresholdOf ch) then d
    else d.setChan ch { c with bucket := min (c.bucket - 1) (d.med.threshold + 1), leakAt := d.mgt.tref, oldThreshold := none }

def execMedCntClr (v : Word32) (s : State) : Host.Outcome State Fault Refusal :=
  s.core fun d => forAll (List.range Config.channels) (fun n e =>
    if bit v n then e.setChan n { e.chan n with transients := 0 } else e) d

end Machine
end Sys2Proof
end

