-- ==== Sys2Proof/Machine/Media.lean ====
section
/-! DEFINITION. What the media channels return, the passes of the lanes, ladder verification and credit returns
(spec/02 R32, R50-R53, spec/04 R111-R117, spec/07 R175-R183, spec/08 R219-R227, spec/14 R383-R399, spec/15 R419, R420). -/

namespace Sys2Proof
namespace Machine

/-! ### Data beats and their checks (spec/07 R178-R183) -/

/-- The line MAC of a ciphertext under a slot; a cipher-only line stores none. -/
def Dev.lineMac (d : Dev) (slot : BitVec 16) (m : Mode) (line : LineNo) (c : Ctr) (ct : Line) : BitVec 56 :=
  let k := d.kslot slot
  match m with
  | .full => macFull k.mac line c k.tag ct
  | .mac => macOnly k.mac line k.tag ct
  | .cipher => 0

/-- The 72 bytes that a plaintext is stored as. -/
def Dev.sealBeat (d : Dev) (slot : BitVec 16) (m : Mode) (line : LineNo) (c : Ctr) (pt : Line) : Beat :=
  let k := d.kslot slot
  let ct := if m = .full then ctrLine k.data line c pt else xtsEnc k.data line pt
  ⟨ct, d.lineMac slot m line c ct, k.tag⟩

def Dev.tagOk (d : Dev) (slot : BitVec 16) (b : Beat) : Bool := b.ktag == (d.kslot slot).tag
def Dev.macOk (d : Dev) (slot : BitVec 16) (m : Mode) (line : LineNo) (c : Ctr) (b : Beat) : Bool :=
  m == .cipher || d.lineMac slot m line c b.data == b.mac

/-! ### Failed attempts (spec/15 R419, R420; spec/14 R387, R394) -/

/-- The step of a service access. -/
def Dev.stepOf (d : Dev) (a : Access) : Option Step :=
  match a.origin with
  | .port _ => none
  | .step id => d.step1 id

/-- Drizzle and SCRUB accesses. -/
def Dev.checks (d : Dev) (a : Access) : Bool := (d.stepOf a).any fun s => s.kind == .drizzle || s.kind == .scrub

/-- A finding of Drizzle or SCRUB. -/
def Dev.finding (d : Dev) (drizzle : Bool) (zone kind level at_ : Nat) : Dev :=
  let d := { d with svc.findingCnt := satAdd 0xFFFFFFFF d.svc.findingCnt 1
                    svc.drizzleFinds := d.svc.drizzleFinds + flag drizzle }.raise bSvc 0
  d.event .svc 0x0031 bSvc .scrub [(8, 2, zone), (10, 1, kind), (11, 1, level), (16, 8, at_)]

/-- SECURITY_ALARM (spec/13 R379). -/
def Dev.alarm (d : Dev) (a : Access) (attempts : Nat) : Dev :=
  let port := match a.origin with | .port p => p | .step _ => 0xFF
  let source := match a.origin with | .port _ => bMed | .step _ => bSvc
  d.event .flt 0x0040 source .plain [(8, 8, 64 * a.line.toNat), (16, 2, a.slot.toNat), (18, 1, port), (19, 1, attempts),
    (20, 2, if a.mode = .full then zoneOf a.line else 0xFFFF)]

/-- Lines that Drizzle has checked. -/
def Dev.countCheck (d : Dev) (a : Access) : Dev :=
  if (d.stepOf a).any fun s => s.kind == .drizzle then { d with svc.drizzleLines := d.svc.drizzleLines + 1 } else d

/-- Every attempt has failed: the line is marked poisoned. -/
def Dev.permanent (d : Dev) (a : Access) (macFail : Bool) : Dev :=
  let n := channelOf a.line.toNat
  let d :=
    if d.checks a then
      (d.countCheck a).finding ((d.stepOf a).any fun s => s.kind == .drizzle) (zoneOf a.line) 1 0 (64 * a.line.toNat)
    else if macFail then (d.raise bMed (16 + n)).alarm a a.attempts
    else d.raise bMed (32 + n)
  (d.updAcc a.id fun x => { x with pass := .poison, stage := .granted, linkKey := none, winKey := none }).proceed a.id

/-- An attempt of a data read has failed, with or without a MAC check. -/
def Dev.attemptFails (d : Dev) (a : Access) (mac : Bool) : Dev :=
  let limit := if a.attempts = 1 then d.med.retryLimit else a.limit
  let a := { a with limit := limit, macFail := a.macFail || mac }
  let d := d.updAcc a.id fun _ => a
  if a.attempts ≤ limit then d.readData a a.ctr a.pass else d.permanent a a.macFail

/-- A data read has passed; on a retry it is a transient of its channel. -/
def Dev.attemptPasses (d : Dev) (a : Access) : Dev :=
  let n := channelOf a.line.toNat
  if 2 ≤ a.attempts then (d.raise bMed n).transient n else d

/-! ### Media read beats (spec/02 R52) -/

/-- A beat of a data read. -/
def Dev.dataBeat (d : Dev) (id : Nat) (b : Beat) (ecc : BitVec 2) : Dev :=
  match d.acc id with
  | none => d
  | some a =>
    if a.stage != .reading then d
    else if d.job a == .read && (d.session a.sess).txFailed then d.outcome id .linkError
    else if 2 ≤ ecc.toNat then d.attemptFails a false
    else d.updAcc id fun x => { x with stage := .lane, beat := b }

/-- What a read beat does for the command it answers. -/
def Dev.readBeat (d : Dev) (why : MedWhy) (b : Beat) (ecc : BitVec 2) : Dev :=
  let ok := decide (ecc.toNat < 2)
  match why with
  | .data id => d.dataBeat id b ecc
  | .node x => d.nodeBeat x b ecc
  | .restoreImage row => d.restoreRow row (if ok then some b.data else none)
  | .restoreMap row => d.restoreMapRow row (if ok then some b.data else none)
  | .restoreL8 z =>
    let r := d.restoreL8 z b ecc
    if r.2 then (r.1.raise bFrs 0).transient (channelOf (d.nodeAddr ⟨z, 8, 0⟩)) else r.1
  | .adoptRead x =>
    let r := d.adoptNode x b ecc
    if r.2 then (r.1.raise bFrs 0).transient (channelOf (d.nodeAddr x)) else r.1
  | _ => d

/-- A transfer on a media channel's return side: none while its domain is down or the channel is retired. -/
def Dev.mediaUp (d : Dev) (n : Nat) : Bool := d.up (domMch n) && d.up domCore && !d.retired n

/-- An access in full freshness: what marks its line reads a root or a ceiling. -/
def Dev.fullAcc (d : Dev) (id : Nat) : Bool := (d.acc id).any fun a => a.mode == .full

/-- What the check bits show of the image key, a zone's root and its key, where a beat is checked by them at once. -/
def Dev.beatErrors (d : Dev) (why : MedWhy) (ecc : BitVec 2) (zenith : Bool) (key : Option (KeyRef × Bool)) : Dev :=
  match why with
  | .restoreL8 _ => (d.zenithRead zenith).keyError key
  | .restoreMap _ => d.zenithRead zenith
  | .restoreImage _ => d.keyError key
  | .adoptRead x => (d.zenithRead (zenith && decide (x.level = 8 ∧ 2 ≤ ecc.toNat))).keyError key
  | .data id => d.zenithRead (zenith && decide (2 ≤ ecc.toNat) && d.fullAcc id)
  | _ => d

/-- MEDIA_READ_BEAT. In the safe state the beat is discarded (spec/15 R423). -/
def execMediaReadBeat (ch : Fin 16) (tag : BitVec 10) (beat : Beat) (ecc : BitVec 2) (zenith : Bool)
    (key : Option (KeyRef × Bool)) (s : State) : Host.Outcome State Fault Refusal :=
  s.act fun d =>
    if !d.mediaUp ch then d else
      match (d.chan ch).out.get tag.toNat with
      | none => if s.safe.active then d else d.raise bMed (80 + ch.val)
      | some m =>
        if m.isWrite then (if s.safe.active then d else d.raise bMed (80 + ch.val)) else
          let d := d.mediaDone ch tag.toNat
          if s.safe.active then d else ((d.beatErrors m.why ecc zenith key).readBeat m.why beat ecc).pumpMedia ch

/-! ### Media write completions (spec/02 R53) -/

/-- The media write of an access has ended. Its answer needs its counter update in the Canopy or on media (spec/01 R20):
one that a node error has discarded is poisoned, one in bypass waits for its leaf (spec/09 R252). -/
def Dev.dataWritten (d : Dev) (id : Nat) (ok : Bool) : Dev :=
  match d.acc id with
  | none => d
  | some a =>
    if a.stage != .writing then d
    else if !ok then
      ((d.raise bMed (48 + channelOf a.line.toNat)).updAcc id fun x => { x with pass := .poison, stage := .granted }).proceed id
    else match a.origin with
      | .step _ => d.leave a
      | .port _ =>
        if a.lost then d.outcome id .poisoned
        else if a.leaf == .due || a.leaf == .issued then (d.updAcc id fun x => { x with stage := .waitLeaf }).leafWaits
        else d.outcome id .ok

/-- The write of a leaf is on media: accesses in bypass whose counter it carries. -/
def Dev.leafDone (d : Dev) (x : NodeId) : Dev :=
  { d with fab.accs := d.fab.accs.map fun (a : Access) =>
      if a.leaf == .issued && decide (nodeOf (zoneOf a.line) (indexOf a.line) 0 = x) then { a with leaf := .done } else a }

/-- The write-back of a node has ended (spec/08 R224 step 5). -/
def Dev.nodeWritten (d : Dev) (x : NodeId) (ok : Bool) : Dev :=
  match d.find x with
  | none => d
  | some k =>
    let c := d.can1 k
    if !c.wb then d
    else if !ok then ((d.updLine k fun y => { y with wb := false }).nodeError x 4).leafWaits.pumpMaint
    else
      let d := (d.updLine k fun y => { y with wb := false, st := if y.changed then .dirty else .clean }).leafDone x
      let d := { d with per.ckpt := d.per.ckpt.map fun (c : Ckpt) => { c with want := without k c.want } }
      (((d.noteDirty).maintWritten x).leafWaits.afterClean k).trimStaging

/-- What a write completion does for the command it answers. -/
def Dev.writeDone (d : Dev) (why : MedWhy) (ok : Bool) : Dev :=
  match why with
  | .data id => d.dataWritten id ok
  | .writeBack x => (d.nodeWritten x ok).pumpAdopt
  | .openMap z => (d.openWritten z ok).pumpAdopt
  | .armMap _ => d.armWritten ok
  | .image row => (d.imageWritten row ok).pumpAdopt
  | .adoptWrite x => d.adoptWritten x ok
  | _ => d

/-- A failed write that reads a root or a ceiling: that of a line or of a node which is marked (spec/08 R225, R227, R230). -/
def Dev.failReads (d : Dev) : MedWhy → Bool
  | .data id => d.fullAcc id
  | .writeBack x => decide (x.level = 8)
  | .adoptWrite x => decide (x.level = 8)
  | _ => false

/-- MEDIA_WRITE_COMPLETION; a status other than PERSISTENT is a failure. -/
def execMediaWriteCompletion (ch : Fin 16) (tag : BitVec 10) (status : BitVec 2) (zenith : Bool) (s : State) :
    Host.Outcome State Fault Refusal :=
  s.act fun d =>
    if !d.mediaUp ch then d else
      match (d.chan ch).out.get tag.toNat with
      | none => if s.safe.active then d else d.raise bMed (80 + ch.val)
      | some m =>
        if !m.isWrite then (if s.safe.active then d else d.raise bMed (80 + ch.val)) else
          let d := d.mediaDone ch tag.toNat
          if s.safe.active then d else
            ((d.zenithRead (zenith && status != 0 && d.failReads m.why)).writeDone m.why (status == 0)).pumpMedia ch

/-- The slots whose keys a pass needs; a check pass needs those that its beat's tag matches. -/
def Dev.passSlots (d : Dev) (a : Access) : List (BitVec 16) :=
  match d.stepOf a with
  | none => if a.pass = .zeroRead then [] else [a.slot]
  | some s =>
    match s.kind with
    | .front | .transcode => [s.slotA, s.slotB]
    | .drizzle | .scrub => s.slots.filter fun k => (d.kslot k).st != .empty && (d.kslot k).tag == a.beat.ktag
    | _ => if a.pass = .hash || (a.pass = .seal && a.fresh) then [] else [s.slotA]

/-- The session key register of a pass: a read takes that of the window that holds its place, or of the one that it is to
take its place in (spec/02 R46, spec/07 R173). -/
def Dev.passReg (d : Dev) (a : Access) : Option Nat :=
  match a.origin with
  | .step _ => none
  | .port _ =>
    if a.isWrite then some (regIndex a.sess 0 a.winK)
    else match a.rwin with
      | some w => ((d.session a.sess).rwins.find? fun x => x.id = w).map fun w => regIndex a.sess 1 w.k
      | none => if a.verified then none else (d.session a.sess).room.map fun w => regIndex a.sess 1 w.k

def Dev.passKeys (d : Dev) (a : Access) : PassKeys where
  slots := (d.passSlots a).map fun k => (k.toNat, keySet (d.kslot k))
  regs := (d.passReg a).toList.filterMap fun r => (if a.isWrite then a.winKey else d.regKey r).map fun k => (r, k)

/-- A pass that does not begin. One whose keys are gone moves no data: a fabric access ends ACCESS_ERROR, or LINK_ERROR without
its session key; a service access leaves (log 25). A read without a place whose transmit direction is FAILED completes
LINK_ERROR before its pass (spec/02 R46, spec/04 R119). A read that has its place in its window is ciphered, and a partial pass
in progress finishes with the session key that its lane holds (spec/07 R174). -/
def Dev.keyless (d : Dev) (a : Access) : Option Dev :=
  if (a.pass = .read || a.pass = .zeroRead) && a.verified then none
  else if d.job a == .read && (d.session a.sess).txFailed then some (d.outcome a.id .linkError)
  else if (d.passSlots a).any fun k => (d.kslot k).st == .empty then some (d.endRetired a)
  else match d.passReg a with
    | some r =>
      if (if a.isWrite then a.winKey.isNone && a.linkKey.isNone else (d.regKey r).isNone) then some (d.outcome a.id .linkError) else none
    | none => none

/-! ### Lane passes (spec/07 R175, R176, R183; spec/14 R383, R387, R393, R397-R399) -/

/-- Issue the media write of an access with its beat. -/
def Dev.writeData (d : Dev) (a : Access) (b : Beat) : Dev :=
  if d.lineRetired a then d.endRetired a
  else (d.updAcc a.id fun x => { x with stage := .writing, lane := none, linkKey := none, winKey := none }).media 1 a.line.toNat b (.data a.id)

/-- The payload of a write, link-decrypted under the key that its window found at its OPEN (spec/07 R184). -/
def Access.payload (a : Access) : Line :=
  linkCrypt ((a.linkKey.orElse fun _ => a.winKey).getD 0) a.winIv a.winPos a.data

/-- Byte by byte: the payload where the mask has a bit set, else the old line (spec/07 R176). -/
def mergeLine (mask : BitVec 64) (new old : Line) : Line :=
  bytesLine ((List.range 64).map fun k => if mask.getLsbD k then lineByte new k else lineByte old k)

/-- The write half of a pass: what is written, and under which slot. The old line of a partial or rekey pass is decrypted
from its beat in the lane, and no plaintext is kept (spec/01 R24). -/
def Dev.writeHalf (d : Dev) (a : Access) : Dev :=
  let out (slot : BitVec 16) (pt : Line) := d.writeData a (d.sealBeat slot a.mode a.line a.ctr pt)
  match a.pass with
  | .write => out a.slot a.payload
  | .partialWrite => out a.slot (mergeLine a.mask a.payload (if a.fresh then 0 else d.plain a.slot a.mode a.line a.oldCtr a.beat))
  | .rekeyWrite => (match d.stepOf a with | some s => out s.slotB (d.plain s.slotA a.mode a.line a.oldCtr a.beat) | none => d)
  | .zeroWrite => out a.slot 0
  | .unseal => (match d.stepOf a with
      | some s =>
        let t := d.transport s
        let k := s.lineIndex a.line
        out a.slot (linkCrypt t.1 t.2 k (s.block k))
      | none => d)
  | _ => d

/-- The old line has been verified. The write half follows in the same pass where the counter step completes at once; else,
and after a retry check, as a further pass of the same lane (log 26). -/
def Dev.verifiedOld (d : Dev) (a : Access) : Dev :=
  let d := ((d.attemptPasses a).updAcc a.id fun x => { x with verified := true, stage := .granted }).proceed a.id
  match d.acc a.id with
  | some x => if x.stage == .lane && decide (a.attempts ≤ 1) then d.writeHalf x else d
  | none => d

/-- A key-tag mismatch of a fabric access (spec/04 R112). -/
def Dev.tagMismatch (d : Dev) (a : Access) : Dev :=
  match a.origin with
  | .port p => (d.setPort p { d.port p with ktag := satAdd 0xFFFFFFFF (d.port p).ktag 1 }).outcome a.id .accessError
  | .step _ => d

/-- A Front or TRANSCODE line that has been read (spec/14 R387). -/
def Dev.rekeyLine (d : Dev) (a : Access) (s : Step) : Dev :=
  let old := d.tagOk s.slotA a.beat
  let new := d.tagOk s.slotB a.beat
  if old && d.macOk s.slotA a.mode a.line a.ctr a.beat then d.verifiedOld a
  else if new && d.macOk s.slotB a.mode a.line a.ctr a.beat then ((d.attemptPasses a).countSkip).leave a
  else if !old && !new then
    ({ d with svc.foreignCnt := satAdd 0xFFFFFFFF d.svc.foreignCnt 1 }.raise bSvc 1).leave a
  else d.attemptFails a true

/-- A line that Drizzle or SCRUB has read (spec/14 R393). -/
def Dev.checkLine (d : Dev) (a : Access) (s : Step) : Dev :=
  let ks := s.slots.filter fun k => (d.kslot k).st != .empty && d.tagOk k a.beat
  if ks.isEmpty then ({ d with svc.unattrCnt := satAdd 0xFFFFFFFF d.svc.unattrCnt 1 }.countCheck a).leave a
  else if ks.any fun k => d.macOk k a.mode a.line a.ctr a.beat then ((d.attemptPasses a).countCheck a).leave a
  else d.attemptFails a true

/-- A line of a SEAL: one that has been read, or one that is sealed as zeros (spec/14 R398). -/
def Dev.sealRead (d : Dev) (a : Access) : Dev :=
  if a.fresh then (d.sealLine a 0).leave a
  else if !d.tagOk a.slot a.beat then ((d.voidLine a).sealLine a 0).leave a
  else if d.macOk a.slot a.mode a.line a.ctr a.beat then
    ((d.attemptPasses a).sealLine a (d.plain a.slot a.mode a.line a.ctr a.beat)).leave a
  else d.attemptFails a true

/-- A hash pass has ended; after the last of its chunk the tag decides (spec/14 R399). -/
def Dev.hashed (d : Dev) (a : Access) : Dev :=
  let d := d.updAcc a.id fun x => { x with stage := .unbound }
  match d.stepOf a with
  | none => d
  | some s => if d.fab.accs.any fun b => b.origin == a.origin && b.stage == .lane then d else d.chunkHashed s

/-- A read that has taken its place leaves the lane, its window ended or not (spec/07 R186). -/
def Dev.readOut (d : Dev) (id : Nat) : Dev :=
  match d.acc id with
  | some a => if a.stage == .lane && a.verified then d.outcome id .ok else d
  | none => d

/-- The output of a pass leaves the lane. -/
def Dev.passOut (d : Dev) (a : Access) : Dev :=
  match a.pass with
  | .read =>
    if a.verified then d.readOut a.id
    else if !d.tagOk a.slot a.beat then d.tagMismatch a
    else if d.macOk a.slot a.mode a.line a.ctr a.beat then
      (((d.attemptPasses a).updAcc a.id fun x => { x with verified := true }).placeRead a.id).readOut a.id
    else d.attemptFails a true
  | .zeroRead => d.readOut a.id
  | .partialRead =>
    if !d.tagOk a.slot a.beat then d.tagMismatch a
    else if d.macOk a.slot a.mode a.line a.ctr a.beat then d.verifiedOld a
    else d.attemptFails a true
  | .rekeyRead => (match d.stepOf a with | some s => d.rekeyLine a s | none => d)
  | .check => (match d.stepOf a with | some s => d.checkLine a s | none => d)
  | .seal => d.sealRead a
  | .hash => d.hashed a
  | _ => d.writeHalf a

/-- A re-verification of a re-read beat, which is no pass for sampling (spec/07 R175, R192). -/
def Access.retryCheck (a : Access) : Bool :=
  decide (2 ≤ a.attempts) && (a.pass == .partialRead || a.pass == .rekeyRead || a.pass == .check || a.pass == .seal ||
    (a.pass == .read && !a.verified))

/-- The lane that must take the pass: of both passes of a partial or rekey write, of every retry check, and of the lines of
one SEAL chunk (spec/07 R172, spec/14 R398), as long as that lane takes passes. -/
def Dev.fixedLane (d : Dev) (a : Access) : Option Nat :=
  (a.lane.orElse fun _ => (d.stepOf a).bind (·.lane)).filter fun i => (d.lane i).st.takes

/-- The pass of an access would be sampled in lane `x`. -/
def Dev.sampled (d : Dev) (a : Access) (x : Nat) : Bool := d.samples x && ((d.lane x).st == .probation || !a.retryCheck)

/-- A lane may take the pass of an access, and what recomputes it if it is sampled is at hand. -/
def Dev.laneMay (d : Dev) (a : Access) (x : Nat) (k : PassKeys) : Bool :=
  (match d.fixedLane a with
   | some i => decide (i = x) && d.laneFree x
   | none => d.passLane x k) &&
  (!d.sampled a x || (d.withAuditor x).auditReady x k)

/-- The lane of a pass, kept for those that follow, and the session key that it holds for the write half of a partial pass; a
lane that the pass's audit has put out of service holds none (spec/07 R174). -/
def Dev.inLane (d : Dev) (a : Access) (x : Nat) : Dev :=
  let key (y : Access) := if a.pass = .partialRead && (d.lane x).st.takes then y.linkKey.orElse fun _ => y.winKey else y.linkKey
  let d := d.updAcc a.id fun y => { y with lane := some x, linkKey := key y }
  match a.pass, a.origin with
  | .seal, .step id => d.updStep id fun t => { t with lane := some x }
  | _, _ => d

/-- The pass of an access that waits for one, in a lane that may take it: audited if sampled, then its output. -/
def Dev.takePass (d : Dev) (id lane : Nat) (audit : Audit) : Dev :=
  match d.acc id with
  | none => d
  | some a =>
    if a.stage != .lane then d else
    match d.keyless a with
    | some e => e
    | none =>
      let k := d.passKeys a
      let d := if d.samples lane then d.withAuditor lane else d
      let r := (d.loadKeys lane k).auditPass lane k (!a.retryCheck) audit
      if r.2 then (r.1.inLane a lane).passOut a else r.1

/-- LANE_PASS_DONE: a pass in `lane`, from its assignment to its output (log 26). `err`: what the check bits of the Canopy
read of its counter step show; `key`: those of its key entries. -/
def execLanePassDone (id : Nat) (lane : Fin 36) (audit : Audit) (err : Option CanErr) (key : Option (KeyRef × Bool))
    (s : State) : Host.Outcome State Fault Refusal :=
  s.serve fun d =>
    match d.acc id with
    | none => d
    | some a =>
      if a.stage != .lane || !d.laneMay a lane (d.passKeys a) ||
          (d.sampled a lane && !(d.withAuditor lane).rerunReady lane (d.passKeys a) audit) then d else
        (((d.keyError key).canopyError err).wake (clusterOf lane)).takePass id lane audit

/-! ### Ladder verification (spec/08 R219-R221) -/

/-- A node has passed on a retry; a ladder that shares the read counts it no second time. -/
def Dev.nodeRetried (d : Dev) (x : NodeId) : Dev :=
  let once (l : Ladder) (r : Rung) : Rung := if nodeOf l.zone l.n r.level = x then { r with attempts := 1 } else r
  let e := { d with frs.ladders := d.frs.ladders.map fun (l : Ladder) => { l with rungs := l.rungs.map (once l) } }
  (e.raise bFrs 0).transient (channelOf (e.nodeAddr x))

/-- Rungs that passed on a retry (spec/15 R419). -/
def Dev.rungRetries (d : Dev) (l : Ladder) (rs : List Rung) : Dev :=
  forAll (rs.filter fun r => decide (2 ≤ r.attempts)) (fun (r : Rung) e => e.nodeRetried (nodeOf l.zone l.n r.level)) d

/-- A check of the nodes has read those down to `level` that it took from the Canopy (spec/09 R249, spec/14 R391). -/
def Dev.countChecked (d : Dev) (l : Ladder) (level : Nat) : Dev :=
  if !l.nodes then d else
    forAll (levelsDown 9 level) (fun v e =>
      let x := nodeOf l.zone l.n v
      if e.onPath true x then (match e.find x with | some k => e.countWay k | none => e) else e) d

/-- Nodes that a check of Drizzle has verified down to `level`; a node is counted on the path of its first line. The check has
read the lines of those that it took from the Canopy. -/
def Dev.countNodes (d : Dev) (l : Ladder) (rs : List Rung) (level : Nat) : Dev :=
  let d := d.countChecked l level
  let mine := l.waiters.any fun w => match w with
    | .scrub id => (d.step1 id).any fun s => s.kind == .drizzle
    | _ => false
  if !l.check || !mine then d else
    { d with svc.drizzleNodes := d.svc.drizzleNodes + (rs.filter fun r => firstLine (nodeOf l.zone l.n r.level) = l.n).length }

/-- Place the rungs that verified, and below them the synthesised nodes of `path`, under the counter `v`; none for WAIT. A
check places nothing. -/
def Dev.placeFetched (d : Dev) (l : Ladder) (rs : List Rung) (path : List Nat) (v : Ctr) : Option Dev :=
  if l.check then some d else
    let ids := l.waiters.filterMap fun w => match w with | .access id => some id | _ => none
    ((d.placeRungs l rs).bind (Dev.synthPath l.zone l.n v path)).map fun e =>
      forAll rs (fun (r : Rung) e => e.walkedBy (nodeOf l.zone l.n r.level) ids) e

/-- A placement waits: the set is wanted for which it waits, and what its rungs have shown so far is not shown again (spec/09
R240). -/
def Dev.placeWaits (d : Dev) (l : Ladder) (rs : List Rung) (path : List Nat) (v : Ctr) : Dev :=
  let e := d.setLadder { l with rungs := l.rungs.map fun (x : Rung) => { x with attempts := min x.attempts 1 } }
  match (d.waitsFor l rs).orElse fun _ => Dev.synthWaits l.zone l.n v path ((d.placeRungs l rs).getD d) with
  | some x => e.wantSet x
  | none => e

/-- A node check of a step has ended. -/
def Dev.nodeChecked (d : Dev) (id : Nat) : Dev := d.updStep id fun s => { s with nodes := s.nodes - 1 }

def Dev.maintOf (d : Dev) (q pos : Nat) : Option Maint := d.can.maint.find? fun m => m.q == q && m.pos == pos

/-- A node error of the rung at `level` has been placed: what each waiter ends as. -/
def Dev.waiterPoisoned (w : Waiter) (d : Dev) : Dev :=
  match w with
  | .access id => (match d.acc id with | some a => d.endPoisoned a | none => d)
  | .writeBack _ => d
  | .mark y => { d with frs.marks := d.frs.marks.filter (· ≠ y) }
  | .pin q pos => (match d.maintOf q pos with | some m => d.maintEnd m .poisoned | none => d)
  | .scrub id => d.nodeChecked id

/-- Whether a ladder serves Drizzle (true) or SCRUB (false). -/
def Dev.checkOf (d : Dev) (l : Ladder) : Option Bool :=
  if !l.check then none else
    l.waiters.findSome? fun w =>
      let t : Option Step := match w with
        | .scrub id => d.step1 id
        | .access id => (d.acc id).bind d.stepOf
        | _ => none
      t.map fun t => t.kind == .drizzle

/-- A live rung lies on a retired channel: what each waiter ends as. -/
def Dev.waiterRetired (w : Waiter) (d : Dev) : Dev :=
  match w with
  | .access id => (match d.acc id with | some a => d.endRetired a | none => d)
  | .writeBack y => (match d.find y with | some k => if (d.can1 k).dirty then d.stick k else d | none => d)
  | .mark y => { d with frs.marks := d.frs.marks.filter (· ≠ y) }
  | .pin q pos => (match d.maintOf q pos with | some m => d.maintEnd m .busy | none => d)
  | .scrub id => d.nodeChecked id

/-- The path down to `low` is verified, or covered by a zero counter: each waiter goes on. Accesses that joined the fetch
before a maintenance operation held the node are not stopped by it (spec/09 R248). -/
def Dev.waiterGoes (l : Ladder) (level : Nat) (slot : Ctr) (w : Waiter) (d : Dev) : Dev :=
  match w with
  | .access id =>
    if l.check then
      (match d.acc id with
       | some a => (d.updAcc id fun x => { x with stage := .granted }).slotKnown a level slot
       | none => d)
    else
    let held := d.can.maint
    let e := ({ d with can.maint := [] }.updAcc id fun a => { a with stage := .granted }).proceed id
    { e with can.maint := held }
  | .writeBack y =>
    (match d.find y with | some k => if d.eligible (d.can1 k) && decide (d.wbCount < 256) then d.writeBackLine k else d | none => d)
  | .mark y => d.placeMark y
  | .pin q pos =>
    (match d.maintOf q pos with
     | none => d
     | some m =>
       if isPoison slot && decide (l.low < level) then d.maintEnd m .poisoned
       else if l.low < level then d.pinHere m (synth (if isZeroMark slot then slot else 0)) 0
       else match d.find m.node with
         | some k => d.pinHere m (d.can1 k).ctr (d.can1 k).mac
         | none =>
           match (l.rungs.find? fun r => r.level = l.low).bind (·.node) with
           | some n => d.pinHere m n.ctr n.mac
           | none => d.maintEnd m .busy)
  | .scrub id => d.nodeChecked id

/-- The levels at which a ladder inserts synthesised nodes below a zero counter at `level`: those down to the parent that a
write-back raises or a mark goes to (spec/08 R221, R224, R227). -/
def Ladder.synthLevels (l : Ladder) (level : Nat) (slot : Ctr) : List Nat :=
  if isZero slot && l.waiters.any fun w => match w with | .writeBack _ | .mark _ => true | _ => false
  then levelsDown level l.low else []

/-- A node has failed an attempt and is read again, for every ladder that holds what that attempt brought (spec/08 R219,
R220). -/
def Dev.readAgain (d : Dev) (x : NodeId) (seen : Option Node) : Dev :=
  let r := d.readNode x
  let again (l : Ladder) (y : Rung) : Rung :=
    if nodeOf l.zone l.n y.level = x && y.attempts != 0 && y.node.isSome && y.node == seen && !y.bad then
      { y with node := none, attempts := y.attempts + 1, limit := if y.attempts = 1 then d.med.retryLimit else y.limit
               retired := !r.2 }
    else y
  { r.1 with frs.ladders := r.1.frs.ladders.map fun (l : Ladder) => { l with rungs := l.rungs.map (again l) } }

/-- The rungs of a ladder that still waits, and the levels it reads now: what it lacks, and stale rungs whose node's
write-back has completed (spec/14 R392). -/
def Dev.renew (d : Dev) (l : Ladder) : List Rung × List Nat :=
  let x (r : Rung) : NodeId := nodeOf l.zone l.n r.level
  let writing (r : Rung) : Bool := match d.find (x r) with | some k => (d.can1 k).wb | none => false
  let need := d.lacking l
  let again := (l.rungs.filter fun r => r.stale && !writing r && !d.onPath l.nodes (x r)).map (·.level)
  (l.rungs.filter fun r => !need.contains r.level && (!r.stale || writing r), need ++ again)

/-- A verification that has come to an end. -/
def Dev.ladderEnds (d : Dev) (l : Ladder) (e : LadEnd) (rs : List Rung) : Dev :=
  match e with
  | .wait =>
    let p := (d.seenOf l).renew l
    let d := if l.check then d else d.beginFills l.zone l.n p.2
    let r := d.openRungs l.zone l.n p.2
    r.1.setLadder { l with rungs := p.1 ++ r.2 }
  | .retry level => d.readAgain (nodeOf l.zone l.n level) ((l.rungs.find? fun r => r.level = level).bind (·.node))
  | .error level cause =>
    let x := nodeOf l.zone l.n level
    (match d.placeFetched l rs [] 0 with
     | none => (d.rungRetries l rs).placeWaits l rs [] 0
     | some e =>
       let e := match d.checkOf l with | some z => e.finding z x.zone 2 x.level (64 * d.nodeAddr x) | none => e
       let e := (((e.rungRetries l rs).countNodes l rs level).dropLadder l.id).nodeError x cause
       (forAll l.waiters Dev.waiterPoisoned e).leafWaits)
  | .retiredAt level =>
    (match d.placeFetched l rs [] 0 with
     | none => (d.rungRetries l rs).placeWaits l rs [] 0
     | some e => (forAll l.waiters Dev.waiterRetired (((e.rungRetries l rs).countNodes l rs level).dropLadder l.id)).leafWaits)
  | .ok level slot =>
    let path := l.synthLevels level slot
    match d.placeFetched l rs path slot with
    | none => (d.rungRetries l rs).placeWaits l rs path slot
    | some e => forAll l.waiters (Dev.waiterGoes l level slot) (((e.rungRetries l rs).countNodes l rs level).dropLadder l.id)

/-- LADDER_VERIFY_DONE. `err`: what the check bits of the Canopy or of the Zenith store show to it (spec/09 R237, R238,
spec/08 R230); `key`: those of the zone's key (spec/11 R313). -/
def execLadderVerifyDone (id : Nat) (err : Option CanErr) (key : Option (KeyRef × Bool)) (s : State) :
    Host.Outcome State Fault Refusal :=
  s.serve fun d =>
    match d.frs.ladders.find? fun l => l.id = id with
    | none => d
    | some l =>
      let d := (d.canopyError err).keyError key
      match d.frs.ladders.find? fun x => x.id = l.id with
      | none => d.trimStaging.pumpMaint.pumpAdopt
      | some l =>
        let d := d.countAnchor l.zone l.n l.low
        let v := (d.seenOf l).verify l
        ((d.ladderEnds l v.1 v.2).trimStaging.pumpMaint).pumpAdopt

/-! ### Credits from the peers (spec/02 R32) -/

/-- CREDIT_RETURN: credits beyond the sender's maximum are lost. In the safe state only the fabric's channels go on. -/
def Dev.credit (d : Dev) (live : Bool) : CreditCh → Dev
  | .rsp p => if !d.up (domFtx p) then d else d.setPort p { d.port p with rsp := min 255 ((d.port p).rsp + 1) }
  | .rdat p => if !d.up (domFtx p) then d else d.setPort p { d.port p with rdat := min 255 ((d.port p).rdat + 1) }
  | .wchk p =>
    if !d.up (domFrx p) then d else
      let e := d.setPort p { d.port p with wchk := min 255 ((d.port p).wchk + 1) }
      if live then pumpWchk 1 p e else e
  | .rtag p =>
    if !d.up (domFtx p) then d else
      let e := d.setPort p { d.port p with rtag := min 255 ((d.port p).rtag + 1) }
      if live then pumpRtag 1 p e else e
  | .mcmd n =>
    if !d.up (domMch n) then d else
      let e := d.setChan n { d.chan n with mcmd := min 1024 ((d.chan n).mcmd + 1) }
      if live && !e.retired n then e.pumpMedia n else e
  | .mwd n =>
    if !d.up (domMch n) then d else
      let e := d.setChan n { d.chan n with mwd := min 1024 ((d.chan n).mwd + 1) }
      if live && !e.retired n then e.pumpMedia n else e
  | .hdmaWr =>
    if !d.up domHdma then d else
      let e := { d with qmg.wrCredit := min 255 (d.qmg.wrCredit + 1) }
      if live then e.pumpVecs else e
  | .hdmaRd =>
    if !d.up domHdma then d else
      let e := { d with qmg.rdCredit := min 255 (d.qmg.rdCredit + 1) }
      if live then e.pumpHdma else e

def execCreditReturn (c : CreditCh) (s : State) : Host.Outcome State Fault Refusal :=
  s.act fun d => d.credit (!s.safe.active) c

/-! ### Register rows of FRS (spec/08 R211, R232) -/

def wFrsMetaBaseLo : Nat := 0xA0000 / 4

/-- FRS_META_BASE_HI, or FRS_ZONE_LIMIT. While a MEASURE runs they are ignored, because it measures them (DESIGN CHOICE, log
140). -/
def execFrsMetaBaseWrite (limit : Bool) (v : Word32) (s : State) : Host.Outcome State Fault Refusal :=
  s.core fun d =>
    let lo := d.mgt.loHeld.get wFrsMetaBaseLo
    let b := if limit then d.frs.metaBase else bits v 14 0 * 2 ^ 32 + bits lo 31 30 * 2 ^ 30
    let z := if limit then bits v 13 0 else d.frs.zoneLimit
    if !d.measuring && d.frs.zones.all (fun p => p.2.st == .offline) && decide (z ≤ 8192 ∧ z * 2 ^ 33 ≤ b ∧ b + z * 0x50000000 ≤ 2 ^ 47)
    then { d with frs.metaBase := b, frs.zoneLimit := z } else { d with frs.cfgIgn := true }

def execFrsCntClr (v : Word32) (s : State) : Host.Outcome State Fault Refusal :=
  s.core fun d => if bit v 0 then { d with frs.exhCnt := 0, frs.nodePoisonCnt := 0, frs.linePoisonCnt := 0 } else d

end Machine
end Sys2Proof
end

