-- ==== Sys2Proof/Machine/KeyRows.lean ====
section
/-! DEFINITION. The rows of the key store: KEY_INSTALL, KEY_GENERATE, KEY_DESTROY and its steps, KEK_LOAD,
SESSION_KEY_INSTALL, MEASURE (spec/11 R286-R300, R310-R313, spec/13 R368, R369, R377). The operand `key` of a row says what
the check bits of a key entry that it reads show. -/

namespace Sys2Proof
namespace Machine

def execKeyInstall (q : BitVec 14) (pos : BitVec 16) (key : Option (KeyRef × Bool)) (s : State) :
    Host.Outcome State Fault Refusal :=
  s.serve fun d => d.keyCommand q.toNat pos cKeyInstall false fun x d =>
    let d := d.keyError key
    if fragFlag x.entry then
      let r := runBatch keyElem 96 65537 0 x.buf d
      r.1.finish q.toNat pos r.2
    else
      let r := d.keyInstall (num x.entry 8 2) (num x.entry 10 1) 0 10 (slice x.buf 0 80)
      r.1.finish q.toNat pos r.2

/-- KEY_GENERATE: draw, wrap, write the blob; the slot loads once the blob is written (spec/11 R296). -/
def execKeyGenerate (q : BitVec 14) (pos : BitVec 16) (key : Option (KeyRef × Bool)) (s : State) :
    Host.Outcome State Fault Refusal :=
  s.serve fun d => d.keyCommand q.toNat pos cKeyGenerate false fun x d =>
    let e := x.entry
    let d := d.keyError key
    match (d.kekBad (num e 10 1) 0 10).orElse fun _ => d.slotBad (num e 8 2) with
    | some c => d.finish q.toNat pos c
    | none =>
      let d := d.noteDue
      match d.draw 64 true with
      | .wait => d.waitDraw q.toNat pos
      | .fail => d.finish q.toNat pos noEntropy
      | .got b d =>
        let tag := BitVec.ofNat 8 (num e 11 1)
        let k := drawnSlot b tag
        let blob := keyWrap (d.key.keks.get (num e 10 1)).key ([1#8, 1#8, tag, 0#8] ++ b)
        (d.keepDrawn q.toNat pos.toNat b).finishWith q.toNat pos (Cpl.ok (slotKcv k)) [(num e 16 8, blob)]

/-- KEK_LOAD in DERIVE mode (spec/11 R293, R300). -/
def execKekLoadDerive (q : BitVec 14) (pos : BitVec 16) (s : State) : Host.Outcome State Fault Refusal :=
  s.serve fun d =>
    match d.readyEntry q.toNat pos cKekLoad with
    | none => d
    | some y =>
      if num y.entry 9 1 ≠ 0 then d else d.keyCommand q.toNat pos cKekLoad true fun x d =>
        let j := num x.entry 8 1
        if (d.key.keks.get j).loaded then d.finish q.toNat pos .exists else
          let u := num x.entry 10 1
          let ctx := leBytes 32 (num x.entry 12 32)
          let k := bytesKey (d.derive "DN512 KEK" (ctx ++ [BitVec.ofNat 8 u]) 32)
          let d := if d.lifecycle = 0 then d else
            { d with key.keks := d.key.keks.put j ⟨true, k, decide (u = 1), false, ctx⟩ }
          d.finish q.toNat pos (Cpl.ok (kcv k))

/-- KEK_LOAD in UNWRAP mode; an undefined MODE ends in its operand check. -/
def execKekLoadUnwrap (q : BitVec 14) (pos : BitVec 16) (key : Option (KeyRef × Bool)) (s : State) :
    Host.Outcome State Fault Refusal :=
  s.serve fun d =>
    match d.readyEntry q.toNat pos cKekLoad with
    | none => d
    | some y =>
      if num y.entry 9 1 = 0 then d else d.keyCommand q.toNat pos cKekLoad false fun x d =>
        let j := num x.entry 8 1
        let d := d.keyError key
        match (d.kekBad (num x.entry 11 1) 0 11).orElse fun _ => if (d.key.keks.get j).loaded then some .exists else none with
        | some c => d.finish q.toNat pos c
        | none =>
          match unwrapBlob (d.key.keks.get (num x.entry 11 1)).key 3 36 (slice x.buf 0 48) with
          | .bad c u => let r := d.unwrapEnds c u; r.1.finish q.toNat pos r.2
          | .ok pt =>
            if 1 < field pt 2 1 ∨ field pt 3 1 ≠ 0 then d.finish q.toNat pos (Cpl.invalid 2 0) else
              let k := bytesKey (slice pt 4 32)
              ({ d with key.keks := d.key.keks.put j ⟨true, k, decide (field pt 2 1 = 1), true, List.replicate 32 0⟩ }).finish
                q.toNat pos (Cpl.ok (kcv k))

/-- SESSION_KEY_INSTALL (spec/11 R297). -/
def execSessionKeyInstall (q : BitVec 14) (pos : BitVec 16) (key : Option (KeyRef × Bool)) (s : State) :
    Host.Outcome State Fault Refusal :=
  s.serve fun d => d.keyCommand q.toNat pos cSessionKey false fun x d =>
    let g := num x.entry 8 2
    let dir := num x.entry 10 1
    let r := num x.entry 11 1
    let d := d.keyError key
    match (d.kekBad (num x.entry 12 1) 0 12).orElse fun _ => if d.regNamed g dir r then some .busy else none with
    | some c => d.finish q.toNat pos c
    | none =>
      match unwrapBlob (d.key.keks.get (num x.entry 12 1)).key 2 36 (slice x.buf 0 48) with
      | .bad c u => let r := d.unwrapEnds c u; r.1.finish q.toNat pos r.2
      | .ok pt =>
        if field pt 2 1 ≠ g ∨ field pt 3 1 ≠ dir then d.finish q.toNat pos (Cpl.invalid 2 0) else
          let k := bytesKey (slice pt 4 32)
          let d := { d with key.regs := d.key.regs.put (regIndex g dir r) (some k) }
          let d := d.updSession g fun s => if dir = 0 then { s with rxFailed := false } else { s with txFailed := false }
          d.finish q.toNat pos (Cpl.ok (kcv k))

def execKeyDestroy (q : BitVec 14) (pos : BitVec 16) (s : State) : Host.Outcome State Fault Refusal :=
  s.serve fun d => d.keyCommand q.toNat pos cKeyDestroy false fun x d =>
    match d.destroyBad x.entry with
    | some c => d.finish q.toNat pos c
    | none =>
      let t := destroyTarget x.entry
      let d := d.running q.toNat pos
      let (d, sent) := match t with
        | .slot i => ({ d with key.slots := d.key.slots.upd i fun k => { k with st := .draining } }, false)
        | .reg _ => (d.overwrite t, true)
        | .kek _ => (d, false)
      { d with key.destroys := d.key.destroys ++ [⟨q.toNat, pos.toNat, t, sent⟩] }

def execKeyDrained (q : BitVec 14) (pos : BitVec 16) (s : State) : Host.Outcome State Fault Refusal :=
  s.serve fun d =>
    match d.destroy1 q.toNat pos.toNat with
    | none => d
    | some x =>
      if x.sent || d.targetUsed x.target then d else
        { d.overwrite x.target with key.destroys := d.key.destroys.map fun (y : Destroy) =>
            if y.q = x.q ∧ y.pos = x.pos then { y with sent := true } else y }

def execZeroisationConfirm (q : BitVec 14) (pos : BitVec 16) (s : State) : Host.Outcome State Fault Refusal :=
  s.serve fun d =>
    match d.destroy1 q.toNat pos.toNat with
    | none => d
    | some x =>
      if !x.sent || d.laneHolds x.target then d else
        ({ d.emptyKey x.target with key.destroys := d.key.destroys.filter fun y => !(y.q == x.q && y.pos == x.pos) }).finish
          q.toNat pos (Cpl.ok 0)

def execKeyZeroiseTimeout (q : BitVec 14) (pos : BitVec 16) (s : State) : Host.Outcome State Fault Refusal :=
  s.serve fun d =>
    match d.destroy1 q.toNat pos.toNat with
    | none => d
    | some x => if x.sent then d.raise bKey 14 else d

/-- MEASURE arrives at KEY, STL and RMP, once (spec/11 R312). -/
def Dev.measureArrives (d : Dev) (q : Nat) (pos : QPos) : Dev :=
  let d := d.keyArrives q pos
  if d.rmp.cmds.contains (q, pos) || d.rmp.held.contains (q, pos) then d else (d.queueStl (q, pos, [])).queueRmp (q, pos)

/-- Every stream and region command that arrived before it has ended. -/
def Dev.measureFirst (d : Dev) (q : Nat) (pos : QPos) : Bool :=
  (d.stl.cmds.head?.any fun c => c.1 == q && c.2.1 == pos) && d.rmp.cmds.head? == some (q, pos)

/-- MEASURE waits as a region command and as a stream command do, and as key commands do, and runs in one step; those that
arrive after it wait until it has ended (spec/11 R312). One that arrives while a restore changes zones and regions waits for its
end (DESIGN CHOICE, log 139). -/
def execMeasure (q : BitVec 14) (pos : BitVec 16) (key : Option (KeyRef × Bool)) (zenith : Bool) (s : State) :
    Host.Outcome State Fault Refusal :=
  s.serve fun d =>
    if (d.readyEntry q.toNat pos cMeasure).isNone then d else
      let d := d.pumpTables.measureArrives q.toNat pos
      if !d.measureFirst q.toNat pos || d.restoreRuns then d else
        (d.keyCommand q.toNat pos cMeasure false fun x d =>
          let d := (d.zenithRead zenith).keyError key
          d.finishWith q.toNat pos (Cpl.ok 0)
            [(num x.entry 40 8 / 64 * 64, d.measurement (leBytes 32 (num x.entry 8 32)) (num x.entry 40 8 % 64))]).pumpTables

/-- Where a MEASURE has ended since `d`, what waited for it goes on: service commands that end, an adoption and the checkpoints
after it, a restore (spec/11 R312). -/
def Dev.afterMeasure (d e : Dev) : Dev :=
  if !d.measuring || e.measuring then e else
    let e := (forAll e.svc.cmds (fun c x => x.svcCheck c.q c.pos) e).ckptNext
    if e.key.drbg.instantiated then e.drbgUp else e

/-- HDMA_WRITE_ACK: a WACK frees its tag. In the safe state the answer is discarded (spec/15 R423). -/
def execHdmaWriteAck (tag : BitVec 8) (err : Bool) (s : State) : Host.Outcome State Fault Refusal :=
  s.act fun d =>
    match d.qmg.wrOut.get tag.toNat with
    | none => d
    | some w =>
      let e := { d with qmg.wrOut := d.qmg.wrOut.put tag.toNat none }
      if s.safe.active then e else d.afterMeasure (e.writeEnds w err).hostGoesOn

/-- Every transfer of the host fails; a MEASURE may end so. -/
def Dev.hostLost (d : Dev) (squall : Bool) : Dev :=
  let e := d.hdmaFail squall
  if squall then e else d.afterMeasure e

end Machine
end Sys2Proof
end

