-- ==== Sys2Proof/Machine/Regs.lean ====
section
/-! DEFINITION. The register window (spec/18): what each register reads as, what a write to it does, the pairs of
spec/00 R8 and R9, and the features of spec/13 R362. -/

namespace Sys2Proof
namespace Machine

/-! ### Offsets -/

/-- The value a list of (offset, value) gives for an offset. -/
def look (o : Nat) : List (Nat × Word32) → Option Word32
  | [] => none
  | (k, v) :: r => if o = k then some v else look o r

/-- The index of an array of `n` registers at an offset (spec/18 R469). -/
def arrIx (o base stride n : Nat) : Option Nat :=
  if base ≤ o ∧ (o - base) % stride = 0 ∧ (o - base) / stride < n then some ((o - base) / stride) else none

/-- A register of an array. -/
def arr (o base stride n : Nat) (f : Nat → Word32) : Option Word32 := (arrIx o base stride n).map f

def w32 (n : Nat) : Word32 := BitVec.ofNat 32 n
/-- Bits [31:0] and [63:32] of a value held in a pair. -/
def lo32 (n : Nat) : Word32 := w32 n
def hi32 (n : Nat) : Word32 := w32 (n / 2 ^ 32)

def Evq.word (e : Evq) : Word32 := pk [(31, flag e.valid), (0, e.qid.toNat)]
def evqOf (v : Word32) : Evq := { valid := bit v 31, qid := v.extractLsb' 0 14 }

/-- A word of one bit for each source of a bank. -/
def bitWord (n w : Nat) (f : Nat → Bool) : Word32 :=
  w32 (((List.range 32).filter fun i => decide (32 * w + i < n) && f (32 * w + i)).foldl (fun a i => a + 2 ^ i) 0)

/-! ### Fault banks (spec/15 R427, R428; spec/18 R471) -/

/-- Words of an array of bits and of FLT_CLASS. -/
def bitWords (b : Nat) : Nat := (sources b + 31) / 32
def classWords (b : Nat) : Nat := (sources b + 15) / 16

def Bank.read (x : Bank) (b o : Nat) : Option Word32 :=
  look o [(0, x.firstLo), (4, x.firstHi), (8, w32 (flag x.ovf)), (12, pk [(31, flag x.vecEn), (0, x.vec.toNat)])]
  <|> arr o 0x100 4 (bitWords b) (fun w => bitWord (sources b) w fun k => decide (k ∈ x.live))
  <|> arr o 0x200 4 (bitWords b) (fun _ => 0)
  <|> arr o 0x300 4 (bitWords b) (fun w => bitWord (sources b) w fun k => x.masked b k)
  <|> arr o 0x400 4 (classWords b) (fun w =>
        pk (((List.range 16).filter fun i => decide (16 * w + i < sources b)).map fun i => (2 * i, x.cls b (16 * w + i))))

/-- The bank whose registers lie at a byte offset of the window, and the offset within them. -/
def bankAt (a : Nat) : Option (Nat × Nat) :=
  let k := a / 0x10000
  if a % 0x10000 < 0xF000 ∨ k % 2 = 1 ∨ 0x1A < k then none
  else some (if k = 0 then 13 else k / 2 - 1, a % 0x10000 - 0xF000)

/-! ### The blocks -/

def laneWord (l : Lane) : Word32 := pk [(16, l.mismatches), (8, l.katFails), (0, l.st.code)]
def clkWord (m : ClkMeas) : Word32 := pk [(31, flag m.valid), (30, flag m.lost), (0, m.freq.toNat)]

/-- The blocks of the REG domain (spec/17 R466, spec/03 R95-R98). -/
def Dev.mgtRead (d : Dev) (resetCause : BitVec 3) (a : Nat) : Option Word32 :=
  look a
    [(0x0, 0x05121000#32),
     (0x4, pk [(20, d.mgt.lanesOk), (17, 7), (16, flag (bit (d.mgt.fuse.getD 8 0) 3)), (12, 3), (10, 3), (8, 3)]),
     (0x8, pk [(31, flag d.mgt.ready), (30, flag d.mgt.suspended), (27, d.mgt.phase.code)]),
     (0x10000, w32 resetCause.toNat),
     (0x10008, lo32 d.mgt.domReset.toNat), (0x1000C, hi32 d.mgt.domReset.toNat),
     (0x10010, lo32 d.mgt.clkOk.toNat), (0x10014, hi32 d.mgt.clkOk.toNat),
     (0x10020, w32 d.mgt.clusterGate.toNat),
     (0x10024, pk ((List.range 9).map fun k => (k, flag (d.gated k)))),
     (0x1C0000, pk [(1, d.lifecycle), (0, flag (bit (d.mgt.fuse.getD 8 0) 0))]),
     (0x1C0004, 0x105129A7#32),
     (0x1C0008, pk [(16, d.tap.denied), (9, flag d.tap.sibKat), (8, flag d.tap.sibReg), (0, d.tap.ir.toNat)])]
  <|> arr a 0x10100 4 60 (fun n => clkWord (d.mgt.clkMeas.get n))

def Dev.fabRead (d : Dev) (a : Nat) : Option Word32 :=
  look a
    [(0x20000, if d.lifecycle = 0 then 0 else w32 d.fab.portEn.toNat), (0x20004, w32 d.fab.winTimeout),
     (0x20008, pk [(16, d.writesInFlight), (0, d.readsInFlight)]), (0x2000C, 0)]
  <|> arr a 0x20100 16 8 (fun n => w32 (d.port n).accErr)
  <|> arr a 0x20104 16 8 (fun n => w32 (d.port n).poison)
  <|> arr a 0x20108 16 8 (fun n => w32 (d.port n).linkErr)
  <|> arr a 0x2010C 16 8 (fun n => w32 (d.port n).ktag)

def Dev.stlRead (d : Dev) (a : Nat) : Option Word32 :=
  look a
    [(0x40000, w32 d.stl.relocLimit), (0x40004, w32 d.stl.parkTimeout), (0x40008, w32 d.stl.agePeriod),
     (0x4000C, d.stl.learnEvq.word),
     (0x40010, pk [(31, flag d.stl.cfgIgn), (30, flag (d.stl.setA.clearing || d.stl.setB.clearing)),
                   (29, flag d.stl.move.isSome), (20, d.stl.reject.length), (10, d.stl.filter.length),
                   (0, (d.fab.accs.filter fun a => a.stage == .parked).length)]),
     (0x40014, 0), (0x40018, 0), (0x4001C, w32 d.stl.evictCnt), (0x40040, 0)]
  <|> arr a 0x40020 16 2 (fun s => w32 (d.stlSet s).size.toNat)
  <|> arr a 0x40024 16 2 (fun s => (d.stlSet s).seed0)
  <|> arr a 0x40028 16 2 (fun s => (d.stlSet s).seed1)
  <|> arr a 0x4002C 16 2 (fun s => w32 (d.stlSet s).tab.length)
  <|> arr a 0x40100 16 8 (fun n => w32 (d.stl.rejectCnt.get n))
  <|> arr a 0x40104 16 8 (fun n => w32 (d.stl.timeoutCnt.get n))
  <|> arr a 0x40108 16 8 (fun n => w32 (d.stl.parkfullCnt.get n))

def Dev.rmpRead (d : Dev) (a : Nat) : Option Word32 :=
  look a
    [(0x68000, d.rmp.gen),
     (0x68004, pk [(31, flag d.rmp.cfgIgn), (30, flag (d.rmp.setA.clearing || d.rmp.setB.clearing)),
                   (29, flag d.rmp.swap.isSome), (0, (Tab.which d.rmp.rekey fun r => r.st != .idle).length)]),
     (0x68008, 0), (0x6800C, w32 d.oldInFlight)]
  <|> arr a 0x60000 0x10000 2 (fun s => w32 (d.rmpSet s).fmt.toNat)
  <|> arr a 0x60004 0x10000 2 (fun s => w32 (d.rmpSet s).tab.length)

def Dev.lanRead (d : Dev) (a : Nat) : Option Word32 :=
  look a
    [(0x80000, pk [(31, flag d.auditFallback), (16, d.auditor.getD 63), (8, (d.lanesIn LaneSt.spare).length), (0, d.activeLanes)]),
     (0x80004, pk [(31, flag d.lan.auditEn), (0, d.lan.auditInterval)]), (0x80008, w32 d.lan.katPeriod),
     (0x80010, 0), (0x80014, 0), (0x80018, lo32 d.lan.auditCnt), (0x8001C, hi32 d.lan.auditCnt),
     (0x80020, w32 d.lan.mismatchCnt)]
  <|> arr a 0x80100 4 36 (fun i => laneWord (d.lane i))

/-- ROOT reads 0 while the zone is OFFLINE, FORMATTING or SANITIZING (spec/08 R232). -/
def Zone.rootShown (z : Zone) : Nat :=
  match z.st with
  | .online | .quarantined => z.root.toNat
  | _ => 0

def Dev.zonesIn (d : Dev) (st : ZoneSt) : Nat := (Tab.which d.frs.zones fun z => z.st == st).length

/-- Node-MAC units busy: ladders whose beats are all in and whose check is not done, of 16 units (spec/08 R222, R232). -/
def Dev.macBusy (d : Dev) : Nat := min 16 (d.frs.ladders.filter fun l => (d.verify l).1 != .wait).length

def Dev.frsRead (d : Dev) (a : Nat) : Option Word32 :=
  let z := d.zone d.frs.zoneSel
  look a
    [(0xA0000, lo32 d.frs.metaBase), (0xA0004, hi32 d.frs.metaBase), (0xA0008, w32 d.frs.zoneLimit), (0xA000C, d.frs.evq.word),
     (0xA0010, pk [(31, flag d.frs.cfgIgn), (30, flag d.frs.evtLost), (16, d.macBusy), (0, d.frs.ladders.length)]),
     (0xA0014, pk [(16, d.zonesIn .quarantined), (0, d.zonesIn .online)]),
     (0xA0020, w32 d.frs.zoneSel), (0xA0024, w32 z.st.code),
     (0xA0028, lo32 z.rootShown), (0xA002C, hi32 z.rootShown), (0xA0030, lo32 z.ceil.toNat), (0xA0034, hi32 z.ceil.toNat),
     (0xA0040, w32 d.frs.exhCnt), (0xA0044, w32 d.frs.nodePoisonCnt), (0xA0048, w32 d.frs.linePoisonCnt), (0xA004C, 0)]

def Dev.canRead (d : Dev) (a : Nat) : Option Word32 :=
  let ls (f : CanLine → Bool) := (d.can.lines.filter fun p => decide (p.1 < staging) && f p.2).length
  look a
    [(0xC0000, w32 (flag d.can.en)),
     (0xC0004, pk [(31, flag d.can.cfgIgn), (30, flag d.can.draining), (29, flag d.can.drainStopped),
                   (28, flag (!d.can.en && !d.can.draining)), (0, d.wbCount)]),
     (0xC0008, w32 d.can.pinWays), (0xC000C, w32 d.can.budgetMib), (0xC0010, w32 d.dirtyCount),
     (0xC0014, w32 (ls CanLine.valid)), (0xC0018, w32 (ls fun c => c.pinned && !c.fill)), (0xC001C, w32 (ls fun c => c.stuck)),
     (0xC0020, 0), (0xC0028, lo32 d.can.hit), (0xC002C, hi32 d.can.hit), (0xC0030, lo32 d.can.miss), (0xC0034, hi32 d.can.miss),
     (0xC0038, 0)]
  <|> arr a 0xC0100 4 32 (fun b =>
        let ws := (List.range 16).filter fun w => (d.can.ways.get (16 * b + w)).disabled
        pk ((16, ws.length) :: ws.map fun w => (w, 1)))

def Dev.medRead (d : Dev) (a : Nat) : Option Word32 :=
  look a [(0xE0000, w32 d.med.retryLimit), (0xE0004, w32 d.med.threshold), (0xE0008, 0)]
  <|> arr a 0xE0100 4 16 (fun n =>
        let c := d.chan n
        pk [(31, flag c.retired), (29, c.cause), (16, c.bucket), (0, c.transients)])

def entWord (e : Ent) : Word32 := pk [(30, e.st.code), (8, e.rct), (0, e.apt)]

def Dev.keyRead (d : Dev) (a : Nat) : Option Word32 :=
  look a
    [(0x100000, pk ([(31, flag d.key.seedZero), (28, d.key.drbg.st.code)] ++
                    (List.range 8).map fun n => (n, flag ((d.key.ent.get n).st == .ok)))),
     (0x100004, w32 d.key.reseedLog2), (0x100008, 0), (0x10000C, w32 d.key.entEn.toNat),
     (0x100010, w32 (Tab.which d.key.slots fun k => k.st == .loaded).length),
     (0x100014, w32 (Tab.which d.key.regs fun k => k.isSome).length),
     (0x100018, pk ((List.range 16).flatMap fun j =>
       [(16 + j, flag ((d.key.keks.get j).loaded && (d.key.keks.get j).transport)), (j, flag (d.key.keks.get j).loaded)])),
     (0x10001C, w32 d.key.unwrapCnt), (0x100020, w32 d.key.reseedCnt), (0x100024, 0)]
  <|> arr a 0x100100 4 8 (fun n => entWord (d.key.ent.get n))

def vecCtrl (x : Vec) : Word32 :=
  pk [(31, flag x.loaded), (30, flag x.pend), (29, flag x.mask), (16, x.time), (8, min 255 x.n), (0, x.count)]

def Dev.qmgRead (d : Dev) (a : Nat) : Option Word32 :=
  look a
    [(0x120000, 0xF4F#32),
     (0x120004, pk [(31, flag d.qmg.cfgIgn), (30, flag (decide (d.qmg.vecLoading ≠ 0))), (29, flag d.drainBusy),
                    (28, flag d.mgt.holdoff), (0, d.cacheUsed)]),
     (0x120008, lo32 d.qmg.admqBase), (0x12000C, hi32 d.qmg.admqBase), (0x120010, d.qmg.admqCfg), (0x120014, 0),
     (0x120018, w32 d.qmg.scanPeriod),
     (0x12001C, pk [(16, (Tab.which d.qmg.queues fun q => q.st == .error).length),
                    (0, (Tab.which d.qmg.queues fun q => q.st != .none).length)]),
     (0x120020, lo32 d.qmg.vecBase), (0x120024, hi32 d.qmg.vecBase), (0x120028, 0)]
  <|> arr a 0x124000 16 2048 (fun n => lo32 (d.vec n).addr.toNat)
  <|> arr a 0x124004 16 2048 (fun n => hi32 (d.vec n).addr.toNat)
  <|> arr a 0x124008 16 2048 (fun n => (d.vec n).data)
  <|> arr a 0x12400C 16 2048 (fun n => vecCtrl (d.vec n))

def Dev.svcRead (d : Dev) (a : Nat) : Option Word32 :=
  look a
    [(0x140000, pk [(31, flag d.svc.slotOvf), (30, flag d.svc.evtLost), (24, d.svc.retire.length), (20, d.fab.holds.length),
                    (16, (d.svc.steps.filter fun x => x.kind == .front).length),
                    (0, (d.svc.cmds.filter fun c => c.running).length)]),
     (0x140004, d.svc.evq.word), (0x140008, w32 d.svc.frontRate),
     (0x14000C, pk [(31, flag d.svc.drizzleEn), (0, d.svc.drizzleRate)]), (0x140010, w32 d.svc.bulkRate),
     (0x140014, w32 d.svc.drizzleZone), (0x140018, w32 d.svc.drizzlePasses), (0x140020, w32 d.svc.skipCnt),
     (0x140024, w32 d.svc.foreignCnt), (0x140028, w32 d.svc.findingCnt), (0x14002C, w32 d.svc.unattrCnt), (0x140030, 0)]

def Dev.perRead (d : Dev) (a : Nat) : Option Word32 :=
  look a
    [(0x160000, w32 d.per.periodMin), (0x160004, d.per.evq.word), (0x160008, lo32 d.per.anchorBase),
     (0x16000C, hi32 d.per.anchorBase),
     (0x160010, pk [(31, flag d.per.cfgIgn), (30, flag d.per.armed), (29, flag d.per.pfwDone), (26, d.perPhase),
                    (25, flag d.per.armFail), (24, flag d.per.evtLost), (0, d.per.opened.length)]),
     (0x160014, 0), (0x160018, lo32 d.per.seq.toNat), (0x16001C, hi32 d.per.seq.toNat),
     (0x160020, lo32 d.per.ckptTime.toNat), (0x160024, hi32 d.per.ckptTime.toNat),
     (0x160028, w32 d.per.ckptCnt), (0x16002C, w32 d.per.failCnt), (0x160030, w32 d.per.adoptCnt), (0x160034, 0)]

/-- FLT_SQ_STAT, FLT_SQ_TIME, FLT_DRILL and FLT_EVQ, FLT_STAT (spec/15 R429, R430). -/
def State.fltRead (s : State) (a : Nat) : Option Word32 :=
  look a
    [(0x180000, pk [(31, flag s.safe.active), (29, s.safe.cls.toNat), (28, flag s.safe.zeroised), (16, s.safe.bank), (0, s.safe.src)]),
     (0x180004, lo32 s.safe.time.toNat), (0x180008, hi32 s.safe.time.toNat),
     (0x18000C, pk [(24, s.safe.drillCnt), (0, flag s.drillOn)]),
     (0x180010, s.dev.qmg.fltEvq.word), (0x180014, pk [(31, flag s.dev.qmg.fltLost)])]

/-- DEL_MEMBERS. -/
def Dev.memberBits (d : Dev) : Nat := (Tab.which d.del.members fun m => m.st == .member).foldl (fun a p => a + 2 ^ p) 0

def linkWord (l : Link) : Word32 := pk [(30, l.st.code), (28, if l.st == .up then l.version else 0), (16, l.peer.toNat), (0, l.errs)]

def Dev.delRead (d : Dev) (a : Nat) : Option Word32 :=
  look a
    [(0x1A0000, pk ([(30, d.del.gstate.code), (29, flag d.del.inPool), (28, flag (d.del.inPool && d.del.group.isSome && d.isCoord)),
                     (27, flag d.poolCkpt), (26, flag d.del.evtLost)] ++
                    ((List.range 4).map fun n => (16 + n, flag ((d.link n).st == .up))) ++
                    [(8, d.del.poolId.toNat), (0, (d.del.group.getD 0).toNat)])),
     (0x1A0004, d.del.evq.word), (0x1A0008, pk [(8, d.del.hbTimeout), (0, d.del.hbPeriod)]), (0x1A000C, w32 d.del.txnTimeout),
     (0x1A0010, lo32 d.del.ident.toNat), (0x1A0014, hi32 d.del.ident.toNat),
     (0x1A0018, lo32 d.del.pck.toNat), (0x1A001C, hi32 d.del.pck.toNat),
     (0x1A0020, lo32 d.memberBits), (0x1A0024, hi32 d.memberBits)]
  <|> arr a 0x1A0100 4 4 (fun n => linkWord (d.link n))

/-- A word of the queue-context view (spec/12 R353, spec/18 R472); none past 0x18 of each group. -/
def Queue.view (x : Queue) (o : Nat) : Option Word32 :=
  look o
    [(0x0, pk [(29, x.st.code), (27, x.ty.code), (26, flag x.scanOnly), (24, x.fmt.toNat), (20, x.log2), (11, flag x.vecEn), (0, x.vec.toNat)]),
     (0x4, lo32 x.base), (0x8, hi32 x.base), (0xC, pk [(16, x.tail.toNat), (0, x.head.toNat)]),
     (0x10, if x.st == .error then pk [(28, x.cause), (0, x.pos.toNat)] else 0),
     (0x14, pk [(8, x.cached.length), (0, x.exec.length)]), (0x18, x.done)]

def Dev.ctxRead (d : Dev) (a : Nat) : Option Word32 :=
  if 0x200000 ≤ a ∧ a < 0x300000 then
    let x := d.queue ((a - 0x200000) / 64)
    (x.view ((a - 0x200000) % 64)).map fun v => if x.st == .none then 0 else v
  else none

/-- A doorbell slot: its first word (spec/18 R473). -/
def slotAt (a : Nat) : Option Nat :=
  if 0x800000 ≤ a ∧ a < 0x820000 ∧ a % 8 = 0 then some ((a - 0x800000) / 8) else none

/-- The register at a byte offset, none where no register lies (spec/00 R10). -/
def State.regAt (s : State) (a : Nat) : Option Word32 :=
  match bankAt a with
  | some (b, o) => (s.flt.banks.get b).read b o
  | none =>
    let d := s.dev
    let k := a / 0x20000
    if k = 0 ∨ k = 14 ∨ k = 15 then d.mgtRead s.safe.resetCause a
    else if k = 1 then d.fabRead a else if k = 2 then d.stlRead a else if k = 3 then d.rmpRead a
    else if k = 4 then d.lanRead a else if k = 5 then d.frsRead a else if k = 6 then d.canRead a
    else if k = 7 then d.medRead a else if k = 8 then d.keyRead a else if k = 9 then d.qmgRead a
    else if k = 10 then d.svcRead a else if k = 11 then d.perRead a else if k = 12 then s.fltRead a
    else if k = 13 then d.delRead a
    else match slotAt a with
      | some _ => some 0
      | none => d.ctxRead a

/-! ### Who answers (spec/02 R64, spec/17 R453, spec/18 R467, R468) -/

/-- The domains a register needs. -/
def regDoms (a : Nat) : List Nat :=
  match bankAt a with
  | some (b, _) => if b = bFlt then [domSafe] else [domCore]
  | none =>
    if a = 0x10000 then [domSafe] else if a = 0x10024 then [domCore] else if a = 0x1C0008 then [domDbg]
    else if a < 0x20000 ∨ (0x1C0000 ≤ a ∧ a < 0x200000) then []
    else if 0x180000 ≤ a ∧ a ≤ 0x18000C then [domSafe]
    else match arrIx a 0x80100 4 36, arrIx a 0x100100 4 8, arrIx a 0x1A0100 4 4 with
      | some i, _, _ => [clusterOf i]
      | _, some n, _ => [domEnt n]
      | _, _, some n => [domPel n]
      | _, _, _ => if (slotAt a).isSome then [domHdma, domCore] else [domCore]

/-- Offsets served before READY. -/
def regEarly (a : Nat) : Bool := a < 0x20000 || (0x1C0000 ≤ a && a < 0x200000) || (0x180000 ≤ a && a ≤ 0x18000C)

/-- An access is turned away with REG_RSP_ERR = 1. -/
def State.regErr (s : State) (a : Nat) : Bool :=
  (!s.dev.mgt.ready && !regEarly a) || ((s.regAt a).isSome && (regDoms a).any fun k => !s.dev.up k)

/-- The live value of an offset, 0 where no register lies. -/
def State.live (s : State) (a : Nat) : Word32 := (s.regAt a).getD 0

/-! ### Pairs that the engine updates (spec/00 R9) -/

/-- The _LO offsets of the pairs read under R9. -/
def pairLo (a : Nat) : Bool :=
  match bankAt a with
  | some (_, o) => o = 0
  | none =>
    a ∈ [0x10008, 0x10010, 0x80018, 0xA0000, 0xA0028, 0xA0030, 0xC0028, 0xC0030, 0x160018, 0x160020, 0x180004, 0x1A0010, 0x1A0018, 0x1A0020]
      || (arrIx a 0x124000 16 2048).isSome || (arrIx a 0x200004 64 16384).isSome

/-- A read of an offset, with the holding registers of a reader: the value, and the holding registers after. -/
def State.readHeld (s : State) (held : List (Nat × Word32)) (a : Nat) : Word32 × List (Nat × Word32) :=
  let rest := held.filter fun p => p.1 ≠ a + 4
  if pairLo a then (s.live a, rest ++ [(a + 4, s.live (a + 4))])
  else match held.find? fun p => p.1 = a with
    | some p => (p.2, held.filter fun q => q.1 ≠ a)
    | none => (s.live a, held)

/-- A read of an offset reads the Zenith store or the ceiling store: FRS_ZONE_STATE, FRS_ZONE_ROOT and FRS_ZONE_CEIL, where no holding
register answers (spec/08 R232). -/
def zenithOffset (held : List (Nat × Word32)) (a : Nat) : Bool :=
  a ∈ [0xA0024, 0xA0028, 0xA0030] || (a ∈ [0xA002C, 0xA0034] && !held.any fun p => p.1 = a)

/-- REG_READ_PAIR_LO: the read of a _LO copies its _HI. The row serves every other REG read too: the _HI of a pair gives
its copy once, any other offset its live value (log 27). -/
def execRegReadPairLo (woff : BitVec 22) (zenith : Bool) (s : State) : Host.Outcome State Fault Refusal :=
  let a := 4 * woff.toNat
  let r := s.readHeld s.dev.mgt.hiHeld a
  let err := s.regErr a
  s.act fun d =>
    if !d.up domReg then d
    else if err then d.emit (.regRsp 0 true)
    else ({ d with mgt.hiHeld := r.2 }.zenithRead (zenith && zenithOffset s.dev.mgt.hiHeld a)).emit (.regRsp r.1 false)

/-! ### Writes to registers without a row (spec/00 R5-R8) -/

/-- Offsets whose write is held until the _HI's (spec/00 R8). -/
def holdsLo (a : Nat) : Bool := a ∈ [0x80010, 0xA0000, 0x120008, 0x120020, 0x160008]

/-- A w1c flag after a write: cleared where the bit is 1. -/
def w1c (b : Bool) (v : Word32) (i : Nat) : Bool := b && !bit v i

def Dev.miscWrite (d : Dev) (a : Nat) (v : Word32) : Option Dev :=
  if a = 0x120008 ∧ (d.queue 0).st ≠ .none then some { d with qmg.cfgIgn := true }
  else if holdsLo a then some { d with mgt.loHeld := d.mgt.loHeld.put (a / 4) v } else
  match a with
  | 0x10020 => some { d with mgt.clusterGate := v.extractLsb' 0 9, mgt.clusterIdle := d.mgt.clusterIdle &&& v.extractLsb' 0 9 }
  | 0x20004 => some { d with fab.winTimeout := clamp 1 1000 (bits v 9 0) }
  | 0x40000 => some { d with stl.relocLimit := clamp 1 64 (bits v 6 0) }
  | 0x40004 => some { d with stl.parkTimeout := clamp 1 1000 (bits v 9 0) }
  | 0x40008 => some { d with stl.agePeriod := max 1 (bits v 15 0) }
  | 0x4000C => some { d with stl.learnEvq := evqOf v }
  | 0x40010 => some { d with stl.cfgIgn := w1c d.stl.cfgIgn v 31 }
  | 0x68004 => some { d with rmp.cfgIgn := w1c d.rmp.cfgIgn v 31 }
  | 0x80004 => some { d with lan.auditEn := bit v 31, lan.auditInterval := clamp 256 65536 (bits v 16 0) }
  | 0x80008 => some { d with lan.katPeriod := clamp 100 100000 (bits v 16 0) }
  | 0xA000C => some { d with frs.evq := evqOf v }
  | 0xA0010 => some { d with frs.cfgIgn := w1c d.frs.cfgIgn v 31, frs.evtLost := w1c d.frs.evtLost v 30 }
  | 0xA0020 => some { d with frs.zoneSel := bits v 12 0 }
  | 0xC0004 => some { d with can.cfgIgn := w1c d.can.cfgIgn v 31 }
  | 0xC000C => some { d with can.budgetMib := clamp 1 8 (bits v 3 0) }.noteDirty
  | 0xE0000 => some { d with med.retryLimit := bits v 2 0 }
  | 0xE0004 => some (d.writeThreshold (bits v 7 0))
  | 0x100004 => some { d with key.reseedLog2 := clamp 10 20 (bits v 4 0) }.noteDue
  | _ => none

def Dev.qmgWrite (d : Dev) (a : Nat) (v : Word32) : Option Dev :=
  match a with
  | 0x120004 => some { d with qmg.cfgIgn := w1c d.qmg.cfgIgn v 31 }
  | 0x12000C =>
    some (if (d.queue 0).st != .none then { d with qmg.cfgIgn := true } else
      { d with qmg.admqBase := v.toNat * 2 ^ 32 + (d.mgt.loHeld.get (0x120008 / 4)).toNat / 64 * 64 })
  | 0x120010 =>
    some (if (d.queue 0).st != .none || bits v 14 13 == 0 || bits v 14 13 == 3 then { d with qmg.cfgIgn := true } else
      { d with qmg.admqCfg := pk [(16, clamp 4 15 (bits v 19 16)), (12, bits v 15 12), (0, bits v 10 0)] })
  | 0x120018 => some { d with qmg.scanPeriod := clamp 1 1000 (bits v 9 0) }
  | 0x120024 =>
    some (if d.qmg.vecLoading ≠ 0 then { d with qmg.cfgIgn := true } else
      { d with qmg.vecBase := v.toNat * 2 ^ 32 + (d.mgt.loHeld.get (0x120020 / 4)).toNat / 16 * 16 })
  | _ => (arrIx a 0x12400C 16 2048).map fun n =>
    (d.setVec n { d.vec n with mask := bit v 29, time := bits v 25 16, count := bits v 7 0 }).sendPending

/-- Writes to SVC and the blocks above it; a new rate counts from now on (spec/14 R384). -/
def Dev.svcWrite (d : Dev) (a : Nat) (v : Word32) : Option Dev :=
  match a with
  | 0x140000 => some { d with svc.slotOvf := w1c d.svc.slotOvf v 31, svc.evtLost := w1c d.svc.evtLost v 30 }
  | 0x140004 => some { d with svc.evq := evqOf v }
  | 0x140008 => some { d.accrue with svc.frontRate := clamp 1 50 (bits v 6 0) }
  | 0x14000C => some { d.accrue with svc.drizzleEn := bit v 31, svc.drizzleRate := clamp 1 50 (bits v 6 0) }
  | 0x140010 => some { d.accrue with svc.bulkRate := clamp 1 50 (bits v 6 0) }
  | 0x160000 => some { d with per.periodMin := clamp 1 1440 (bits v 10 0) }
  | 0x160004 => some { d with per.evq := evqOf v }
  | 0x160010 => some { d with per.cfgIgn := w1c d.per.cfgIgn v 31, per.armFail := w1c d.per.armFail v 25,
                              per.evtLost := w1c d.per.evtLost v 24 }
  | 0x180010 => some { d with qmg.fltEvq := evqOf v }
  | 0x180014 => some { d with qmg.fltLost := w1c d.qmg.fltLost v 31 }
  | 0x1A0000 => some { d with del.evtLost := w1c d.del.evtLost v 26 }
  | 0x1A0004 => some { d with del.evq := evqOf v }
  | 0x1A0008 => some { d with del.hbTimeout := clamp 10 10000 (bits v 23 8), del.hbPeriod := max 1 (bits v 7 0) }
  | 0x1A000C => some { d with del.txnTimeout := clamp 100 100000 (bits v 16 0) }
  | _ => none

/-- A write to a bank's registers without a row: OVF, VECTOR, MASK (spec/15 R408, R428). -/
def Bank.write (x : Bank) (b o : Nat) (v : Word32) : Bank :=
  match o with
  | 8 => { x with ovf := w1c x.ovf v 0 }
  | 12 => { x with vecEn := bit v 31, vec := v.extractLsb' 0 11 }
  | _ => match arrIx o 0x300 4 (bitWords b) with
    | none => x
    | some w =>
      let named (k : Nat) : Bool := decide (k / 32 = w) && x.cls b k != 3
      let on := (List.range 32).filter fun i => decide (32 * w + i < sources b) && named (32 * w + i) && bit v i
      { x with mask := on.foldr (fun i l => insSorted (32 * w + i) l) (x.mask.filter fun k => !named k) }

/-- A write to a register that has no row of its own: what it sets. -/
def State.plainWrite (s : State) (a : Nat) (v : Word32) : State :=
  match bankAt a with
  | some (b, o) => { s with flt.banks := s.flt.banks.put b ((s.flt.banks.get b).write b o v) }
  | none =>
    if a = 0x10000 then { s with safe.resetCause := s.safe.resetCause &&& ~~~ (v.extractLsb' 0 3) }
    else if a = 0x18000C then (if s.dev.lifecycle = 3 then s else { s with safe.drillEn := bit v 0 })
    else match s.dev.miscWrite a v <|> s.dev.qmgWrite a v <|> s.dev.svcWrite a v with
      | some d => { s with dev := d }
      | none => s

/-- The doorbell that a REG write rings (spec/02 R66, spec/12 R320). -/
def Dev.regDoorbell (d : Dev) (q : Nat) (v : Word32) : Dev :=
  let low := v.extractLsb' 0 30
  d.doorbell (BitVec.ofNat 14 q) low 15 fun d =>
    match bits v 31 30 with
    | 0 => d.ringTail q (doorPos low)
    | 1 => d.ringScan q
    | 2 => d.ringInvalidate q
    | _ => d.ringDrain

/-- The set of an offset and the register within its group, for the per-set registers of STL. -/
def geomAt (a : Nat) : Option (GeomReg × Fin 2) :=
  if a = 0x40020 then some (.geom, 0) else if a = 0x40024 then some (.seed0, 0) else if a = 0x40028 then some (.seed1, 0)
  else if a = 0x40030 then some (.geom, 1) else if a = 0x40034 then some (.seed0, 1) else if a = 0x40038 then some (.seed1, 1)
  else none

/-- QMG_QCTL (spec/12 R339, R340, R351). -/
def execQctl (v : Word32) (s : State) : Host.Outcome State Fault Refusal :=
  let q := v.extractLsb' 0 14
  match bits v 31 30 with
  | 0 => s.core fun d => d
  | 1 => s.core fun d => d.enableQueue q.toNat
  | 2 => s.core fun d => d.disableQueue q.toNat
  | _ => s.core fun d => d.resetAdmin q.toNat

/-- A write to a register that has a row of its own acts as that row. -/
def ownRow (a : Nat) (v : Word32) : Option (State → Host.Outcome State Fault Refusal) :=
  match a with
  | 0x20000 => some (execFabPortEn v)
  | 0x2000C => some (execFabCntClr v)
  | 0x40014 => some (execStlClear v)
  | 0x40018 => some (execStlRejectClr v)
  | 0x40040 => some (execStlCntClr v)
  | 0x60000 => some (execRmpSetCfg 0 v)
  | 0x70000 => some (execRmpSetCfg 1 v)
  | 0x68008 => some (execRmpClear v)
  | 0x80014 => some (execLanKatRun v)
  | 0xA0004 => some (execFrsMetaBaseWrite false v)
  | 0xA0008 => some (execFrsMetaBaseWrite true v)
  | 0xA004C => some (execFrsCntClr v)
  | 0xC0000 => some (execCanCtrlEn v)
  | 0xC0008 => some (execCanPinCfg v)
  | 0xC0020 => some (execCanLfsrReseed v none)
  | 0xC0038 => some (execCanCntClr v)
  | 0xE0008 => some (execMedCntClr v)
  | 0x100008 => some (execKeyDrbgReseed v)
  | 0x10000C => some (execKeyEntEn v)
  | 0x100024 => some (execKeyCntClr v)
  | 0x120014 => some (execQctl v)
  | 0x120028 => some (execQmgVecLoad v)
  | 0x140030 => some (execSvcCntClr v)
  | 0x160014 => some (execPerArm v)
  | 0x16000C => some (execPerAnchorBaseWrite v)
  | 0x160034 => some (execPerCntClr v)
  | _ => (geomAt a).map fun p => execStlGeomSeedWrite p.1 p.2 v

/-! ### Bank registers with a row (spec/15 R406, R409, R410, R416) -/

/-- A REG write at byte offset `a`: no response without the REG domain; an error where the access is turned away; no
effect in the safe state (spec/02 R64, spec/17 R453, spec/15 R423). -/
def State.regPort (s : State) (a : Nat) (f : State → State) : Host.Outcome State Fault Refusal :=
  let err := s.regErr a
  let t := { s with dev.drive := [] }
  .next (settle (if !s.dev.up domReg then t
    else if err then { t with dev := t.dev.emit (.regRsp 0 true) }
    else
      let u := if s.safe.active then t else f t
      { u with dev := u.dev.emit (.regRsp 0 false) }))

def bankBase (b : Nat) : Nat := (if b = 13 then 0 else 0x20000 * (b + 1)) + 0xF000

def State.updBank (s : State) (b : Nat) (f : Bank → Bank) : State := { s with flt.banks := s.flt.banks.put b (f (s.flt.banks.get b)) }

/-- A write of 1 to VALID clears the record to 0. -/
def Bank.clearFirst (x : Bank) : Bank := { x with first := none }

/-- Sources of a word of bits that a value names. -/
def namedBy (b w : Nat) (v : Word32) : List Nat :=
  ((List.range 32).filter fun i => bit v i && decide (32 * w + i < sources b)).map (32 * w + ·)

/-- Forced occurrences, one for each bit that is 1. -/
def Dev.force (d : Dev) (b : Nat) (ks : List Nat) : Dev := { d with raised := d.raised ++ ks.map fun k => ⟨b, k, true⟩ }

/-- FLT_CLASS: 11 escalates a CE or UC source; its reset class undoes it; every other value is ignored. -/
def Bank.classWrite (x : Bank) (b w : Nat) (v : Word32) : Bank :=
  forAll ((List.range 16).filter fun i => decide (16 * w + i < sources b)) (fun i (y : Bank) =>
    let k := 16 * w + i
    let c := bits v (2 * i + 1) (2 * i)
    let base := baseClass b k
    if base = 0 ∨ base = 3 then y
    else if c = 3 then { y with esc := insSorted k y.esc }
    else if c = base then { y with esc := without k y.esc }
    else y) x

/-- Pending bits of notification sources written 1 are cleared; one raised in the same step stays (spec/15 R410). -/
def Bank.clearPending (x : Bank) (b : Nat) (ks : List Nat) : Bank :=
  { x with live := x.live.filter fun k => !(decide (k ∈ ks) && decide (baseClass b k = 0)) }

def execFltFirstHiClear (b : Fin 14) (s : State) : Host.Outcome State Fault Refusal :=
  s.regPort (bankBase b + 4) fun t => t.updBank b Bank.clearFirst

def execFltForce (b : Fin 14) (w : BitVec 6) (v : Word32) (s : State) : Host.Outcome State Fault Refusal :=
  s.regPort (bankBase b + 0x200 + 4 * w.toNat) fun t => { t with dev := t.dev.force b (namedBy b w.toNat v) }

def execFltClassWrite (b : Fin 14) (w : BitVec 6) (v : Word32) (s : State) : Host.Outcome State Fault Refusal :=
  s.regPort (bankBase b + 0x400 + 4 * w.toNat) fun t => t.updBank b fun x => x.classWrite b w.toNat v

def execNotificationClear (b : Fin 14) (w : BitVec 6) (v : Word32) (s : State) : Host.Outcome State Fault Refusal :=
  s.regPort (bankBase b + 0x100 + 4 * w.toNat) fun t => t.updBank b fun x => x.clearPending b (namedBy b w.toNat v)

/-- A bank register that has a row of its own. -/
def bankRow (b o : Nat) (v : Word32) : Option (State → State) :=
  if o = 4 then some fun t => if bit v 31 then t.updBank b Bank.clearFirst else t
  else match arrIx o 0x100 4 (bitWords b), arrIx o 0x200 4 (bitWords b), arrIx o 0x400 4 (classWords b) with
    | some w, _, _ => some fun t => t.updBank b fun x => x.clearPending b (namedBy b w v)
    | _, some w, _ => some fun t => { t with dev := t.dev.force b (namedBy b w v) }
    | _, _, some w => some fun t => t.updBank b fun x => x.classWrite b w v
    | _, _, _ => none

/-- REG_WRITE at word offset `woff`. A register that has a row of its own is written as that row says. -/
def execRegWrite (woff : BitVec 22) (v : Word32) (s : State) : Host.Outcome State Fault Refusal :=
  let a := 4 * woff.toNat
  match ownRow a v with
  | some f => f s
  | none => s.regPort a fun t =>
    match slotAt a with
    | some q => { t with dev := t.dev.regDoorbell q v }
    | none => match bankAt a with
      | some (b, o) => match bankRow b o v with
        | some f => f t
        | none => t.plainWrite a v
      | none => t.plainWrite a v

/-! ### Features and IDENTIFY (spec/13 R362, R363) -/

/-- The register of a feature. -/
def featureReg (fid : Nat) : Option Nat :=
  ([(1, 0x20004), (2, 0x40000), (3, 0x40004), (4, 0x40008), (5, 0x80004), (6, 0x80008), (7, 0xC000C), (8, 0x160000),
    (9, 0x100004), (10, 0x120018)] : List (Nat × Nat)).lookup fid

/-- The value of a feature's register, and a write to it. -/
def Dev.featureRead (d : Dev) (a : Nat) : Word32 :=
  (d.fabRead a <|> d.stlRead a <|> d.lanRead a <|> d.canRead a <|> d.perRead a <|> d.keyRead a <|> d.qmgRead a).getD 0
def Dev.featureWrite (d : Dev) (a : Nat) (v : Word32) : Dev :=
  (d.miscWrite a v <|> d.qmgWrite a v <|> d.svcWrite a v).getD d

def execSetFeature (q : BitVec 14) (pos : BitVec 16) (s : State) : Host.Outcome State Fault Refusal :=
  s.serve fun d => d.command q.toNat pos cSetFeature noRules fun x d =>
    match featureReg (num x.entry 8 2) with
    | none => d.finish q.toNat pos (Cpl.invalid 0 8)
    | some a =>
      let e := d.featureWrite a (w32 (num x.entry 12 4))
      e.finish q.toNat pos (Cpl.ok (e.featureRead a))

def execGetFeature (q : BitVec 14) (pos : BitVec 16) (s : State) : Host.Outcome State Fault Refusal :=
  s.serve fun d => d.command q.toNat pos cGetFeature noRules fun x d =>
    match featureReg (num x.entry 8 2) with
    | none => d.finish q.toNat pos (Cpl.invalid 0 8)
    | some a => d.finish q.toNat pos (Cpl.ok (d.featureRead a))

/-- The identity structure. -/
def Dev.identity (d : Dev) : Bytes :=
  let fuse (w : Nat) : Nat := (d.mgt.fuse.getD w 0).toNat
  ([(4, 0x5A4E4944), (2, 1), (2, 0x0512), (1, 0x10), (1, d.lifecycle),
    (1, fuse 8 % 2 + 2 * (fuse 8 / 8 % 2) + 4 * flag d.key.seedZero), (1, d.mgt.lanesOk), (4, fuse 9), (1, fuse 10 % 16),
    (1, 8), (1, 16), (1, 46), (2, 2048), (2, 4096), (4, 16384), (4, 131072), (4, 65536), (2, 256), (1, 16), (1, 47),
    (2, 8192), (1, 3), (1, 3), (1, 3), (1, 7)].flatMap fun f => leBytes f.1 f.2) ++ List.replicate 18 0

def execIdentify (q : BitVec 14) (pos : BitVec 16) (s : State) : Host.Outcome State Fault Refusal :=
  s.serve fun d => d.command q.toNat pos cIdentify noRules fun x d =>
    d.finishWith q.toNat pos (Cpl.ok 0) [(num x.entry 16 8, d.identity)]

end Machine
end Sys2Proof
end

