-- ==== Sys2Proof/Machine/Pool.lean ====
section
/-! DEFINITION. Pools: identity, links, frames, membership, splits, pool checkpoints, retirement, reconciliation
(spec/16), and the end of a Front step (spec/14 R386). -/

namespace Sys2Proof
namespace Machine

/-! ### Links (spec/16 R440) -/

/-- The engine brings up link n: it is in a pool, the link is named in LINKS and usable. -/
def Dev.linkNamed (d : Dev) (n : Nat) : Bool := d.del.inPool && d.del.linksUse.getLsbD n && d.linkUsable n

/-- Link n goes DOWN, and returns to HELLO while it can be brought up. -/
def Dev.linkDown (d : Dev) (n : Nat) : Dev :=
  let l := d.link n
  d.setLink n { l with st := if d.linkNamed n then .hello else .down, version := 0, heard := false, lastAt := d.mgt.tref,
                       silent := false, helloAt := d.mgt.tref, unacked := [] }

/-- A valid frame has arrived on link n. -/
def Dev.linkHeard (d : Dev) (n : Nat) : Dev := d.setLink n { d.link n with lastAt := d.mgt.tref, silent := false }

/-- PELn_LINK_UP (spec/02 R79). -/
def execLinkUpChange (n : Fin 4) (up : Bool) (s : State) : Host.Outcome State Fault Refusal :=
  s.act fun d =>
    let l := d.link n.val
    if l.up = up then d else (d.setLink n.val { l with up := up }).linkDown n.val

/-- Every 10 µs; an engine whose link is UP goes on sending, so that its peer hears ECHO (log 28). -/
def execHelloTimer (n : Fin 4) (s : State) : Host.Outcome State Fault Refusal :=
  s.serve fun d =>
    let l := d.link n.val
    if d.linkNamed n.val && (l.st == .hello || l.st == .up) && d.passed l.helloAt 10
    then (d.setLink n.val { l with helloAt := d.mgt.tref }).sendHello n.val else d

/-- No valid frame for TIMEOUT: DEL_LINK_DOWN(n) holds, and a link that is UP returns to HELLO. -/
def execLinkTimeout (n : Fin 4) (s : State) : Host.Outcome State Fault Refusal :=
  s.serve fun d =>
    let l := d.link n.val
    if !d.linkNamed n.val || !d.passed l.lastAt d.del.hbTimeout then d else
      let d := if l.st == .up then d.linkDown n.val else d
      d.setLink n.val { d.link n.val with lastAt := l.lastAt, silent := true }

/-! ### Members and splits (spec/16 R434, R442, R443) -/

/-- A checkpoint in Hold that has its CUT, or has turned local, cuts. -/
def Dev.cutDue (d : Dev) : Dev :=
  match d.per.ckpt with
  | some c => if c.phase == .hold && d.cutReady && (c.cutSeen || c.localCut) then d.cutNow c else d
  | none => d

/-- Some member of the engine's group is SILENT. -/
def Dev.someSilent (d : Dev) : Bool :=
  d.groupMembers.any fun p => decide (p ≠ d.del.poolId.toNat) && (d.memberOf p).st == .silent

/-- A split: no pool checkpoint runs, none begins from a PREPARE that waited, and one that has not cut is a local one (spec/16
R443). -/
def Dev.split (d : Dev) : Dev :=
  let cutOff (c : Ckpt) : Ckpt :=
    if c.pck.isSome && (c.phase == .preFlush || c.phase == .hold) then { c with localCut := true } else c
  let d := { d with del.gstate := .split, del.reports := [], del.reconReq := false, del.ckreq := false, del.txn := none,
                    del.prepared := none, per.ckpt := d.per.ckpt.map cutOff }.poolState 2
  let decides := d.per.ckpt.any fun c => c.pck.any fun q => !d.del.reconSkip.contains q
  ((if decides then d else d.reconEnds .split).cutDue).ckptNext

/-- What a change of the members can complete at the coordinator (spec/16 R445 steps 3 and 5, R447). -/
def Dev.membersChanged (d : Dev) : Dev := (d.heldAll.cutDue.doneAll.tallyAll).ckptNext

/-- GSTATE follows the member table. -/
def Dev.regroup (d : Dev) : Dev :=
  match d.del.group with
  | none => d
  | some g =>
    if d.someSilent then (if d.del.gstate == .split then d else d.split)
    else if d.del.gstate == .split then
      ({ d with del.gstate := .reunited }.poolState 3).raise bDel (37 + g.toNat)
    else d.membersChanged

/-- A member's entry takes a state; a change raises DEL_PEER(p). -/
def Dev.memberTo (d : Dev) (p : Nat) (st : MemSt) : Dev :=
  let m := d.memberOf p
  if m.st = st then d else (d.setMember p { m with st := st }).raise bDel (53 + p)

def execMemberTimeout (m : BitVec 6) (s : State) : Host.Outcome State Fault Refusal :=
  s.serve fun d =>
    let x := d.memberOf m.toNat
    if x.st == .member && d.passed x.lastAt d.del.hbTimeout then (d.memberTo m.toNat .silent).regroup else d

/-! ### What a frame says -/

def fWord (f : Frame) (i : Nat) : Word32 := f.payload.getD i 0
/-- W1-W2, low word first. -/
def fPck (f : Frame) : BitVec 64 := fWord f 2 ++ fWord f 1
def fInGroup (f : Frame) : Bool := bit (fWord f 0) 4
def fGroup (f : Frame) : BitVec 4 := (fWord f 0).extractLsb' 0 4
def fLeave (f : Frame) : Bool := bit (fWord f 0) 8

/-- Only a frame of the engine's own group is acted on. -/
def Dev.ofGroup (d : Dev) (f : Frame) : Bool := d.del.group == some (fGroup f)

/-- An HB or MEMBER payload's group. -/
def fGroupOpt (f : Frame) : Option (BitVec 4) := if fInGroup f then some (fGroup f) else none

/-- MEMBER of this engine (spec/16 R437, R438). -/
def Dev.sendMember (d : Dev) (leave : Bool) : Dev :=
  d.broadcast tMember [pk [(0, d.groupWord), (4, flag d.del.group.isSome), (8, flag leave)]]

/-! ### The pool checkpoint (spec/16 R444, R445) -/

def Dev.takePrepare (d : Dev) (q : BitVec 64) : Dev :=
  if !d.poolAdmits || !d.per.armed then d
  else if d.ckptFree then d.joinPool 4 q else { d with del.prepared := some q }

def Dev.takeCut (d : Dev) (q : BitVec 64) : Dev :=
  match d.per.ckpt with
  | some c => if c.pool = some q then { d with per.ckpt := some { c with cutSeen := true } }.cutDue else d
  | none => d

/-- The running checkpoint becomes a local one. -/
def Dev.cutLocal (d : Dev) (q : BitVec 64) : Dev :=
  match d.per.ckpt with
  | some c =>
    if c.pool = some q && !c.cutSeen && (c.phase == .preFlush || c.phase == .hold)
    then { d with per.ckpt := some { c with localCut := true } }.cutDue else d
  | none => d

/-- ABORT(Q): a part that has not cut turns local, and one that has not begun does not begin; then the pool checkpoint has failed
here (spec/16 R445, R448). -/
def Dev.takeAbort (d : Dev) (q : BitVec 64) : Dev :=
  let d := if d.del.prepared = some q then { d with del.prepared := none } else d
  if d.per.ckpt.any fun c => c.pck = some q then d.cutLocal q else d.reconFails q .split

def Dev.takeCkreq (d : Dev) : Dev :=
  if d.isCoord && d.poolWhole && d.per.armed then { d with del.ckreq := true }.ckptNext else d

/-- RECON at the coordinator; while checkpointing is not armed it waits (DEDUCED, log 53). -/
def Dev.takeRecon (d : Dev) : Dev := if d.isCoord && d.poolAdmits then { d with del.reconReq := true }.ckptNext else d

def Dev.takeReconDone (d : Dev) (q : BitVec 64) : Dev := if d.poolAdmits then d.reconciled q else d

/-- DEL_TXN_TIMEOUT has passed without every HELD at the coordinator, without CUT at a member, or without RECON_DONE since this
engine's part of a reconciliation was committed. Only the coordinator sees a part of another member fail: elsewhere that time
stands for it (DEDUCED, log 52). -/
def execTxnTimeout (s : State) : Host.Outcome State Fault Refusal :=
  s.serve fun d =>
    let late := fun t => d.passed t d.del.txnTimeout
    let d := match d.del.txn with
      | some t =>
        if !t.cut && late t.since
        then ({ d with del.txn := none }.broadcast tAbort (d.pckWords t.pck false)).cutLocal t.pck else d
      | none => d
    let d := match d.per.ckpt with
      | some c => (match c.pool with
        | some q => if c.held && late c.heldAt then d.cutLocal q else d
        | none => d)
      | none => d
    (if d.del.txn.isNone && !d.del.reconReq && d.del.prepared.isNone && !d.poolCkpt && d.del.reconAt.any late
     then d.reconEnds .split else d).ckptNext

/-! ### Acting on frames -/

/-- HELLO on a link (spec/16 R436, R440). -/
def Dev.takeHello (d : Dev) (n : Nat) (f : Frame) : Dev :=
  let l := { d.link n with heard := true, peer := (fWord f 0).extractLsb' 8 6 }
  let v := bits (fWord f 0) 2 0
  if l.st == .noVersion then d.setLink n l
  else if v = 0 then (d.setLink n { l with st := .noVersion, version := 0, unacked := [] }).raise bDel (8 + n)
  else
    let ver := if 4 ≤ v then 3 else if 2 ≤ v then 2 else 1
    if l.st == .up then d.setLink n { l with version := ver }
    else if bit (fWord f 0) 3 then ((d.setLink n { l with st := .up, version := ver }).raise bDel (33 + n)).sendMember false
    else d.setLink n l

/-- ACK stops the retransmission of the frame it names (spec/16 R439). -/
def Dev.takeAck (d : Dev) (n : Nat) (f : Frame) : Dev :=
  let l := d.link n
  d.setLink n { l with unacked := l.unacked.filter fun u =>
    !(u.frame.origin == (fWord f 0).extractLsb' 0 6 && u.frame.oseq == fWord f 1) }

/-- What a frame that is not a link frame does where it is acted on. -/
def Dev.actOn (d : Dev) (n typ : Nat) (f : Frame) : Dev :=
  let o := f.origin.toNat
  let i := bits (fWord f 0) 27 16
  let old := (fWord f 1).extractLsb' 0 16
  let new := (fWord f 1).extractLsb' 16 16
  if typ = tHb then (d.setMember o { d.memberOf o with group := fGroupOpt f, pck := fPck f }).regroup
  else if typ = tMember then
    if fLeave f then (d.setMember o { d.memberOf o with group := none }).regroup
    else (d.setMember o { d.memberOf o with group := fGroupOpt f }).regroup
  else if typ = tSafe then ((d.setMember o { d.memberOf o with group := none }).raise bDel (28 + n)).regroup
  else if !d.ofGroup f then d
  else if typ = tPrepare then d.takePrepare (fPck f)
  else if typ = tHeld then (d.takeHeld o (fPck f)).cutDue
  else if typ = tCut then d.takeCut (fPck f)
  else if typ = tDone then (d.takeDone o (fPck f) (bit (fWord f 0) 8)).ckptNext
  else if typ = tAbort then d.takeAbort (fPck f)
  else if typ = tCkreq then d.takeCkreq
  else if typ = tReport then if d.isCoord then d.takeReport o i old new else d
  else if typ = tRetire then d.retireEntry i old
  else if typ = tRecon then d.takeRecon
  else if typ = tReconDone then d.takeReconDone (fPck f)
  else d

/-! ### Receiving (spec/16 R436, R437) -/

/-- A frame that fails: discarded, counted, raised. -/
def Dev.frameFails (d : Dev) (n : Nat) : Dev :=
  let l := d.link n
  (d.setLink n { l with errs := satAdd 0xFFFF l.errs 1 }).raise bDel n

/-- How far OSEQ lies above the highest accepted, on 32 bits that wrap (log 29). -/
def Member.ahead (m : Member) (oseq : Word32) : Int := (oseq - m.highest).toInt

/-- A duplicate, by the origin's window. -/
def Member.duplicate (m : Member) (oseq : Word32) : Bool :=
  m.seen && (decide (m.ahead oseq < -63) || (decide (m.ahead oseq ≤ 0) && m.window.getLsbD (-(m.ahead oseq)).toNat))

/-- The window once OSEQ has been accepted. -/
def Member.accept (m : Member) (oseq : Word32) (reset : Bool) : Member :=
  if reset || !m.seen then { m with seen := true, highest := oseq, window := 1 }
  else if 0 < m.ahead oseq then { m with highest := oseq, window := (m.window <<< (m.ahead oseq).toNat) ||| 1 }
  else { m with window := m.window ||| (1 <<< (-(m.ahead oseq)).toNat) }

/-- A frame whose check has passed, other than a link frame: duplicates, membership, action, forwarding. -/
def Dev.takeFrame (d : Dev) (n typ : Nat) (f : Frame) : Dev :=
  let l := d.link n
  let d := if l.version = 3 && typ ≠ tHb && typ ≠ tSafe then d.sendLink n tAck [f.origin.setWidth 32, f.oseq] else d
  let o := f.origin.toNat
  let joins := typ = tMember && !fLeave f
  if f.origin = d.del.poolId || (!joins && (d.memberOf o).duplicate f.oseq) then d else
    let d := d.setMember o { (d.memberOf o).accept f.oseq joins with lastAt := d.mgt.tref }
    let d := (d.memberTo o (if typ = tSafe || (typ = tMember && fLeave f) then .absent else .member)).regroup
    let d := if f.bcast || f.dest = d.del.poolId then d.actOn n typ f else d
    if (f.bcast || f.dest ≠ d.del.poolId) && f.ttl ≠ 0 then d.flood (some n) typ { f with ttl := f.ttl - 1 } else d

/-- A frame whose check word is right. What arrives on a link that the engine does not use, and a frame other than HELLO
that does not fail on a link that is not UP, is discarded (spec/02 R79, log 28). -/
def Dev.receive (d : Dev) (n typ : Nat) (f : Frame) : Dev :=
  if !d.linkNamed n then d
  else if typ = tHello then
    if fWord f 2 ++ fWord f 1 ≠ d.del.ident || maxLen (d.link n).version < f.payload.length then d.frameFails n
    else (d.linkHeard n).takeHello n f
  else if maxLen (d.link n).version < f.payload.length || !frameTypes.contains typ then d.frameFails n
  else if (d.link n).st != .up then d
  else if typ = tAck then (d.linkHeard n).takeAck n f else (d.linkHeard n).takeFrame n typ f

/-- The frame of words as they arrive: its type and fields, where its length and check word are right. On a link without a
version (0) the check of either kind is right (log 28). -/
def parseFrame (ver : Nat) (ws : List Word32) : Option (Nat × Frame) :=
  match ws with
  | w :: o :: rest =>
    let typ := bits w 31 27
    let len := bits w 7 0
    let f : Frame := { bcast := bit w 26, origin := w.extractLsb' 20 6, dest := w.extractLsb' 14 6, ttl := w.extractLsb' 8 6,
                       oseq := o, payload := rest.take len }
    let right (v : Nat) := rest.getD len 0 == frameCheck v (w :: o :: rest.take len)
    if rest.length = len + 1 ∧ (right (if typ = tHello then 2 else ver) || (ver == 0 && typ != tHello && right 1))
    then some (typ, f) else none
  | _ => none

/-- FRAME_RECEIVED: the words of a frame, from its SOF to the last before the next. -/
def execFrameReceived (n : Fin 4) (words : List Word32) (s : State) : Host.Outcome State Fault Refusal :=
  s.serve fun d =>
    let l := d.link n.val
    if !d.linkNamed n.val then d else
      match parseFrame l.version words with
      | some (typ, f) => d.receive n.val typ f
      | none => d.frameFails n.val

def execHello (n : Fin 4) (f : Frame) (s : State) : Host.Outcome State Fault Refusal := s.serve fun d => d.receive n.val tHello f
def execHb (n : Fin 4) (f : Frame) (s : State) : Host.Outcome State Fault Refusal := s.serve fun d => d.receive n.val tHb f
def execMember (n : Fin 4) (f : Frame) (s : State) : Host.Outcome State Fault Refusal := s.serve fun d => d.receive n.val tMember f
def execSafe (n : Fin 4) (f : Frame) (s : State) : Host.Outcome State Fault Refusal := s.serve fun d => d.receive n.val tSafe f
def execAck (n : Fin 4) (f : Frame) (s : State) : Host.Outcome State Fault Refusal := s.serve fun d => d.receive n.val tAck f
def execPrepare (n : Fin 4) (f : Frame) (s : State) : Host.Outcome State Fault Refusal := s.serve fun d => d.receive n.val tPrepare f
def execHeld (n : Fin 4) (f : Frame) (s : State) : Host.Outcome State Fault Refusal := s.serve fun d => d.receive n.val tHeld f
def execCutFrame (n : Fin 4) (f : Frame) (s : State) : Host.Outcome State Fault Refusal := s.serve fun d => d.receive n.val tCut f
def execDone (n : Fin 4) (f : Frame) (s : State) : Host.Outcome State Fault Refusal := s.serve fun d => d.receive n.val tDone f
def execAbort (n : Fin 4) (f : Frame) (s : State) : Host.Outcome State Fault Refusal := s.serve fun d => d.receive n.val tAbort f
def execCkreq (n : Fin 4) (f : Frame) (s : State) : Host.Outcome State Fault Refusal := s.serve fun d => d.receive n.val tCkreq f
def execReport (n : Fin 4) (f : Frame) (s : State) : Host.Outcome State Fault Refusal := s.serve fun d => d.receive n.val tReport f
def execRetire (n : Fin 4) (f : Frame) (s : State) : Host.Outcome State Fault Refusal := s.serve fun d => d.receive n.val tRetire f
def execRecon (n : Fin 4) (f : Frame) (s : State) : Host.Outcome State Fault Refusal := s.serve fun d => d.receive n.val tRecon f
def execReconDone (n : Fin 4) (f : Frame) (s : State) : Host.Outcome State Fault Refusal := s.serve fun d => d.receive n.val tReconDone f

/-! ### Timers of the sender (spec/16 R438, R439) -/

/-- HB every PERIOD, SAFE in the safe state. -/
def execHeartbeatTimer (s : State) : Host.Outcome State Fault Refusal :=
  s.act fun d =>
    if !d.del.inPool || !d.passed d.del.hbAt d.del.hbPeriod then d else
      let d := { d with del.hbAt := d.mgt.tref }
      if s.safe.active then d.sendSafe
      else d.broadcast tHb [pk [(0, d.groupWord), (4, flag d.del.group.isSome), (5, d.del.gstate.code)],
                            d.del.pck.extractLsb' 0 32, d.del.pck.extractLsb' 32 32]

/-- A frame not acknowledged after 20 µs is repeated with its OSEQ, up to 3 times. -/
def execRetransmitTimer (n : Fin 4) (s : State) : Host.Outcome State Fault Refusal :=
  s.serve fun d =>
    let l := d.link n.val
    let due := fun (u : Unacked) => d.passed u.sentAt 20
    if !d.linkUsable n.val then d else
      let again := l.unacked.filter fun u => due u && decide (u.tries < 3)
      let keep := l.unacked.filterMap fun u =>
        if !due u then some u else if u.tries < 3 then some { u with sentAt := d.mgt.tref, tries := u.tries + 1 } else none
      forAll again (fun u e => e.emit (.frame n.val (frameWords l.version u.typ u.frame))) (d.setLink n.val { l with unacked := keep })

/-! ### Commands (spec/13 R367) -/

def execPoolJoin (q : BitVec 14) (pos : BitVec 16) (s : State) : Host.Outcome State Fault Refusal :=
  s.serve fun d => d.command q.toNat pos cPoolJoin noRules fun x d =>
    if !(d.mgt.fuse.getD 8 0).getLsbD 3 then d.finish q.toNat pos (Cpl.invalid 5 0)
    else if d.del.inPool then d.finish q.toNat pos .exists
    else
      let g : Option (BitVec 4) := if num x.entry 9 1 = 0xFF then none else some (BitVec.ofNat 4 (num x.entry 9 1))
      let d := { d with del.inPool := true, del.poolId := BitVec.ofNat 6 (num x.entry 8 1), del.group := g,
                        del.linksUse := BitVec.ofNat 4 (num x.entry 10 1), del.ident := BitVec.ofNat 64 (num x.entry 16 8),
                        del.gstate := if g.isSome then .whole else .none, del.hbAt := d.mgt.tref }
      let d := (forAll (List.range 4) (fun n e => if (e.link n).st == .noVersion then e else e.linkDown n) d).poolState 1
      d.finish q.toNat pos (Cpl.ok (BitVec.ofNat 32 d.linksUp))

/-- A striped index's rekey part is ACTIVE. -/
def Dev.stripedRekey (d : Dev) : Bool :=
  d.rmp.rekey.any fun p => p.2.st == .active &&
    match (d.rmpSet d.activeSet).tab.get p.1 with | some c => c.striped | none => false

def execPoolLeave (q : BitVec 14) (pos : BitVec 16) (s : State) : Host.Outcome State Fault Refusal :=
  s.serve fun d => d.command q.toNat pos cPoolLeave noRules fun _ d =>
    if !d.del.inPool then d.finish q.toNat pos .notFound
    else if d.poolCkpt || d.stripedRekey then d.finish q.toNat pos .busy
    else
      let d := d.sendMember true
      let d := forAll (Tab.which d.del.members fun m => m.st != .absent) (fun p e => e.memberTo p .absent) d
      -- a link with no common version stays unused until PELn_LINK_UP falls and rises (spec/16 R440)
      let links := d.del.links.mapAll fun _ (l : Link) =>
        { l with st := if l.st == .noVersion then .noVersion else .down, version := 0, heard := false, silent := false,
                 unacked := [] }
      let d := { d with del.links := links, svc.retire := [], del.members := [], del.reports := [], del.txn := none,
                        del.prepared := none, del.ckreq := false, del.reconReq := false }.poolState 4
      let d := { d with del.inPool := false, del.poolId := 0, del.group := none, del.linksUse := 0, del.ident := 0,
                        del.gstate := .none }
      (d.reconEnds .split).ckptNext.finish q.toNat pos (Cpl.ok 0)

def execPoolReconcile (q : BitVec 14) (pos : BitVec 16) (s : State) : Host.Outcome State Fault Refusal :=
  s.serve fun d =>
    if d.del.recon.isSome then d else d.command q.toNat pos cPoolReconcile noRules fun x d =>
      if !d.del.inPool then d.finish q.toNat pos .notFound
      else if d.del.group ≠ some (BitVec.ofNat 4 (num x.entry 8 1)) then d.finish q.toNat pos (Cpl.invalid 0 8)
      else if d.del.gstate == .split then d.finish q.toNat pos .split
      else
        let known := (d.del.txn.map (·.pck)).toList ++ (d.per.ckpt.bind (·.pck)).toList ++ d.del.prepared.toList
        let d := { d.running q.toNat pos with del.recon := some (q.toNat, pos.toNat), del.reconSkip := known, del.reconAt := none }
        if d.isCoord then d.takeRecon else d.toCoord tRecon [pk [(0, d.groupWord)]]

/-! ### The end of a Front step (spec/14 R386, R390; spec/16 R447) -/

/-- The part turns DONE. -/
def Dev.rekeyDone (d : Dev) (i : Nat) (c : RegionCfg) : Dev :=
  let r := d.rekey i
  let d := (d.setRekey i { r with st := .done }).raise bSvc 4
  let d := d.event .svc 0x0030 bSvc .plain
    [(8, 2, i), (10, 2, r.old.toNat), (12, 2, r.new.toNat), (14, 1, flag c.striped + 16 * c.group.toNat)]
  if c.striped then
    let l := d.svc.retire
    ({ d with svc.retire := if l.length < 16 then l ++ [(i, r.old, r.new)] else l }).sendReport i r.old r.new
  else d

def execFrontStepDone (step : Nat) (s : State) : Host.Outcome State Fault Refusal :=
  s.serve fun d =>
    match d.step1 step with
    | none => d
    | some t =>
      match t.who with
      | .front i =>
        if t.left ≠ 0 then d else
          let r := d.rekey i
          let d := (d.setRekey i { r with front := r.front + 1 }).dropStep step
          let d := ({ d with svc.fronts := d.svc.fronts.upd i fun f => { f with busy := false } }).noteHold
          match (d.rmpSet d.activeSet).tab.get i with
          | some c => if (c.limit + 1) * 512 - 1 < r.front + 1 then d.rekeyDone i c else d
          | none => d
      | _ => d

end Machine
end Sys2Proof
end

