-- ==== Sys2Proof/Machine/Power.lean ====
section
/-! DEFINITION. Power, clocks, resets, power-up, PF_WARN, entry to the safe state (spec/02 R69-R77, spec/03, spec/15
R415-R426, spec/17 R451-R457). -/

namespace Sys2Proof
namespace Machine

/-- An effect that reaches the fault banks or the SAFE domain as well. -/
def State.whole (s : State) (f : State → State) : Host.Outcome State Fault Refusal :=
  .next (settle (f { s with dev.drive := [] }))

/-! ### Domains (spec/03 R88, R90, R91, R95, R98) -/

def domBit (k : Nat) : BitVec 60 := BitVec.ofNat 60 (2 ^ k)

/-- A domain enters reset: its measurement and LOST are cleared. -/
def Dev.intoReset (d : Dev) (k : Nat) : Dev :=
  { d with mgt.domReset := d.mgt.domReset ||| domBit k, mgt.clkMeas := d.mgt.clkMeas.put k default }

/-- A domain leaves reset with its clock running. -/
def Dev.outOfReset (d : Dev) (k : Nat) : Dev :=
  { d with mgt.domReset := d.mgt.domReset &&& ~~~ domBit k, mgt.clkOk := d.mgt.clkOk ||| domBit k }

def Dev.inReset (d : Dev) (k : Nat) : Bool := d.mgt.domReset.getLsbD k
def Dev.clocked (d : Dev) (k : Nat) : Bool := d.mgt.clkOk.getLsbD k

/-- Step 5 of spec/03 R91 has been taken since the last reset. -/
def Dev.stepFive (d : Dev) : Bool :=
  match d.mgt.phase with
  | .fuse | .sramInit => false
  | _ => true

/-! ### Power-up (spec/17 R451-R455) -/

/-- TREF leaves reset and the fuse load begins, once power is good and SYS_RST_N is 1 (log 30). -/
def Dev.startPower (d : Dev) : Dev :=
  if d.mgt.pwrGood && d.mgt.sysRstN && d.mgt.phase == .fuse && d.inReset domTref then
    { d.outOfReset domTref with mgt.fuseReq := true, mgt.fuseIdx := 0, mgt.fuseFirst := [], mgt.fuseAt := d.mgt.tref }.emit (.fuse true 0)
  else d

/-- A fuse-load failure (spec/02 R76). FUSE_REQ falls with it (DESIGN CHOICE, log 104). -/
def Dev.fuseFails (d : Dev) : Dev := { d with mgt.fuseIdx := 23, mgt.fuseReq := false }.raise bMgt 59

/-- A word of the 22 reads. -/
def Dev.fuseWord (d : Dev) (data : Word32) : Dev :=
  let i := d.mgt.fuseIdx
  if 11 ≤ i && d.mgt.fuseFirst.getD (i - 11) 0 ≠ data then d.fuseFails
  else
    { d with mgt.fuseFirst := if i < 11 then d.mgt.fuseFirst ++ [data] else d.mgt.fuseFirst
             mgt.fuseReq := false, mgt.fuseAt := d.mgt.tref }.emit (.fuse false (i % 11))

def execFuseAck (level : Bool) (data : Word32) (s : State) : Host.Outcome State Fault Refusal :=
  s.act fun d =>
    let d := d.startPower
    if d.mgt.phase != .fuse || !d.up domTref || decide (22 ≤ d.mgt.fuseIdx) then d
    else if level && d.mgt.fuseReq then d.fuseWord data
    else if !level && !d.mgt.fuseReq then
      let i := d.mgt.fuseIdx + 1
      let d := { d with mgt.fuseIdx := i }
      if i < 22 then { d with mgt.fuseReq := true, mgt.fuseAt := d.mgt.tref }.emit (.fuse true (i % 11)) else d
    else d

/-- FUSE_ACK has not risen or fallen within 2 µs. -/
def execFuseLoadFailure (s : State) : Host.Outcome State Fault Refusal :=
  s.act fun d =>
    let d := d.startPower
    if d.mgt.phase == .fuse && d.up domTref && decide (d.mgt.fuseIdx < 22) && d.passed d.mgt.fuseAt 2 then d.fuseFails else d

/-- A row that ends a phase of power-up, while it is the current one and its work is done; with PF_WARN at 1 power-up is
suspended there (spec/02 R72, spec/17 R455), but not in the safe state, which ignores it (spec/15 R425). -/
def Dev.phaseEnds (d : Dev) (p : Phase) (done squall : Bool) (f : Dev → Dev) : Dev :=
  if d.mgt.phase != p || d.inReset domTref || !done then d
  else if d.mgt.pfWarn && !squall then { d with mgt.suspended := true }
  else f d

/-- DBG_DISABLE is blown (spec/02 R77, spec/17 R456). -/
def Dev.dbgDisabled (d : Dev) : Bool := bit (d.mgt.fuse.getD 8 0) 0

/-- The TAP in Test-Logic-Reset (spec/17 R458, R460). -/
def Tap.home (t : Tap) : Tap := { t with ir := 1, sibReg := false, sibKat := false }

/-- Lane i is disabled by its fuse (spec/02 R77). -/
def laneFused (ws : List Word32) (i : Nat) : Bool := if i < 32 then bit (ws.getD 9 0) i else bit (ws.getD 10 0) (i - 32)

/-- Steps 2 and 3 of spec/03 R91; a blown DBG_DISABLE closes both SIBs (spec/17 R463); DISABLED lanes; KEY_SEED_ZERO
(spec/11 R289). -/
def execFusePhaseDone (s : State) : Host.Outcome State Fault Refusal :=
  s.act fun d => d.phaseEnds .fuse (decide (d.mgt.fuseIdx = 22)) s.safe.active fun d =>
    let d := ({ d with mgt.fuse := d.mgt.fuseFirst, mgt.phase := .sramInit }.outOfReset domReg).outOfReset domCore
    let d := if d.dbgDisabled then { d with tap.sibReg := false, tap.sibKat := false } else d
    let d := forAll (List.range Config.lanes) (fun i e =>
      if laneFused d.mgt.fuse i then e.updLane i fun l => { l with st := .disabled } else e) d
    if d.seed = 0 && d.lifecycle ≠ 0 then { d with key.seedZero := true }.raise bKey 3 else d

/-- Cluster k holds an enabled lane (spec/03 R89). -/
def Dev.clusterEnabled (d : Dev) (k : Nat) : Bool := (List.range 4).any fun j => (d.lane (4 * k + j)).st != .disabled

/-- A domain of step 5 leaves reset when its own reset input is 1; its clock is checked from then on. -/
def Dev.stepFiveOut (d : Dev) (k : Nat) (held : Bool) : Dev :=
  if held then { d with mgt.clkOk := d.mgt.clkOk ||| domBit k } else d.outOfReset k

/-- The initial credits of the doorbell port (spec/02 R65). -/
def Dev.dbCredits (d : Dev) : Dev := forAll (List.range Config.initDb) (fun _ e => e.emit .dbCredit) d

/-- Steps 4 and 5 of spec/03 R91, and the start of the tests of SELFTEST. -/
def execSramInitDone (s : State) : Host.Outcome State Fault Refusal :=
  s.act fun d => d.phaseEnds .sramInit true s.safe.active fun d =>
    let m := d.mgt
    let d := { d with mgt.phase := .selftest }
    let d := forAll (List.range 9) (fun k e => if e.clusterEnabled k then e.outOfReset k else e) d
    let d := forAll (List.range 8) (fun n (e : Dev) =>
      let e := e.outOfReset (domEnt n)
      if e.key.entEn.getLsbD n then e.setEnt n { e.ent n with st := .startup } else e) d
    let d := d.outOfReset domAnv
    let d := forAll (List.range 8) (fun p (e : Dev) =>
      (e.stepFiveOut (domFrx p) (m.fpRst.getLsbD p)).stepFiveOut (domFtx p) (m.fpRst.getLsbD p)) d
    let d := forAll (List.range 16) (fun c e => e.stepFiveOut (domMch c) (m.mcRst.getLsbD c)) d
    let d := forAll (List.range 4) (fun n e => e.stepFiveOut (domPel n) (m.pelRst.getLsbD n)) d
    let d := d.stepFiveOut domHdma m.hdmaRst
    let d := if m.hdmaRst || s.safe.active then d else d.dbCredits
    { d with key.drbg := { d.key.drbg with st := .testing } }

/-- Roles of the lanes that passed (spec/07 R170), lanes in rising order; a failed set counts in KAT_FAILS (R200), and
AUDIT_FALLBACK may rise (spec/15 R414). -/
def Dev.laneRoles (d : Dev) (results : List (List Bytes)) : Dev :=
  let off := d.lanesIn fun s => s == .off
  let pass (i : Nat) := katPassed (results.getD i [])
  let good := off.filter pass
  let d := forAll off (fun i e => e.updLane i fun l =>
    if pass i then { l with vec := katVec }
    else { l with vec := katVec, st := .retired, katFails := satAdd 255 l.katFails 1 }) d
  let d := forAll (good.take 32) (fun i e => e.updLane i fun l => { l with st := .active }) d
  let d := forAll (good.drop 32) (fun i e => e.updLane i fun l => { l with st := .standby }) d
  let d := match good.drop 32 with
    | i :: _ => d.updLane i fun l => { l with st := .auditor }
    | [] => d
  let d := { d with mgt.lanesOk := good.length }
  if good.isEmpty then d.raise bLan 110 else if d.auditFallback then d.raise bLan 148 else d

/-- All three tasks of SELFTEST are done; `laneResults` are those of the lanes' known-answer sets, lane 0 first (spec/07
R170, R189). -/
def execSelftestDone (laneResults : List (List Bytes)) (keyPass : Bool) (s : State) : Host.Outcome State Fault Refusal :=
  s.act fun d => d.phaseEnds .selftest (!d.key.ent.any fun p => p.2.st == .startup) s.safe.active fun d =>
    let d := { d with mgt.phase := .drbg }.laneRoles laneResults
    if !keyPass then d.raise bKey 13
    else if s.safe.active then d
    else
      let d := d.deriveAll
      if d.sourceOk then { d with key.drbg.st := .instantiating } else { d with key.drbg.st := .error }.fallbackSeeds

/-- The DRBG's working state from 1,024 samples and the personalization string, and its first draw (spec/11 R305,
spec/09 R239). -/
def Dev.instantiate (d : Dev) (samples : Bytes) : Dev :=
  let r := drbgUpdate 0 0 (drbgDf (samples ++ d.derive "DN512 DRBG" [] 48))
  let d := { d with key.drbg := { st := .ready, key := r.1, v := r.2, served := 0, instantiated := true } }
  let g := d.generate 128
  g.2.loadLfsrs g.1

/-- DRBG_INSTANTIATE. The lanes take their audit seeds at power-up only (spec/11 R301, R309). A source that fails its test
among the samples drops out, and the collection goes on (R305). -/
def execDrbgInstantiate (samples : Bytes) (lfsr : List Word32) (s : State) : Host.Outcome State Fault Refusal :=
  s.act fun d =>
    if s.safe.active || !d.up domCore || d.key.drbg.st != .instantiating || !d.sourceOk then d else
      let c := d.collected samples
      if !c.2 then c.1 else
      let e := (d.instantiate samples).drbgReady d.key.drbg.st
      let e := if d.mgt.phase == .drbg then e.seedLanes lfsr else e
      e.drbgUp.retryLfsrs

/-- READY (spec/17 R452). The first STL_AGE_PERIOD starts here (DESIGN CHOICE, log 112). -/
def execReady (s : State) : Host.Outcome State Fault Refusal :=
  s.act fun d => d.phaseEnds .drbg (!s.safe.active && (d.key.drbg.st == .ready || d.key.drbg.st == .error) &&
      d.key.derived.isSome && decide (0 < d.activeLanes)) s.safe.active fun d =>
    let t := d.mgt.tref
    let d := { d with mgt.phase := .done, mgt.ready := true, stl.ageAt := t, svc.accruedAt := t, per.timerAt := t }
    let d := forAll (List.range Config.lanes) (fun i e => e.updLane i fun l => if l.st.tested then { l with katAt := t } else l) d
    (forAll (d.lanesIn fun x => x == .active) (fun i e => e.drawAudit i) d).raise bMgt 61

/-! ### Resets (spec/03 R90-R94) -/

/-- The block after a reset by SYS_RST_N: every domain but SAFE and DBG, with what pins and fuses hold. The measurement of
DBG, which is not reset, is kept (DEDUCED, log 103), and that of SAFE, a register of REG, is cleared (DESIGN CHOICE, log 127). A
PF_WARN that is still 1 stays recognised, and MGT_PFW is not raised again (DESIGN CHOICE, log 128). -/
def Dev.sysReset (d : Dev) : Dev :=
  let m := d.mgt
  { Dev.reset with
    tap := d.tap.katLost
    mgt := { Mgt.reset with
      pwrGood := m.pwrGood, sysRstN := m.sysRstN, pfWarn := m.pfWarn, fuse := m.fuse
      domReset := (Mgt.reset.domReset &&& ~~~ domBit domDbg) ||| (m.domReset &&& domBit domDbg)
      clkOk := Mgt.reset.clkOk ||| (m.clkOk &&& domBit domDbg)
      clkMeas := Tab.put [] domDbg (m.clkMeas.get domDbg)
      fpRst := m.fpRst, mcRst := m.mcRst, hdmaRst := m.hdmaRst, pelRst := m.pelRst, holdoff := m.holdoff }
    del := { Del.reset with links := d.del.links.mapAll fun _ (l : Link) => { (default : Link) with up := l.up } }
    -- what waits for the banks of CORE goes on waiting; what they were about to register is lost (spec/15 R404)
    drive := d.drive, raised := if m.domReset.getLsbD domCore then d.raised else [], free := d.free, seq := d.seq }

/-- SYS_RST_N takes effect: the first-error records of every bank but FLT are lost, SAFE is kept (spec/03 R92). -/
def State.sysReset (s : State) : State :=
  { s with dev := s.dev.sysReset
           flt.banks := s.flt.banks.filter fun p => p.1 = bFlt
           safe.resetCause := s.safe.resetCause ||| 2 }

/-- The power-fail flush runs, so an assertion of SYS_RST_N is deferred (spec/03 R93, spec/15 R425). A PF_WARN that is recognised
before READY starts no flush, and defers nothing (DESIGN CHOICE, log 126). -/
def State.defers (s : State) : Bool := s.dev.mgt.pfw == .flushing && !s.safe.active

def execSysRstNAssert (s : State) : Host.Outcome State Fault Refusal :=
  s.whole fun s =>
    if !s.dev.mgt.sysRstN then s else
      let t := { s with dev.mgt.sysRstN := false }
      if s.defers then { t with dev.mgt.rstDeferred := true, safe.resetCause := s.safe.resetCause ||| 1 } else t.sysReset

/-- A deferred SYS_RST_N that the safe state has met takes effect: no flush runs there (spec/03 R93, spec/15 R425, log
106). -/
def State.overdueReset (s : State) : State :=
  if s.safe.active && s.dev.mgt.rstDeferred && !s.dev.mgt.sysRstN then s.sysReset else s

/-- Release; with EXTEST or CLAMP still the current instruction the behaviour is not defined (spec/17 R459). -/
def execSysRstNRelease (s : State) : Host.Outcome State Fault Refusal :=
  if s.dev.tap.ir = 0 ∨ s.dev.tap.ir = 3 then .fault .boundaryScanWithoutReset else s.whole fun s =>
    let s := s.overdueReset
    let d := s.dev
    if d.mgt.sysRstN then s
    else if d.mgt.rstDeferred then { s with dev := { d with mgt.sysRstN := true, mgt.rstDeferred := false } }
    else { s with dev := { d with mgt.sysRstN := true }.startPower }

/-- A recognised power loss: nothing of the block's memories survives it (log 31). A SYS_RST_N that waits takes effect. -/
def execPowerLoss (s : State) : Host.Outcome State Fault Refusal :=
  s.whole fun s =>
    if !s.dev.mgt.pwrGood then s else
      let t := { s with dev.mgt.pwrGood := false }
      if s.dev.mgt.rstDeferred then t.sysReset
      else { t with dev := t.dev.sysReset, flt.banks := s.flt.banks.filter fun p => p.1 = bFlt }

/-- A power cycle resets every domain, SAFE and DBG included; the pins keep their levels. -/
def execPowerCycle (s : State) : Host.Outcome State Fault Refusal :=
  s.whole fun s =>
    if s.dev.mgt.pwrGood then s else
      let d := s.dev.sysReset
      let up := s.dev.tap.trstN
      let d := { d with mgt := { d.mgt with pwrGood := true, fuse := [], domReset := Mgt.reset.domReset, clkOk := Mgt.reset.clkOk,
                                            clkMeas := [] }
                        tap := { Tap.reset with trstN := up }, raised := [] }
      let d := if up then d.outOfReset domDbg else d
      { s with dev := d.startPower, flt := Flt.reset, safe := Safe.reset }

/-- What a reset of a port's domains, or the loss of one of their clocks, discards (spec/03 R94). In the safe state nothing
is admitted after it. -/
def Dev.portReset (d : Dev) (p : Nat) (squall : Bool) : Dev :=
  let mine := d.fab.accs.filter fun (a : Access) => a.origin == Origin.port p
  let gone := fun (a : Access) => !a.inFlight || a.stage == .waitWindow || a.stage == .done ||
    (a.isWrite && (!a.paired || (match a.win with | .waiting _ => true | _ => false)))
  let parked := mine.filter fun a => a.stage == .parked
  let d := { d with fab.accs := d.fab.accs.filterMap fun (a : Access) =>
    if a.origin != Origin.port p then some a else if gone a then none else some { a with dropped := true, rwin := none } }
  let d := forAll parked (fun a e => e.syncFilter a.sid a.kid) d
  let d := forAll (List.range 32) (fun s e => e.updSession (sessOf p s) fun x => { x with wwin := none, wdone := [], rwins := [] }) d
  let x := d.port p
  let d := d.setPort p { (default : Port) with accErr := x.accErr, poison := x.poison, linkErr := x.linkErr, ktag := x.ktag }
  if squall then d else d.noteHold.retryReceived

def execFpnRstN (p : Fin 8) (s : State) : Host.Outcome State Fault Refusal :=
  s.act fun d =>
    let was := d.up (domFrx p) || d.up (domFtx p)
    let d := { d with mgt.fpRst := d.mgt.fpRst ||| BitVec.ofNat 8 (2 ^ p.val) }
    let d := (d.intoReset (domFrx p)).intoReset (domFtx p)
    if was then d.portReset p s.safe.active else d

/-- The port leaves reset, unless one of its clocks has been lost since the last SYS_RST_N reset (spec/15 R415). -/
def execFpnResetRelease (p : Fin 8) (s : State) : Host.Outcome State Fault Refusal :=
  s.act fun d =>
    if !d.mgt.fpRst.getLsbD p then d else
      let d := { d with mgt.fpRst := d.mgt.fpRst &&& ~~~ BitVec.ofNat 8 (2 ^ p.val) }
      if d.stepFive && d.clocked (domFrx p) && d.clocked (domFtx p) then
        let d := (d.outOfReset (domFrx p)).outOfReset (domFtx p)
        if s.safe.active then d else d.initialCredits p
      else d

/-- MCn_RST_N at 0 while SYS_RST_N has not taken effect retires the channel, and its credits restart (spec/03 R93, R94). The
credits of the services accrue first, at the bandwidth that held until now (spec/14 R384). -/
def execMcnRstN (ch : Fin 16) (s : State) : Host.Outcome State Fault Refusal :=
  s.act fun d =>
    let was := d.mgt.mcRst.getLsbD ch
    let d := if d.mgt.ready then d.accrue else d
    let d := { d with mgt.mcRst := d.mgt.mcRst ||| BitVec.ofNat 16 (2 ^ ch.val) }.intoReset (domMch ch)
    if was || !(d.mgt.sysRstN || d.mgt.rstDeferred) then d else
      let d := if s.safe.active then d.retireSafe ch 2 else d.retireChannel ch 2
      d.setChan ch { d.chan ch with mcmd := 0, mwd := 0 }

/-- MCn_RST_N released: the domain is up with its clock, a loss before the reset included (DESIGN CHOICE, logs 75 and 129). -/
def execMcnResetRelease (ch : Fin 16) (s : State) : Host.Outcome State Fault Refusal :=
  s.act fun d =>
    let d := { d with mgt.mcRst := d.mgt.mcRst &&& ~~~ BitVec.ofNat 16 (2 ^ ch.val) }
    if d.stepFive && d.inReset (domMch ch) then d.outOfReset (domMch ch) else d

def execHdmaRstN (s : State) : Host.Outcome State Fault Refusal :=
  s.act fun d =>
    let was := !d.inReset domHdma
    let d := { d with mgt.hdmaRst := true }.intoReset domHdma
    if was then d.hostLost s.safe.active else d

def execHdmaResetRelease (s : State) : Host.Outcome State Fault Refusal :=
  s.act fun d =>
    if !d.mgt.hdmaRst then d else
      let d := { d with mgt.hdmaRst := false }
      if d.stepFive && d.clocked domHdma then
        let d := d.outOfReset domHdma
        if s.safe.active then d else d.dbCredits.pumpVecs
      else d

/-- The registers of link n are reset with its domain (spec/16 R449). -/
def execPelnRstN (n : Fin 4) (s : State) : Host.Outcome State Fault Refusal :=
  s.act fun d =>
    let d := { d with mgt.pelRst := d.mgt.pelRst ||| BitVec.ofNat 4 (2 ^ n.val) }.intoReset (domPel n)
    (d.setLink n { (default : Link) with up := (d.link n).up }).linkDown n

/-- PELn_RST_N released: the domain is up with its clock, a loss before the reset included (DESIGN CHOICE, logs 75 and 129). -/
def execPelnResetRelease (n : Fin 4) (s : State) : Host.Outcome State Fault Refusal :=
  s.act fun d =>
    let d := { d with mgt.pelRst := d.mgt.pelRst &&& ~~~ BitVec.ofNat 4 (2 ^ n.val) }
    if d.stepFive && d.inReset (domPel n) then (d.outOfReset (domPel n)).linkDown n else d

/-! ### Clocks (spec/03 R88, R98; spec/15 R415) -/

/-- The access to the Anvil that is outstanding fails. -/
def Dev.anvilLost (d : Dev) (squall : Bool) : Dev :=
  match d.per.anvil with
  | none => d
  | some a => d.anvilAnswer a none squall

/-- What the loss of a domain's clock leads to (spec/15 R415). -/
def Dev.clockGone (d : Dev) (k : Nat) : Dev :=
  if k < 9 then
    forAll ((List.range 4).map (4 * k + ·)) (fun i e =>
      if (e.lane i).st == .retired || (e.lane i).st == .disabled then e else e.retireLane i false) d
  else if 10 ≤ k && k < 18 then d.portReset (k - 10) false
  else if 18 ≤ k && k < 26 then d.portReset (k - 18) false
  else if 26 ≤ k && k < 42 then d.retireChannel (k - 26) 1
  else if k = domHdma then d.hostLost false
  else if k = domAnv then d.anvilLost false
  else if 45 ≤ k && k < 53 then d.sourceFails (k - 45) false false
  else if 53 ≤ k && k < 57 then d.linkDown (k - 53)
  else d

/-- The same in the safe state: states change, and nothing goes on. -/
def Dev.clockGoneSafe (d : Dev) (k : Nat) : Dev :=
  if k < 9 then
    forAll ((List.range 4).map (4 * k + ·)) (fun i e =>
      if (e.lane i).st == .retired || (e.lane i).st == .disabled then e else e.retireLane i true) d
  else if 10 ≤ k && k < 18 then d.portReset (k - 10) true
  else if 18 ≤ k && k < 26 then d.portReset (k - 18) true
  else if 26 ≤ k && k < 42 then d.retireSafe (k - 26) 1
  else if k = domHdma then d.hostLost true
  else if k = domAnv then d.anvilLost true
  else if 45 ≤ k && k < 53 then d.setEnt (k - 45) { d.ent (k - 45) with st := .failed }
  else if 53 ≤ k && k < 57 then d.linkDown (k - 53)
  else d

/-- The monitor of a domain out of reset finds its clock lost (spec/03 R88). SAFE has no monitor. -/
def Dev.clockLost (d : Dev) (k : Nat) (squall : Bool) : Dev :=
  if k = domSafe || d.inReset k || d.clockLostAt k then d else
    let d := { d with mgt.clkOk := d.mgt.clkOk &&& ~~~ domBit k
                      mgt.clkMeas := d.mgt.clkMeas.upd k fun m => { m with lost := true } }
    if k = domDbg then { d with tap := { d.tap.home with held := true } }
    else if squall then d.clockGoneSafe k
    else if d.up domCore then d.clockGone k
    else d

def execClockLoss (dom : Fin 60) (s : State) : Host.Outcome State Fault Refusal :=
  s.act fun d => d.clockLost dom s.safe.active

/-- The greatest FREQ that is within 10 % of the maximum of a domain's range, in 100 kHz (spec/03 R82, R88). -/
def freqLimit (k : Nat) : Nat :=
  if k ≤ 9 then 22000
  else if k < 26 then 11000
  else if k < 42 then 6875
  else if k = domHdma then 11000
  else if k = domReg then 5500
  else if k = domAnv then 2200
  else if k < 53 then 4400
  else if k < 57 then 5500
  else if k = domDbg then 550
  else 1100

/-- The credits of the services accrue at the bandwidth that held until now (spec/14 R384). -/
def execClockMeasurement (dom : Fin 60) (freq : BitVec 16) (s : State) : Host.Outcome State Fault Refusal :=
  s.act fun d =>
    if d.inReset dom || d.inReset domTref then d else
      let d := if d.mgt.ready then d.accrue else d
      let d := { d with mgt.clkMeas := d.mgt.clkMeas.upd dom fun m => { m with valid := true, freq := freq } }
      if freqLimit dom < freq.toNat then d.clockLost dom s.safe.active else d

/-! ### PF_WARN (spec/02 R71, R72; spec/04 R121; spec/10 R269, R271, R272; spec/13 R360) -/

/-- A request that PF_WARN finds without admission: received, parked, ended by a parking timeout, or refused and in no
window. -/
def Access.unadmitted (a : Access) : Bool :=
  a.stage == .received || a.stage == .parked || a.stage == .expired || (a.stage == .refused && a.win == .none)

/-- Requests not admitted complete ACCESS_ERROR, whatever their window or payload (spec/04 R121; log 86), and windows end. A
write that has been admitted and is in no window yet goes on waiting for one (DESIGN CHOICE, log 110). -/
def Dev.stopAdmission (d : Dev) : Dev :=
  let ids := (d.fab.accs.filter Access.unadmitted).map fun a => (a.id, a.sid, a.kid)
  let d := forAll ids (fun x e => (e.outcome x.1 .accessError).syncFilter x.2.1 x.2.2) d
  let d := forAll (List.range 256) (fun g e =>
    let e := e.updSession g fun s => { s with wdone := s.wdone.map fun (w : WWin) =>
      if w.forced.isNone then { w with forced := some .sessionFailed } else w }
    if (e.session g).wwin.isSome then e.endWindow g .sessionFailed else Dev.flushForced (e.session g).wdone.length g e) d
  forAll ((d.fab.accs.filter fun a => a.stage == .waitWindow).map (·.id)) (fun id e => e.outcome id .linkError) d

/-- A draw of key material would wait. -/
def Dev.drawWaits (d : Dev) : Bool :=
  match d.key.drbg.st with
  | .ready => d.reseedDue
  | .error => false
  | _ => true

/-- Entries in execution that end ABORTED with cause PF_WARN before they act; a service command while it reads its fragment
tables too. -/
def Dev.stopsEntry (d : Dev) (x : Exec) : Bool :=
  let o := opcode x.entry
  let svc := decide (o ∈ [cSanitize, cScrub, cSeal, cUnseal, cTranscode])
  (svc && (x.st == .tables || x.st == .buffer)) ||
    (x.st == .ready && (svc || (decide (o = cCheckpoint) && d.per.armed) || (x.waits && d.drawWaits)))

def Dev.stopEntries (d : Dev) : Dev :=
  let xs := d.qmg.queues.flatMap fun p => (p.2.exec.filter d.stopsEntry).map fun x => (p.1, x.pos)
  let d := forAll xs (fun x e => ((e.dropDrawn x.1 x.2.toNat).dropInput x.1 x.2).finish x.1 x.2 (Cpl.aborted 3)) d
  let d := forAll d.svc.cmds (fun c e => e.svcStop c.q c.pos (Cpl.aborted 3)) d
  match d.per.restore with
  | some r => if r.stage == .waiting then d.restoreEnds (Cpl.aborted 3) false else d
  | none => d

/-- Recognition of PF_WARN in service: the power-fail flush begins. -/
def Dev.flushBegins (d : Dev) : Dev :=
  let d := { d with mgt.pfw := .flushing }.stopAdmission.ckptFail 3
  let d := { d with per.waiting := [] }.finishAll d.per.waiting (Cpl.aborted 3)
  d.stopEntries

def execPfWarn (s : State) : Host.Outcome State Fault Refusal :=
  s.act fun d =>
    let d := d.startPower
    if s.safe.active || d.mgt.pfWarn || !d.up domTref then d else
      let d := { d with mgt.pfWarn := true }.raise bMgt 62
      if d.mgt.ready then d.flushBegins else d

/-- The writes, the flush and, when armed, the checkpoint of the flush have ended. -/
def Dev.flushEnded (d : Dev) : Bool :=
  d.mgt.pfw == .flushing && (if d.per.armed then d.per.pfCut && d.per.ckpt.isNone else !d.writesLeft)

/-- PFW_DONE; in the safe state it ends no flush, and a SYS_RST_N that waited for one takes effect. -/
def execPfwDone (s : State) : Host.Outcome State Fault Refusal :=
  s.whole fun s =>
    if s.safe.active then s.overdueReset else if !s.dev.flushEnded then s else
      let t := { s with dev := { s.dev with per.pfwDone := true, mgt.pfw := .done }.raise bPer 6 }
      if t.dev.mgt.rstDeferred && !t.dev.mgt.sysRstN then t.sysReset else { t with dev.mgt.rstDeferred := false }

/-- PF_WARN has been 0 for 3 TREF cycles: admission or power-up goes on. -/
def execPfWarnClear (s : State) : Host.Outcome State Fault Refusal :=
  s.act fun d =>
    if s.safe.active || !d.mgt.pfWarn || d.mgt.pfw == .flushing then d else
      let was := d.mgt.pfw == .done
      let d := { d with mgt.pfWarn := false, mgt.suspended := false }
      if !was then d else
        let d := { d with mgt.pfw := .none, per.pfwDone := false, per.pfCut := false }
        let d := forAll (List.range Config.ports) (fun p e => e.initialCredits p) d
        (d.retryReceived.ckptNext).pumpAdopt

/-! ### The safe state (spec/15 R404, R422, R424) -/

/-- SQUALL_ENTRY: an FT source is detected for which no other row of its cause exists. -/
def execSquallEntry (b : Fin 14) (src : BitVec 10) (s : State) : Host.Outcome State Fault Refusal :=
  s.act fun d =>
    let k := src.toNat
    let x := s.flt.banks.get b
    let fuse := b.val = bMgt && k = 59
    if k < sources b && x.cls b k == 3 && !(b.val = bMgt && (k < 59)) && (!fuse || (d.mgt.phase == .fuse && d.up domTref))
    then d.raise b k else d

/-- A pass in flight is abandoned: what its lane holds of it is cleared. The session key that a lane holds for a partial pass
goes whether or not a pass is in it now, and so do the keys kept for the writes of passed windows. -/
def Access.outOfLane (a : Access) : Access :=
  let a := { a with linkKey := none, winKey := none }
  if a.stage == .lane then { a with stage := .granted, lane := none, pass := default, beat := default, rdata := 0 } else a

/-- The tag material that the lanes hold for a session's windows is cleared. -/
def Session.untagged (s : Session) : Session :=
  { s with wwin := s.wwin.map fun (w : WWin) => { w with tk := default }
           wdone := s.wdone.map fun (w : WWin) => { w with tk := default }
           rwins := s.rwins.map fun (w : RWin) => { w with tk := default } }

/-- The items of R424: the key store, the DRBG, the lanes' key caches and pipeline registers. A known-answer set that runs
is a pass in flight. -/
def Dev.zeroise (d : Dev) : Dev :=
  { d with
    key.slots := [], key.regs := [], key.keks := [], key.derived := none, key.drawn := []
    key.drbg := { d.key.drbg with key := 0, v := 0, served := 0, instantiated := false }
    frs.zones := d.frs.zones.mapAll fun _ (z : Zone) => { z with key := none, drawn := none }
    fab.accs := d.fab.accs.map Access.outOfLane
    fab.sessions := d.fab.sessions.mapAll fun _ (x : Session) => x.untagged
    tap := d.tap.katLost
    lan.lanes := d.lan.lanes.mapAll fun _ (l : Lane) => { l with slots := [], regs := [], katRun := false, katHold := false } }

/-- The bulk clear of R424 has ended. -/
def execZeroisationDone (s : State) : Host.Outcome State Fault Refusal :=
  s.whole fun s =>
    if !s.safe.active || s.safe.zeroised then s else { s with dev := s.dev.zeroise, safe.zeroised := true }

end Machine
end Sys2Proof
end

