-- ==== Sys2Proof/Machine/Tap.lean ====
section
/-! DEFINITION. The test access port and the IEEE 1687 network (spec/02 R80, spec/17 R457-R464). -/

namespace Sys2Proof
namespace Machine

def irExtest : BitVec 8 := 0x00
def irIdcode : BitVec 8 := 0x01
def irSample : BitVec 8 := 0x02
def irClamp : BitVec 8 := 0x03
def irNetwork : BitVec 8 := 0x10
/-- The codes with an instruction of their own; every other code is BYPASS (spec/17 R458). -/
def namedCodes : List (BitVec 8) := [irExtest, irIdcode, irSample, irClamp, irNetwork]

/-- The TAP can be used: TRST_N is 1, and no clock loss holds it in Test-Logic-Reset (spec/02 R80, spec/15 R415). -/
def Dev.tapOn (d : Dev) : Bool := !d.inReset domDbg && !d.tap.held

/-- An effect on the TAP; none while TRST_N or a clock loss holds it. A row is a whole scan, from Run-Test/Idle back to it
(log 33). -/
def State.onTap (s : State) (f : Dev → Dev) : Host.Outcome State Fault Refusal :=
  s.act fun d => if d.tapOn then f d else d

/-- TRST_N takes a level: at 0 it holds the DBG domain and the TAP in reset. -/
def execTrstN (level : Bool) (s : State) : Host.Outcome State Fault Refusal :=
  s.act fun d =>
    if !level then { d.intoReset domDbg with tap := Tap.reset }
    else if d.tap.trstN then d
    else { d.outOfReset domDbg with tap.trstN := true }

/-! ### The boundary-scan chain (spec/17 R459) -/

/-- A signal with cells: whether its cells drive a pin under EXTEST and CLAMP, and how many they are. -/
structure Pins where
  name : String
  drives : Bool
  width : Nat
  deriving DecidableEq, Repr

def pinIn (name : String) (width : Nat) : Pins := ⟨name, false, width⟩
def pinOut (name : String) (width : Nat) : Pins := ⟨name, true, width⟩

/-- spec/02 R36. -/
def fabricPins : List Pins :=
  [pinIn "FPn_REQ_VALID" 1, pinOut "FPn_REQ_CREDIT" 1, pinIn "FPn_REQ_OP" 2, pinIn "FPn_REQ_TAG" 12, pinIn "FPn_REQ_SID" 16,
   pinIn "FPn_REQ_KID" 16, pinIn "FPn_REQ_DPA" 40, pinIn "FPn_REQ_SESS" 5, pinIn "FPn_WDAT_VALID" 1, pinOut "FPn_WDAT_CREDIT" 1,
   pinIn "FPn_WDAT_DATA" 256, pinIn "FPn_WDAT_MASK" 32, pinIn "FPn_WLPC_VALID" 1, pinOut "FPn_WLPC_CREDIT" 1] ++
  [pinIn "FPn_WLPC_TYPE" 2, pinIn "FPn_WLPC_DATA" 64, pinOut "FPn_WCHK_VALID" 1, pinIn "FPn_WCHK_CREDIT" 1,
   pinOut "FPn_WCHK_SESS" 5, pinOut "FPn_WCHK_RESULT" 2, pinOut "FPn_RSP_VALID" 1, pinIn "FPn_RSP_CREDIT" 1, pinOut "FPn_RSP_TAG" 12,
   pinOut "FPn_RSP_STATUS" 3, pinOut "FPn_RDAT_VALID" 1, pinIn "FPn_RDAT_CREDIT" 1, pinOut "FPn_RDAT_TAG" 12] ++
  [pinOut "FPn_RDAT_STATUS" 3, pinOut "FPn_RDAT_DATA" 256, pinIn "FPn_RLPC_VALID" 1, pinOut "FPn_RLPC_CREDIT" 1,
   pinIn "FPn_RLPC_TYPE" 2, pinIn "FPn_RLPC_DATA" 64, pinOut "FPn_RTAG_VALID" 1, pinIn "FPn_RTAG_CREDIT" 1, pinOut "FPn_RTAG_SESS" 5,
   pinOut "FPn_RTAG_DATA" 48]

/-- spec/02 R48. -/
def mediaPins : List Pins :=
  [pinOut "MCn_CMD_VALID" 1, pinIn "MCn_CMD_CREDIT" 1, pinOut "MCn_CMD_OP" 2, pinOut "MCn_CMD_TAG" 10, pinOut "MCn_CMD_ADDR" 41,
   pinOut "MCn_WD_VALID" 1, pinIn "MCn_WD_CREDIT" 1, pinOut "MCn_WD_DATA" 288, pinIn "MCn_RD_VALID" 1, pinIn "MCn_RD_TAG" 10,
   pinIn "MCn_RD_DATA" 288, pinIn "MCn_RD_ECC" 2, pinIn "MCn_CPL_VALID" 1, pinIn "MCn_CPL_TAG" 10, pinIn "MCn_CPL_STATUS" 2,
   pinIn "MCn_FAIL" 1]

/-- spec/02 R56. -/
def hdmaPins : List Pins :=
  [pinOut "HDMA_WR_VALID" 1, pinIn "HDMA_WR_CREDIT" 1, pinOut "HDMA_WR_ADDR" 59, pinOut "HDMA_WR_DATA" 256, pinOut "HDMA_WR_BE" 32,
   pinOut "HDMA_WR_TAG" 8, pinOut "HDMA_WR_QID" 14, pinOut "HDMA_WR_MSG" 1, pinIn "HDMA_WACK_VALID" 1, pinIn "HDMA_WACK_TAG" 8,
   pinIn "HDMA_WACK_ERR" 1, pinOut "HDMA_RD_VALID" 1, pinIn "HDMA_RD_CREDIT" 1, pinOut "HDMA_RD_ADDR" 59] ++
  [pinOut "HDMA_RD_LEN" 4, pinOut "HDMA_RD_TAG" 8, pinIn "HDMA_RDATA_VALID" 1, pinIn "HDMA_RDATA_TAG" 8, pinIn "HDMA_RDATA_DATA" 256,
   pinIn "HDMA_RDATA_LAST" 1, pinIn "HDMA_RDATA_ERR" 1, pinIn "HOST_HOLDOFF" 1]

/-- spec/02 R63, R65, R67. -/
def hostPins : List Pins :=
  [pinIn "REG_REQ_VALID" 1, pinOut "REG_REQ_READY" 1, pinIn "REG_REQ_WRITE" 1, pinIn "REG_REQ_ADDR" 22, pinIn "REG_REQ_WDATA" 32,
   pinOut "REG_RSP_VALID" 1, pinOut "REG_RSP_RDATA" 32, pinOut "REG_RSP_ERR" 1] ++
  [pinIn "DB_VALID" 1, pinOut "DB_CREDIT" 1, pinIn "DB_SLOT" 14, pinIn "DB_DATA" 64, pinIn "DB_BE" 8] ++
  [pinOut "ANV_REQ_VALID" 1, pinIn "ANV_REQ_READY" 1, pinOut "ANV_REQ_WRITE" 1, pinOut "ANV_REQ_ADDR" 8, pinOut "ANV_REQ_WDATA" 32,
   pinIn "ANV_RSP_VALID" 1, pinIn "ANV_RSP_RDATA" 32, pinIn "ANV_RSP_ERR" 1]

/-- spec/02 R73: cells that only observe. -/
def safePins : List Pins := [pinIn "SAFE_ACTIVE" 1, pinIn "SAFE_CLASS" 2]

/-- spec/02 R75. -/
def fusePins : List Pins := [pinOut "FUSE_REQ" 1, pinOut "FUSE_ADDR" 4, pinIn "FUSE_ACK" 1, pinIn "FUSE_DATA" 32]

/-- spec/02 R78. -/
def linkPins : List Pins :=
  [pinIn "PELn_LINK_UP" 1, pinOut "PELn_TX_VALID" 1, pinIn "PELn_TX_READY" 1, pinOut "PELn_TX_SOF" 1, pinOut "PELn_TX_DATA" 32,
   pinIn "PELn_RX_VALID" 1, pinIn "PELn_RX_SOF" 1, pinIn "PELn_RX_DATA" 32]

/-- The cells before those of the safe-state outputs, the first one nearest TDO; of the groups with several units, unit 0
first (DEDUCED, log 33). -/
def chainHead : List Pins :=
  (List.replicate 8 fabricPins).flatten ++ (List.replicate 16 mediaPins).flatten ++ hdmaPins ++ hostPins
/-- The whole chain. -/
def chain : List Pins := chainHead ++ safePins ++ fusePins ++ (List.replicate 4 linkPins).flatten

def widthOf (ps : List Pins) : Nat := (ps.map (·.width)).sum

/-- Bit i set: cell i drives a pin. -/
def drivers : List Pins → Nat
  | [] => 0
  | p :: ps => (if p.drives then 2 ^ p.width - 1 else 0) + 2 ^ p.width * drivers ps

/-- The output pins under EXTEST and CLAMP. -/
def pinsDriven (cells : BitVec Config.chainBits) : Transfer := .pins (cells &&& BitVec.ofNat _ (drivers chain))

/-- What the chain captures: the values on the pins, and in the cells of SAFE_ACTIVE and SAFE_CLASS what SAFE holds. -/
def State.captured (s : State) (pins : BitVec Config.chainBits) : BitVec Config.chainBits :=
  let at_ := widthOf chainHead
  (pins &&& ~~~ BitVec.ofNat _ (7 * 2 ^ at_)) ||| BitVec.ofNat _ ((flag s.safe.active + 2 * s.safe.cls.toNat) * 2 ^ at_)

/-! ### What leaves on TDO (spec/02 R80, spec/17 R458-R460) -/

/-- Bits that a scan shifts out: how many, and their values, the bit nearest TDO first. -/
abbrev Shift := Nat × Nat
def Shift.andThen (x y : Shift) : Shift := (x.1 + y.1, x.2 + 2 ^ x.1 * y.2)
def Dev.shiftOut (d : Dev) (x : Shift) : Dev := d.emit (.tdo x.1 x.2)

def idcode : Nat := 0x105129A7

/-- An instruction is shifted in while the value that Capture-IR loaded is shifted out. -/
def Dev.select (d : Dev) (i : BitVec 8) : Dev := { d with tap.ir := i }.shiftOut (8, 1)

/-- The bypass register captures 0 (spec/02 R80: IEEE 1149.1). -/
def bypassBit : Shift := (1, 0)

/-- What the network captures, nearest TDO first; a SIB captures its own state (DESIGN CHOICE, log 107). -/
def Tap.path (t : Tap) : Shift :=
  let bits (b : Bool) : Shift := (1, flag b)
  let kat := (Shift.andThen (6, t.kLane.toNat) (bits t.kRefused)).andThen ((bits t.kPass).andThen (bits t.kDone))
  let reg := (Shift.andThen (32, t.rData.toNat) (22, t.rWaddr.toNat)).andThen
    ((bits t.rErr).andThen ((bits t.rDenied).andThen (bits t.rDone)))
  ((bits t.sibKat).andThen (if t.sibKat then kat else (0, 0))).andThen
    ((bits t.sibReg).andThen (if t.sibReg then reg else (0, 0)))

/-- EXTEST: the output cells drive what they hold, then what the scan loads. With SYS_RST_N at 1 the behaviour is not
defined (spec/17 R459). -/
def execExtest (sampled loaded : BitVec Config.chainBits) (s : State) : Host.Outcome State Fault Refusal :=
  if s.dev.tapOn && s.dev.mgt.sysRstN then .fault .boundaryScanWithoutReset
  else s.onTap fun d =>
    let x := s.captured sampled
    let d := ((d.select irExtest).emit (pinsDriven d.tap.cells)).shiftOut (Config.chainBits, x.toNat)
    { d with tap.sampled := x, tap.cells := loaded }.emit (pinsDriven loaded)

/-- CLAMP: the output cells drive what they hold, with the bypass register in the path. -/
def execClamp (s : State) : Host.Outcome State Fault Refusal :=
  if s.dev.tapOn && s.dev.mgt.sysRstN then .fault .boundaryScanWithoutReset
  else s.onTap fun d => ((d.select irClamp).emit (pinsDriven d.tap.cells)).shiftOut bypassBit

/-- IDCODE, by its code or by Test-Logic-Reset, which closes both SIBs (spec/17 R458, R460). -/
def execIdcode (testLogicReset : Bool) (s : State) : Host.Outcome State Fault Refusal :=
  s.onTap fun d =>
    (if testLogicReset then { d with tap := d.tap.home } else d.select irIdcode).shiftOut (32, idcode)

def execSamplePreload (sampled loaded : BitVec Config.chainBits) (s : State) : Host.Outcome State Fault Refusal :=
  s.onTap fun d =>
    let x := s.captured sampled
    { (d.select irSample).shiftOut (Config.chainBits, x.toNat) with tap.sampled := x, tap.cells := loaded }

/-- BYPASS, by any code that no other instruction has. -/
def execBypass (code : BitVec 8) (s : State) : Host.Outcome State Fault Refusal :=
  s.onTap fun d => if code ∈ namedCodes then d else (d.select code).shiftOut bypassBit

/-- NETWORK with the SIBs its Update-DR leaves; with DBG_DISABLE blown it acts as BYPASS, and the instruction register keeps
the code shifted in (spec/17 R458, R463, log 32). -/
def execNetwork (sibReg sibKat : Bool) (s : State) : Host.Outcome State Fault Refusal :=
  s.onTap fun d =>
    if d.dbgDisabled then
      { ({ d with tap := d.tap.home }.select irNetwork).shiftOut bypassBit with
        tap.denied := satAdd 0xFFFF d.tap.denied 1 }.raise bMgt 60
    else { (d.select irNetwork).shiftOut d.tap.path with tap.sibReg := sibReg, tap.sibKat := sibKat }

/-- The network is in the path from TDI to TDO (spec/17 R460, R463). -/
def Dev.networkOn (d : Dev) : Bool := d.tap.ir == irNetwork && !d.dbgDisabled

/-- Registers of KEY and STL, which DEPLOYED refuses to the TAP. -/
def tapRefused (a : Nat) : Bool :=
  decide (0x40000 ≤ a ∧ a < 0x60000) || decide (0x100000 ≤ a ∧ a < 0x120000)

/-- A read through the TAP that captures ERR: the register's domain, REG where it names no other, is in reset or unclocked.
An offset that no register occupies reads 0 (spec/00 R10). -/
def State.tapErr (s : State) (a : Nat) : Bool :=
  (s.regAt a).isSome && (match regDoms a with | [] => [domReg] | ks => ks).any fun k => !s.dev.up k

/-- The REG_READ segment's GO (spec/17 R461). -/
def execTapRegRead (woff : BitVec 22) (zenith : Bool) (s : State) : Host.Outcome State Fault Refusal :=
  let a := 4 * woff.toNat
  let r := s.readHeld s.dev.tap.rHeld a
  let err := s.tapErr a
  s.onTap fun d =>
    if !d.networkOn || !d.tap.sibReg then d else
      let d := d.shiftOut d.tap.path
      let d := { d with tap.rDone := true, tap.rWaddr := woff, tap.rDenied := false, tap.rErr := false, tap.rData := 0 }
      if d.lifecycle = 3 && tapRefused a then
        { d with tap.rDenied := true, tap.denied := satAdd 0xFFFF d.tap.denied 1 }.raise bMgt 60
      else if err then { d with tap.rErr := true }
      else { d with tap.rData := r.1, tap.rHeld := r.2 }.zenithRead (zenith && zenithOffset s.dev.tap.rHeld a)

/-- The KAT segment's GO (spec/17 R462). A set that an earlier GO started goes on and reports nothing more. -/
def execTapKat (lane : BitVec 6) (s : State) : Host.Outcome State Fault Refusal :=
  s.onTap fun d =>
    if !d.networkOn || !d.tap.sibKat then d else
      let d := d.shiftOut d.tap.path
      let i := lane.toNat
      let d := { d with tap.kLane := lane, tap.kPass := false, tap.kRefused := false, tap.kDone := false,
                        tap.kBusy := false }
      if i < Config.lanes && (d.lane i).st.startable then ({ d with tap.kBusy := true }).startKat i
      else { d with tap.kRefused := true, tap.kDone := true }

end Machine
end Sys2Proof
end

