-- ==== Sys2Proof/Machine/Dispatch.lean ====
section
/-! DEFINITION. One arm per command. -/

namespace Sys2Proof
namespace Machine

def exec (i : Instr) (s : State) : Host.Outcome State Fault Refusal :=
  match i with
  | .fabricRequest p op tag sid kid line sess chk => Sys2Proof.Machine.execFabricRequest p op tag sid kid line sess chk s
  | .writePayload p data mask => Sys2Proof.Machine.execWritePayload p data mask s
  | .wlpcOpen p e => Sys2Proof.Machine.execWlpcOpen p e s
  | .wlpcAad p e => Sys2Proof.Machine.execWlpcAad p e s
  | .wlpcClose p e => Sys2Proof.Machine.execWlpcClose p e s
  | .wlpcReservedType p ty e => Sys2Proof.Machine.execWlpcReservedType p ty e s
  | .windowResult sess => Sys2Proof.Machine.execWindowResult sess s
  | .writeWindowTimeout sess => Sys2Proof.Machine.execWriteWindowTimeout sess s
  | .rlpcOpen p e => Sys2Proof.Machine.execRlpcOpen p e s
  | .rlpcAad p e => Sys2Proof.Machine.execRlpcAad p e s
  | .rlpcFormatError p ty e => Sys2Proof.Machine.execRlpcFormatError p ty e s
  | .rtag sess => Sys2Proof.Machine.execRtag sess s
  | .readWindowWaitTimeout sess read => Sys2Proof.Machine.execReadWindowWaitTimeout sess read s
  | .accessGrant id err => Sys2Proof.Machine.execAccessGrant id err s
  | .ladderVerifyDone id err key => Sys2Proof.Machine.execLadderVerifyDone id err key s
  | .mediaReadBeat ch tag beat ecc zenith key => Sys2Proof.Machine.execMediaReadBeat ch tag beat ecc zenith key s
  | .lanePassDone id lane audit err key => Sys2Proof.Machine.execLanePassDone id lane audit err key s
  | .mediaWriteCompletion ch tag status zenith => Sys2Proof.Machine.execMediaWriteCompletion ch tag status zenith s
  | .responseTransfer id err => Sys2Proof.Machine.execResponseTransfer id err s
  | .creditReturn c => Sys2Proof.Machine.execCreditReturn c s
  | .mcnFail ch => Sys2Proof.Machine.execMcnFail ch s
  | .transientBucketLeak ch => Sys2Proof.Machine.execTransientBucketLeak ch s
  | .parkingTimeout id err => Sys2Proof.Machine.execParkingTimeout id err s
  | .parkedRelease chk => Sys2Proof.Machine.execParkedRelease chk s
  | .ageingTick => Sys2Proof.Machine.execAgeingTick s
  | .hdmaWriteAck tag err => Sys2Proof.Machine.execHdmaWriteAck tag err s
  | .hdmaReadData tag data last err => Sys2Proof.Machine.execHdmaReadData tag data last err s
  | .hostHoldoffRise => Sys2Proof.Machine.execHostHoldoffRise s
  | .hostHoldoffFall => Sys2Proof.Machine.execHostHoldoffFall s
  | .tail slot low be => Sys2Proof.Machine.execTail slot low be s
  | .scan slot low be => Sys2Proof.Machine.execScan slot low be s
  | .invalidate slot low be => Sys2Proof.Machine.execInvalidate slot low be s
  | .drain slot low be => Sys2Proof.Machine.execDrain slot low be s
  | .entryFetch q => Sys2Proof.Machine.execEntryFetch q s
  | .scanPoll q => Sys2Proof.Machine.execScanPoll q s
  | .entryConsumption q err => Sys2Proof.Machine.execEntryConsumption q err s
  | .eventRecordWrite src => Sys2Proof.Machine.execEventRecordWrite src s
  | .vectorDue vec => Sys2Proof.Machine.execVectorDue vec s
  | .regWrite woff v => Sys2Proof.Machine.execRegWrite woff v s
  | .regReadPairLo woff zenith => Sys2Proof.Machine.execRegReadPairLo woff zenith s
  | .fabPortEn v => Sys2Proof.Machine.execFabPortEn v s
  | .fabCntClr v => Sys2Proof.Machine.execFabCntClr v s
  | .stlClear v => Sys2Proof.Machine.execStlClear v s
  | .stlClearDone => Sys2Proof.Machine.execStlClearDone s
  | .stlRejectClr v => Sys2Proof.Machine.execStlRejectClr v s
  | .stlCntClr v => Sys2Proof.Machine.execStlCntClr v s
  | .stlGeomSeedWrite reg set v => Sys2Proof.Machine.execStlGeomSeedWrite reg set v s
  | .rmpClear v => Sys2Proof.Machine.execRmpClear v s
  | .rmpClearDone => Sys2Proof.Machine.execRmpClearDone s
  | .rmpSetCfg set v => Sys2Proof.Machine.execRmpSetCfg set v s
  | .lanKatRun hi => Sys2Proof.Machine.execLanKatRun hi s
  | .katPeriodExpiry lane => Sys2Proof.Machine.execKatPeriodExpiry lane s
  | .katSetDone lane results => Sys2Proof.Machine.execKatSetDone lane results s
  | .probationEnd lane => Sys2Proof.Machine.execProbationEnd lane s
  | .standbyKatRepeat lane => Sys2Proof.Machine.execStandbyKatRepeat lane s
  | .clusterIdleGate k => Sys2Proof.Machine.execClusterIdleGate k s
  | .canCtrlEn v => Sys2Proof.Machine.execCanCtrlEn v s
  | .canPinCfg v => Sys2Proof.Machine.execCanPinCfg v s
  | .canLfsrReseed v drbg => Sys2Proof.Machine.execCanLfsrReseed v drbg s
  | .canCntClr v => Sys2Proof.Machine.execCanCntClr v s
  | .writeBack err key => Sys2Proof.Machine.execWriteBack err key s
  | .frsMetaBaseWrite limit v => Sys2Proof.Machine.execFrsMetaBaseWrite limit v s
  | .frsCntClr v => Sys2Proof.Machine.execFrsCntClr v s
  | .perArm v => Sys2Proof.Machine.execPerArm v s
  | .armingDone => Sys2Proof.Machine.execArmingDone s
  | .perAnchorBaseWrite v => Sys2Proof.Machine.execPerAnchorBaseWrite v s
  | .perCntClr v => Sys2Proof.Machine.execPerCntClr v s
  | .keyDrbgReseed v => Sys2Proof.Machine.execKeyDrbgReseed v s
  | .drbgReseedDone samples drbg => Sys2Proof.Machine.execDrbgReseedDone samples drbg s
  | .keyEntEn v => Sys2Proof.Machine.execKeyEntEn v s
  | .keyCntClr v => Sys2Proof.Machine.execKeyCntClr v s
  | .entropyStartupDone n samples => Sys2Proof.Machine.execEntropyStartupDone n samples s
  | .entropyHealthFail n samples => Sys2Proof.Machine.execEntropyHealthFail n samples s
  | .drbgInstantiate samples lfsr => Sys2Proof.Machine.execDrbgInstantiate samples lfsr s
  | .enable q => Sys2Proof.Machine.execEnable q s
  | .disable q => Sys2Proof.Machine.execDisable q s
  | .adminReset q => Sys2Proof.Machine.execAdminReset q s
  | .queueIdle q => Sys2Proof.Machine.execQueueIdle q s
  | .qmgVecLoad v => Sys2Proof.Machine.execQmgVecLoad v s
  | .fltFirstHiClear b => Sys2Proof.Machine.execFltFirstHiClear b s
  | .fltForce b w v => Sys2Proof.Machine.execFltForce b w v s
  | .fltClassWrite b w v => Sys2Proof.Machine.execFltClassWrite b w v s
  | .notificationClear b w v => Sys2Proof.Machine.execNotificationClear b w v s
  | .medCntClr v => Sys2Proof.Machine.execMedCntClr v s
  | .svcCntClr v => Sys2Proof.Machine.execSvcCntClr v s
  | .anvilResponse rdata err => Sys2Proof.Machine.execAnvilResponse rdata err s
  | .anvilTimeout => Sys2Proof.Machine.execAnvilTimeout s
  | .powerLoss => Sys2Proof.Machine.execPowerLoss s
  | .powerCycle => Sys2Proof.Machine.execPowerCycle s
  | .pfWarn => Sys2Proof.Machine.execPfWarn s
  | .pfwDone => Sys2Proof.Machine.execPfwDone s
  | .pfWarnClear => Sys2Proof.Machine.execPfWarnClear s
  | .sysRstNAssert => Sys2Proof.Machine.execSysRstNAssert s
  | .sysRstNRelease => Sys2Proof.Machine.execSysRstNRelease s
  | .fpnRstN p => Sys2Proof.Machine.execFpnRstN p s
  | .mcnRstN ch => Sys2Proof.Machine.execMcnRstN ch s
  | .hdmaRstN => Sys2Proof.Machine.execHdmaRstN s
  | .hdmaResetRelease => Sys2Proof.Machine.execHdmaResetRelease s
  | .pelnRstN n => Sys2Proof.Machine.execPelnRstN n s
  | .clockLoss dom => Sys2Proof.Machine.execClockLoss dom s
  | .clockMeasurement dom freq => Sys2Proof.Machine.execClockMeasurement dom freq s
  | .fuseAck level data => Sys2Proof.Machine.execFuseAck level data s
  | .fuseLoadFailure => Sys2Proof.Machine.execFuseLoadFailure s
  | .fusePhaseDone => Sys2Proof.Machine.execFusePhaseDone s
  | .sramInitDone => Sys2Proof.Machine.execSramInitDone s
  | .selftestDone laneResults keyPass => Sys2Proof.Machine.execSelftestDone laneResults keyPass s
  | .ready => Sys2Proof.Machine.execReady s
  | .squallEntry b src => Sys2Proof.Machine.execSquallEntry b src s
  | .zeroisationDone => Sys2Proof.Machine.execZeroisationDone s
  | .zeroisationConfirm q pos => Sys2Proof.Machine.execZeroisationConfirm q pos s
  | .keyZeroiseTimeout q pos => Sys2Proof.Machine.execKeyZeroiseTimeout q pos s
  | .createQueue q pos => Sys2Proof.Machine.execCreateQueue q pos s
  | .deleteQueue q pos => Sys2Proof.Machine.execDeleteQueue q pos s
  | .resetQueue q pos => Sys2Proof.Machine.execResetQueue q pos s
  | .setFeature q pos => Sys2Proof.Machine.execSetFeature q pos s
  | .getFeature q pos => Sys2Proof.Machine.execGetFeature q pos s
  | .identify q pos => Sys2Proof.Machine.execIdentify q pos s
  | .swapConfig q pos => Sys2Proof.Machine.execSwapConfig q pos s
  | .swapCycle => Sys2Proof.Machine.execSwapCycle s
  | .anchorRestore q pos zenith => Sys2Proof.Machine.execAnchorRestore q pos zenith s
  | .adoptZone q pos zenith drbg => Sys2Proof.Machine.execAdoptZone q pos zenith drbg s
  | .adoptionStart zenith => Sys2Proof.Machine.execAdoptionStart zenith s
  | .formatZone q pos zenith drbg => Sys2Proof.Machine.execFormatZone q pos zenith drbg s
  | .treeReset z zenith => Sys2Proof.Machine.execTreeReset z zenith s
  | .poolJoin q pos => Sys2Proof.Machine.execPoolJoin q pos s
  | .poolLeave q pos => Sys2Proof.Machine.execPoolLeave q pos s
  | .poolReconcile q pos => Sys2Proof.Machine.execPoolReconcile q pos s
  | .keyInstall q pos key => Sys2Proof.Machine.execKeyInstall q pos key s
  | .keyGenerate q pos key => Sys2Proof.Machine.execKeyGenerate q pos key s
  | .keyDestroy q pos => Sys2Proof.Machine.execKeyDestroy q pos s
  | .keyDrained q pos => Sys2Proof.Machine.execKeyDrained q pos s
  | .kekLoadDerive q pos => Sys2Proof.Machine.execKekLoadDerive q pos s
  | .kekLoadUnwrap q pos key => Sys2Proof.Machine.execKekLoadUnwrap q pos key s
  | .sessionKeyInstall q pos key => Sys2Proof.Machine.execSessionKeyInstall q pos key s
  | .streamInsert q pos chk => Sys2Proof.Machine.execStreamInsert q pos chk s
  | .streamRemove q pos chk => Sys2Proof.Machine.execStreamRemove q pos chk s
  | .streamQuery q pos chk => Sys2Proof.Machine.execStreamQuery q pos chk s
  | .regionWrite q pos => Sys2Proof.Machine.execRegionWrite q pos s
  | .regionRead q pos => Sys2Proof.Machine.execRegionRead q pos s
  | .rekeyStart q pos => Sys2Proof.Machine.execRekeyStart q pos s
  | .rekeyAbort q pos => Sys2Proof.Machine.execRekeyAbort q pos s
  | .sanitize q pos zenith drbg => Sys2Proof.Machine.execSanitize q pos zenith drbg s
  | .scrub q pos zenith => Sys2Proof.Machine.execScrub q pos zenith s
  | .seal q pos zenith drbg => Sys2Proof.Machine.execSeal q pos zenith drbg s
  | .unseal q pos zenith => Sys2Proof.Machine.execUnseal q pos zenith s
  | .transcode q pos zenith => Sys2Proof.Machine.execTranscode q pos zenith s
  | .serviceCommandStart q pos => Sys2Proof.Machine.execServiceCommandStart q pos s
  | .checkpoint q pos => Sys2Proof.Machine.execCheckpoint q pos s
  | .canopyMaintFlush q pos => Sys2Proof.Machine.execCanopyMaintFlush q pos s
  | .canopyMaintInvalidate q pos => Sys2Proof.Machine.execCanopyMaintInvalidate q pos s
  | .flushInv q pos => Sys2Proof.Machine.execFlushInv q pos s
  | .pin q pos err => Sys2Proof.Machine.execPin q pos err s
  | .unpin q pos => Sys2Proof.Machine.execUnpin q pos s
  | .canopyMaintRead q pos err => Sys2Proof.Machine.execCanopyMaintRead q pos err s
  | .zero q pos => Sys2Proof.Machine.execZero q pos s
  | .measure q pos key zenith => Sys2Proof.Machine.execMeasure q pos key zenith s
  | .periodicCheckpoint => Sys2Proof.Machine.execPeriodicCheckpoint s
  | .hold => Sys2Proof.Machine.execHold s
  | .cut err key => Sys2Proof.Machine.execCut err key s
  | .release => Sys2Proof.Machine.execRelease s
  | .commit zenith => Sys2Proof.Machine.execCommit zenith s
  | .serviceStepStart who chk => Sys2Proof.Machine.execServiceStepStart who chk s
  | .frontStepDone step => Sys2Proof.Machine.execFrontStepDone step s
  | .serviceStepDone step zenith => Sys2Proof.Machine.execServiceStepDone step zenith s
  | .scrubDone => Sys2Proof.Machine.execScrubDone s
  | .zoneDeparture z => Sys2Proof.Machine.execZoneDeparture z s
  | .shadowRelease => Sys2Proof.Machine.execShadowRelease s
  | .linkUpChange n up => Sys2Proof.Machine.execLinkUpChange n up s
  | .frameReceived n words => Sys2Proof.Machine.execFrameReceived n words s
  | .hello n f => Sys2Proof.Machine.execHello n f s
  | .helloTimer n => Sys2Proof.Machine.execHelloTimer n s
  | .hb n f => Sys2Proof.Machine.execHb n f s
  | .heartbeatTimer => Sys2Proof.Machine.execHeartbeatTimer s
  | .member n f => Sys2Proof.Machine.execMember n f s
  | .safe n f => Sys2Proof.Machine.execSafe n f s
  | .ack n f => Sys2Proof.Machine.execAck n f s
  | .retransmitTimer n => Sys2Proof.Machine.execRetransmitTimer n s
  | .memberTimeout m => Sys2Proof.Machine.execMemberTimeout m s
  | .linkTimeout n => Sys2Proof.Machine.execLinkTimeout n s
  | .prepare n f => Sys2Proof.Machine.execPrepare n f s
  | .held n f => Sys2Proof.Machine.execHeld n f s
  | .cutFrame n f => Sys2Proof.Machine.execCutFrame n f s
  | .done n f => Sys2Proof.Machine.execDone n f s
  | .abort n f => Sys2Proof.Machine.execAbort n f s
  | .ckreq n f => Sys2Proof.Machine.execCkreq n f s
  | .txnTimeout => Sys2Proof.Machine.execTxnTimeout s
  | .report n f => Sys2Proof.Machine.execReport n f s
  | .retire n f => Sys2Proof.Machine.execRetire n f s
  | .recon n f => Sys2Proof.Machine.execRecon n f s
  | .reconDone n f => Sys2Proof.Machine.execReconDone n f s
  | .trstN level => Sys2Proof.Machine.execTrstN level s
  | .extest sampled loaded => Sys2Proof.Machine.execExtest sampled loaded s
  | .idcode testLogicReset => Sys2Proof.Machine.execIdcode testLogicReset s
  | .samplePreload sampled loaded => Sys2Proof.Machine.execSamplePreload sampled loaded s
  | .clamp => Sys2Proof.Machine.execClamp s
  | .network sibReg sibKat => Sys2Proof.Machine.execNetwork sibReg sibKat s
  | .bypass code => Sys2Proof.Machine.execBypass code s
  | .tapRegRead woff zenith => Sys2Proof.Machine.execTapRegRead woff zenith s
  | .tapKat lane => Sys2Proof.Machine.execTapKat lane s
  | .fpnResetRelease p => Sys2Proof.Machine.execFpnResetRelease p s
  | .mcnResetRelease ch => Sys2Proof.Machine.execMcnResetRelease ch s
  | .pelnResetRelease n => Sys2Proof.Machine.execPelnResetRelease n s

end Machine
end Sys2Proof
end

