-- ==== Sys2Proof/Machine/Step.lean ====
section
/-! DEFINITION. One step of the block: the command at the front of the queue, or the passing of one TREF cycle. -/

namespace Sys2Proof
namespace Machine

/-- One TREF cycle passes (log 1), whatever the state of TREF, its reset, its clock and PWR_GOOD (DESIGN CHOICE, log 125). -/
def tick (s : State) : State := { s with dev.mgt.tref := s.dev.mgt.tref + 1 }

/-- Take the command at the front of the queue; on an empty queue, one TREF cycle passes (log 1). -/
def step (s : State) : Host.Outcome State Fault Refusal :=
  match s.pending with
  | [] => .next (tick s)
  | c :: rest => exec c { s with pending := rest }

/-- The command that a word spells, put at the front of the queue; no word spells one. -/
def State.withFetchWord (s : State) (nbits w : Nat) : State :=
  match decodeTableWord nbits w with
  | some c => { s with pending := c :: s.pending }
  | none => s

end Machine
end Sys2Proof
end

