-- ==== Sys2Proof/Safety.lean ====
section
/-! DEFINITION. What counts as a safe run, and the terms the claims use: the parts of the block, which of them a
command leaves alone, and how a queue entry is answered. -/

namespace Sys2Proof
namespace Machine

/-- The machine after `n` steps, none where it stopped. -/
def runFor : Nat → State → Option State
  | 0, s => some s
  | n + 1, s =>
    match step s with
    | .next t => runFor n t
    | _ => none

/-- A state is safe when no number of steps makes the machine stop. -/
def SafeFrom (s : State) : Prop := ∀ n, (runFor n s).isSome

/-! ### Service -/

/-- The engine is in service: READY and not in the safe state (spec/17 R452, spec/15 R423). -/
abbrev InService (s : State) : Prop := s.dev.mgt.ready = true ∧ s.safe.active = false

/-- A REG access to a register of CORE is answered without error (spec/02 R64, spec/17 R453). -/
abbrev CoreServed (s : State) : Prop := InService s ∧ s.dev.up domReg = true ∧ s.dev.up domCore = true

/-- The command completes in a next state of which `P` holds. -/
def Completes (c : Instr) (s : State) (P : State → Prop) : Prop := ∃ t, exec c s = .next t ∧ P t

/-! ### The parts of the block -/

/-- The parts that a frame names. -/
inductive Part where
  /-- The queue of commands. -/
  | pending
  /-- Clocks, resets, fuses, power-up (spec/03, spec/17). -/
  | mgt
  | tap | fab | stl | rmp | lan
  | frs | can | med | key | svc | per
  /-- Identity, members, links (spec/16), less OSEQ, which the SAFE frame of the safe state counts. -/
  | del
  /-- Every queue (spec/12 R353). -/
  | queues
  /-- What is waiting and outstanding at HDMA, the credits there, and the queue that fetched last. -/
  | hdma
  /-- The QMG registers, the drains, and the settings of the vectors. -/
  | qmg
  /-- Mask, class and vector registers of the banks. -/
  | banks
  /-- FLT_DRILL.EN and MGT_RESET_CAUSE. -/
  | safeRegs
  deriving DecidableEq, Repr

/-- What a driver has set of a vector (spec/12 R341, R342), and its PEND. -/
def Vec.settings (x : Vec) : BitVec 64 × Word32 × Bool × Bool × Bool × Nat × Nat :=
  (x.addr, x.data, x.loaded, x.pend, x.mask, x.time, x.count)

/-- A part is the same in two states. Event records and registered occurrences stand outside the parts: the held records
and EVT_LOST flags, the items of the vectors, FLT_FIRST, FLT_LIVE and OVF, SAFE_STATUS (spec/12 R491, spec/15 R405,
R411, R422). -/
def Same (s t : State) : Part → Prop
  | .pending => t.pending = s.pending
  | .mgt => t.dev.mgt = s.dev.mgt
  | .tap => t.dev.tap = s.dev.tap
  | .fab => t.dev.fab = s.dev.fab
  | .stl => t.dev.stl = s.dev.stl
  | .rmp => t.dev.rmp = s.dev.rmp
  | .lan => t.dev.lan = s.dev.lan
  | .frs => { t.dev.frs with evtLost := false } = { s.dev.frs with evtLost := false }
  | .can => t.dev.can = s.dev.can
  | .med => t.dev.med = s.dev.med
  | .key => t.dev.key = s.dev.key
  | .svc => { t.dev.svc with evtLost := false } = { s.dev.svc with evtLost := false }
  | .per => { t.dev.per with evtLost := false } = { s.dev.per with evtLost := false }
  | .del => { t.dev.del with evtLost := false, oseq := 0 } = { s.dev.del with evtLost := false, oseq := 0 }
  | .queues => t.dev.qmg.queues = s.dev.qmg.queues
  | .hdma => t.dev.qmg.wrCredit = s.dev.qmg.wrCredit ∧ t.dev.qmg.rdCredit = s.dev.qmg.rdCredit ∧
      t.dev.qmg.wrWait = s.dev.qmg.wrWait ∧ t.dev.qmg.wrOut = s.dev.qmg.wrOut ∧
      t.dev.qmg.rdWait = s.dev.qmg.rdWait ∧ t.dev.qmg.rdOut = s.dev.qmg.rdOut ∧ t.dev.qmg.lastFetch = s.dev.qmg.lastFetch
  | .qmg => t.dev.qmg.cfgIgn = s.dev.qmg.cfgIgn ∧ t.dev.qmg.vecLoading = s.dev.qmg.vecLoading ∧
      t.dev.qmg.admqBase = s.dev.qmg.admqBase ∧ t.dev.qmg.admqCfg = s.dev.qmg.admqCfg ∧
      t.dev.qmg.scanPeriod = s.dev.qmg.scanPeriod ∧ t.dev.qmg.vecBase = s.dev.qmg.vecBase ∧
      t.dev.qmg.drains = s.dev.qmg.drains ∧ t.dev.qmg.drainVecs = s.dev.qmg.drainVecs ∧
      t.dev.qmg.drainDue = s.dev.qmg.drainDue ∧
      t.dev.qmg.fltEvq = s.dev.qmg.fltEvq ∧
      ∀ v, (t.dev.qmg.vecs.get v).settings = (s.dev.qmg.vecs.get v).settings
  | .banks => s.flt.banks.wf = true → t.flt.banks.wf = true ∧ ∀ b,
      (t.flt.banks.get b).mask = (s.flt.banks.get b).mask ∧ (t.flt.banks.get b).esc = (s.flt.banks.get b).esc ∧
      (t.flt.banks.get b).vecEn = (s.flt.banks.get b).vecEn ∧ (t.flt.banks.get b).vec = (s.flt.banks.get b).vec
  | .safeRegs => t.safe.drillEn = s.safe.drillEn ∧ t.safe.resetCause = s.safe.resetCause

/-- Every part but those listed is the same. -/
def OnlyChanges (ps : List Part) (s t : State) : Prop := ∀ p, p ∉ ps → Same s t p

/-! ### Answers -/

/-- The entry at a queue position has been answered with a completion, whose write is under way (spec/12 R331). -/
def Answered (q : BitVec 14) (pos : BitVec 16) (c : Cpl) (t : State) : Prop :=
  ∃ x, t.dev.exec1 q.toNat pos = some x ∧ x.cpl = some c ∧ x.st = .completing

/-- The entry is in hand, its command has not acted, and its completion has not been discarded. -/
abbrev Ready (q : BitVec 14) (pos : BitVec 16) (op : Nat) (x : Exec) (s : State) : Prop :=
  InService s ∧ s.dev.lifecycle ≠ 0 ∧ s.dev.readyEntry q.toNat pos op = some x ∧ x.discard = false

/-! ### Terms of the statements -/

/-- FAB_CREDIT_OVF of port `p` has been raised: where it is unmasked, not live already, and no record is held, it is the
first-error record of the FAB bank, RAW (spec/15 R405, R410, R413). -/
def Overflows (p : Nat) (s t : State) : Prop :=
  s.flt.banks.wf = true → s.dev.raised = [] → (512 + p) ∉ (s.flt.banks.get bFab).mask → (512 + p) ∉ (s.flt.banks.get bFab).live →
    (s.flt.banks.get bFab).first = none →
    (t.flt.banks.get bFab).first.map (fun r => (r.src, r.raw)) = some (512 + p, true)

/-- The receive channels of fabric port `p` carry transfers (spec/03 R90). -/
abbrev RxRuns (p : Nat) (s : State) : Prop := s.dev.up (domFrx p) = true ∧ s.dev.up domCore = true

/-- The transmit channels and RLPC of fabric port `p` carry transfers. -/
abbrev TxRuns (p : Nat) (s : State) : Prop := s.dev.up (domFtx p) = true ∧ s.dev.up domCore = true

/-- A REG access to the registers of a fault bank is answered without error: the FLT bank lies in SAFE, the others in CORE
(spec/15 R404, spec/18 R467). -/
abbrev BankServed (b : Nat) (s : State) : Prop :=
  InService s ∧ s.dev.up domReg = true ∧ s.dev.up (if b = bFlt then domSafe else domCore) = true

/-- No last write of an event record of the queue waits to be issued (spec/12 R336). -/
abbrev NoRecordWaits (q : Nat) (s : State) : Prop := ∀ w ∈ s.dev.qmg.wrWait, ∀ pos, w.why ≠ .recordHigh q pos

/-- `n` host writes can be issued at once: nothing waits, and credits and tags suffice (spec/02 R57). -/
abbrev RoomFor (n : Nat) (s : State) : Prop :=
  s.dev.up domHdma = true ∧ s.dev.qmg.wrWait = [] ∧ s.dev.qmg.wrOut = [] ∧ n ≤ s.dev.qmg.wrCredit ∧ n ≤ 256

/-- A REG access was answered without error (spec/02 R64). -/
abbrev AnswersReg (t : State) : Prop := Transfer.regRsp 0 false ∈ t.dev.drive

/-- A write window has all its payloads, all their AAD entries and its CLOSE (spec/02 R43). -/
abbrev WWin.full (w : WWin) : Prop :=
  w.members.length = w.count ∧ w.aad.length = w.aadn * w.count ∧ w.tag.isSome = true

/-- The address checks of a request pass: the stream's entry, the port, the region and its KID range, a loaded key, an
ONLINE zone for a region with counters (spec/04 R104, spec/06 R154). -/
structure Passes (d : Dev) (p : Nat) (sid kid : BitVec 16) (line : LineNo) (e : SEntry) (i : Nat) (r : RegionCfg) :
    Prop where
  stream : ∃ x, d.findStream d.activeSet sid kid = some (x, e)
  port : e.ports.getLsbD p = true
  region : (d.rmpSet d.activeSet).lookup line = some (i, r)
  kid : r.kidLo.toNat ≤ kid.toNat ∧ kid.toNat ≤ r.kidHi.toNat
  key : d.keyCheck i e.kslot = true
  zone : r.mode = .full → (d.zone (zoneOf line)).st = .online

/-- An entry of WLPC that makes the open window `w`: a window that has everything leaves "open" (spec/02 R43). -/
def Filled (x y : Session) (w : WWin) : Prop :=
  (w.full → y.wwin = none ∧ y.wdone = x.wdone ++ [w]) ∧ (¬w.full → y.wwin = some w)

/-- What a reset of every domain but SAFE and DBG leaves (spec/03 R90-R92): every part of CORE and of the domains around it
as it is at reset, PELn_LINK_UP apart, and no first-error record but that of the FLT bank. An item that the FLT bank counts
may stand in a vector. -/
structure Cleared (t : State) : Prop where
  fab : t.dev.fab = Fab.reset
  stl : t.dev.stl = Stl.reset
  rmp : t.dev.rmp = Rmp.reset
  lan : t.dev.lan = Lan.reset
  frs : t.dev.frs = Frs.reset
  can : t.dev.can = Can.reset
  med : t.dev.med = Med.reset
  key : t.dev.key = Key.reset
  svc : t.dev.svc = Svc.reset
  per : t.dev.per = Per.reset
  qmg : { t.dev.qmg with vecs := [] } = Qmg.reset
  vecs : ∀ v, (t.dev.qmg.vecs.get v).settings = (default : Vec).settings
  del : { t.dev.del with links := [] } = Del.reset
  links : ∀ n, t.dev.link n = { (default : Link) with up := (t.dev.link n).up }
  ready : t.dev.mgt.ready = false
  phase : t.dev.mgt.phase = .fuse
  pfw : t.dev.mgt.pfw = .none
  suspended : t.dev.mgt.suspended = false
  tref : t.dev.mgt.tref = 0
  clusters : t.dev.mgt.clusterGate = 0 ∧ t.dev.mgt.clusterIdle = 0
  held : t.dev.mgt.loHeld = [] ∧ t.dev.mgt.hiHeld = []
  banks : ∀ b, b ≠ bFlt → t.flt.banks.get b = default

/-- A write of HDMA waits or is outstanding. -/
def WriteIssued (d : Dev) (addr : Nat) (bytes : Bytes) (qid : Nat) (why : WrWhy) : Prop :=
  (∃ w ∈ d.qmg.wrWait, w.addr = addr ∧ w.bytes = bytes ∧ w.qid = qid ∧ w.why = why) ∨
    ∃ tag w, d.qmg.wrOut.get tag = some w ∧ w.addr = addr ∧ w.bytes = bytes ∧ w.qid = qid ∧ w.why = why

/-- A read of HDMA waits or is outstanding. -/
def ReadIssued (d : Dev) (addr len : Nat) (why : RdWhy) : Prop :=
  (∃ r ∈ d.qmg.rdWait, r.addr = addr ∧ r.len = len ∧ r.why = why) ∨
    ∃ tag r, d.qmg.rdOut.get tag = some r ∧ r.addr = addr ∧ r.len = len ∧ r.why = why

/-- A media command waits at the channel of its address or is outstanding there. -/
def MediaIssued (d : Dev) (m : MCmd) : Prop :=
  m ∈ (d.chan (channelOf m.addr)).waiting ∨ ∃ tag, (d.chan (channelOf m.addr)).out.get tag = some m

/-- The entry's result is being written, and its completion follows (spec/12 R331). -/
def Delivered (q : BitVec 14) (pos : BitVec 16) (c : Cpl) (addr : Nat) (b : Bytes) (t : State) : Prop :=
  (∃ x, t.dev.exec1 q.toNat pos = some x ∧ x.cpl = some c ∧ x.st = .writing) ∧
    ∀ w ∈ splitWrite (b.length + 1) addr b, WriteIssued t.dev w.1 w.2 q.toNat (.result q.toNat pos)

/-- A command row names an entry that is ready, whose operands are all in order (spec/13 R357). -/
abbrev Runs (q : BitVec 14) (pos : BitVec 16) (op : Nat) (more : Dev → Exec → List (Nat × Bool)) (x : Exec) (s : State) :
    Prop :=
  Ready q pos op x s ∧ operandBad x.entry (more s.dev x ++ x.batchRule) = none

/-- The first `n` elements of a batch, of `size` bytes each, succeed one after the other and lead from `d` to `e`; `f` gives
the effect of the element at an index (spec/13 R359). -/
def BatchReaches (f : Nat → Bytes → Dev → Dev × Cpl) (size : Nat) (b : Bytes) (d : Dev) : Nat → Dev → Prop
  | 0, e => e = d
  | n + 1, e => ∃ c, BatchReaches f size b d n c ∧ (f n (slice b (size * n) size) c).2.status = 0 ∧
      e = (f n (slice b (size * n) size) c).1

/-- The DRBG serves a draw at once (spec/11 R306, R307). -/
abbrev Draws (s : State) : Prop := s.dev.key.drbg.st = .ready ∧ s.dev.reseedDue = false

/-- The `n` bytes of that draw. -/
def drawn (s : State) (n : Nat) : Bytes := (drbgGenerate s.dev.key.drbg.key s.dev.key.drbg.v n).1

/-- A frame reaches a link that is UP and is one that the engine acts on: from a member, for this engine, not a
duplicate, of a length the version allows, while the member table calls for no change of GSTATE (spec/16 R436, R437,
R440, R443). -/
abbrev Acts (n : Fin 4) (f : Frame) (s : State) : Prop :=
  InService s ∧ s.dev.linkNamed n = true ∧ (s.dev.link n).st = .up ∧ f.payload.length ≤ maxLen (s.dev.link n).version ∧
    f.origin ≠ s.dev.del.poolId ∧ (s.dev.memberOf f.origin.toNat).duplicate f.oseq = false ∧
    (f.bcast = true ∨ f.dest = s.dev.del.poolId) ∧ (s.dev.memberOf f.origin.toNat).st = .member ∧
    s.dev.someSilent = false ∧ s.dev.del.gstate ≠ .split

/-- Nothing that the member table or the end of a checkpoint decides is due: no last HELD or DONE, no cut, no RETIRE, no
start of a checkpoint, and no step of an adoption (spec/16 R444, R445, R447, spec/10 R278). -/
structure Steady (s : State) : Prop where
  txn : ∀ x : Txn, s.dev.del.txn = some x →
    (x.cut = true ∨ ∃ m ∈ s.dev.groupMembers, m ∉ x.held) ∧ ∃ m ∈ s.dev.groupMembers, m ∉ x.done
  cut : ∀ c : Ckpt, s.dev.per.ckpt = some c → c.phase = .hold → s.dev.cutReady = true → c.cutSeen = false ∧ c.localCut = false
  reports : ∀ r ∈ s.dev.del.reports, ∃ m ∈ s.dev.groupMembers, s.dev.reported r.1 r.2.1 m = false
  starts : s.dev.ckptFree = true → s.dev.del.prepared = none ∧ s.dev.del.reconReq = false ∧
    (s.dev.poolWhole = false → s.dev.per.waiting = []) ∧
    (s.dev.isCoord = true → s.dev.del.txn = none → s.dev.del.ckreq = false ∧ s.dev.per.waiting = [])
  adopt : ∀ a : Adopt, s.dev.per.adopt = some a → a.outcome = none ∧ a.started = true ∧
    (a.closing = true → s.dev.per.ckpt.isSome = true) ∧ ∀ h ∈ a.stack.head?, h.reading = true ∨ h.writing = true

/-- A broadcast of a type goes out on every link that is UP. -/
def BroadcastsOnLinks (typ : Nat) (pl : List Word32) (s t : State) : Prop :=
  ∀ n, n < 4 → (s.dev.link n).st = .up → s.dev.linkUsable n = true → ∃ oseq,
    .frame n (frameWords (s.dev.link n).version typ ⟨true, s.dev.del.poolId, 0, 63, oseq, pl⟩) ∈ t.dev.drive

/-- A bank has nothing to register: no occurrence waits, and every condition that holds is already in FLT_LIVE. -/
abbrev Quiet (b : Nat) (s : State) : Prop :=
  s.dev.raised = [] ∧ ∀ k ∈ s.dev.holding b, k ∈ (s.flt.banks.get b).live

/-! ### Invariants -/

/-- The keys of a table rise strictly, so that each index has one value. -/
abbrev Tab.rising {α : Type} (t : Tab α) : Prop := t.Pairwise fun p q => p.1 < q.1

/-- Every table of the block keeps its keys rising. -/
structure Canonical (d : Dev) : Prop where
  clkMeas : Tab.rising d.mgt.clkMeas
  loHeld : Tab.rising d.mgt.loHeld
  ports : Tab.rising d.fab.ports
  sessions : Tab.rising d.fab.sessions
  stlA : Tab.rising d.stl.setA.tab
  stlB : Tab.rising d.stl.setB.tab
  rejects : Tab.rising d.stl.rejectCnt
  timeouts : Tab.rising d.stl.timeoutCnt
  parkFulls : Tab.rising d.stl.parkfullCnt
  rmpA : Tab.rising d.rmp.setA.tab
  rmpB : Tab.rising d.rmp.setB.tab
  staleA : Tab.rising d.rmp.setA.stale
  staleB : Tab.rising d.rmp.setB.stale
  rekey : Tab.rising d.rmp.rekey
  lanes : Tab.rising d.lan.lanes
  zones : Tab.rising d.frs.zones
  lines : Tab.rising d.can.lines
  lfsr : Tab.rising d.can.lfsr
  ways : Tab.rising d.can.ways
  channels : Tab.rising d.med.ch
  media : ∀ p ∈ d.med.ch, Tab.rising p.2.out
  slots : Tab.rising d.key.slots
  regs : Tab.rising d.key.regs
  keks : Tab.rising d.key.keks
  ents : Tab.rising d.key.ent
  queues : Tab.rising d.qmg.queues
  vecs : Tab.rising d.qmg.vecs
  wrOut : Tab.rising d.qmg.wrOut
  rdOut : Tab.rising d.qmg.rdOut
  openMap : Tab.rising d.per.openMap
  held : Tab.rising d.qmg.held
  fronts : Tab.rising d.svc.fronts
  links : Tab.rising d.del.links
  members : Tab.rising d.del.members

/-- No access has an id that is still to be given. -/
abbrev FreshIds (d : Dev) : Prop := ∀ a ∈ d.fab.accs, a.id < d.seq

/-- What the fault banks and SAFE always satisfy: first-error records have a fault class and say RAW or FORCED, only CE
and UC sources are escalated, FLT_SQ_STAT is at its reset value outside the safe state and names a cause in it
(spec/15 R405, R409, R417, R422). -/
structure BanksHold (s : State) : Prop where
  banks : s.flt.banks.wf = true
  first : ∀ b r, (s.flt.banks.get b).first = some r → r.cls ≠ 0 ∧ (r.raw = true ∨ r.forced = true)
  esc : ∀ b k, k ∈ (s.flt.banks.get b).esc → baseClass b k = 1 ∨ baseClass b k = 2
  drills : s.safe.drillCnt ≤ 255
  out : s.safe.active = false → s.safe.cls = 0 ∧ s.safe.zeroised = false ∧ s.safe.bank = 15 ∧ s.safe.src = 0 ∧ s.safe.time = 0
  inside : s.safe.active = true → s.safe.cls ≠ 0

end Machine
end Sys2Proof
end

