-- ==== Sys2Proof/Certificates/Slice0/Obligations.lean ====
section
/-! DEFINITION. The statements for the provers, family by family; OBLIGATIONS.json lists them. -/

open Sys2Proof Sys2Proof.Machine

/-- When the queue of pending commands is c followed by rest, step at that state is exec of c at the state with rest as
its queue. When no command waits, step answers the same state with the TREF count one higher. That time passes so is
the model's own choice (log entry 1), and so is that it passes in a reset and without power too (log entry 125).
(spec/ 95_what_each_step_holds, 01_architecture, 02_boundary_ports) -/
def Obligations.StepRunsTheFront : Prop :=
  (∀ (c : Instr) (rest : List Instr) (s : State), s.pending = c :: rest → step s = exec c { s with pending := rest }) ∧
  (∀ s : State, s.pending = [] → step s = .next { s with dev.mgt.tref := s.dev.mgt.tref + 1 })

/-- At State.reset no command waits, SAFE is out of the safe state, and registers of every block read the values of their
Reset columns: FAB_WIN_TIMEOUT 100, STL_RELOC_LIMIT 16, STL_PARK_TIMEOUT 100, STL_AGE_PERIOD 1000, RMP_GEN 1,
LAN_AUDIT 0x80001000, LAN_KAT_PERIOD 1000, FRS_META_BASE 0x4000_0000_0000, CAN_CTRL 1, CAN_DIRTY_BUDGET 2, MED_RETRY
2, MED_TRANSIENT_THRESH 16, KEY_DRBG_LIMIT 16, KEY_ENT_EN 0xFF, QMG_ADMQ_CFG 0x44000, QMG_SCAN_PERIOD 10,
SVC_FRONT_RATE 5, SVC_DRIZZLE 0x80000001, SVC_BULK_RATE 25, PER_PERIOD 240, FLT_SQ_STAT 0x000F_0000, DEL_HB 0x640A and
DEL_TXN_TIMEOUT 1000. (spec/ 18_register_reference, 00_scope) -/
def Obligations.ResetRegisterValues : Prop :=
  (State.reset.pending = [] ∧ State.reset.safe.active = false ∧ State.reset.dev.mgt.ready = false) ∧
  ∀ p ∈ ([(0x20004, 100#32), (0x40000, 16#32), (0x40004, 100#32), (0x40008, 1000#32), (0x68000, 1#32),
      (0x80004, 0x80001000#32), (0x80008, 1000#32), (0xA0000, 0#32), (0xA0004, 0x4000#32), (0xC0000, 1#32),
      (0xC000C, 2#32), (0xE0000, 2#32), (0xE0004, 16#32), (0x100004, 16#32), (0x10000C, 0xFF#32), (0x120010, 0x44000#32),
      (0x120018, 10#32), (0x140008, 5#32), (0x14000C, 0x80000001#32), (0x140010, 25#32), (0x160000, 240#32),
      (0x180000, 0x000F0000#32), (0x1A0008, 0x640A#32), (0x1A000C, 1000#32)] : List (Nat × Word32)),
    State.reset.regAt p.1 = some p.2

/-- Whatever command is run, the state it answers has the same queue of pending commands as the state it was run on.
(spec/ 95_what_each_step_holds) -/
def Obligations.ExecKeepsTheQueue : Prop :=
  ∀ (c : Instr) (s t : State), exec c s = .next t → t.pending = s.pending

/-- Every command answers a next state, but for EXTEST and CLAMP scanned into a TAP out of reset while SYS_RST_N is 1 and
the release of SYS_RST_N while EXTEST (code 0) or CLAMP (code 3) is the current instruction, whose behaviour the spec
does not define: those answer the fault boundaryScanWithoutReset, always. That a fault stands for that undefined
behaviour is the model's own choice (log entry 84), as is that every other command completes where the spec names no
effect (log entry 21). (spec/ 17_bring_up) -/
def Obligations.OnlyBoundaryScanStops : Prop :=
  (∀ (c : Instr) (s : State), (∃ t, exec c s = .next t) ∨
      exec c s = .fault .boundaryScanWithoutReset ∧
        (((∃ x y, c = .extest x y) ∨ c = .clamp) ∧ s.dev.tapOn = true ∧ s.dev.mgt.sysRstN = true ∨
          c = .sysRstNRelease ∧ (s.dev.tap.ir = 0 ∨ s.dev.tap.ir = 3))) ∧
  (∀ (x y : BitVec Config.chainBits) (s : State), s.dev.tapOn = true → s.dev.mgt.sysRstN = true →
      exec (.extest x y) s = .fault .boundaryScanWithoutReset ∧ exec .clamp s = .fault .boundaryScanWithoutReset) ∧
  ∀ s : State, s.dev.tap.ir = 0 ∨ s.dev.tap.ir = 3 → exec .sysRstNRelease s = .fault .boundaryScanWithoutReset

/-- If the fault banks are in canonical form, every first-error record has a fault class and says RAW or FORCED, only CE
and UC sources are escalated, the drill count is at most 255, SAFE is at its reset value outside the safe state and
names a cause in it, then after any step that answers a next state all of this holds again. (spec/ 15_faults) -/
def Obligations.FaultBanksHoldEveryStep : Prop :=
  ∀ s t : State, BanksHold s → step s = .next t → BanksHold t

/-- The invariant of the fault banks and SAFE holds of State.reset. The tables of State.reset have rising keys and it has
no access. (spec/ 15_faults, 04_request_path) -/
def Obligations.InvariantsHoldAtReset : Prop :=
  (BanksHold State.reset) ∧
  (Canonical State.reset.dev ∧ FreshIds State.reset.dev)

/-- If the keys of every table rise strictly and no access has an id still to be given, the same holds after any step that
answers a next state. Clauses of it rest on readings and choices of the model: log entries 10, 80. (spec/
04_request_path, 12_queue_interface) -/
def Obligations.TablesStayCanonical : Prop :=
  ∀ s t : State, Canonical s.dev → FreshIds s.dev → step s = .next t → Canonical t.dev ∧ FreshIds t.dev

/-- The end of a fuse load takes the lifecycle state and DBG_DISABLE from the word 8 that was read. No other command
changes either, but for the loss of power and the power cycle that ends it, after which the fuses are loaded again.
Clauses of it rest on readings and choices of the model: log entry 31. (spec/ 17_bring_up, 02_boundary_ports) -/
def Obligations.FusesHoldTheirWord : Prop :=
  (∀ s : State, s.dev.mgt.phase = .fuse → s.dev.inReset domTref = false → s.dev.mgt.pfWarn = false → s.dev.mgt.fuseIdx = 22 →
    ∀ w, s.dev.mgt.fuseFirst.getD 8 0 = w → Completes .fusePhaseDone s fun t =>
      (t.dev.lifecycle = if bits w 2 1 = 2 then 3 else bits w 2 1) ∧ t.dev.dbgDisabled = w.getLsbD 0) ∧
  ∀ (c : Instr) (s t : State), c ≠ .fusePhaseDone → c ≠ .powerLoss → c ≠ .powerCycle → exec c s = .next t →
    t.dev.lifecycle = s.dev.lifecycle ∧ t.dev.dbgDisabled = s.dev.dbgDisabled

/-- A transfer that arrives on REQ, WDAT, WLPC or RLPC of a port whose credits of that channel are used up has no effect
but that the engine returns no further credits on that side of the port: the transfer is discarded, and FAB differs in
rxStop (txStop) of that port alone. The fault FAB_CREDIT_OVF(p) (source 512 + p of the FAB bank) is raised: unmasked,
with no record held and nothing else raised, it is the RAW first-error record. (spec/ 02_boundary_ports, 15_faults) -/
def Obligations.TransferWithoutCreditStopsTheSide : Prop :=
  (∀ (p : Fin 8) (c : Instr) (s : State), Canonical s.dev → RxRuns p s →
    ((∃ op tag sid kid line sess chk, c = .fabricRequest p op tag sid kid line sess chk) ∧ (s.dev.port p).req = 0 ∨
     (∃ data mask, c = .writePayload p data mask) ∧ (s.dev.port p).wdat = 0 ∨
     (∃ ty e, c = .wlpcOpen p e ∨ c = .wlpcAad p e ∨ c = .wlpcClose p e ∨ c = .wlpcReservedType p ty e) ∧
       (s.dev.port p).wlpc = 0) →
    Completes c s fun t => t.dev.fab = (s.dev.setPort p { s.dev.port p with rxStop := true }).fab ∧ OnlyChanges [.fab] s t ∧ Overflows p s t) ∧
  ∀ (p : Fin 8) (c : Instr) (s : State), Canonical s.dev → TxRuns p s →
    (∃ ty e, c = .rlpcOpen p e ∨ c = .rlpcAad p e ∨ c = .rlpcFormatError p ty e) → (s.dev.port p).rlpc = 0 →
    Completes c s fun t => t.dev.fab = (s.dev.setPort p { s.dev.port p with txStop := true }).fab ∧ OnlyChanges [.fab] s t ∧ Overflows p s t

/-- A request that passes the checks takes an in-flight slot, the generation, and its KSLOT, region and mode; a read takes
its place at the line gate, a write waits for its payload; the AGE of its stream turns 0. A request of an unknown
stream parks, with its port in the filter entry, or is refused where the stream is on the reject list or no event
queue can learn of it: a read completes ACCESS_ERROR, a write once its window's result is known. A request with a
reserved OP completes ACCESS_ERROR; any request in the safe state completes POISONED. Clauses of it rest on readings
and choices of the model: log entries 10, 85. (spec/ 04_request_path, 02_boundary_ports, 05_stream_table,
01_architecture) -/
def Obligations.RequestAdmission : Prop :=
  (∀ (p : Fin 8) (tag : BitVec 12) (sid kid : BitVec 16) (line : LineNo) (sess : BitVec 5) (s : State) (e : SEntry) (i : Nat)
      (r : RegionCfg), Canonical s.dev → RxRuns p s → s.safe.active = false → (s.dev.port p).req ≠ 0 → s.dev.mgt.pfWarn = false →
    s.dev.releasing sid kid = false → FreshIds s.dev → Passes s.dev p sid kid line e i r →
    (s.dev.full false = false → Completes (.fabricRequest p 0 tag sid kid line sess []) s fun t =>
      (∃ a, t.dev.acc s.dev.seq = some a ∧ a.stage = .gated ∧ a.isWrite = false ∧ a.inFlight = true ∧ a.origin = .port p ∧
        a.tag = tag ∧ a.line = line ∧ a.gen = s.dev.rmp.gen ∧ a.kslot = e.kslot ∧ a.region = i ∧ a.mode = r.mode) ∧
      ∃ x, (t.dev.stlSet s.dev.activeSet).tab.get x = some { e with age := 0 }) ∧
    (s.dev.full true = false → (s.dev.port p).wdats = [] →
      Completes (.fabricRequest p 1 tag sid kid line sess []) s fun t =>
      (∃ a, t.dev.acc s.dev.seq = some a ∧ a.stage = .unbound ∧ a.isWrite = true ∧ a.inFlight = true ∧ a.origin = .port p ∧
        a.tag = tag ∧ a.line = line ∧ a.gen = s.dev.rmp.gen ∧ a.kslot = e.kslot ∧ a.region = i ∧ a.mode = r.mode) ∧
      (t.dev.port p).reqs = (s.dev.port p).reqs ++ [(s.dev.seq, sessOf p sess.toNat)] ∧
      ∃ x, (t.dev.stlSet s.dev.activeSet).tab.get x = some { e with age := 0 })) ∧
  (∀ (p : Fin 8) (tag : BitVec 12) (sid kid : BitVec 16) (line : LineNo) (sess : BitVec 5) (wr : Bool) (s : State), Canonical s.dev →
    RxRuns p s → s.safe.active = false → (s.dev.port p).req ≠ 0 → s.dev.mgt.pfWarn = false → s.dev.full wr = false →
    (wr = true → (s.dev.port p).wdats = []) → s.dev.releasing sid kid = false → FreshIds s.dev → s.dev.findStream s.dev.activeSet sid kid = none →
    (s.dev.rejected sid kid = false → s.dev.stl.learnEvq.valid = true → s.dev.parked.length < 512 →
      Completes (.fabricRequest p (if wr then 1 else 0) tag sid kid line sess []) s fun t =>
        (wr = true → (t.dev.port p).reqs = (s.dev.port p).reqs ++ [(s.dev.seq, sessOf p sess.toNat)]) ∧
        (∃ a, t.dev.acc s.dev.seq = some a ∧ a.stage = .parked ∧ a.isWrite = wr ∧ a.inFlight = false ∧ a.parkedAt = s.dev.mgt.tref) ∧
        ∃ f ∈ t.dev.stl.filter, f.sid = sid ∧ f.kid = kid ∧ f.ports.getLsbD p = true) ∧
    (s.dev.rejected sid kid = true ∨ s.dev.stl.learnEvq.valid = false →
      Completes (.fabricRequest p (if wr then 1 else 0) tag sid kid line sess []) s fun t =>
        ∃ a, t.dev.acc s.dev.seq = some a ∧ a.isWrite = wr ∧ a.inFlight = false ∧
          if wr then a.stage = .refused else a.stage = .done ∧ a.status = .accessError)) ∧
  ∀ (p : Fin 8) (op : BitVec 2) (tag : BitVec 12) (sid kid : BitVec 16) (line : LineNo) (sess : BitVec 5) (chk : List Chk)
      (s : State), Canonical s.dev → RxRuns p s → (s.dev.port p).req ≠ 0 → FreshIds s.dev →
    (s.safe.active = false → 2 ≤ op.toNat → Completes (.fabricRequest p op tag sid kid line sess chk) s fun t =>
      ∃ a, t.dev.acc s.dev.seq = some a ∧ a.stage = .done ∧ a.status = .accessError) ∧
    (s.safe.active = true → Completes (.fabricRequest p op tag sid kid line sess chk) s fun t =>
      ∃ a, t.dev.acc s.dev.seq = some a ∧ a.stage = .done ∧ a.status = .poisoned)

/-- A payload with no unpaired request waits; else it is bound to the window of its session at the next position. OPEN
opens a window with its fields, and its lane takes the hash subkey and the tag mask of the session key; AAD and CLOSE
entries are taken in, and a window that has everything leaves "open". An entry of a reserved type or malformed fields
fails the receive direction and ends the open window. Clauses of it rest on readings and choices of the model: log
entries 5, 15, 16, 22, 110. (spec/ 02_boundary_ports) -/
def Obligations.WriteSideTransfers : Prop :=
  (∀ (p : Fin 8) (data : Line) (mask : BitVec 64) (s : State), Canonical s.dev → RxRuns p s → s.safe.active = false → (s.dev.port p).wdat ≠ 0 →
    ((s.dev.port p).reqs = [] → Completes (.writePayload p data mask) s fun t =>
      t.dev.port p = { s.dev.port p with wdat := (s.dev.port p).wdat - 1, wdats := (s.dev.port p).wdats ++ [(data, mask)] }) ∧
    ∀ (id g : Nat) (rs : List (Nat × Nat)) (a : Access) (w : WWin), (s.dev.port p).reqs = (id, g) :: rs →
      (s.dev.port p).wdats = [] → s.dev.acc id = some a → (s.dev.session g).wwin = some w → w.members.length < w.count →
      Completes (.writePayload p data mask) s fun t => (t.dev.port p).reqs = rs ∧
        ∃ b, t.dev.acc id = some b ∧ b.paired = true ∧ b.data = data ∧ b.mask = mask ∧ b.win = .waiting w.id ∧
          b.winK = w.k ∧ b.winIv = w.iv ∧ b.winPos = w.members.length) ∧
  ∀ (p : Fin 8) (e : BitVec 128) (s : State), Canonical s.dev → RxRuns p s → s.safe.active = false → (s.dev.port p).wlpc ≠ 0 →
    (openOk e = true → (s.dev.session (lpcSess p e)).wwin = none → Completes (.wlpcOpen p e) s fun t =>
      ∃ w, (t.dev.session (lpcSess p e)).wwin = some w ∧ w.count = (e.extractLsb' 16 8).toNat + 1 ∧
        w.aadn = (e.extractLsb' 8 2).toNat ∧ w.k = flag (e.getLsbD 5) ∧ w.skid = e.getLsbD 6 ∧ w.iv = e.extractLsb' 32 96 ∧
        w.openedAt = s.dev.mgt.tref ∧ w.members = [] ∧ w.aad = [] ∧ w.tag = none ∧
        (t.dev.session (lpcSess p e)).rxK = w.k ∧ ∀ k, s.dev.sessKey (lpcSess p e) 0 w.k = some k → w.tk = tagKey k w.iv ∧
          ((s.dev.session (lpcSess p e)).rxFailed = false → w.usable = true)) ∧
    (∀ w : WWin, aadOk e = true → (s.dev.session (lpcSess p e)).wwin = some w →
      (w.aad.length < w.aadn * w.count → Completes (.wlpcAad p e) s fun t =>
        Filled (s.dev.session (lpcSess p e)) (t.dev.session (lpcSess p e)) { w with aad := w.aad ++ [e.extractLsb' 32 96] }) ∧
      (w.tag = none → Completes (.wlpcClose p e) s fun t =>
        Filled (s.dev.session (lpcSess p e)) (t.dev.session (lpcSess p e)) { w with tag := some (e.extractLsb' 32 96) })) ∧
    ∀ ty : BitVec 2, (ty = 3 ∨ ty = 0 ∧ openOk e = false ∨ ty ≠ 0 ∧ aadOk e = false) →
      (s.dev.session (lpcSess p e)).wdone = [] → Completes (.wlpcReservedType p ty e) s fun t =>
        (t.dev.session (lpcSess p e)).rxFailed = true ∧ (t.dev.session (lpcSess p e)).wwin = none

/-- When a session's one complete window has the tag that the key it was opened under gives, its writes pass, and PASS
leaves on WCHK when a credit is there; with another tag the receive direction fails and its writes that are admitted
complete LINK_ERROR, those whose parking has timed out ACCESS_ERROR. A window open for longer than the window timeout
fails the direction and ends. Clauses of it rest on readings and choices of the model: log entries 5, 16, 86, 90.
(spec/ 02_boundary_ports, 07_transcipher_lanes) -/
def Obligations.WindowResults : Prop :=
  (∀ (g : BitVec 8) (s : State) (w : WWin) (k : BitVec 256), Canonical s.dev → InService s → (s.dev.session g.toNat).wdone = [w] →
    w.forced = none → w.usable = true → w.tk = tagKey k w.iv →
    (w.tag = some (linkTag k w.iv w.aad w.cts) → Completes (.windowResult g) s fun t =>
      (∀ id ∈ w.members, ∀ a, s.dev.acc id = some a → ∃ b, t.dev.acc id = some b ∧ b.win = .passed) ∧
      (RxRuns (g.toNat / 32) s → (s.dev.port (g.toNat / 32)).wchk ≠ 0 → (s.dev.port (g.toNat / 32)).wchkq = [] →
        .wchk (g.toNat / 32) (g.toNat % 32) .pass ∈ t.dev.drive)) ∧
    (w.tag ≠ some (linkTag k w.iv w.aad w.cts) → Completes (.windowResult g) s fun t =>
      (t.dev.session g.toNat).rxFailed = true ∧
      ∀ id ∈ w.members, ∀ a, s.dev.acc id = some a → a.stage ≠ .parked → a.stage ≠ .received → a.stage ≠ .done →
        ∃ b, t.dev.acc id = some b ∧ b.stage = .done ∧
          b.status = (if a.stage = .expired then .accessError else .linkError))) ∧
  ∀ (g : BitVec 8) (s : State) (w : WWin), Canonical s.dev → InService s → (s.dev.session g.toNat).wwin = some w →
    (s.dev.session g.toNat).wdone = [] → s.dev.passed w.openedAt s.dev.fab.winTimeout = true →
    Completes (.writeWindowTimeout g) s fun t =>
      (t.dev.session g.toNat).rxFailed = true ∧ (t.dev.session g.toNat).wwin = none

/-- OPEN queues a read window, which takes effect at once when it is the only one and its key register holds a key; a read
that waits is placed in it, link-encrypted at position 0. An AAD entry goes to the first window that lacks one. A
reserved type or CLOSE fails the transmit direction and ends its windows. RTAG carries the tag over the window's AAD
entries and ciphertexts. A read that has waited longer than the window timeout completes LINK_ERROR; a full window
that has waited so long for AAD entries fails the direction. Clauses of it rest on readings and choices of the model:
log entries 5, 79, 89. (spec/ 02_boundary_ports, 07_transcipher_lanes) -/
def Obligations.ReadWindowRows : Prop :=
  (∀ (p : Fin 8) (e : BitVec 128) (s : State) (key : BitVec 256), Canonical s.dev → TxRuns p s → s.safe.active = false →
    (s.dev.port p).rlpc ≠ 0 → (s.dev.session (lpcSess p e)).txFailed = false → openOk e = true →
    (s.dev.session (lpcSess p e)).rwins = [] → s.dev.sessKey (lpcSess p e) 1 (flag (e.getLsbD 5)) = some key →
    (s.dev.waitingReads (lpcSess p e) = [] → Completes (.rlpcOpen p e) s fun t =>
      (t.dev.session (lpcSess p e)).txK = flag (e.getLsbD 5) ∧
      ∃ w, (t.dev.session (lpcSess p e)).rwins = [w] ∧ w.active = true ∧ w.count = (e.extractLsb' 16 8).toNat + 1 ∧
        w.aadn = (e.extractLsb' 8 2).toNat ∧ w.k = flag (e.getLsbD 5) ∧ w.iv = e.extractLsb' 32 96 ∧ w.placed = 0 ∧ w.tk = tagKey key w.iv) ∧
    ∀ (id : Nat) (a : Access), s.dev.waitingReads (lpcSess p e) = [id] → s.dev.acc id = some a →
      Completes (.rlpcOpen p e) s fun t => ∃ b, t.dev.acc id = some b ∧ b.stage = .lane ∧ b.verified = true ∧
        b.rdata = linkCrypt key (e.extractLsb' 32 96) 0 (if a.fresh then 0 else s.dev.plain a.slot a.mode a.line a.ctr a.beat)) ∧
  (∀ (p : Fin 8) (e : BitVec 128) (s : State), Canonical s.dev → TxRuns p s → s.safe.active = false → (s.dev.port p).rlpc ≠ 0 →
    (s.dev.session (lpcSess p e)).txFailed = false →
    (∀ w : RWin, aadOk e = true →
      (s.dev.session (lpcSess p e)).rwins.find? (fun w => decide (w.aad.length < w.aadn * w.count)) = some w →
      Completes (.rlpcAad p e) s fun t => (t.dev.session (lpcSess p e)).rwins =
        (s.dev.session (lpcSess p e)).rwins.map fun y => if y.id = w.id then { y with aad := y.aad ++ [e.extractLsb' 32 96] } else y) ∧
    ∀ ty : BitVec 2, 2 ≤ ty.toNat → Completes (.rlpcFormatError p ty e) s fun t =>
      (t.dev.session (lpcSess p e)).txFailed = true ∧ (t.dev.session (lpcSess p e)).rwins = []) ∧
  (∀ (g : BitVec 8) (s : State) (w : RWin) (k : BitVec 256), Canonical s.dev → InService s → TxRuns (g.toNat / 32) s →
    (s.dev.session g.toNat).rwins = [w] → w.sent = w.count → w.aad.length = w.aadn * w.count → s.dev.mgt.pfWarn = false →
    w.tk = tagKey k w.iv → (s.dev.port (g.toNat / 32)).rtag ≠ 0 → (s.dev.port (g.toNat / 32)).rtagq = [] →
    Completes (.rtag g) s fun t => .rtag (g.toNat / 32) (g.toNat % 32) (linkTag k w.iv w.aad w.cts) ∈ t.dev.drive) ∧
  ∀ (g : BitVec 8) (s : State), Canonical s.dev → InService s →
    (∀ (id : Nat) (a : Access), s.dev.acc id = some a → a.stage = .waitWindow → a.sess = g.toNat →
      s.dev.passed a.waitAt s.dev.fab.winTimeout = true → Completes (.readWindowWaitTimeout g (some id)) s fun t =>
        ∃ b, t.dev.acc id = some b ∧ b.stage = .done ∧ b.status = .linkError) ∧
    ∀ w ∈ (s.dev.session g.toNat).rwins, w.placed = w.count → w.aad.length < w.aadn * w.count →
      s.dev.passed w.fullAt s.dev.fab.winTimeout = true → Completes (.readWindowWaitTimeout g none) s fun t =>
        (t.dev.session g.toNat).txFailed = true ∧ (t.dev.session g.toNat).rwins = []

/-- A completion that may be driven leaves on RSP (a write, or a reserved OP) or on RDAT (a read) with its tag and status,
data only with OK, and the access leaves; in the safe state it is POISONED. A returned credit adds one to the counter
of its channel, up to 255, or 1,024 on a media channel, and what waits for it goes: the result at the head of WCHK,
the tag at the head of RTAG, the first command that waits at its channel once a tag and the other credit it needs are
there, the first host write, the first host read; the TIMESTAMP of a completion is the time at which its write is
issued. Clauses of it rest on readings and choices of the model: log entries 87, 88, 91. (spec/ 02_boundary_ports,
04_request_path, 15_faults) -/
def Obligations.ResponsesAndCredits : Prop :=
  (∀ (id : Nat) (err : Bool) (s : State) (a : Access) (p : Nat), Canonical s.dev → s.dev.acc id = some a → a.origin = .port p →
    a.dropped = false →
    (s.safe.active = false → s.dev.canRespond a p true = true → Completes (.responseTransfer id err) s fun t =>
      t.dev.acc id = none ∧
        (if a.isWrite || a.reserved then .rsp p a.tag a.status
         else .rdat p a.tag a.status (if a.status = .ok then a.rdata else 0)) ∈ t.dev.drive) ∧
    (s.safe.active = true → s.dev.canRespond { a with stage := .done, rwin := none } p false = true →
      Completes (.responseTransfer id err) s fun t => t.dev.acc id = none ∧
        (if a.isWrite || a.reserved then .rsp p a.tag .poisoned else .rdat p a.tag .poisoned 0) ∈ t.dev.drive)) ∧
  (∀ (p : Fin 8) (s : State), Canonical s.dev →
    (s.dev.up (domFtx p) = true →
      (Completes (.creditReturn (.rsp p)) s fun t => t.dev.port p = { s.dev.port p with rsp := min 255 ((s.dev.port p).rsp + 1) }) ∧
      (Completes (.creditReturn (.rdat p)) s fun t => t.dev.port p = { s.dev.port p with rdat := min 255 ((s.dev.port p).rdat + 1) }) ∧
      ((s.dev.port p).rtagq = [] → Completes (.creditReturn (.rtag p)) s fun t =>
        t.dev.port p = { s.dev.port p with rtag := min 255 ((s.dev.port p).rtag + 1) }) ∧
      ∀ g x r, s.safe.active = false → (s.dev.port p).rtagq = (g, x) :: r → Completes (.creditReturn (.rtag p)) s fun t =>
        .rtag p g x ∈ t.dev.drive ∧
          t.dev.port p = { s.dev.port p with rtagq := r, rtag := min 255 ((s.dev.port p).rtag + 1) - 1 }) ∧
    (s.dev.up (domFrx p) = true →
      ((s.dev.port p).wchkq = [] → Completes (.creditReturn (.wchk p)) s fun t =>
        t.dev.port p = { s.dev.port p with wchk := min 255 ((s.dev.port p).wchk + 1) }) ∧
      ∀ g x r, s.safe.active = false → (s.dev.port p).wchkq = (g, x) :: r → Completes (.creditReturn (.wchk p)) s fun t =>
        .wchk p g x ∈ t.dev.drive ∧
          t.dev.port p = { s.dev.port p with wchkq := r, wchk := min 255 ((s.dev.port p).wchk + 1) - 1 })) ∧
  (∀ (n : Fin 16) (s : State), Canonical s.dev → s.dev.up (domMch n) = true →
    ((s.dev.chan n).waiting = [] →
      (Completes (.creditReturn (.mcmd n)) s fun t => t.dev.chan n = { s.dev.chan n with mcmd := min 1024 ((s.dev.chan n).mcmd + 1) }) ∧
      Completes (.creditReturn (.mwd n)) s fun t => t.dev.chan n = { s.dev.chan n with mwd := min 1024 ((s.dev.chan n).mwd + 1) }) ∧
    ∀ m ms tag, s.safe.active = false → s.dev.retired n = false → (s.dev.chan n).waiting = m :: ms →
      (s.dev.chan n).freeTag = some tag →
      ((m.isWrite = true → (s.dev.chan n).mwd ≠ 0) → Completes (.creditReturn (.mcmd n)) s fun t =>
        .mcmd n m.op tag m.addr ∈ t.dev.drive ∧ (t.dev.chan n).out.get tag = some m ∧
          (m.isWrite = true → .mwd n m.beat ∈ t.dev.drive)) ∧
      ((s.dev.chan n).mcmd ≠ 0 → Completes (.creditReturn (.mwd n)) s fun t =>
        .mcmd n m.op tag m.addr ∈ t.dev.drive ∧ (t.dev.chan n).out.get tag = some m ∧
          (m.isWrite = true → .mwd n m.beat ∈ t.dev.drive))) ∧
  ∀ s : State, Canonical s.dev → s.dev.up domHdma = true →
    (s.dev.qmg.wrWait = [] → s.dev.qmg.rdWait = [] →
      ((∀ p ∈ s.dev.qmg.vecs, p.2.pend = false) → s.dev.qmg.drainDue = [] → (∀ o ∈ s.dev.qmg.drains, s.dev.writesBefore o = true) →
        Completes (.creditReturn .hdmaWr) s fun t => t.dev.qmg.wrCredit = min 255 (s.dev.qmg.wrCredit + 1)) ∧
      Completes (.creditReturn .hdmaRd) s fun t => t.dev.qmg.rdCredit = min 255 (s.dev.qmg.rdCredit + 1)) ∧
    (∀ w r tag, s.safe.active = false → s.dev.qmg.wrWait = w :: r → Tab.unused s.dev.qmg.wrOut 256 = some tag →
      Completes (.creditReturn .hdmaWr) s fun t => (s.dev.stampWr w).transfer tag ∈ t.dev.drive) ∧
    ∀ w r tag, s.safe.active = false → s.dev.qmg.rdWait = w :: r →
      Tab.unused s.dev.qmg.rdOut 256 = some tag → Completes (.creditReturn .hdmaRd) s fun t => w.transfer tag ∈ t.dev.drive

/-- A granted write with no byte enabled completes OK; a granted read of a region without counters reads its line. A
ladder whose check failed poisons the access that waits for it; a check ladder that verified counts its step's node as
checked. A data beat goes to the lane; a beat or completion with an unknown tag is a protocol fault. A verified read
that leaves its lane completes OK; a write pass writes the line, deciphered with the key of its window, encrypted and
authenticated; its persistence completes it OK, or POISONED where a node error has discarded its counter update. A
pass is taken by a lane that may take it, and its output leaves if it is not sampled or its recomputation agrees.
Clauses of it rest on readings and choices of the model: log entries 2, 5, 8, 9, 26, 94, 102, 113, 137. (spec/
04_request_path, 07_transcipher_lanes, 08_freshness_tree, 02_boundary_ports) -/
def Obligations.AccessPipeline : Prop :=
  (∀ (id : Nat) (s : State) (a : Access) (p : Nat), Canonical s.dev → InService s → s.dev.acc id = some a → a.origin = .port p →
    s.dev.grantable a = true →
    (a.isWrite = true → a.mask = 0 → a.win = .passed → Completes (.accessGrant id none) s fun t =>
      ∃ b, t.dev.acc id = some b ∧ b.stage = .done ∧ b.status = .ok) ∧
    (a.isWrite = false → a.mode ≠ .full → a.stage = .gated → a.pass ≠ .poison →
      s.dev.retired (channelOf a.line.toNat) = false → Completes (.accessGrant id none) s fun t =>
      (∃ b, t.dev.acc id = some b ∧ b.stage = .reading ∧ b.slot = slotFor (s.dev.rekey a.region) a.kslot a.line) ∧
        MediaIssued t.dev ⟨0, a.line.toNat, default, .data id⟩)) ∧
  (∀ (id : Nat) (s : State) (l : Ladder), Canonical s.dev → InService s → s.dev.frs.ladders.find? (fun l => l.id = id) = some l →
    (∀ (level cause aid p : Nat) (a : Access), ((s.dev.countAnchor l.zone l.n l.low).seenOf l).verify l = (.error level cause, []) → l.waiters = [.access aid] →
      s.dev.acc aid = some a → a.origin = .port p → a.stage ≠ .done → Completes (.ladderVerifyDone id none none) s fun t =>
        ∃ b, t.dev.acc aid = some b ∧ b.stage = .done ∧ b.status = .poisoned) ∧
    ∀ (level sid : Nat) (slot : Ctr) (rs : List Rung) (st : Step), ((s.dev.countAnchor l.zone l.n l.low).seenOf l).verify l = (.ok level slot, rs) → l.check = true →
      (∀ r ∈ rs, r.attempts ≤ 1) → l.waiters = [.scrub sid] → s.dev.step1 sid = some st → s.dev.can.maint = [] →
      s.dev.per.adopt = none → Completes (.ladderVerifyDone id none none) s fun t =>
        t.dev.step1 sid = some { st with nodes := st.nodes - 1 }) ∧
  (∀ (ch : Fin 16) (tag : BitVec 10) (s : State), Canonical s.dev → s.safe.active = false → s.dev.mediaUp ch = true →
    (∀ (beat : Beat) (ecc : BitVec 2) (zen : Bool) (ke : Option (KeyRef × Bool)) (m : MCmd) (id p : Nat) (a : Access), (s.dev.chan ch).out.get tag.toNat = some m →
      m.isWrite = false → m.why = .data id → s.dev.acc id = some a → a.stage = .reading → a.origin = .port p →
      (s.dev.session a.sess).txFailed = false → ecc.toNat < 2 → Completes (.mediaReadBeat ch tag beat ecc zen ke) s fun t =>
        ∃ b, t.dev.acc id = some b ∧ b.stage = .lane ∧ b.beat = beat) ∧
    (∀ (m : MCmd) (id p : Nat) (a : Access), (s.dev.chan ch).out.get tag.toNat = some m → m.isWrite = true →
      m.why = .data id → s.dev.acc id = some a → a.stage = .writing → a.origin = .port p →
      (a.lost = true ∨ a.leaf = .none ∨ a.leaf = .done) → ∀ zen : Bool, Completes (.mediaWriteCompletion ch tag 0 zen) s fun t =>
        ∃ b, t.dev.acc id = some b ∧ b.stage = .done ∧ b.status = (if a.lost then .poisoned else .ok)) ∧
    ((s.dev.chan ch).out.get tag.toNat = none → (80 + ch.val) ∉ (s.flt.banks.get bMed).mask →
      (80 + ch.val) ∉ (s.flt.banks.get bMed).live → ∀ (beat : Beat) (x : BitVec 2) (zen : Bool) (ke : Option (KeyRef × Bool)),
      (Completes (.mediaReadBeat ch tag beat x zen ke) s fun t => (t.flt.banks.get bMed).first.isSome = true) ∧
      Completes (.mediaWriteCompletion ch tag x zen) s fun t => (t.flt.banks.get bMed).first.isSome = true)) ∧
  ∀ (id : Nat) (lane : Fin 36) (audit : Audit) (s : State) (a : Access) (p : Nat), Canonical s.dev → InService s → s.dev.acc id = some a →
    a.stage = .lane → a.origin = .port p → s.dev.laneMay a lane (s.dev.passKeys a) = true →
    (audit = .agree ∨ s.dev.samples lane = false) →
    (a.isWrite = false → a.pass = .read → a.verified = true →
      Completes (.lanePassDone id lane audit none none) s fun t => ∃ b, t.dev.acc id = some b ∧ b.stage = .done ∧ b.status = .ok) ∧
    (a.isWrite = true → a.pass = .write → (s.dev.kslot a.slot).st = .loaded → a.winKey.isSome = true →
      s.dev.retired (channelOf a.line.toNat) = false → Completes (.lanePassDone id lane audit none none) s fun t =>
        (∃ b, t.dev.acc id = some b ∧ b.stage = .writing) ∧
        MediaIssued t.dev ⟨1, a.line.toNat, s.dev.sealBeat a.slot a.mode a.line a.ctr a.payload, .data id⟩)

/-- A parked request that has waited for STL_PARK_TIMEOUT completes ACCESS_ERROR, a write once its window's result is
known, and counts on its port. A released read that passes the checks is admitted and takes its place at the line
gate. A tick raises the AGE of every valid entry of the active table by 1, up to 255. A high level on MCn_FAIL retires
channel n with cause 1, in the safe state too, and the retirement is a condition of the MED bank from then on. When
the leak period of the THRESHOLD in force is over, the transient bucket of a channel in service falls by 1, the period
starts again, and the THRESHOLD of the register is in force. Clauses of it rest on readings and choices of the model:
log entries 17, 86, 112, 124, 132. (spec/ 05_stream_table, 04_request_path, 02_boundary_ports, 15_faults) -/
def Obligations.ParkingAndChannels : Prop :=
  ((∀ (id : Nat) (err : Bool) (s : State) (a : Access) (p : Nat), Canonical s.dev → InService s → s.dev.acc id = some a → a.stage = .parked →
    a.origin = .port p →
    (err = true ∨ a.released = false ∧ s.dev.passed a.parkedAt s.dev.stl.parkTimeout = true) →
    Completes (.parkingTimeout id err) s fun t =>
      (a.isWrite = false ∨ a.win = .passed ∨ a.win = .failed →
        ∃ b, t.dev.acc id = some b ∧ b.stage = .done ∧ b.status = .accessError) ∧
      (a.isWrite = true → a.win ≠ .passed → a.win ≠ .failed → t.dev.acc id = some { a with stage := .expired }) ∧
      t.dev.stl.timeoutCnt.get p = min 0xFFFFFFFF (s.dev.stl.timeoutCnt.get p + 1)) ∧
  (∀ (s : State) (a : Access) (p : Nat) (e : SEntry) (i : Nat) (r : RegionCfg), Canonical s.dev → InService s →
    s.dev.parked.filter (fun a => a.released) = [a] → s.dev.acc a.id = some a → a.origin = .port p → a.isWrite = false →
    a.win = .none → s.dev.full false = false → (∀ b ∈ s.dev.fab.accs, b.stage ≠ .received) →
    Passes s.dev p a.sid a.kid a.line e i r → Completes (.parkedRelease []) s fun t =>
      ∃ b, t.dev.acc a.id = some b ∧ b.stage = .gated ∧ b.inFlight = true ∧ b.gen = s.dev.rmp.gen ∧ b.kslot = e.kslot) ∧
  ∀ s : State, Canonical s.dev → InService s → s.dev.passed s.dev.stl.ageAt s.dev.stl.agePeriod = true → Completes .ageingTick s fun t =>
    t.dev.stl.ageAt = s.dev.mgt.tref ∧ ∀ i e, (s.dev.stlSet s.dev.activeSet).tab.get i = some e →
      (t.dev.stlSet s.dev.activeSet).tab.get i = some { e with age := min 255 (e.age + 1) }) ∧
  ((∀ (ch : Fin 16) (s : State), Canonical s.dev → s.dev.up domCore = true → (s.dev.chan ch).retired = false →
    Completes (.mcnFail ch) s fun t => (t.dev.chan ch).retired = true ∧ (t.dev.chan ch).cause = 1 ∧
      (64 + ch.val) ∈ (t.flt.banks.get bMed).live) ∧
  ∀ (ch : Fin 16) (s : State), Canonical s.dev → s.dev.up domCore = true → (s.dev.chan ch).bucket ≠ 0 → (s.dev.chan ch).retired = false →
    s.dev.passed (s.dev.chan ch).leakAt (1000000 / s.dev.thresholdOf ch) = true → Completes (.transientBucketLeak ch) s fun t =>
      (t.dev.chan ch).bucket = min ((s.dev.chan ch).bucket - 1) (s.dev.med.threshold + 1) ∧ (t.dev.chan ch).leakAt = s.dev.mgt.tref ∧
      t.dev.thresholdOf ch = s.dev.med.threshold)

/-- A granted write whose byte mask has no bit set, and whose window has passed, completes OK: it is done, so no lane
takes it; the trees stay, the lines of the Canopy with their counters stay, but for clean lines of the staging buffer,
whose counters are on media; and no media access is issued. (spec/ R115) -/
def Obligations.EmptyWriteCompletesOk : Prop :=
  ∀ (id : Nat) (s : State) (a : Access) (p : Nat), InService s → Canonical s.dev → s.dev.acc id = some a → a.origin = .port p →
    s.dev.grantable a = true → a.isWrite = true → a.mask = 0 → a.win = .passed →
    Completes (.accessGrant id none) s fun t => (∃ b, t.dev.acc id = some b ∧ b.stage = .done ∧ b.status = .ok) ∧
      (∀ k, t.dev.can1 k = s.dev.can1 k ∨ staging ≤ k ∧ (s.dev.can1 k).st = .clean) ∧ OnlyChanges [.fab, .can] s t

/-- The acknowledgement of a completion write ends its entry and counts it in DONE; with an error the queue turns ERROR
with cause 8. Read data is gathered until LAST; an entry with OWN = 1 then joins the cache and F passes it, one with
OWN = 0 ahead of T is a queue error of cause 5. HOST_HOLDOFF follows its pin; when it falls every pending vector that
may be sent is sent while credits and tags suffice, and with none stays pending. Clauses of it rest on readings and
choices of the model: log entries 13, 34, 87, 100. (spec/ 02_boundary_ports, 12_queue_interface) -/
def Obligations.HostAnswers : Prop :=
  (∀ (tag : BitVec 8) (s : State) (w : HWr) (q : Nat) (pos : QPos) (counts : Bool), Canonical s.dev → s.safe.active = false →
    s.dev.qmg.wrOut.get tag.toNat = some w → w.why = .completion q pos counts → (s.dev.queue q).st ≠ .none →
    (s.dev.queue q).resetting = false →
    (Completes (.hdmaWriteAck tag false) s fun t => t.dev.exec1 q pos = none ∧ (t.dev.queue q).done = (s.dev.queue q).done + 1) ∧
    ((s.dev.queue q).st ≠ .error → Completes (.hdmaWriteAck tag true) s fun t =>
      (t.dev.queue q).st = .error ∧ (t.dev.queue q).cause = 8 ∧ (t.dev.queue q).pos = pos)) ∧
  (∀ (tag : BitVec 8) (data : BitVec 256) (s : State) (r : HRd), Canonical s.dev → s.dev.qmg.rdOut.get tag.toNat = some r →
    (∀ err : Bool, Completes (.hdmaReadData tag data false err) s fun t => t.dev.qmg.rdOut.get tag.toNat =
      some { r with got := r.got ++ leBytes 32 data.toNat, err := r.err || err }) ∧
    ∀ (q : Nat) (pos : QPos) (e : Line), s.safe.active = false → r.why = .entries q pos 1 false → r.err = false →
      e = bytesLine ((HRd.data { r with got := r.got ++ leBytes 32 data.toNat }).take 64) →
      (ownFlag e = true → Completes (.hdmaReadData tag data true false) s fun t =>
        (t.dev.queue q).cached = (s.dev.queue q).cached ++ [⟨pos, e⟩] ∧
          (t.dev.queue q).fetch = adv (s.dev.queue q).size pos) ∧
      (ownFlag e = false → (s.dev.queue q).st = .active → Completes (.hdmaReadData tag data true false) s fun t =>
        (t.dev.queue q).st = .error ∧ (t.dev.queue q).cause = 5 ∧ (t.dev.queue q).pos = pos)) ∧
  (∀ s : State, Canonical s.dev → Completes .hostHoldoffRise s fun t => t.dev.mgt = { s.dev.mgt with holdoff := true }) ∧
  ∀ s : State, Canonical s.dev → Completes .hostHoldoffFall s fun t => t.dev.mgt = { s.dev.mgt with holdoff := false } ∧
    (InService s → RoomFor (Tab.which s.dev.qmg.vecs fun x => x.pend).length s → ∀ v, (s.dev.vec v).pend = true →
      (s.dev.vec v).loaded = true → (s.dev.vec v).mask = false → (t.dev.vec v).pend = false ∧
      WriteIssued t.dev (s.dev.vec v).addr.toNat (leBytes 4 (s.dev.vec v).data.toNat) 0 (.message v)) ∧
    (InService s → s.dev.wrRoom = false → ∀ v, (t.dev.vec v).pend = (s.dev.vec v).pend)

/-- A well-formed doorbell on a queue that is neither NONE nor in ERROR returns its credit and acts: TAIL sets the tail of
a submission queue or releases records of an event queue, or is a queue error of cause 6 when the position is not
allowed; SCAN asks for a scan, or for another one after that which is reading, of an ACTIVE queue, and TAIL of a scan-
only queue is a SCAN; INVALIDATE empties the entry cache and sets F to H; a SCAN of a queue that is not ACTIVE, and a
SCAN or INVALIDATE of an event queue, change nothing; DRAIN waits for earlier writes or, with none, makes every vector
with items due: its message is issued, waits for a credit or a tag, or turns pending. Every other doorbell is
discarded. (spec/ 12_queue_interface, 02_boundary_ports) -/
def Obligations.DoorbellsAct : Prop :=
  (∀ (slot : BitVec 14) (low : BitVec 30) (be : BitVec 8) (s : State), Canonical s.dev → InService s → s.dev.up domHdma = true →
    s.dev.up domCore = true → be.extractLsb' 0 4 = 15 → low.extractLsb' 16 14 = 0 → (s.dev.queue slot.toNat).st ≠ .none →
    (s.dev.queue slot.toNat).st ≠ .error →
    (∀ x : Queue, s.dev.queue slot.toNat = x → x.submission = true → x.scanOnly = false →
      (posI (doorPos low) < x.size ∧ occ x.size x.head x.tail ≤ occ x.size x.head (doorPos low) ∧
        occ x.size x.head (doorPos low) ≤ x.size → Completes (.tail slot low be) s fun t =>
        t.dev.queue slot.toNat = { x with tail := doorPos low } ∧ .dbCredit ∈ t.dev.drive) ∧
      (¬(posI (doorPos low) < x.size ∧ occ x.size x.head x.tail ≤ occ x.size x.head (doorPos low) ∧
        occ x.size x.head (doorPos low) ≤ x.size) → Completes (.tail slot low be) s fun t =>
        (t.dev.queue slot.toNat).st = .error ∧ (t.dev.queue slot.toNat).cause = 6 ∧
          (t.dev.queue slot.toNat).pos = doorPos low ∧ .dbCredit ∈ t.dev.drive)) ∧
    (∀ x : Queue, s.dev.queue slot.toNat = x → x.ty = .event → posI (doorPos low) < x.size →
      0 ≤ occ x.size x.tail (doorPos low) → occ x.size x.tail (doorPos low) ≤ occ x.size x.tail x.head →
      Completes (.tail slot low be) s fun t => t.dev.queue slot.toNat = { x with tail := doorPos low } ∧ .dbCredit ∈ t.dev.drive) ∧
    (∀ x : Queue, s.dev.queue slot.toNat = x → x.ty = .event → ¬(posI (doorPos low) < x.size ∧
        0 ≤ occ x.size x.tail (doorPos low) ∧ occ x.size x.tail (doorPos low) ≤ occ x.size x.tail x.head) →
      Completes (.tail slot low be) s fun t => (t.dev.queue slot.toNat).st = .error ∧ (t.dev.queue slot.toNat).cause = 6 ∧
        (t.dev.queue slot.toNat).pos = doorPos low ∧ .dbCredit ∈ t.dev.drive) ∧
    ((s.dev.queue slot.toNat).submission = true → (s.dev.queue slot.toNat).scanOnly = true →
      Completes (.tail slot low be) s fun t => exec (.scan slot low be) s = .next t ∧ .dbCredit ∈ t.dev.drive) ∧
    ((s.dev.queue slot.toNat).ty = .event ∨ (s.dev.queue slot.toNat).st ≠ .active →
      Completes (.scan slot low be) s fun t => OnlyChanges [] s t ∧ .dbCredit ∈ t.dev.drive) ∧
    ((s.dev.queue slot.toNat).ty = .event →
      Completes (.invalidate slot low be) s fun t => OnlyChanges [] s t ∧ .dbCredit ∈ t.dev.drive) ∧
    (NoRecordWaits slot.toNat s → (s.dev.queue slot.toNat).submission = true → (s.dev.queue slot.toNat).st = .active →
      Completes (.scan slot low be) s fun t =>
        t.dev.queue slot.toNat = { s.dev.queue slot.toNat with
          scanning := true, again := s.dev.scanOut slot.toNat, stopped := false } ∧ .dbCredit ∈ t.dev.drive) ∧
    (NoRecordWaits slot.toNat s → (s.dev.queue slot.toNat).submission = true → Completes (.invalidate slot low be) s fun t =>
        t.dev.queue slot.toNat = { s.dev.queue slot.toNat with cached := [], fetch := (s.dev.queue slot.toNat).head } ∧
          .dbCredit ∈ t.dev.drive) ∧
    (s.dev.qmg.drains = [] →
      (s.dev.writesBefore s.dev.seq = true → Completes (.drain slot low be) s fun t => t.dev.qmg.drains = [s.dev.seq]) ∧
      (s.dev.writesBefore s.dev.seq = false → Completes (.drain slot low be) s fun t => t.dev.qmg.drains = [] ∧
        ∀ v, 1 ≤ (s.dev.vec v).n →
          (s.dev.msgOpen (s.dev.vec v) = false → (t.dev.vec v).pend = true) ∧
          (s.dev.msgOpen (s.dev.vec v) = true → s.dev.wrRoom = false → v ∈ t.dev.qmg.drainDue) ∧
          (s.dev.msgOpen (s.dev.vec v) = true → s.dev.qmg.drainDue = [] →
            RoomFor (Tab.which s.dev.qmg.vecs fun x => decide (1 ≤ x.n)).length s → WriteIssued t.dev
              (s.dev.vec v).addr.toNat (leBytes 4 (s.dev.vec v).data.toNat) 0 (.message v))))) ∧
  ∀ (slot : BitVec 14) (low : BitVec 30) (be : BitVec 8) (s : State) (c : Instr), Canonical s.dev → InService s → s.dev.up domHdma = true →
    s.dev.up domCore = true → (be.extractLsb' 0 4 ≠ 15 ∨ low.extractLsb' 16 14 ≠ 0 ∨ (s.dev.queue slot.toNat).st = .none ∨
      (s.dev.queue slot.toNat).st = .error) →
    (c = .tail slot low be ∨ c = .scan slot low be ∨ c = .invalidate slot low be ∨ c = .drain slot low be) →
    Completes c s fun t => OnlyChanges [] s t ∧ .dbCredit ∈ t.dev.drive

/-- ENTRY_FETCH of a queue whose turn it is reads entries from F toward T, or from T onward for a scan, at most 8 and no
more than there are free cache slots for it. SCAN_POLL scans again when the period is over. ENTRY_CONSUMPTION takes
the entry at the head for execution, turns the queue ERROR where the entry is malformed, and with cause 10 where the
context is lost. EVENT_RECORD_WRITE writes the first held record of the source register whose turn it is, once its
first write can be issued; P moves on when the last write of it is issued. A vector that is due, by its thresholds or
by a DRAIN, sends its message, waits for a credit or a tag, or turns pending. Clauses of it rest on readings and
choices of the model: log entries 23, 34, 87, 100, 111. (spec/ 12_queue_interface, 13_commands) -/
def Obligations.QueueManagerRows : Prop :=
  (∀ (q : BitVec 14) (s : State) (x : Queue) (n : Nat), Canonical s.dev → InService s → NoRecordWaits q.toNat s → s.dev.queue q.toNat = x →
    s.dev.fetchTurn q.toNat = true → n ≠ 0 →
    n = min (min 8 (min (s.dev.slotsWanted q.toNat) (s.dev.freeSlots q.toNat))) (x.size - posI x.fetch) →
    x.wants = true ∧ Completes (.entryFetch q) s fun t => t.dev.queue q.toNat = x ∧
      t.dev.qmg.lastFetch = (if q.toNat = 0 then s.dev.qmg.lastFetch else q.toNat) ∧
      ReadIssued t.dev (x.base + 64 * posI x.fetch) (64 * n) (.entries q.toNat x.fetch n (x.fetch == x.tail))) ∧
  (∀ (q : BitVec 14) (s : State) (x : Queue), Canonical s.dev → InService s → NoRecordWaits q.toNat s → s.dev.queue q.toNat = x → x.st = .active → x.submission = true →
    x.scanOnly = true → x.stopped = true → s.dev.passed x.polledAt s.dev.qmg.scanPeriod = true →
    Completes (.scanPoll q) s fun t =>
      t.dev.queue q.toNat = { x with stopped := false, scanning := true, polledAt := s.dev.mgt.tref }) ∧
  (∀ (q : BitVec 14) (s : State) (x : Queue), Canonical s.dev → InService s → NoRecordWaits q.toNat s → s.dev.queue q.toNat = x →
    (∀ (c : Cached) (r : List Cached), x.cached = c :: r → x.st = .active → s.dev.mgt.pfWarn = false → x.fenced c.entry = false →
      (entryError x c.entry = none → s.dev.exec1 q.toNat c.pos = none → Completes (.entryConsumption q none) s fun t =>
        (t.dev.queue q.toNat).cached = r ∧ (t.dev.queue q.toNat).head = adv x.size c.pos ∧
        ∃ y, t.dev.exec1 q.toNat c.pos = some y ∧ y.entry = c.entry ∧
          (fragFlag c.entry = false → inputOf c.entry = none → y.st = .ready)) ∧
      (∀ k, entryError x c.entry = some k → Completes (.entryConsumption q none) s fun t =>
        (t.dev.queue q.toNat).st = .error ∧ (t.dev.queue q.toNat).cause = k ∧ (t.dev.queue q.toNat).pos = c.pos)) ∧
    (x.st ≠ .none → x.st ≠ .error → x.resetting = false → Completes (.entryConsumption q (some true)) s fun t =>
      (t.dev.queue q.toNat).st = .error ∧ (t.dev.queue q.toNat).cause = 10 ∧ (t.dev.queue q.toNat).pos = x.head)) ∧
  (∀ (src : EvSrc) (s : State) (r : Rec) (rs : List Rec) (q : Nat) (x : Queue), Canonical s.dev → InService s →
    s.dev.qmg.held.get (evCode src) = r :: rs → (s.dev.evq src).valid = true → (s.dev.evq src).qid.toNat = q →
    s.dev.queue q = x → s.dev.canTake (s.dev.evq src) = true → s.dev.turnOf src = true →
    (s.dev.wrRoom = false → Completes (.eventRecordWrite src) s fun t => OnlyChanges [] s t ∧
      (t.dev.qmg.held.get (evCode src)).head? = some r) ∧
    (s.dev.wrRoom = true → Completes (.eventRecordWrite src) s fun t =>
      (RoomFor 3 s → t.dev.queue q =
        { x with head := adv x.size x.head, seq := x.seq + 1, recWr := x.recWr + 3, lastSrc := evCode src + 1 }) ∧
      (s.dev.qmg.wrCredit < 3 → t.dev.queue q = { x with recWr := x.recWr + 3, lastSrc := evCode src + 1 }) ∧
      WriteIssued t.dev (x.at x.head) ((recLow r (s.dev.recPayload r) x.fmt.toNat x.seq.toNat).take 32) q (.recordLow q x.head) ∧
      WriteIssued t.dev (x.at x.head + 32) ((recLow r (s.dev.recPayload r) x.fmt.toNat x.seq.toNat).drop 32) q (.recordLow q x.head) ∧
      WriteIssued t.dev (x.at x.head + 48) (recHigh s.dev.stamp) q (.recordHigh q x.head))) ∧
  ∀ (v : BitVec 11) (s : State), Canonical s.dev → InService s → s.dev.vecDue (s.dev.vec v.toNat) = true ∨ v.toNat ∈ s.dev.qmg.drainDue →
    (s.dev.msgOpen (s.dev.vec v.toNat) = true → s.dev.wrRoom = false → Completes (.vectorDue v) s (OnlyChanges [] s)) ∧
    (s.dev.msgOpen (s.dev.vec v.toNat) = true → s.dev.wrRoom = true → Completes (.vectorDue v) s fun t =>
      WriteIssued t.dev (s.dev.vec v.toNat).addr.toNat (leBytes 4 (s.dev.vec v.toNat).data.toNat) 0 (.message v.toNat)) ∧
    (s.dev.msgOpen (s.dev.vec v.toNat) = false → Completes (.vectorDue v) s fun t => (t.dev.vec v.toNat).pend = true)

/-- ENABLE makes an IDLE or STOPPING queue ACTIVE and creates queue 0 from its registers; on an ACTIVE queue it does
nothing, and on another that is NONE, or on one in ERROR, it is ignored with CFG_IGN. DISABLE makes an ACTIVE queue
STOPPING and does nothing in other states. ADMIN_RESET removes queue 0 when it is IDLE or in ERROR, once nothing is in
execution; elsewhere it is ignored with CFG_IGN. A STOPPING queue with nothing left turns IDLE. QMG_VEC_LOAD reads one
vector table entry or all 2,048, in reads of at most 512 bytes of whole 32-byte units, or sets CFG_IGN while a load
runs. CREATE_QUEUE of an ID that is free gives the queue the context of its operands, ACTIVE, and succeeds; of one in
use it answers EXISTS. DELETE_QUEUE and RESET_QUEUE of a queue that is IDLE or in ERROR with nothing in execution
remove it, or leave it IDLE with its positions at 0; of one that does not exist they answer NOT_FOUND and while it is
ACTIVE or STOPPING, BUSY. With entries in execution DELETE_QUEUE answers BUSY, and RESET_QUEUE waits for them. Clauses
of it rest on readings and choices of the model: log entries 12, 100. (spec/ 12_queue_interface, 13_commands) -/
def Obligations.QueueCommands : Prop :=
  ((∀ (q : BitVec 14) (s : State), Canonical s.dev → CoreServed s →
    ((s.dev.queue q.toNat).st = .idle ∨ (s.dev.queue q.toNat).st = .stopping → Completes (.enable q) s fun t =>
      (t.dev.queue q.toNat).st = .active ∧ AnswersReg t) ∧
    ((s.dev.queue q.toNat).st = .active → Completes (.disable q) s fun t =>
      t.dev.queue q.toNat = { s.dev.queue q.toNat with st := .stopping } ∧ AnswersReg t) ∧
    ((s.dev.queue q.toNat).st = .active → Completes (.enable q) s fun t => OnlyChanges [] s t ∧ AnswersReg t) ∧
    ((s.dev.queue q.toNat).st = .none ∧ q ≠ 0 ∨ (s.dev.queue q.toNat).st = .error → Completes (.enable q) s fun t =>
      t.dev.qmg.cfgIgn = true ∧ t.dev.qmg.queues = s.dev.qmg.queues ∧ AnswersReg t) ∧
    ((s.dev.queue q.toNat).st ≠ .active → Completes (.disable q) s fun t => OnlyChanges [] s t ∧ AnswersReg t) ∧
    (q ≠ 0 ∨ (s.dev.queue q.toNat).st ≠ .idle ∧ (s.dev.queue q.toNat).st ≠ .error → Completes (.adminReset q) s fun t =>
      t.dev.qmg.cfgIgn = true ∧ t.dev.qmg.queues = s.dev.qmg.queues ∧ AnswersReg t)) ∧
  (∀ s : State, Canonical s.dev → CoreServed s →
    ((s.dev.queue 0).st = .none → Completes (.enable 0) s fun t => t.dev.queue 0 = s.dev.adminContext) ∧
    ((s.dev.queue 0).st = .idle ∨ (s.dev.queue 0).st = .error → (s.dev.queue 0).exec = [] →
      (s.dev.queue 0).resetBy = [] → Completes (.adminReset 0) s fun t => t.dev.queue 0 = default) ∧
    ((s.dev.queue 0).st = .idle ∨ (s.dev.queue 0).st = .error → (s.dev.queue 0).exec ≠ [] →
      Completes (.adminReset 0) s fun t => t.dev.queue 0 = { s.dev.queue 0 with resetting := true })) ∧
  (∀ (q : BitVec 14) (s : State), Canonical s.dev → InService s → (s.dev.queue q.toNat).st = .stopping → (s.dev.queue q.toNat).exec = [] →
    s.dev.fetches q.toNat = [] → (s.dev.queue q.toNat).recWr = 0 → Completes (.queueIdle q) s fun t =>
      t.dev.queue q.toNat = { s.dev.queue q.toNat with st := .idle }) ∧
  ∀ (v : Word32) (s : State), Canonical s.dev → CoreServed s →
    (s.dev.qmg.vecLoading = 0 →
      (bit v 31 = false → Completes (.qmgVecLoad v) s fun t => t.dev.qmg.vecLoading = 1 ∧
        ReadIssued t.dev (s.dev.qmg.vecBase + 16 * bits v 10 0) 16 (.vectors (bits v 10 0) 1)) ∧
      (bit v 31 = true → Completes (.qmgVecLoad v) s fun t =>
        t.dev.qmg.vecLoading = (vecReads s.dev.qmg.vecBase 65 0).length ∧
        (s.dev.qmg.vecBase % 16 = 0 → (vecReads s.dev.qmg.vecBase 65 0).foldl (fun a r => a + r.2) 0 = 2048) ∧
        ∀ r ∈ vecReads s.dev.qmg.vecBase 65 0, ReadIssued t.dev (s.dev.qmg.vecBase + 16 * r.1) (16 * r.2) (.vectors r.1 r.2) ∧
          (s.dev.qmg.vecBase + 16 * r.1) % 32 + 16 * r.2 ≤ 512)) ∧
    (s.dev.qmg.vecLoading ≠ 0 → Completes (.qmgVecLoad v) s fun t => t.dev.qmg.cfgIgn = true)) ∧
  ((∀ (q : BitVec 14) (pos : BitVec 16) (s : State) (x : Exec) (k : Nat), Canonical s.dev → Runs q pos cCreateQueue noRules x s →
    num x.entry 8 2 = k → k ≠ q.toNat → (num x.entry 12 1 = 1 ∨ num x.entry 12 1 = 2) →
    ((s.dev.queue k).st = .none → NoRecordWaits k s → Completes (.createQueue q pos) s fun t => Answered q pos (Cpl.ok 0) t ∧
      t.dev.queue k = { (default : Queue) with
        st := .active, ty := if num x.entry 10 1 = 1 then .io else .event, scanOnly := decide (num x.entry 13 1 % 2 = 1)
        fmt := BitVec.ofNat 2 (num x.entry 12 1), log2 := num x.entry 11 1, vecEn := decide (num x.entry 13 1 / 2 % 2 = 1)
        vec := BitVec.ofNat 11 (num x.entry 14 2), base := num x.entry 16 8, stopped := decide (num x.entry 13 1 % 2 = 1)
        polledAt := s.dev.mgt.tref }) ∧
    ((s.dev.queue k).st ≠ .none → Completes (.createQueue q pos) s (Answered q pos .exists))) ∧
  (∀ (q : BitVec 14) (pos : BitVec 16) (s : State) (x : Exec) (k : Nat), Canonical s.dev → Runs q pos cDeleteQueue noRules x s →
    num x.entry 8 2 = k → k ≠ q.toNat →
    ((s.dev.queue k).st = .idle ∨ (s.dev.queue k).st = .error → (s.dev.queue k).exec = [] →
      Completes (.deleteQueue q pos) s fun t => Answered q pos (Cpl.ok 0) t ∧ t.dev.queue k = default) ∧
    ((s.dev.queue k).st = .none → Completes (.deleteQueue q pos) s (Answered q pos .notFound)) ∧
    ((s.dev.queue k).st = .active ∨ (s.dev.queue k).st = .stopping ∨ (s.dev.queue k).st ≠ .none ∧ (s.dev.queue k).exec ≠ [] → Completes (.deleteQueue q pos) s (Answered q pos .busy))) ∧
  ∀ (q : BitVec 14) (pos : BitVec 16) (s : State) (x : Exec) (k : Nat), Canonical s.dev → Runs q pos cResetQueue noRules x s →
    num x.entry 8 2 = k → k ≠ q.toNat →
    ((s.dev.queue k).st = .idle ∨ (s.dev.queue k).st = .error → (s.dev.queue k).exec = [] → (s.dev.queue k).resetBy = [] →
      Completes (.resetQueue q pos) s fun t => Answered q pos (Cpl.ok 0) t ∧ (t.dev.queue k).st = .idle ∧
        (t.dev.queue k).head = 0 ∧ (t.dev.queue k).tail = 0 ∧ (t.dev.queue k).fetch = 0 ∧ (t.dev.queue k).old = 0 ∧
        (t.dev.queue k).cached = [] ∧ (t.dev.queue k).done = 0 ∧ (t.dev.queue k).base = (s.dev.queue k).base) ∧
    ((s.dev.queue k).st = .idle ∨ (s.dev.queue k).st = .error → (s.dev.queue k).exec ≠ [] →
      Completes (.resetQueue q pos) s fun t => (∃ y, t.dev.exec1 q.toNat pos = some y ∧ y.st = .running ∧ y.cpl = x.cpl) ∧
        t.dev.queue k = { s.dev.queue k with resetting := true, resetBy := (s.dev.queue k).resetBy ++ [(q.toNat, pos)] }) ∧
    ((s.dev.queue k).st = .none → Completes (.resetQueue q pos) s (Answered q pos .notFound)) ∧
    ((s.dev.queue k).st = .active ∨ (s.dev.queue k).st = .stopping → Completes (.resetQueue q pos) s (Answered q pos .busy)))

/-- SET_FEATURE writes a feature register, kept within its range, and GET_FEATURE answers what the register reads:
FAB_WIN_TIMEOUT 1 to 1,000, STL_RELOC_LIMIT 1 to 64, STL_PARK_TIMEOUT 1 to 1,000, STL_AGE_PERIOD from 1, LAN_AUDIT 256
to 65,536, LAN_KAT_PERIOD 100 to 100,000, CAN_DIRTY_BUDGET 1 to 8, PER_CKPT_PERIOD 1 to 1,440, KEY_DRBG_LIMIT 10 to
20, QMG_SCAN_PERIOD 1 to 1,000. IDENTIFY delivers the 64-byte identity structure. A queue, feature, identity or
checkpoint command whose operands break a rule ends with INVALID_FIELD of kind 0 and the lowest offending offset, and
changes nothing but its queue and HDMA. Clauses of it rest on readings and choices of the model: log entry 12. (spec/
13_commands) -/
def Obligations.FeatureCommands : Prop :=
  ((∀ (q : BitVec 14) (pos : BitVec 16) (s : State) (x : Exec) (fid : Nat) (v : Word32), Canonical s.dev → Runs q pos cSetFeature noRules x s →
    num x.entry 8 2 = fid → w32 (num x.entry 12 4) = v → Completes (.setFeature q pos) s fun t =>
      (∃ r, Answered q pos (Cpl.ok r) t ∧ ∃ a, featureReg fid = some a ∧ r = t.live a) ∧
      (fid = 1 → t.dev.fab.winTimeout = clamp 1 1000 (bits v 9 0)) ∧
      (fid = 2 → t.dev.stl.relocLimit = clamp 1 64 (bits v 6 0)) ∧
      (fid = 3 → t.dev.stl.parkTimeout = clamp 1 1000 (bits v 9 0)) ∧
      (fid = 4 → t.dev.stl.agePeriod = max 1 (bits v 15 0)) ∧
      (fid = 5 → t.dev.lan.auditEn = bit v 31 ∧ t.dev.lan.auditInterval = clamp 256 65536 (bits v 16 0)) ∧
      (fid = 6 → t.dev.lan.katPeriod = clamp 100 100000 (bits v 16 0)) ∧
      (fid = 7 → t.dev.can.budgetMib = clamp 1 8 (bits v 3 0)) ∧
      (fid = 8 → t.dev.per.periodMin = clamp 1 1440 (bits v 10 0)) ∧
      (fid = 9 → t.dev.key.reseedLog2 = clamp 10 20 (bits v 4 0)) ∧
      (fid = 10 → t.dev.qmg.scanPeriod = clamp 1 1000 (bits v 9 0))) ∧
  (∀ (q : BitVec 14) (pos : BitVec 16) (s : State) (x : Exec), Canonical s.dev → Runs q pos cGetFeature noRules x s →
    ∃ a, featureReg (num x.entry 8 2) = some a ∧
      Completes (.getFeature q pos) s fun t => Answered q pos (Cpl.ok (s.live a)) t) ∧
  ∀ (q : BitVec 14) (pos : BitVec 16) (s : State) (x : Exec), Canonical s.dev → Runs q pos cIdentify noRules x s →
    s.dev.identity.length = 64 ∧
      Completes (.identify q pos) s (Delivered q pos (Cpl.ok 0) (num x.entry 16 8) s.dev.identity)) ∧
  (∀ (q : BitVec 14) (pos : BitVec 16) (op : Nat) (c : Instr) (s : State) (x : Exec) (o : Nat), Canonical s.dev →
    (op = cCreateQueue ∧ c = .createQueue q pos ∨ op = cDeleteQueue ∧ c = .deleteQueue q pos ∨
      op = cResetQueue ∧ c = .resetQueue q pos ∨ op = cSetFeature ∧ c = .setFeature q pos ∨
      op = cGetFeature ∧ c = .getFeature q pos ∨ op = cIdentify ∧ c = .identify q pos ∨
      op = cCheckpoint ∧ c = .checkpoint q pos) →
    Ready q pos op x s → operandBad x.entry x.batchRule = some o →
    Completes c s fun t => Answered q pos (Cpl.invalid 0 o) t ∧ OnlyChanges [.queues, .hdma] s t)

/-- A write to a counter-clear register that selects a counter leaves it at 0 and answers without error: FAB_CNT_CLR the
four counters of each selected port, STL_CNT_CLR those of each selected port and, with any port, STL_EVICT_CNT,
FRS_CNT_CLR, CAN_CNT_CLR, KEY_CNT_CLR, PER_CNT_CLR and SVC_CNT_CLR theirs, MED_CNT_CLR the transient count of each
selected channel. (spec/ 04_request_path, 05_stream_table, 08_freshness_tree, 09_canopy_cache, 10_persistence,
11_key_services, 14_background_services, 15_faults) -/
def Obligations.CounterClears : Prop :=
  ∀ (v : Word32) (s : State), Canonical s.dev → CoreServed s → 
    (Completes (.fabCntClr v) s fun t => AnswersReg t ∧ ∀ p, p < 8 → bit v p = true → t.dev.port p =
      { s.dev.port p with accErr := 0, poison := 0, linkErr := 0, ktag := 0 }) ∧
    (Completes (.stlCntClr v) s fun t => AnswersReg t ∧ (bits v 7 0 ≠ 0 → t.dev.stl.evictCnt = 0) ∧
      ∀ p, p < 8 → bit v p = true →
        t.dev.stl.rejectCnt.get p = 0 ∧ t.dev.stl.timeoutCnt.get p = 0 ∧ t.dev.stl.parkfullCnt.get p = 0) ∧
    (Completes (.medCntClr v) s fun t => AnswersReg t ∧ ∀ n, n < 16 → bit v n = true → t.dev.chan n =
      { s.dev.chan n with transients := 0 }) ∧
    (bit v 0 = true →
      (Completes (.frsCntClr v) s fun t => AnswersReg t ∧
        t.dev.frs = { s.dev.frs with exhCnt := 0, nodePoisonCnt := 0, linePoisonCnt := 0 }) ∧
      (Completes (.canCntClr v) s fun t => AnswersReg t ∧ t.dev.can = { s.dev.can with hit := 0, miss := 0 }) ∧
      (Completes (.keyCntClr v) s fun t => AnswersReg t ∧ t.dev.key = { s.dev.key with unwrapCnt := 0, reseedCnt := 0 }) ∧
      (Completes (.perCntClr v) s fun t => AnswersReg t ∧ t.dev.per = { s.dev.per with ckptCnt := 0, failCnt := 0 }) ∧
      Completes (.svcCntClr v) s fun t => AnswersReg t ∧ t.dev.svc =
        { s.dev.svc with skipCnt := 0, foreignCnt := 0, findingCnt := 0, unattrCnt := 0 })

/-- A REG write to a register with no row of its own, in service, sets its fields, a value out of range kept at the
nearest end of the range, and answers without error. Configuration and event-queue registers, FLT_EVQ and
MGT_CLUSTER_GATE take their value; MED_LEAK_CFG applies to a bucket from its next fall; the _LO of an engine-read pair
is held. QMG_ADMQ_BASE and CFG, with FMT 01 or 10, are taken while queue 0 is NONE and QMG_VEC_BASE while no load
runs, else CFG_IGN is set. QMG_VEC_CTRL(n) sets mask, time and count, and a pending vector that it unmasks is sent. A
flag of a STAT register, OVF of a bank and a bit of MGT_RESET_CAUSE are cleared by writing 1 to them. FLT_MASK masks
and unmasks the sources of its word that are not FT, FLT_VECTOR sets the vector of the bank, FLT_DRILL.EN is taken but
in DEPLOYED, where the write is ignored and EN reads 0. A write to the first word of a doorbell slot rings the
doorbell as a DB transfer does with all four bytes enabled, and answers on REG in place of the credit. A write where
no register lies changes nothing. Clauses of it rest on readings and choices of the model: log entry 124. (spec/
18_register_reference, 00_scope, 12_queue_interface, 15_faults, 02_boundary_ports) -/
def Obligations.RegisterWrites : Prop :=
  ∀ (v : Word32) (s : State), Canonical s.dev → CoreServed s →
    (Completes (.regWrite (0x20004 / 4) v) s fun t => AnswersReg t ∧ t.dev.fab = { s.dev.fab with winTimeout := clamp 1 1000 (bits v 9 0) }) ∧
    (Completes (.regWrite (0x40000 / 4) v) s fun t => AnswersReg t ∧ t.dev.stl = { s.dev.stl with relocLimit := clamp 1 64 (bits v 6 0) }) ∧
    (Completes (.regWrite (0x40004 / 4) v) s fun t => AnswersReg t ∧ t.dev.stl = { s.dev.stl with parkTimeout := clamp 1 1000 (bits v 9 0) }) ∧
    (Completes (.regWrite (0x40008 / 4) v) s fun t => AnswersReg t ∧ t.dev.stl = { s.dev.stl with agePeriod := max 1 (bits v 15 0) }) ∧
    (Completes (.regWrite (0x80004 / 4) v) s fun t => AnswersReg t ∧ t.dev.lan =
      { s.dev.lan with auditEn := bit v 31, auditInterval := clamp 256 65536 (bits v 16 0) }) ∧
    (Completes (.regWrite (0x80008 / 4) v) s fun t => AnswersReg t ∧ t.dev.lan = { s.dev.lan with katPeriod := clamp 100 100000 (bits v 16 0) }) ∧
    (Completes (.regWrite (0xA0000 / 4) v) s fun t => AnswersReg t ∧ (v ≠ 0 → t.dev.mgt.loHeld.get (0xA0000 / 4) = v)) ∧
    (Completes (.regWrite (0xA0020 / 4) v) s fun t => AnswersReg t ∧ t.dev.frs = { s.dev.frs with zoneSel := bits v 12 0 }) ∧
    (Completes (.regWrite (0xC000C / 4) v) s fun t => AnswersReg t ∧ t.dev.can.budgetMib = clamp 1 8 (bits v 3 0) ∧ t.dev.can.lines = s.dev.can.lines) ∧
    (Completes (.regWrite (0xE0000 / 4) v) s fun t => AnswersReg t ∧ t.dev.med = { s.dev.med with retryLimit := bits v 2 0 }) ∧
    (Completes (.regWrite (0xE0004 / 4) v) s fun t => AnswersReg t ∧ t.dev.med.threshold = max 1 (bits v 7 0) ∧
      ∀ n, n < 16 → t.dev.thresholdOf n = s.dev.thresholdOf n ∧ (t.dev.chan n).bucket = (s.dev.chan n).bucket) ∧
    (Completes (.regWrite (0x100004 / 4) v) s fun t => AnswersReg t ∧ t.dev.key.reseedLog2 = clamp 10 20 (bits v 4 0) ∧ t.dev.key.slots = s.dev.key.slots) ∧
    (Completes (.regWrite (0x120018 / 4) v) s fun t => AnswersReg t ∧ t.dev.qmg.scanPeriod = clamp 1 1000 (bits v 9 0)) ∧
    (Completes (.regWrite (0x140008 / 4) v) s fun t => AnswersReg t ∧ t.dev.svc = { s.dev.accrue.svc with frontRate := clamp 1 50 (bits v 6 0) }) ∧
    (Completes (.regWrite (0x14000C / 4) v) s fun t => AnswersReg t ∧ t.dev.svc =
      { s.dev.accrue.svc with drizzleEn := bit v 31, drizzleRate := clamp 1 50 (bits v 6 0) }) ∧
    (Completes (.regWrite (0x140010 / 4) v) s fun t => AnswersReg t ∧ t.dev.svc = { s.dev.accrue.svc with bulkRate := clamp 1 50 (bits v 6 0) }) ∧
    (Completes (.regWrite (0x160000 / 4) v) s fun t => AnswersReg t ∧ t.dev.per = { s.dev.per with periodMin := clamp 1 1440 (bits v 10 0) }) ∧
    (Completes (.regWrite (0x1A0008 / 4) v) s fun t => AnswersReg t ∧ t.dev.del.hbTimeout = clamp 10 10000 (bits v 23 8) ∧ t.dev.del.hbPeriod = max 1 (bits v 7 0)) ∧
    (Completes (.regWrite (0x1A000C / 4) v) s fun t => AnswersReg t ∧ t.dev.del.txnTimeout = clamp 100 100000 (bits v 16 0)) ∧
    (Completes (.regWrite (0x10020 / 4) v) s fun t => AnswersReg t ∧ t.dev.mgt.clusterGate = v.extractLsb' 0 9 ∧
      t.dev.mgt.clusterIdle = s.dev.mgt.clusterIdle &&& v.extractLsb' 0 9) ∧
    (Completes (.regWrite (0x4000C / 4) v) s fun t => AnswersReg t ∧ t.dev.stl = { s.dev.stl with learnEvq := evqOf v }) ∧
    (Completes (.regWrite (0xA000C / 4) v) s fun t => AnswersReg t ∧ t.dev.frs = { s.dev.frs with evq := evqOf v }) ∧
    (Completes (.regWrite (0x140004 / 4) v) s fun t => AnswersReg t ∧ t.dev.svc = { s.dev.svc with evq := evqOf v }) ∧
    (Completes (.regWrite (0x160004 / 4) v) s fun t => AnswersReg t ∧ t.dev.per = { s.dev.per with evq := evqOf v }) ∧
    (Completes (.regWrite (0x180010 / 4) v) s fun t => AnswersReg t ∧ t.dev.qmg.fltEvq = evqOf v) ∧
    (Completes (.regWrite (0x1A0004 / 4) v) s fun t => AnswersReg t ∧ t.dev.del.evq = evqOf v) ∧
    ((s.dev.queue 0).st = .none → Completes (.regWrite (0x12000C / 4) v) s fun t => AnswersReg t ∧ t.dev.qmg.admqBase =
      v.toNat * 2 ^ 32 + (s.dev.mgt.loHeld.get (0x120008 / 4)).toNat / 64 * 64) ∧
    ((s.dev.queue 0).st = .none → (bits v 14 13 = 1 ∨ bits v 14 13 = 2) → Completes (.regWrite (0x120010 / 4) v) s fun t => AnswersReg t ∧ t.dev.qmg.admqCfg =
      pk [(16, clamp 4 15 (bits v 19 16)), (12, bits v 15 12), (0, bits v 10 0)]) ∧
    ((bits v 14 13 = 0 ∨ bits v 14 13 = 3) → Completes (.regWrite (0x120010 / 4) v) s fun t => AnswersReg t ∧ t.dev.qmg.cfgIgn = true ∧
      t.dev.qmg.admqCfg = s.dev.qmg.admqCfg) ∧
    (∀ a ∈ ([0x120008, 0x12000C, 0x120010] : List Nat), (s.dev.queue 0).st ≠ .none →
      Completes (.regWrite (BitVec.ofNat 22 (a / 4)) v) s fun t => AnswersReg t ∧ t.dev.qmg.cfgIgn = true ∧
        t.dev.qmg.admqBase = s.dev.qmg.admqBase ∧ t.dev.qmg.admqCfg = s.dev.qmg.admqCfg) ∧
    (s.dev.qmg.vecLoading = 0 → Completes (.regWrite (0x120024 / 4) v) s fun t => AnswersReg t ∧ t.dev.qmg.vecBase =
      v.toNat * 2 ^ 32 + (s.dev.mgt.loHeld.get (0x120020 / 4)).toNat / 16 * 16) ∧
    (s.dev.qmg.vecLoading ≠ 0 → Completes (.regWrite (0x120024 / 4) v) s fun t => AnswersReg t ∧ t.dev.qmg.cfgIgn = true ∧ t.dev.qmg.vecBase = s.dev.qmg.vecBase) ∧
    (∀ n x, n < 2048 → x = s.dev.vec n → Completes (.regWrite (BitVec.ofNat 22 ((0x12400C + 16 * n) / 4)) v) s fun t => AnswersReg t ∧
      (t.dev.vec n).mask = bit v 29 ∧ (t.dev.vec n).time = bits v 25 16 ∧ (t.dev.vec n).count = bits v 7 0 ∧
      (x.pend = true → x.loaded = true → bit v 29 = false → s.dev.mgt.holdoff = false → s.dev.wrRoom = true →
        (∀ m, m ≠ n → (s.dev.vec m).pend = false) → (t.dev.vec n).pend = false ∧
          WriteIssued t.dev x.addr.toNat (leBytes 4 x.data.toNat) 0 (.message n))) ∧
    (Completes (.regWrite (0x40010 / 4) v) s fun t => AnswersReg t ∧ t.dev.stl.cfgIgn = (s.dev.stl.cfgIgn && !bit v 31)) ∧
    (Completes (.regWrite (0x68004 / 4) v) s fun t => AnswersReg t ∧ t.dev.rmp.cfgIgn = (s.dev.rmp.cfgIgn && !bit v 31)) ∧
    (Completes (.regWrite (0xA0010 / 4) v) s fun t => AnswersReg t ∧ t.dev.frs.cfgIgn = (s.dev.frs.cfgIgn && !bit v 31) ∧
      t.dev.frs.evtLost = (s.dev.frs.evtLost && !bit v 30)) ∧
    (Completes (.regWrite (0xC0004 / 4) v) s fun t => AnswersReg t ∧ t.dev.can.cfgIgn = (s.dev.can.cfgIgn && !bit v 31)) ∧
    (Completes (.regWrite (0x120004 / 4) v) s fun t => AnswersReg t ∧ t.dev.qmg.cfgIgn = (s.dev.qmg.cfgIgn && !bit v 31)) ∧
    (Completes (.regWrite (0x140000 / 4) v) s fun t => AnswersReg t ∧ t.dev.svc.slotOvf = (s.dev.svc.slotOvf && !bit v 31) ∧
      t.dev.svc.evtLost = (s.dev.svc.evtLost && !bit v 30)) ∧
    (Completes (.regWrite (0x160010 / 4) v) s fun t => AnswersReg t ∧ t.dev.per.cfgIgn = (s.dev.per.cfgIgn && !bit v 31) ∧
      t.dev.per.armFail = (s.dev.per.armFail && !bit v 25) ∧ t.dev.per.evtLost = (s.dev.per.evtLost && !bit v 24)) ∧
    ((∀ n, Quiet n s) → Completes (.regWrite (0x180014 / 4) v) s fun t => AnswersReg t ∧ t.dev.qmg.fltLost = (s.dev.qmg.fltLost && !bit v 31)) ∧
    (Completes (.regWrite (0x1A0000 / 4) v) s fun t => AnswersReg t ∧ t.dev.del.evtLost = (s.dev.del.evtLost && !bit v 26)) ∧
    (s.dev.up domSafe = true → Completes (.regWrite (0x10000 / 4) v) s fun t => AnswersReg t ∧ t.safe.resetCause = s.safe.resetCause &&& ~~~ (v.extractLsb' 0 3)) ∧
    (s.dev.up domSafe = true → s.dev.lifecycle ≠ 3 → Completes (.regWrite (0x18000C / 4) v) s fun t => AnswersReg t ∧ t.safe.drillEn = bit v 0) ∧
    (s.dev.up domSafe = true → s.dev.lifecycle = 3 → Completes (.regWrite (0x18000C / 4) v) s fun t => AnswersReg t ∧ OnlyChanges [] s t ∧
      ∃ x, t.regAt 0x18000C = some x ∧ bit x 0 = false) ∧
    (∀ (b : Fin 14) (k : Nat), (b.val = 11 → s.dev.up domSafe = true) → s.flt.banks.wf = true → Quiet b s → k < sources b →
      Completes (.regWrite (BitVec.ofNat 22 ((bankBase b + 8) / 4)) v) s (fun t => AnswersReg t ∧
        (t.flt.banks.get b).ovf = ((s.flt.banks.get b).ovf && !bit v 0)) ∧
      Completes (.regWrite (BitVec.ofNat 22 ((bankBase b + 12) / 4)) v) s (fun t => AnswersReg t ∧
        (t.flt.banks.get b).vecEn = bit v 31 ∧ (t.flt.banks.get b).vec = v.extractLsb' 0 11) ∧
      Completes (.regWrite (BitVec.ofNat 22 ((bankBase b + 0x300 + 4 * (k / 32)) / 4)) v) s (fun t => AnswersReg t ∧
        ((s.flt.banks.get b).cls b k ≠ 3 → (k ∈ (t.flt.banks.get b).mask ↔ bit v (k % 32) = true)) ∧
        ∀ j, j / 32 ≠ k / 32 → (j ∈ (t.flt.banks.get b).mask ↔ j ∈ (s.flt.banks.get b).mask))) ∧
    (∀ (q : BitVec 14) (l : BitVec 30) (c : Instr), s.dev.up domHdma = true → l = v.extractLsb' 0 30 →
      (bits v 31 30 = 0 ∧ c = .tail q l 15 ∨ bits v 31 30 = 1 ∧ c = .scan q l 15 ∨ bits v 31 30 = 2 ∧ c = .invalidate q l 15 ∨
        bits v 31 30 = 3 ∧ c = .drain q l 15) →
      Completes (.regWrite (BitVec.ofNat 22 ((0x800000 + 8 * q.toNat) / 4)) v) s fun t => AnswersReg t ∧
        ∃ u, exec c s = .next u ∧ { t with dev.drive := [] } = { u with dev.drive := [] }) ∧
    ∀ woff : BitVec 22, s.regAt (4 * woff.toNat) = none → Completes (.regWrite woff v) s fun t =>
      AnswersReg t ∧ OnlyChanges [] s t

/-- A REG read in service answers the value of the register, 0 where no register lies, unless the offset is the _HI of a
pair whose _LO has been read: then it answers the value _HI had at that read. A read of _LO keeps _HI's value of that
moment. Clauses of it rest on readings and choices of the model: log entries 27, 68. (spec/ 00_scope,
18_register_reference, 02_boundary_ports) -/
def Obligations.RegisterReads : Prop :=
  (∀ (woff : BitVec 22) (zen : Bool) (s : State), InService s → s.dev.up domReg = true → s.regErr (4 * woff.toNat) = false →
    (∀ p ∈ s.dev.mgt.hiHeld, p.1 ≠ 4 * woff.toNat) → Completes (.regReadPairLo woff zen) s fun t =>
      .regRsp ((s.regAt (4 * woff.toNat)).getD 0) false ∈ t.dev.drive ∧
      (pairLo (4 * woff.toNat) = true → (4 * woff.toNat + 4, (s.regAt (4 * woff.toNat + 4)).getD 0) ∈ t.dev.mgt.hiHeld)) ∧
  ∀ (woff : BitVec 22) (zen : Bool) (v : Word32) (s : State), s.dev.up domReg = true → s.regErr (4 * woff.toNat) = false →
    pairLo (4 * woff.toNat) = false → s.dev.mgt.hiHeld.find? (fun p => p.1 = 4 * woff.toNat) = some (4 * woff.toNat, v) →
    Completes (.regReadPairLo woff zen) s fun t => .regRsp v false ∈ t.dev.drive ∧
      ∀ p ∈ t.dev.mgt.hiHeld, p.1 ≠ 4 * woff.toNat

/-- Before READY, out of the safe state, a REG access to an offset outside the MGT, MGT clocks and resets and MGT debug
and lifecycle blocks, FLT_SQ_STAT, FLT_SQ_TIME_LO/HI and FLT_DRILL answers REG_RSP_ERR with data 0, and a write
changes nothing; so does every row that writes a register of those blocks or rings a doorbell there. An access to one
of the offsets named, whose clock domains run, is served without error. (spec/ R453) -/
def Obligations.RegAccessBeforeReady : Prop :=
  ∀ (woff : BitVec 22) (zen : Bool) (v : Word32) (s : State), s.dev.up domReg = true → s.dev.mgt.ready = false → s.safe.active = false → ∀ a, a = 4 * woff.toNat →
    (¬(a < 0x20000 ∨ 0x1C0000 ≤ a ∧ a < 0x200000 ∨ 0x180000 ≤ a ∧ a ≤ 0x18000C) →
      (Completes (.regReadPairLo woff zen) s fun t => .regRsp 0 true ∈ t.dev.drive ∧ OnlyChanges [] s t) ∧
      Completes (.regWrite woff v) s fun t => .regRsp 0 true ∈ t.dev.drive ∧ OnlyChanges [] s t) ∧
    ((a < 0x20000 ∨ 0x1C0000 ≤ a ∧ a < 0x200000 ∨ 0x180000 ≤ a ∧ a ≤ 0x18000C) → (∀ k ∈ regDoms a, s.dev.up k = true) →
      (Completes (.regReadPairLo woff zen) s fun t => ∃ x, .regRsp x false ∈ t.dev.drive) ∧
      Completes (.regWrite woff v) s AnswersReg) ∧
    ∀ (q : BitVec 14) (g : GeomReg) (k : Fin 2) (b : Bool) (bank : Fin 14) (w : BitVec 6) (drbg : Option Bool), bank.val ≠ 13 → ∀ c ∈
      ([.fabPortEn v, .fabCntClr v, .stlClear v, .stlRejectClr v, .stlCntClr v, .stlGeomSeedWrite g k v, .rmpClear v,
        .rmpSetCfg k v, .lanKatRun v, .canCtrlEn v, .canPinCfg v, .canLfsrReseed v drbg, .canCntClr v, .frsMetaBaseWrite b v,
        .frsCntClr v, .perArm v, .perAnchorBaseWrite v, .perCntClr v, .keyDrbgReseed v, .keyEntEn v, .keyCntClr v, .enable q,
        .disable q, .adminReset q, .qmgVecLoad v, .medCntClr v, .svcCntClr v, .fltFirstHiClear bank, .fltForce bank w v,
        .fltClassWrite bank w v, .notificationClear bank w v] : List Instr),
      Completes c s fun t => .regRsp 0 true ∈ t.dev.drive ∧ OnlyChanges [] s t

/-- A REG read of an offset that no register occupies returns 0x0000_0000, and a write to it has no effect; neither raises
a fault: with nothing to be registered, every first-error record and SAFE stay as they were. (spec/ R10) -/
def Obligations.UnoccupiedOffsets : Prop :=
  ∀ (woff : BitVec 22) (zen : Bool) (v : Word32) (s : State), s.dev.up domReg = true → s.regAt (4 * woff.toNat) = none →
    (∀ p ∈ s.dev.mgt.hiHeld, p.1 ≠ 4 * woff.toNat) → s.flt.banks.wf = true →
    (Completes (.regReadPairLo woff zen) s fun t => (∃ err, .regRsp 0 err ∈ t.dev.drive) ∧ OnlyChanges [] s t ∧
      ((∀ b, Quiet b s) → t.dev.raised = [] ∧ t.safe = s.safe ∧ ∀ b, (t.flt.banks.get b).first = (s.flt.banks.get b).first)) ∧
    Completes (.regWrite woff v) s fun t => (∃ err, .regRsp 0 err ∈ t.dev.drive) ∧ OnlyChanges [] s t ∧
      ((∀ b, Quiet b s) → t.dev.raised = [] ∧ t.safe = s.safe ∧ ∀ b, (t.flt.banks.get b).first = (s.flt.banks.get b).first)

/-- In service with nothing to register, in each of the 14 banks (of FLT, which lies in SAFE, with the SAFE domain up), a
write of 1 to VALID clears the bank's first-error record and no other, and a write of 1 to FLT_LIVE clears the pending
bits of the notification sources it names. FLT_CLASS 11 escalates a CE or UC source to FT and its reset class undoes
it. A forced FT source with drills on is counted as a drill and does not enter the safe state; with drills off it
enters it with SAFE_CLASS 01, from FLT 10; a forced unmasked CE or UC source is latched as the first error. (spec/
15_faults) -/
def Obligations.FaultRegisterRows : Prop :=
  (∀ (b : Fin 14) (s : State), Canonical s.dev → BankServed b s → s.flt.banks.wf = true → Quiet b s →
    (Completes (.fltFirstHiClear b) s fun t => AnswersReg t ∧ (t.flt.banks.get b).first = none ∧
      ∀ n, n ≠ b.val → Quiet n s → (t.flt.banks.get n).first = (s.flt.banks.get n).first) ∧
    ∀ (w : BitVec 6) (v : Word32) (k : Nat), k ∈ namedBy b w.toNat v → baseClass b k = 0 → k ∉ s.dev.holding b →
      Completes (.notificationClear b w v) s fun t => k ∉ (t.flt.banks.get b).live) ∧
  (∀ (b : Fin 14) (w : BitVec 6) (v : Word32) (s : State) (k : Nat), Canonical s.dev → BankServed b s → s.flt.banks.wf = true →
    k / 16 = w.toNat → k < sources b → (baseClass b k = 1 ∨ baseClass b k = 2) → w.toNat < classWords b →
    Completes (.fltClassWrite b w v) s fun t =>
      (bits v (2 * (k % 16) + 1) (2 * (k % 16)) = 3 → (t.flt.banks.get b).cls b k = 3) ∧
      (bits v (2 * (k % 16) + 1) (2 * (k % 16)) = baseClass b k → (t.flt.banks.get b).cls b k = baseClass b k)) ∧
  ∀ (b : Fin 14) (w : BitVec 6) (v : Word32) (s : State) (k : Nat), Canonical s.dev → BankServed b s → (∀ n, Quiet n s) →
    namedBy b w.toNat v = [k] → k ∉ (s.flt.banks.get b).live →
    ((s.flt.banks.get b).cls b k = 3 → s.drillOn = true → Completes (.fltForce b w v) s fun t =>
      t.safe.active = false ∧ t.safe.drillCnt = min 255 (s.safe.drillCnt + 1)) ∧
    ((s.flt.banks.get b).cls b k = 3 → s.drillOn = false → Completes (.fltForce b w v) s fun t =>
      t.safe.active = true ∧ t.safe.cls = (if b.val = 11 then 2 else 1) ∧ t.safe.bank = b ∧ t.safe.src = k) ∧
    (k ∉ (s.flt.banks.get b).mask → (baseClass b k = 1 ∨ baseClass b k = 2) → (s.flt.banks.get b).first = none →
      Completes (.fltForce b w v) s fun t => ∃ r, (t.flt.banks.get b).first = some r ∧ r.src = k ∧ r.forced = true ∧
        r.time = BitVec.ofNat 48 s.dev.mgt.tref)

/-- A clear of the shadow set starts, one of the active set sets CFG_IGN; it ends with an empty set once no request of the
old generation is left. STL_REJECT_CLR empties the reject list. STL_GEOM, STL_SEED0 and STL_SEED1 are set while their
set is empty, nothing clears and no stream command targets it; RMP_SET_CFG sets the format, 1 or 2, of an empty shadow
set while nothing clears and no region command is running. Otherwise CFG_IGN is set. Clauses of it rest on readings
and choices of the model: log entry 109. (spec/ 05_stream_table, 06_region_map) -/
def Obligations.StreamTableRegisters : Prop :=
  (∀ (v : Word32) (s : State), Canonical s.dev → CoreServed s →
    (bit v s.dev.shadowSet = true → (Completes (.stlClear v) s fun t => AnswersReg t ∧ (t.dev.stlSet s.dev.shadowSet).clearing = true) ∧
      Completes (.rmpClear v) s fun t => AnswersReg t ∧ (t.dev.rmpSet s.dev.shadowSet).clearing = true) ∧
    (bit v s.dev.activeSet = true → (Completes (.stlClear v) s fun t => AnswersReg t ∧ t.dev.stl.cfgIgn = true) ∧
      Completes (.rmpClear v) s fun t => AnswersReg t ∧ t.dev.rmp.cfgIgn = true) ∧
    (bit v 0 = true → Completes (.stlRejectClr v) s fun t => AnswersReg t ∧ t.dev.stl = { s.dev.stl with reject := [] }) ∧
    (∀ k : Fin 2, (s.dev.stlSet k).tab = [] → s.dev.stl.setA.clearing = false → s.dev.stl.setB.clearing = false →
      s.dev.streamBusy k = false →
      (Completes (.stlGeomSeedWrite .geom k v) s fun t => AnswersReg t ∧ t.dev.stlSet k = { s.dev.stlSet k with size := v.extractLsb' 0 2 }) ∧
      (Completes (.stlGeomSeedWrite .seed0 k v) s fun t => AnswersReg t ∧ t.dev.stlSet k = { s.dev.stlSet k with seed0 := v }) ∧
      Completes (.stlGeomSeedWrite .seed1 k v) s fun t => AnswersReg t ∧ t.dev.stlSet k = { s.dev.stlSet k with seed1 := v }) ∧
    (∀ (g : GeomReg) (k : Fin 2), ((s.dev.stlSet k).tab ≠ [] ∨ s.dev.stl.setA.clearing = true ∨ s.dev.stl.setB.clearing = true ∨
      s.dev.streamBusy k = true) → Completes (.stlGeomSeedWrite g k v) s fun t =>
      AnswersReg t ∧ t.dev.stl = { s.dev.stl with cfgIgn := true }) ∧
    (∀ k : Fin 2, k.val = s.dev.shadowSet → (s.dev.rmpSet k).tab = [] → s.dev.rmp.setA.clearing = false →
      s.dev.rmp.setB.clearing = false → s.dev.regionBusy = false → (bits v 1 0 = 1 ∨ bits v 1 0 = 2) →
      Completes (.rmpSetCfg k v) s fun t => AnswersReg t ∧ t.dev.rmpSet k = { s.dev.rmpSet k with fmt := v.extractLsb' 0 2 }) ∧
    ∀ k : Fin 2, (k.val ≠ s.dev.shadowSet ∨ (s.dev.rmpSet k).tab ≠ [] ∨ bits v 1 0 = 0 ∨ bits v 1 0 = 3 ∨
      s.dev.rmp.setA.clearing = true ∨ s.dev.rmp.setB.clearing = true ∨ s.dev.regionBusy = true) →
      Completes (.rmpSetCfg k v) s fun t => AnswersReg t ∧ t.dev.rmp = { s.dev.rmp with cfgIgn := true }) ∧
  ∀ s : State, Canonical s.dev → InService s → s.dev.oldInFlight = 0 →
    ((s.dev.stlSet s.dev.shadowSet).clearing = true → s.dev.stl.cmds = [] → Completes .stlClearDone s fun t =>
      t.dev.stlSet s.dev.shadowSet = { s.dev.stlSet s.dev.shadowSet with tab := [], clearing := false }) ∧
    ((s.dev.rmpSet s.dev.shadowSet).clearing = true → s.dev.rmp.cmds = [] → Completes .rmpClearDone s fun t =>
      t.dev.rmpSet s.dev.shadowSet = { s.dev.rmpSet s.dev.shadowSet with tab := [], stale := [], clearing := false })

/-- FRS_META_BASE and FRS_ZONE_LIMIT change only with every zone OFFLINE and a placement that fits, while no MEASURE runs,
CAN_PIN_CFG only in bypass, PER_ANCHOR_BASE only while unarmed and idle; otherwise CFG_IGN is set. CAN_CTRL.EN at 0
with no valid line gives bypass, with dirty lines a drain that wants each of them written back, and 1 ends both.
FAB_PORT_EN takes its bits. LAN_KAT_RUN starts a set on each named lane that may run one. PER_ARM starts the arming,
or waits for the DRBG; armed or in a restore it sets CFG_IGN. Clauses of it rest on readings and choices of the model:
log entry 140. (spec/ 08_freshness_tree, 09_canopy_cache, 10_persistence, 04_request_path, 07_transcipher_lanes) -/
def Obligations.ConfigurationRegisters : Prop :=
  ∀ (v : Word32) (s : State), Canonical s.dev → CoreServed s →
    (s.dev.measuring = false → (∀ p ∈ s.dev.frs.zones, p.2.st = .offline) →
      (∀ z, z = bits v 13 0 → z ≤ 8192 → z * 2 ^ 33 ≤ s.dev.frs.metaBase → s.dev.frs.metaBase + z * 0x50000000 ≤ 2 ^ 47 →
        Completes (.frsMetaBaseWrite true v) s fun t => AnswersReg t ∧ t.dev.frs = { s.dev.frs with zoneLimit := z }) ∧
      ∀ b, b = bits v 14 0 * 2 ^ 32 + bits (s.dev.mgt.loHeld.get (0xA0000 / 4)) 31 30 * 2 ^ 30 → s.dev.frs.zoneLimit ≤ 8192 →
        s.dev.frs.zoneLimit * 2 ^ 33 ≤ b → b + s.dev.frs.zoneLimit * 0x50000000 ≤ 2 ^ 47 →
        Completes (.frsMetaBaseWrite false v) s fun t => AnswersReg t ∧ t.dev.frs = { s.dev.frs with metaBase := b }) ∧
    (∀ (limit : Bool) (b z : Nat), b = (if limit then s.dev.frs.metaBase else
        bits v 14 0 * 2 ^ 32 + bits (s.dev.mgt.loHeld.get (0xA0000 / 4)) 31 30 * 2 ^ 30) →
      z = (if limit then bits v 13 0 else s.dev.frs.zoneLimit) → (s.dev.measuring = true ∨ (∃ p ∈ s.dev.frs.zones, p.2.st ≠ .offline) ∨
        8192 < z ∨ b < z * 2 ^ 33 ∨ 2 ^ 47 < b + z * 0x50000000) → Completes (.frsMetaBaseWrite limit v) s fun t =>
      AnswersReg t ∧ t.dev.frs = { s.dev.frs with cfgIgn := true }) ∧
    (s.dev.can.en = false → s.dev.can.draining = false → Completes (.canPinCfg v) s fun t =>
      AnswersReg t ∧ t.dev.can.pinWays = min 8 (bits v 3 0)) ∧
    ((s.dev.can.en = true ∨ s.dev.can.draining = true) → Completes (.canPinCfg v) s fun t =>
      AnswersReg t ∧ t.dev.can = { s.dev.can with cfgIgn := true }) ∧
    (bit v 0 = false → s.dev.can.en = true → s.dev.can.maint = [] →
      (s.dev.can.lines = [] → Completes (.canCtrlEn v) s fun t => AnswersReg t ∧ t.dev.can.en = false ∧ t.dev.can.draining = false) ∧
      ((∃ k, k < staging ∧ (s.dev.can1 k).valid = true ∧ (s.dev.can1 k).dirty = true ∧ (s.dev.can1 k).stuck = false) →
        Completes (.canCtrlEn v) s fun t => AnswersReg t ∧ t.dev.can.en = false ∧ t.dev.can.draining = true ∧
          ∀ k, k < staging → (s.dev.can1 k).valid = true → (s.dev.can1 k).dirty = true → (s.dev.can1 k).stuck = false →
            (t.dev.can1 k).want = true)) ∧
    (bit v 0 = true → s.dev.can.en = false → s.dev.can.maint = [] → Completes (.canCtrlEn v) s fun t =>
      AnswersReg t ∧ t.dev.can.en = true ∧ t.dev.can.draining = false) ∧
    (s.dev.per.armed = false → s.dev.perPhase = 0 → Completes (.perAnchorBaseWrite v) s fun t => AnswersReg t ∧ t.dev.per.anchorBase =
      bits v 14 0 * 2 ^ 32 + bits (s.dev.mgt.loHeld.get (0x160008 / 4)) 31 22 * 2 ^ 22) ∧
    ((s.dev.per.armed = true ∨ s.dev.perPhase ≠ 0) → Completes (.perAnchorBaseWrite v) s fun t => AnswersReg t ∧ t.dev.per = { s.dev.per with cfgIgn := true }) ∧
    (s.dev.lifecycle ≠ 0 → Completes (.fabPortEn v) s fun t => AnswersReg t ∧ t.dev.fab.portEn = v.extractLsb' 0 8) ∧
    (Completes (.lanKatRun v) s fun t => AnswersReg t ∧ ∀ i, i < 36 → (s.dev.lane i).st.startable = true →
      (if i < 32 then bit (s.dev.mgt.loHeld.get 0x20004) i else bit v (i - 32)) = true → (t.dev.lane i).katRun = true) ∧
    (bit v 0 = true → s.dev.per.armed = false → s.dev.restoring = false →
      (s.dev.key.drbg.instantiated = false → Completes (.perArm v) s fun t => AnswersReg t ∧ t.dev.per = { s.dev.per with armHeld := true }) ∧
      (s.dev.key.drbg.instantiated = true → Completes (.perArm v) s fun t => AnswersReg t ∧ t.dev.per.arming = some 1024 ∧
        t.dev.per.epoch = 1 ∧ t.dev.per.openMap = [])) ∧
    (bit v 0 = true → (s.dev.per.armed = true ∨ s.dev.restoring = true) → Completes (.perArm v) s fun t => AnswersReg t ∧ t.dev.per = { s.dev.per with cfgIgn := true })

/-- Slots whose check bits show an uncorrectable error are empty first. A stream that the named set does not hold goes
into the first free slot of its two buckets with AGE 0; one it holds already answers EXISTS. With both buckets full,
the search of R132 moves each victim of its path to the slot of the next and the last to a free slot, and the stream
takes the slot of the first; where it finds none, a table of SIZE 0 or 1 evicts the oldest unlocked entry, and
otherwise the command answers TABLE_FULL and a stream of the active set goes on the reject list. STREAM_REMOVE clears
the slot of a stream, STREAM_QUERY delivers its 16 bytes and its index; for an unknown stream both answer NOT_FOUND.
An insert that waited for old requests is done when they are gone. Clauses of it rest on readings and choices of the
model: log entry 12. (spec/ 05_stream_table, 13_commands, 04_request_path) -/
def Obligations.StreamCommands : Prop :=
  (∀ (q : BitVec 14) (pos : BitVec 16) (chk : List (Nat × Chk)) (s : State) (x : Exec) (k : Nat) (sid kid : BitVec 16) (d : Dev), Canonical s.dev →
    x.discard = false → s.dev.rmp.swap = none → s.dev.stl.cmds = [] → s.dev.streamWaits x.entry = false →
    fragFlag x.entry = false → k = s.dev.setNamed (num x.entry 8 1) → sid = bv16 (num x.entry 12 2) →
    kid = bv16 (num x.entry 14 2) → d = s.dev.slotErrors k (fun _ => true) (elemChk chk 0) →
    (Runs q pos cStreamInsert noRules x s →
      (∀ i, d.findStream k sid kid = none →
        ((d.stlSet k).freeIn ((d.stlSet k).h0 sid kid) = some i ∨
          (d.stlSet k).freeIn ((d.stlSet k).h0 sid kid) = none ∧ (d.stlSet k).freeIn ((d.stlSet k).h1 sid kid) = some i) →
        Completes (.streamInsert q pos chk) s fun t => Answered q pos (Cpl.ok 0) t ∧ (t.dev.stlSet k).tab.get i =
          some ⟨decide (num x.entry 19 1 % 2 = 1), 0, BitVec.ofNat 8 (num x.entry 18 1), bv16 (num x.entry 16 2), kid, sid⟩) ∧
      (d.findStream k sid kid = none → (d.stlSet k).freeIn ((d.stlSet k).h0 sid kid) = none →
        (d.stlSet k).freeIn ((d.stlSet k).h1 sid kid) = none → ∀ new : SEntry,
        new = ⟨decide (num x.entry 19 1 % 2 = 1), 0, BitVec.ofNat 8 (num x.entry 18 1), bv16 (num x.entry 16 2), kid, sid⟩ →
        (∀ path dst, (d.stlSet k).search d.stl.relocLimit 0 ((d.stlSet k).h0 sid kid) [] = some (path, dst) →
          Completes (.streamInsert q pos chk) s fun t => Answered q pos (Cpl.ok 0) t ∧
            (∀ l, path.head? = some l → (t.dev.stlSet k).tab.get (4 * l.1 + l.2) = some new) ∧
            ∀ m l, path[m]? = some l → (t.dev.stlSet k).tab.get (match path[m + 1]? with | some u => 4 * u.1 + u.2 | none => dst) =
              (d.stlSet k).tab.get (4 * l.1 + l.2)) ∧
        ((d.stlSet k).search d.stl.relocLimit 0 ((d.stlSet k).h0 sid kid) [] = none →
          (∀ i v, (d.stlSet k).size.toNat < 2 → (d.stlSet k).oldestUnlocked sid kid = some (i, v) →
            Completes (.streamInsert q pos chk) s fun t => Answered q pos (Cpl.okx (v.sid ++ v.kid) 1) t ∧
              (t.dev.stlSet k).tab.get i = some new ∧ t.dev.stl.evictCnt = min 0xFFFFFFFF (s.dev.stl.evictCnt + 1)) ∧
          ((2 ≤ (d.stlSet k).size.toNat ∨ (d.stlSet k).oldestUnlocked sid kid = none) →
            Completes (.streamInsert q pos chk) s fun t => Answered q pos .tableFull t ∧ t.dev.stlSet k = d.stlSet k ∧
              (k = s.dev.activeSet → (sid, kid) ∈ t.dev.stl.reject)))) ∧
      ((d.findStream k sid kid).isSome = true → Completes (.streamInsert q pos chk) s fun t =>
        Answered q pos .exists t ∧ t.dev.stl = d.stl)) ∧
    (Runs q pos cStreamRemove noRules x s →
      (∀ i e, d.findStream k sid kid = some (i, e) → Completes (.streamRemove q pos chk) s fun t =>
        Answered q pos (Cpl.ok 0) t ∧ (t.dev.stlSet k).tab.get i = none) ∧
      (d.findStream k sid kid = none → Completes (.streamRemove q pos chk) s (Answered q pos .notFound))) ∧
    (Runs q pos cStreamQuery noRules x s →
      (∀ i e, d.findStream k sid kid = some (i, e) → e.bytes.length = 16 ∧ Completes (.streamQuery q pos chk) s
        (Delivered q pos (Cpl.ok (BitVec.ofNat 32 i)) (num x.entry 16 8) e.bytes)) ∧
      (d.findStream k sid kid = none → Completes (.streamQuery q pos chk) s (Answered q pos .notFound)))) ∧
  ∀ (q : BitVec 14) (pos : BitVec 16) (s : State) (x : Exec) (k i : Nat) (sid kid : BitVec 16), Canonical s.dev → InService s →
    s.dev.oldInFlight = 0 → s.dev.stl.cmds = [(q.toNat, pos, [])] → s.dev.exec1 q.toNat pos = some x → x.st = .running →
    x.discard = false → opcode x.entry = cStreamInsert → fragFlag x.entry = false →
    (s.dev.stlSet s.dev.shadowSet).clearing = false → s.dev.rmp.cmds = [] → k = s.dev.setNamed (num x.entry 8 1) →
    sid = bv16 (num x.entry 12 2) → kid = bv16 (num x.entry 14 2) →
    s.dev.findStream k sid kid = none → (s.dev.stlSet k).freeIn ((s.dev.stlSet k).h0 sid kid) = some i →
    Completes .shadowRelease s fun t => Answered q pos (Cpl.ok 0) t ∧ t.dev.stl.cmds = [] ∧
      ((t.dev.stlSet k).tab.get i).isSome = true

/-- REGION_WRITE of an entry that keeps the rules of its format writes the shadow entry; with VALID 0 it leaves the index
invalid with the bits supplied. An overlap answers INVALID_FIELD at 16 with the index of the other, any other rule its
own offset. REGION_READ delivers an entry and its rekey part. SWAP_CONFIG waits, and a region command that arrives
meanwhile waits for it; the swap cycle advances the generation, empties the reject list and releases every parked
request, or answers BUSY when a rekeyed index has other bounds in the shadow set. Clauses of it rest on readings and
choices of the model: log entries 12, 109. (spec/ 06_region_map, 13_commands) -/
def Obligations.RegionCommands : Prop :=
  (∀ (q : BitVec 14) (pos : BitVec 16) (s : State) (x : Exec), Canonical s.dev → s.dev.rmp.swap = none → s.dev.rmp.cmds = [] →
    (∀ (i v : Nat) (r : RmpSet), Ready q pos cRegionWrite x s → fragFlag x.entry = false → s.dev.regionWaits x.entry = false →
      i = num x.entry 8 2 → v = num x.entry 16 16 → r = s.dev.rmpSet s.dev.shadowSet →
      (operandBad x.entry (s.dev.regionRules i v 16) = none →
        (entryValid r.fmt.toNat v = true → Completes (.regionWrite q pos) s fun t =>
          Answered q pos (Cpl.ok 0) t ∧ (t.dev.rmpSet s.dev.shadowSet).tab.get i = some (entryCfg r.fmt.toNat v)) ∧
        (entryValid r.fmt.toNat v = false → Completes (.regionWrite q pos) s fun t => Answered q pos (Cpl.ok 0) t ∧
          (t.dev.rmpSet s.dev.shadowSet).tab.get i = none ∧
          (t.dev.rmpSet s.dev.shadowSet).bits i = if r.fmt = 1 then v % 2 ^ 98 else v)) ∧
      ∀ b, operandBad x.entry (s.dev.regionRules i v 16) = some b →
        (∀ j, b = 16 → entryValid r.fmt.toNat v = true → r.overlapped i v = some j → Completes (.regionWrite q pos) s fun t =>
          Answered q pos { Cpl.invalid 0 16 with result := BitVec.ofNat 32 j } t ∧ t.dev.rmp = { s.dev.rmp with cmds := [] }) ∧
        (b ≠ 16 → Completes (.regionWrite q pos) s fun t =>
          Answered q pos (Cpl.invalid 0 b) t ∧ t.dev.rmp = { s.dev.rmp with cmds := [] })) ∧
    (∀ (k i : Nat) (r : RmpSet), Runs q pos cRegionRead noRules x s → s.dev.regionWaits x.entry = false →
      k = s.dev.setNamed (num x.entry 8 1) → i = num x.entry 10 2 → r = s.dev.rmpSet k → Completes (.regionRead q pos) s
        (Delivered q pos (Cpl.okx (BitVec.ofNat 32 r.fmt.toNat) (BitVec.ofNat 8 (flag (r.tab.get i).isSome))) (num x.entry 16 8)
          (r.shown i ++ rekeyBytes (s.dev.rekey i)))) ∧
    (Runs q pos cSwapConfig noRules x s → Completes (.swapConfig q pos) s fun t => t.dev.rmp = { s.dev.rmp with swap := some (q.toNat, pos) })) ∧
  (∀ (q : BitVec 14) (pos : BitVec 16) (s : State) (x : Exec), Canonical s.dev → s.dev.rmp.swap.isSome = true → s.dev.rmp.cmds = [] →
    Runs q pos cRegionRead noRules x s → Completes (.regionRead q pos) s fun t =>
      t.dev.rmp = { s.dev.rmp with held := s.dev.rmp.held ++ [(q.toNat, pos)] }) ∧
  ∀ (q : BitVec 14) (pos : BitVec 16) (s : State) (x : Exec), Canonical s.dev → InService s → s.dev.rmp.swap = some (q.toNat, pos) → s.dev.stl.held = [] → s.dev.rmp.held = [] →
    s.dev.exec1 q.toNat pos = some x → x.discard = false → s.dev.swapReady = true → s.dev.ckptHold = false →
    (s.dev.rekeysMatch = true → Completes .swapCycle s fun t => Answered q pos (Cpl.ok (s.dev.rmp.gen + 1)) t ∧
      t.dev.rmp.gen = s.dev.rmp.gen + 1 ∧ t.dev.rmp.swap = none ∧ t.dev.stl.reject = [] ∧
      ∀ a ∈ t.dev.fab.accs, a.stage = .parked → a.released = true) ∧
    (s.dev.rekeysMatch = false → Completes .swapCycle s fun t => Answered q pos .busy t ∧
      t.dev.rmp = { s.dev.rmp with swap := none })

/-- An element of a batch does what the single command does: an element of REGION_WRITE writes or invalidates its index of
the shadow set, or is refused at 0 for an index above 4,095 and at 16, with the other index, for an overlap; one of
KEY_INSTALL loads its EMPTY slot from its blob or does not unwrap; one of STREAM_INSERT takes a free slot of its two
buckets with AGE 0, or answers EXISTS; one of STREAM_REMOVE clears its slot, or answers NOT_FOUND. The elements of a
batch of 1 to 65,536 take effect one after the other, each on what the one before it left. The batch stops at the
first element that does not succeed: its status is the status of the batch and its index the RESULT, and the elements
before it stand. A batch whose elements all succeed answers their number. Clauses of it rest on readings and choices
of the model: log entries 11, 14. (spec/ 13_commands, 05_stream_table, 06_region_map, 11_key_services) -/
def Obligations.BatchesRunInOrder : Prop :=
  (∀ (b : Bytes) (d : Dev), Canonical d →
    (∀ (i v : Nat) (r : RmpSet), i = field b 0 2 → v = field b 16 16 → r = d.rmpSet d.shadowSet →
      (4096 ≤ i → regionElem b d = (d, Cpl.invalid 6 0)) ∧
      (i < 4096 → (∀ k, k < 14 → field b (2 + k) 1 = 0) →
        ((∀ p ∈ d.regionRules i v 16, p.2 = true) → (regionElem b d).2 = Cpl.ok 0 ∧
          (entryValid r.fmt.toNat v = true →
            ((regionElem b d).1.rmpSet d.shadowSet).tab.get i = some (entryCfg r.fmt.toNat v)) ∧
          (entryValid r.fmt.toNat v = false → ((regionElem b d).1.rmpSet d.shadowSet).tab.get i = none ∧
            ((regionElem b d).1.rmpSet d.shadowSet).bits i = if r.fmt = 1 then v % 2 ^ 98 else v)) ∧
        ∀ j, entryValid r.fmt.toNat v = true → r.overlapped i v = some j →
          regionElem b d = (d, { Cpl.invalid 6 16 with result := BitVec.ofNat 32 j }))) ∧
    (∀ (i : Nat) (k : Kek), i = field b 0 2 → field b 2 1 < 16 → (∀ j, j < 13 → field b (3 + j) 1 = 0) →
      k = d.key.keks.get (field b 2 1) → k.loaded = true → k.transport = false → (d.key.slots.get i).st = .empty →
      (∀ pt, unwrapBlob k.key 1 68 (slice b 16 80) = .ok pt → field pt 3 1 = 0 →
        (keyElem b d).2 = Cpl.ok (kcv (bytesKey (slice pt 4 32)) ^^^ kcv (bytesKey (slice pt 36 32))) ∧
        (keyElem b d).1.key.slots.get i = ⟨.loaded, bytesKey (slice pt 4 32), bytesKey (slice pt 36 32), pt.getD 2 0⟩) ∧
      (keyUnwrap k.key (slice b 16 80) = none → (keyElem b d).2 = .unwrapFailed)) ∧
    ∀ (k : Nat) (sid kid : BitVec 16), sid = bv16 (field b 0 2) → kid = bv16 (field b 2 2) →
      (field b 6 1 ≠ 0 → field b 7 1 < 2 → (∀ j, j < 8 → field b (8 + j) 1 = 0) →
        (∀ i, d.findStream k sid kid = none → ((d.stlSet k).freeIn ((d.stlSet k).h0 sid kid) = some i ∨
            (d.stlSet k).freeIn ((d.stlSet k).h0 sid kid) = none ∧ (d.stlSet k).freeIn ((d.stlSet k).h1 sid kid) = some i) →
          (insertElem k b d).2 = Cpl.ok 0 ∧ ((insertElem k b d).1.stlSet k).tab.get i =
            some ⟨decide (field b 7 1 = 1), 0, BitVec.ofNat 8 (field b 6 1), bv16 (field b 4 2), kid, sid⟩) ∧
        ((d.findStream k sid kid).isSome = true → insertElem k b d = (d, .exists))) ∧
      ((∀ j, j < 12 → field b (4 + j) 1 = 0) →
        (∀ i e, d.findStream k sid kid = some (i, e) → (removeElem k b d).2 = Cpl.ok 0 ∧
          ((removeElem k b d).1.stlSet k).tab.get i = none) ∧
        (d.findStream k sid kid = none → removeElem k b d = (d, .notFound)))) ∧
  (∀ (q : BitVec 14) (pos : BitVec 16) (s : State) (x : Exec) (m n : Nat) (d : Dev), Canonical s.dev → Runs q pos cRegionWrite noRules x s →
    fragFlag x.entry = true → s.dev.rmp.swap = none → s.dev.rmp.cmds = [] → s.dev.regionWaits x.entry = false →
    x.buf.length = 32 * m → 1 ≤ m → m ≤ 65536 → n ≤ m →
    BatchReaches (fun _ => regionElem) 32 x.buf (s.dev.atRmp q.toNat pos) n d →
    (n = m → Completes (.regionWrite q pos) s fun t => Answered q pos (Cpl.ok (BitVec.ofNat 32 m)) t ∧
      t.dev.rmp = { d.rmp with cmds := [] }) ∧
    ∀ r, n < m → regionElem (slice x.buf (32 * n) 32) d = r → r.2.status ≠ 0 → Completes (.regionWrite q pos) s fun t =>
      Answered q pos { r.2 with result := BitVec.ofNat 32 n } t ∧ t.dev.rmp = { r.1.rmp with cmds := [] }) ∧
  (∀ (q : BitVec 14) (pos : BitVec 16) (key : Option (KeyRef × Bool)) (s : State) (x : Exec) (m n : Nat) (d : Dev), Canonical s.dev →
    Runs q pos cKeyInstall noRules x s → fragFlag x.entry = true →
    (s.dev.keyArrives q.toNat pos).key.cmds.head? = some (q.toNat, pos) → (∀ r, key ≠ some (r, true)) →
    x.buf.length = 96 * m → 1 ≤ m → m ≤ 65536 → n ≤ m →
    BatchReaches (fun _ => keyElem) 96 x.buf ((s.dev.keyArrives q.toNat pos).keyError key) n d →
    (n = m → Completes (.keyInstall q pos key) s fun t => Answered q pos (Cpl.ok (BitVec.ofNat 32 m)) t ∧
      t.dev.key.slots = d.key.slots) ∧
    ∀ r, n < m → keyElem (slice x.buf (96 * n) 96) d = r → r.2.status ≠ 0 → Completes (.keyInstall q pos key) s fun t =>
      Answered q pos { r.2 with result := BitVec.ofNat 32 n } t ∧ t.dev.key.slots = r.1.key.slots) ∧
  ∀ (q : BitVec 14) (pos : BitVec 16) (chk : List (Nat × Chk)) (s : State) (x : Exec) (ins : Bool) (c : Instr) (k m n : Nat)
    (f : Nat → Bytes → Dev → Dev × Cpl) (d : Dev), Canonical s.dev → Runs q pos (if ins then cStreamInsert else cStreamRemove) noRules x s →
    c = (if ins then .streamInsert q pos chk else .streamRemove q pos chk) → k = s.dev.setNamed (num x.entry 8 1) →
    f = (fun i b e => (if ins then insertElem k else removeElem k) b (e.slotErrors k (fun _ => true) (elemChk chk i))) →
    fragFlag x.entry = true → s.dev.rmp.swap = none → s.dev.stl.cmds = [] → s.dev.streamWaits x.entry = false →
    x.buf.length = 16 * m → 1 ≤ m → m ≤ 65536 → n ≤ m →
    BatchReaches f 16 x.buf { s.dev.running q.toNat pos with stl.cmds := [(q.toNat, pos, chk)] } n d →
    (n = m → Completes c s fun t => Answered q pos (Cpl.ok (BitVec.ofNat 32 m)) t ∧ t.dev.stl = { d.stl with cmds := [] }) ∧
    ∀ r, n < m → f n (slice x.buf (16 * n) 16) d = r → r.2.status ≠ 0 → Completes c s fun t =>
      Answered q pos { r.2 with result := BitVec.ofNat 32 n } t ∧ t.dev.stl = { r.1.stl with cmds := [] }

/-- With its KEK loaded and not a transport KEK and its target EMPTY, a blob that unwraps loads the target and the key
check value is answered; one that does not unwrap answers UNWRAP_FAILED and is counted. KEY_GENERATE delivers a blob
around the bytes it draws. KEK_LOAD in DERIVE mode derives a KEK from the root seed and its context.
SESSION_KEY_INSTALL of a key that no window names also ends the FAILED state of its direction. Each runs when the key
commands that arrived before it have ended; a corrected error of a key changes nothing of it, and a KEK lost to an
uncorrectable one answers NOT_FOUND and is EMPTY. MEASURE writes the measurement of the items its mask selects, with
its nonce, and then completes. Clauses of it rest on readings and choices of the model: log entries 5, 12, 39, 95,
123. (spec/ 11_key_services, 13_commands) -/
def Obligations.KeyInstallation : Prop :=
  (∀ (q : BitVec 14) (pos : BitVec 16) (key : Option (KeyRef × Bool)) (s : State) (x : Exec), Canonical s.dev →
    (s.dev.keyArrives q.toNat pos).key.cmds.head? = some (q.toNat, pos) → (∀ r, key ≠ some (r, true)) →
    (∀ (k : Kek) (i : Nat), Runs q pos cKeyInstall noRules x s → fragFlag x.entry = false → i = num x.entry 8 2 →
      k = s.dev.key.keks.get (num x.entry 10 1) → k.loaded = true → k.transport = false → (s.dev.key.slots.get i).st = .empty →
      (∀ pt, unwrapBlob k.key 1 68 (slice x.buf 0 80) = .ok pt → field pt 3 1 = 0 → Completes (.keyInstall q pos key) s fun t =>
        t.dev.key.slots.get i = ⟨.loaded, bytesKey (slice pt 4 32), bytesKey (slice pt 36 32), pt.getD 2 0⟩ ∧
        Answered q pos (Cpl.ok (kcv (bytesKey (slice pt 4 32)) ^^^ kcv (bytesKey (slice pt 36 32)))) t) ∧
      (keyUnwrap k.key (slice x.buf 0 80) = none → Completes (.keyInstall q pos key) s fun t => Answered q pos .unwrapFailed t ∧
        t.dev.key = { (s.dev.keyArrives q.toNat pos).key with unwrapCnt := min 0xFFFFFFFF (s.dev.key.unwrapCnt + 1) })) ∧
    (∀ j : BitVec 4, Runs q pos cKeyInstall noRules x s → fragFlag x.entry = false → j.toNat = num x.entry 10 1 → s.dev.svc.cmds = [] →
      Completes (.keyInstall q pos (some (.kek j, true))) s fun t => Answered q pos .notFound t ∧
        (t.dev.key.keks.get j.toNat).loaded = false) ∧
    (∀ (k : Kek) (b : Bytes), Runs q pos cKeyGenerate noRules x s → k = s.dev.key.keks.get (num x.entry 10 1) → k.loaded = true →
      k.transport = false → (s.dev.key.slots.get (num x.entry 8 2)).st = .empty → Draws s → b = drawn s 64 →
      Completes (.keyGenerate q pos key) s (Delivered q pos
        (Cpl.ok (kcv (bytesKey (b.take 32)) ^^^ kcv (bytesKey (b.drop 32)))) (num x.entry 16 8)
        (keyWrap k.key ([1#8, 1#8, BitVec.ofNat 8 (num x.entry 11 1), 0#8] ++ b)))) ∧
    (∀ (j : Nat) (k : BitVec 256), Runs q pos cKekLoad noRules x s → num x.entry 9 1 = 0 → j = num x.entry 8 1 →
      (s.dev.key.keks.get j).loaded = false →
      k = bytesKey (s.dev.derive "DN512 KEK" (leBytes 32 (num x.entry 12 32) ++ [BitVec.ofNat 8 (num x.entry 10 1)]) 32) →
      Completes (.kekLoadDerive q pos) s fun t => Answered q pos (Cpl.ok (kcv k)) t ∧ t.dev.key.keks.get j =
        ⟨true, k, decide (num x.entry 10 1 = 1), false, leBytes 32 (num x.entry 12 32)⟩) ∧
    (∀ (j : Nat) (k : Kek) (pt : Bytes), Runs q pos cKekLoad noRules x s → num x.entry 9 1 = 1 → j = num x.entry 8 1 →
      (s.dev.key.keks.get j).loaded = false → k = s.dev.key.keks.get (num x.entry 11 1) → k.loaded = true → k.transport = false →
      unwrapBlob k.key 3 36 (slice x.buf 0 48) = .ok pt → field pt 2 1 ≤ 1 → field pt 3 1 = 0 →
      Completes (.kekLoadUnwrap q pos key) s fun t => Answered q pos (Cpl.ok (kcv (bytesKey (slice pt 4 32)))) t ∧
        t.dev.key.keks.get j = ⟨true, bytesKey (slice pt 4 32), decide (field pt 2 1 = 1), true, List.replicate 32 0⟩) ∧
    ∀ (g dir r : Nat) (k : Kek) (pt : Bytes), Runs q pos cSessionKey noRules x s → g = num x.entry 8 2 → dir = num x.entry 10 1 →
      r = num x.entry 11 1 → k = s.dev.key.keks.get (num x.entry 12 1) → k.loaded = true → k.transport = false →
      s.dev.regNamed g dir r = false → unwrapBlob k.key 2 36 (slice x.buf 0 48) = .ok pt → field pt 2 1 = g → field pt 3 1 = dir →
      
      Completes (.sessionKeyInstall q pos key) s fun t => Answered q pos (Cpl.ok (kcv (bytesKey (slice pt 4 32)))) t ∧
        t.dev.sessKey g dir r = some (bytesKey (slice pt 4 32)) ∧ (dir = 0 → (t.dev.session g).rxFailed = false) ∧
        (dir = 1 → (t.dev.session g).txFailed = false)) ∧
  (∀ (q : BitVec 14) (pos : BitVec 16) (key : Option (KeyRef × Bool)) (zenith : Bool) (s : State) (x : Exec), Canonical s.dev →
    Runs q pos cMeasure noRules x s →
    (s.dev.keyArrives q.toNat pos).key.cmds.head? = some (q.toNat, pos) → (∀ r, key ≠ some (r, true)) →
    s.dev.rmp.swap = none → s.dev.stl.cmds = [] → s.dev.rmp.cmds = [] → s.dev.rmp.held = [] → s.dev.restoreRuns = false →
    Completes (.measure q pos key zenith) s
      (Delivered q pos (Cpl.ok 0) (num x.entry 40 8 / 64 * 64)
        (s.dev.measurement (leBytes 32 (num x.entry 8 32)) (num x.entry 40 8 % 64))))

/-- KEY_DESTROY of a LOADED KSLOT that nothing keeps turns it DRAINING; once its users are gone it is overwritten, in the
lanes too; with the confirmation of the lanes it is EMPTY and the command succeeds. A confirmation that does not come
raises KEY_ZEROISE, which enters the safe state. Clauses of it rest on readings and choices of the model: log entries
22, 36. (spec/ 11_key_services, 15_faults) -/
def Obligations.KeyDestruction : Prop :=
  (∀ (q : BitVec 14) (pos : BitVec 16) (s : State) (x : Exec) (i : Nat), Canonical s.dev → Runs q pos cKeyDestroy noRules x s →
    (s.dev.keyArrives q.toNat pos).key.cmds.head? = some (q.toNat, pos) → num x.entry 8 1 = 0 → i = num x.entry 10 2 → s.dev.destroyBad x.entry = none →
    (s.dev.key.slots.get i).st = .loaded → Completes (.keyDestroy q pos) s fun t =>
      t.dev.key.slots.get i = { s.dev.key.slots.get i with st := .draining } ∧
      (⟨q.toNat, pos.toNat, .slot i, false⟩ : Destroy) ∈ t.dev.key.destroys) ∧
  (∀ (q : BitVec 14) (pos : BitVec 16) (s : State) (i : Nat), Canonical s.dev → InService s →
    s.dev.destroy1 q.toNat pos.toNat = some ⟨q.toNat, pos.toNat, .slot i, false⟩ → s.dev.slotUsed (BitVec.ofNat 16 i) = false →
    Completes (.keyDrained q pos) s fun t => t.dev.key.slots.get i = { (default : Kslot) with st := .draining } ∧
      t.dev.destroy1 q.toNat pos.toNat = some ⟨q.toNat, pos.toNat, .slot i, true⟩ ∧
      ∀ l, l < 36 → ∀ p ∈ (t.dev.lane l).slots, p.1 ≠ i) ∧
  (∀ (q : BitVec 14) (pos : BitVec 16) (s : State) (x : Exec) (i : Nat), Canonical s.dev → InService s → 
    s.dev.destroy1 q.toNat pos.toNat = some ⟨q.toNat, pos.toNat, .slot i, true⟩ → s.dev.exec1 q.toNat pos = some x →
    x.discard = false → Completes (.zeroisationConfirm q pos) s fun t => Answered q pos (Cpl.ok 0) t ∧
      t.dev.key.slots.get i = default ∧ t.dev.destroy1 q.toNat pos.toNat = none) ∧
  ∀ (q : BitVec 14) (pos : BitVec 16) (s : State) (y : Destroy), Canonical s.dev → InService s → s.dev.up domCore = true →
    s.dev.destroy1 q.toNat pos.toNat = some y → y.sent = true → 14 ∉ (s.flt.banks.get bKey).live →
    Completes (.keyZeroiseTimeout q pos) s fun t => t.safe.active = true

/-- A source whose 1,024 start-up samples pass both tests turns OK; one that fails a test, then or later, turns FAILED and
is counted under that test. The DRBG is instantiated when its sources deliver samples that pass, and a reseed makes it
READY again with nothing served. KEY_DRBG_RESEED makes a reseed due; KEY_ENT_EN turns sources off or restarts them;
CAN_LFSR_RESEED loads the 32 LFSRs with the bytes drawn. Clauses of it rest on readings and choices of the model: log
entries 5, 40, 41, 44, 97, 123. (spec/ 11_key_services, 09_canopy_cache) -/
def Obligations.RandomBits : Prop :=
  (∀ (n : Fin 8) (samples : Bytes) (l : List Bool) (s : State), Canonical s.dev → s.safe.active = false → s.dev.up (domEnt n) = true →
    s.dev.up domCore = true → l = sampleBits samples →
    ((s.dev.ent n).st = .startup → samples.length = 128 →
      (rctFails l = false → aptFails l = false → Completes (.entropyStartupDone n samples) s fun t =>
        t.dev.ent n = { s.dev.ent n with st := .ok }) ∧
      ((rctFails l || aptFails l) = true → Completes (.entropyStartupDone n samples) s fun t =>
        t.dev.ent n = { s.dev.ent n with st := .failed, rct := min 255 ((s.dev.ent n).rct + flag (rctFails l)),
                                         apt := min 255 ((s.dev.ent n).apt + flag (aptFails l)) })) ∧
    ((s.dev.ent n).st = .ok → (rctFails l || aptFails l) = true → Completes (.entropyHealthFail n samples) s fun t =>
      (t.dev.ent n).st = .failed ∧ (4 + n.val) ∈ (t.flt.banks.get bKey).live ∧
      (rctFails l = true → (t.dev.ent n).rct = min 255 ((s.dev.ent n).rct + 1)) ∧
      (rctFails l = false → (t.dev.ent n).apt = min 255 ((s.dev.ent n).apt + 1)))) ∧
  (∀ (samples : Bytes) (lfsr : List Word32) (s : State), Canonical s.dev → s.safe.active = false → s.dev.up domCore = true →
    s.dev.key.drbg.st = .instantiating → s.dev.sourceOk = true → (s.dev.collected samples).2 = true → s.dev.key.lfsrWait = false → s.dev.per.armHeld = false →
    s.dev.per.restore = none → Completes (.drbgInstantiate samples lfsr) s fun t => t.dev.key.drbg.st = .ready ∧
      t.dev.key.drbg.instantiated = true ∧ (∀ k, k < 32 → t.dev.can.lfsr.get k ≠ 0) ∧
      (s.dev.mgt.phase = .drbg → ∀ i, i < 36 → lfsr.getD i 0 ≠ 0 → (t.dev.lane i).lfsr = lfsr.getD i 0)) ∧
  (∀ (samples : Bytes) (drbg : Option Bool) (s : State), Canonical s.dev → InService s → s.dev.sourceOk = true → s.dev.key.drbg.instantiated = true →
    (s.dev.collected samples).2 = true → s.dev.key.lfsrWait = false → (s.dev.key.drbg.st = .ready ∧ s.dev.reseedDue = true ∨ s.dev.key.drbg.st = .error) →
    Completes (.drbgReseedDone samples drbg) s fun t => t.dev.key.drbg.st = .ready ∧ t.dev.key.drbg.served = 0 ∧
      t.dev.key.reseedNow = false ∧ t.dev.key.reseedCnt = min 0xFFFFFFFF (s.dev.key.reseedCnt + 1) ∧
      (t.dev.key.drbg.key, t.dev.key.drbg.v) = drbgUpdate s.dev.key.drbg.key s.dev.key.drbg.v (drbgDf samples)) ∧
  ∀ (v : Word32) (drbg : Option Bool) (s : State), Canonical s.dev → CoreServed s →
    (bit v 0 = true → (Completes (.keyDrbgReseed v) s fun t => AnswersReg t ∧ t.dev.key.reseedNow = true) ∧
      (Draws s → Completes (.canLfsrReseed v drbg) s fun t => AnswersReg t ∧
        ∀ k, k < 32 → t.dev.can.lfsr.get k = seedWord (drawn s 128) k)) ∧
    (Completes (.keyEntEn v) s fun t => AnswersReg t ∧ t.dev.key.entEn = v.extractLsb' 0 8 ∧ ∀ n, n < 8 →
      (bit v n = false → (t.dev.ent n).st = .off) ∧
      (bit v n = true → s.dev.key.entEn.getLsbD n = false → s.dev.up (domEnt n) = true → (t.dev.ent n).st = .startup))

/-- REKEY_START of a valid active entry whose rekey part is IDLE, with NEW_KSLOT LOADED, makes the part ACTIVE with FRONT
at the base of the region and full credit. REKEY_ABORT of an ACTIVE part sets it IDLE and answers its FRONT, and ends
a service command on the region CANCELLED. Clauses of it rest on readings and choices of the model: log entries 12,
98. (spec/ 13_commands, 14_background_services, 06_region_map) -/
def Obligations.RekeyCommands : Prop :=
  (∀ (q : BitVec 14) (pos : BitVec 16) (s : State) (x : Exec) (i : Nat), Canonical s.dev → Runs q pos cRekeyStart noRules x s →
    s.dev.ckptHold = false → s.dev.measuring = false → i = num x.entry 8 2 →
    (∀ r : RegionCfg, (s.dev.rmpSet s.dev.activeSet).tab.get i = some r → s.dev.slotLoaded (bv16 (num x.entry 12 2)) = true →
      ((s.dev.rekey i).st = .idle → (r.striped = false ∨ s.dev.svc.retire.length < 16) → Completes (.rekeyStart q pos) s fun t =>
        Answered q pos (Cpl.ok 0) t ∧
        t.dev.rekey i = ⟨.active, bv16 (num x.entry 10 2), bv16 (num x.entry 12 2), r.base * 512⟩ ∧
        t.dev.svc.fronts.get i = ⟨num x.entry 14 1, 64000, false⟩) ∧
      ((s.dev.rekey i).st ≠ .idle → Completes (.rekeyStart q pos) s (Answered q pos (Cpl.invalid 4 0)))) ∧
    ((s.dev.rmpSet s.dev.activeSet).tab.get i = none → Completes (.rekeyStart q pos) s (Answered q pos .notFound))) ∧
  ∀ (q : BitVec 14) (pos : BitVec 16) (s : State) (x : Exec) (i : Nat) (r : RegionCfg), Canonical s.dev → Runs q pos cRekeyAbort noRules x s →
    s.dev.ckptHold = false → s.dev.measuring = false → i = num x.entry 8 2 →
    (s.dev.svc.fronts.get i).busy = false → (s.dev.rmpSet s.dev.activeSet).tab.get i = some r → (s.dev.rekey i).st = .active →
    ((∀ c ∈ s.dev.svc.cmds, c.base + c.units ≤ r.lo ∨ r.hi ≤ c.base) → Completes (.rekeyAbort q pos) s fun t =>
      Answered q pos (Cpl.ok (BitVec.ofNat 32 (s.dev.rekey i).front)) t ∧ t.dev.rekey i = default) ∧
    ∀ (q2 : BitVec 14) (pos2 : BitVec 16) (c : SCmd) (y : Exec), s.dev.svc.cmds = [c] → c.q = q2.toNat → c.pos = pos2.toNat →
      (q2 ≠ q ∨ pos2 ≠ pos) → c.base < r.hi → r.lo < c.base + c.units → c.ending = none → s.dev.cmdWhole c = [] →
      (∀ st ∈ s.dev.svc.steps, st.who ≠ .cmd c.q c.pos) → s.dev.exec1 q2.toNat pos2 = some y → y.discard = false →
      Completes (.rekeyAbort q pos) s (Answered q2 pos2 (c.report (Cpl.aborted 4)))

/-- A service command whose operands and conditions are in order is accepted with its range and runs at once while fewer
than 4 run; SEAL draws its SALT, UNSEAL needs the DRBG. One whose conditions are not in order ends with the first
status of its table. A waiting command starts once fewer than 4 run; a SEAL or UNSEAL whose KEK slot is EMPTY by then,
or holds no transport KEK any more, ends with NOT_FOUND or INVALID_FIELD. Clauses of it rest on readings and choices
of the model: log entries 5, 12, 41. (spec/ 13_commands, 14_background_services) -/
def Obligations.ServiceCommands : Prop :=
  (∀ (q : BitVec 14) (pos : BitVec 16) (op : Nat) (c : Instr) (zenith : Bool) (drbg : Option Bool) (s : State) (x : Exec)
    (base units : Nat) (full : Bool), Canonical s.dev → Runs q pos op svcRules x s → s.dev.ckptHold = false → s.dev.measuring = false → s.dev.mgt.pfWarn = false → base = num x.entry 16 8 / 4096 →
    units = num x.entry 24 8 / 4096 → full = (s.dev.regionOf base).any (fun r => r.2.mode == .full) →
    (op = cSanitize ∧ c = .sanitize q pos zenith drbg ∨ op = cScrub ∧ c = .scrub q pos zenith ∨
      op = cTranscode ∧ c = .transcode q pos zenith ∨ op = cSeal ∧ c = .seal q pos zenith drbg ∨
      op = cUnseal ∧ c = .unseal q pos zenith) →
    (s.dev.svcBad x.entry full base units = none → (op = cSanitize → full = false ∨ wholeZones base units = []) → (op = cSeal → Draws s) →
      (op = cUnseal → s.dev.key.drbg.st = .ready) → Completes c s fun t =>
        ∃ y ∈ t.dev.svc.cmds, y.q = q.toNat ∧ y.pos = pos.toNat ∧ y.kind = svcKind op ∧ y.base = base ∧ y.units = units ∧
          y.slotA = bv16 (num x.entry 8 2) ∧ y.running = decide (s.dev.runningCmds < 4) ∧ y.next = 0 ∧ y.prog = 0 ∧
          (op = cSeal → y.salt = drawn s 8)) ∧
    ∀ e, s.dev.svcBad x.entry full base units = some e → Completes c s (Answered q pos e)) ∧
  ∀ (q : BitVec 14) (pos : BitVec 16) (s : State) (c : SCmd), Canonical s.dev → InService s → s.dev.svc.cmds.find? (fun c => !c.running) = some c →
    c.q = q.toNat → c.pos = pos.toNat → s.dev.runningCmds < 4 →
    (s.dev.startBad c = none → Completes (.serviceCommandStart q pos) s fun t =>
      ∃ y ∈ t.dev.svc.cmds, y = { c with running := true, fetch := y.fetch }) ∧
    ∀ (e : Cpl) (x : Exec), s.dev.startBad c = some e → s.dev.scmd c.q c.pos = some c → c.ending = none → s.dev.cmdWhole c = [] →
      (∀ st ∈ s.dev.svc.steps, st.who ≠ .cmd c.q c.pos) → s.dev.exec1 q.toNat pos = some x → x.discard = false →
      Completes (.serviceCommandStart q pos) s (Answered q pos (c.report e))

/-- A Front whose turn it is takes a step of one 4 KiB unit at FRONT: a range hold over its 64 lines and 64 accesses.
Drizzle and the running service commands start theirs likewise, each service in its turn: SCRUB, SANITIZE outside full
freshness, TRANSCODE, SEAL and UNSEAL of one unit, and SANITIZE in full freshness of the units under one covering
counter. A Front step that ends moves FRONT on and, past the region, turns the part DONE; other steps count their
units, and that of a SANITIZE in full freshness writes a zero mark to the covering counter. At the end of a zone
Drizzle goes to the next ONLINE zone, and a pass is counted when it starts again. Clauses of it rest on readings and
choices of the model: log entries 18, 35, 92, 98, 99. (spec/ 14_background_services) -/
def Obligations.ServiceSteps : Prop :=
  (∀ (i : Nat) (chk : List Chk) (s : State) (c : RegionCfg), Canonical s.dev → InService s → s.dev.accrue.frontTurn i = true → s.dev.fab.holds.length < 8 →
    s.dev.stepRoom true = true → s.dev.accrue.turnOfService 0 = true → ((s.dev.rmpSet s.dev.activeSet).seen chk).tab.get i = some c →
    Completes (.serviceStepStart (.front i) chk) s fun t =>
      (∃ st ∈ t.dev.svc.steps, st.id = s.dev.seq ∧ st.who = .front i ∧ st.kind = .front ∧ st.unit = (s.dev.rekey i).front ∧
        st.units = 1 ∧ st.left = 64 ∧ st.slotA = (s.dev.rekey i).old ∧ st.slotB = (s.dev.rekey i).new) ∧
      (⟨64 * (s.dev.rekey i).front, 64 * (s.dev.rekey i).front + 63, s.dev.seq + 1, s.dev.seq⟩ : Hold) ∈ t.dev.fab.holds ∧
      ∀ k, k < 64 → ∃ a ∈ t.dev.fab.accs, a.origin = .step s.dev.seq ∧ a.inFlight = true ∧ a.isWrite = true ∧
        a.line = BitVec.ofNat 40 (64 * (s.dev.rekey i).front + k)) ∧
  (∀ (chk : List Chk) (s : State), Canonical s.dev → InService s → s.dev.svc.drizzleEn = true → s.dev.mgt.pfWarn = false → 64000 ≤ s.dev.accrue.svc.drizzleCredit →
    (∀ st ∈ s.dev.svc.steps, st.kind ≠ .drizzle) → s.dev.fab.holds.length < 8 → s.dev.stepRoom false = true →
    s.dev.accrue.turnOfService 1 = true → (s.dev.zone s.dev.svc.drizzleZone).st = .online → s.dev.svc.drizzleLost = false → s.dev.svc.drizzleUnit < zoneUnits →
    Completes (.serviceStepStart .drizzle chk) s fun t => ∃ st ∈ t.dev.svc.steps, st.id = s.dev.seq ∧ st.who = .drizzle ∧
      st.kind = .drizzle ∧ st.unit = s.dev.svc.drizzleZone * zoneUnits + s.dev.svc.drizzleUnit ∧ st.units = 1) ∧
  (∀ (q pos u : Nat) (chk : List Chk) (s : State) (c : SCmd) (e : Dev), Canonical s.dev → InService s → s.dev.scmd q pos = some c →
    s.dev.accrue.cmdReady c = true → u = s.dev.nextUnit c → u < c.base + c.units → (c.kind = .unseal → c.buf.length = 4144) →
    s.dev.stepCovered c u = true → e = s.dev.putRmpSet s.dev.activeSet ((s.dev.rmpSet s.dev.activeSet).seen chk) →
    e.stepCovered c u = true → s.dev.accrue.turnOfService c.kind.turn = true →
    Completes (.serviceStepStart (.cmd q pos) chk) s fun t =>
      (∃ st ∈ t.dev.svc.steps, st.id = s.dev.seq ∧ st.who = .cmd c.q c.pos ∧ st.kind = c.kind ∧ st.unit = u ∧
        st.units = e.stepUnits c u ∧ (c.kind = .unseal → st.buf = c.buf) ∧
        (st.reset = true ↔ c.kind = .sanitize ∧ ∃ p, e.regionOf u = some p ∧ p.2.mode = .full) ∧
        (c.kind ≠ .scrub → st.reset = false → st.left = 64)) ∧
      (⟨64 * u, 64 * (u + e.stepUnits c u) - 1, s.dev.seq + 1, s.dev.seq⟩ : Hold) ∈ t.dev.fab.holds) ∧
  (∀ (step : Nat) (s : State) (st : Step) (i : Nat) (c : RegionCfg), Canonical s.dev → InService s → s.dev.step1 step = some st → st.who = .front i →
    st.left = 0 → (s.dev.rekey i).st = .active → (s.dev.rmpSet s.dev.activeSet).tab.get i = some c →
    ((s.dev.rekey i).front + 1 ≤ (c.limit + 1) * 512 - 1 → Completes (.frontStepDone step) s fun t =>
      t.dev.step1 step = none ∧ t.dev.rekey i = { s.dev.rekey i with front := (s.dev.rekey i).front + 1 }) ∧
    ((c.limit + 1) * 512 - 1 < (s.dev.rekey i).front + 1 → Completes (.frontStepDone step) s fun t =>
      t.dev.step1 step = none ∧ t.dev.rekey i = { s.dev.rekey i with front := (s.dev.rekey i).front + 1, st := .done })) ∧
  (∀ (step : Nat) (zenith : Bool) (s : State) (st : Step), Canonical s.dev → InService s → s.dev.step1 step = some st → st.left = 0 → st.nodes = 0 →
    (st.kind = .drizzle → st.who = .drizzle → Completes (.serviceStepDone step zenith) s fun t =>
      t.dev.step1 step = none ∧ t.dev.svc.drizzleUnit = s.dev.svc.drizzleUnit + 1) ∧
    ∀ (q pos : Nat) (c : SCmd), st.kind = c.kind → st.who = .cmd q pos → s.dev.scmd q pos = some c → c.ending = none →
      c.next < c.units → st.reset = false →
      (c.kind = .transcode ∨ c.kind = .scrub ∨ c.kind = .sanitize → Completes (.serviceStepDone step zenith) s fun t =>
        t.dev.step1 step = none ∧ t.dev.scmd q pos = some { c with prog := c.prog + st.units }) ∧
      (c.kind = .unseal → st.posted = true → Completes (.serviceStepDone step zenith) s fun t =>
        t.dev.step1 step = none ∧ ∃ y, t.dev.scmd q pos = some y ∧ y.prog = c.prog + st.units)) ∧
  (∀ (step q pos z n l k : Nat) (zenith : Bool) (s : State) (st : Step) (c : SCmd) (h : Hold), Canonical s.dev → InService s →
    s.dev.ckptHold = false → s.dev.step1 step = some st → st.kind = .sanitize → st.reset = true → st.left = 0 → st.who = .cmd q pos →
    s.dev.scmd q pos = some c → c.kind = .sanitize → c.ending = none → c.next < c.units →
    s.dev.fab.holds.find? (fun h => h.step = st.id) = some h → s.dev.earlierIn h = false → z = st.unit / zoneUnits →
    n = 64 * (st.unit % zoneUnits) → l = coverLevel st.units → (∀ m ∈ s.dev.frs.marks, under m (nodeOf z n l) = false) →
    s.dev.find (nodeOf z n l) = some k → (s.dev.can1 k).ctr.length = 8 →
    (s.dev.can1 k).dirty = true ∨ s.dev.dirtyCount < s.dev.budget →
    Completes (.serviceStepDone step zenith) s fun t => t.dev.step1 step = none ∧
      t.dev.slotAt z n l = BitVec.ofNat 56 (0xFE * 2 ^ 48 + (s.dev.zone z).ceil.toNat / 256) ∧
      ∃ y, t.dev.scmd q pos = some y ∧ y.prog = c.prog + st.units) ∧
  ∀ s : State, Canonical s.dev → InService s → zoneUnits ≤ s.dev.svc.drizzleUnit → (∀ st ∈ s.dev.svc.steps, st.kind ≠ .drizzle) →
    (∀ k, (Tab.which s.dev.frs.zones fun z => z.st == .online).find? (fun k => decide (s.dev.svc.drizzleZone < k)) = some k →
      Completes .scrubDone s fun t => t.dev.svc.drizzleZone = k ∧ t.dev.svc.drizzleUnit = 0 ∧
        t.dev.svc.drizzlePasses = s.dev.svc.drizzlePasses) ∧
    ∀ k l, (Tab.which s.dev.frs.zones fun z => z.st == .online) = k :: l → (∀ z ∈ k :: l, z ≤ s.dev.svc.drizzleZone) →
      Completes .scrubDone s fun t => t.dev.svc.drizzleZone = k ∧ t.dev.svc.drizzleUnit = 0 ∧
        t.dev.svc.drizzlePasses = (s.dev.svc.drizzlePasses + 1) % 2 ^ 32

/-- FORMAT_ZONE takes the zone into FORMATTING with a key it draws. The tree reset of a format brings it ONLINE with root
and ceiling 0 and that key; that of a whole SANITIZE leaves a zero mark in the root. A departure ends once no request
of the zone is left, and a SANITIZE of it that was stopped ends then, with the zone in the state that it had. An
adoption of a QUARANTINED zone draws a key and reads the L8 node; one that waited starts when its turn comes. Clauses
of it rest on readings and choices of the model: log entries 5, 24, 43, 101. (spec/ 08_freshness_tree, 10_persistence,
04_request_path, 13_commands) -/
def Obligations.ZoneCommands : Prop :=
  (∀ (q : BitVec 14) (pos : BitVec 16) (zenith : Bool) (drbg : Option Bool) (s : State) (x : Exec) (z : Nat), Canonical s.dev →
    Runs q pos cFormatZone (fun d x => [(8, decide (num x.entry 8 2 < d.frs.zoneLimit))]) x s → s.dev.ckptHold = false → s.dev.measuring = false →
    z = num x.entry 8 2 → s.dev.per.armed = true → (s.dev.zone z).st ≠ .formatting → (s.dev.zone z).st ≠ .sanitizing →
    s.dev.adopting z = false → Draws s → Completes (.formatZone q pos zenith drbg) s fun t => (t.dev.zone z).st = .formatting ∧
      (t.dev.zone z).prev = (s.dev.zone z).st ∧ (t.dev.zone z).drawn = some (bytesKey (drawn s 32)) ∧
      (t.dev.zone z).cmd = some (q.toNat, pos.toNat) ∧ (t.dev.zone z).leaving = ((s.dev.zone z).st == .online)) ∧
  (∀ (z : BitVec 13) (zenith : Bool) (s : State), Canonical s.dev → InService s → s.dev.ckptHold = false → s.dev.measuring = false → (s.dev.zone z.toNat).leaving = false →
    (s.dev.zone z.toNat).treeDone = false →
    (∀ (q : BitVec 14) (pos : BitVec 16) (x : Exec), (s.dev.zone z.toNat).st = .formatting →
      (s.dev.zone z.toNat).cmd = some (q.toNat, pos.toNat) → s.dev.exec1 q.toNat pos = some x → x.discard = false →
      s.dev.can.maint = [] → Completes (.treeReset z zenith) s fun t => Answered q pos (Cpl.ok 0) t ∧
        (t.dev.zone z.toNat).st = .online ∧ (t.dev.zone z.toNat).root = 0 ∧ (t.dev.zone z.toNat).ceil = 0 ∧
        (t.dev.zone z.toNat).key = (s.dev.zone z.toNat).drawn ∧ (t.dev.zone z.toNat).cmd = none) ∧
    ∀ (q pos : Nat) (c : SCmd), (s.dev.zone z.toNat).st = .sanitizing → (s.dev.zone z.toNat).cmd = some (q, pos) →
      s.dev.scmd q pos = some c → c.running = true → c.ending = none → s.dev.can.maint = [] → Completes (.treeReset z zenith) s fun t =>
        (t.dev.zone z.toNat).key = (s.dev.zone z.toNat).drawn ∧
        (t.dev.zone z.toNat).root = BitVec.ofNat 56 (0xFE * 2 ^ 48 + (s.dev.zone z.toNat).ceil.toNat / 256)) ∧
  (∀ (z : BitVec 13) (s : State), Canonical s.dev → InService s → (s.dev.zone z.toNat).leaving = true →
    s.dev.zoneBusy z.toNat = false → s.dev.per.adopt = none → (s.dev.zone z.toNat).treeDone = false →
    ((∀ q pos c, (s.dev.zone z.toNat).cmd = some (q, pos) → s.dev.scmd q pos = some c → c.ending = none) →
      Completes (.zoneDeparture z) s fun t => t.dev.zone z.toNat = { s.dev.zone z.toNat with leaving := false }) ∧
    ∀ (q : BitVec 14) (pos : BitVec 16) (c : SCmd) (e : Cpl) (x : Exec),
      (s.dev.zone z.toNat).cmd = some (q.toNat, pos.toNat) → s.dev.scmd q.toNat pos.toNat = some c → c.ending = some e →
      s.dev.measuring = false → (∀ st ∈ s.dev.svc.steps, st.who ≠ .cmd q.toNat pos.toNat) → s.dev.cmdWhole c = [z.toNat] →
      s.dev.exec1 q.toNat pos = some x → x.discard = false → Completes (.zoneDeparture z) s fun t =>
        Answered q pos (c.report e) t ∧ (t.dev.zone z.toNat).st = (s.dev.zone z.toNat).prev) ∧
  (∀ (q : BitVec 14) (pos : BitVec 16) (zenith : Bool) (drbg : Option Bool) (s : State) (x : Exec) (z : Nat), Canonical s.dev →
    Runs q pos cAdoptZone (fun d x => [(8, decide (num x.entry 8 2 < d.frs.zoneLimit))]) x s → s.dev.ckptHold = false → s.dev.measuring = false →
    z = num x.entry 8 2 → s.dev.adoptBad z = none → Draws s → s.dev.per.adopt = none → (s.dev.zone z).st = .quarantined →
    (s.dev.zone z).leaving = false → s.dev.adoptLines z = [] → s.dev.retired (channelOf (s.dev.nodeAddr ⟨z, 8, 0⟩)) = false →
    Completes (.adoptZone q pos zenith drbg) s fun t => (∃ a, t.dev.per.adopt = some a ∧ a.q = q.toNat ∧ a.pos = pos.toNat ∧ a.zone = z ∧
        t.dev.adoptKey a = bytesKey (drawn s 32) ∧ a.started = true) ∧
      MediaIssued t.dev ⟨2, s.dev.nodeAddr ⟨z, 8, 0⟩, default, .adoptRead ⟨z, 8, 0⟩⟩) ∧
  ∀ (zenith : Bool) (s : State) (a : Adopt) (r : List Adopt), Canonical s.dev → InService s → s.dev.per.adoptWait = a :: r → s.dev.per.adopt = none →
    s.dev.ckptHold = false → s.dev.measuring = false → a.zone < s.dev.frs.zoneLimit → s.dev.adoptBad a.zone = none → a.started = false → a.closing = false →
    (s.dev.zone a.zone).st = .quarantined → (s.dev.zone a.zone).leaving = false → s.dev.adoptLines a.zone = [] →
    s.dev.retired (channelOf (s.dev.nodeAddr ⟨a.zone, 8, 0⟩)) = false → Completes (.adoptionStart zenith) s fun t =>
      t.dev.per.adoptWait = r ∧ (∃ b, t.dev.per.adopt = some b ∧ b.q = a.q ∧ b.pos = a.pos ∧ b.zone = a.zone ∧ b.started = true) ∧
      MediaIssued t.dev ⟨2, s.dev.nodeAddr ⟨a.zone, 8, 0⟩, default, .adoptRead ⟨a.zone, 8, 0⟩⟩

/-- With no other operation in progress: FLUSH of a clean or absent node succeeds; INVALIDATE and FLUSH_INV of a clean
unpinned line make it INVALID, and INVALIDATE of a dirty one answers DIRTY; PIN moves a cached node of an ONLINE zone
into a free pinned way; UNPIN frees a clean pinned one; READ delivers tag, state, flags and bytes of a line, or
answers POISONED where its check bits show an uncorrectable error; ZERO writes zeros into an unused pinned way. The
write-back of an L8 node advances the root to its next count and writes the node with a MAC over its counters under
that count. Clauses of it rest on readings and choices of the model: log entries 5, 45, 46, 118, 119, 120, 121. (spec/
09_canopy_cache, 13_commands, 08_freshness_tree) -/
def Obligations.CanopyMaintenance : Prop :=
  (∀ (q : BitVec 14) (pos : BitVec 16) (s : State) (x : Exec), Canonical s.dev → Runs q pos cCanopyMaint maintRules x s → 
    s.dev.can.maint = [] →
    (∀ nd : NodeId, num x.entry 9 1 = 0 → s.dev.nodeAt (num x.entry 16 8 / 64) = some nd → s.dev.filling nd = false →
      (num x.entry 8 1 = 0 → s.dev.cached nd = none → Completes (.canopyMaintFlush q pos) s (Answered q pos (Cpl.ok 0))) ∧
      ∀ k, s.dev.cached nd = some k →
        (num x.entry 8 1 = 0 → (s.dev.can1 k).dirty = false → Completes (.canopyMaintFlush q pos) s (Answered q pos (Cpl.ok 0))) ∧
        (num x.entry 8 1 = 1 → (s.dev.can1 k).pinned = false →
          ((s.dev.can1 k).dirty = false → Completes (.canopyMaintInvalidate q pos) s fun t =>
            Answered q pos (Cpl.ok 0) t ∧ (t.dev.can1 k).valid = false) ∧
          ((s.dev.can1 k).dirty = true → Completes (.canopyMaintInvalidate q pos) s fun t =>
            Answered q pos .dirty t ∧ t.dev.can = s.dev.can)) ∧
        (num x.entry 8 1 = 2 → (s.dev.can1 k).pinned = false → (s.dev.can1 k).dirty = false → Completes (.flushInv q pos) s fun t =>
          Answered q pos (Cpl.ok 0) t ∧ (t.dev.can1 k).valid = false) ∧
        (∀ (err : Option CanErr) (j : Nat), (∀ k u, err ≠ some (.data k u)) → num x.entry 8 1 = 3 → (s.dev.zone nd.zone).st = .online → s.dev.can.en = true → (s.dev.can1 k).pinned = false →
          s.dev.freePin (canSet (s.dev.nodeAddr nd)) = some j → Completes (.pin q pos err) s fun t =>
            Answered q pos (Cpl.ok 0) t ∧ t.dev.can1 j = { s.dev.can1 k with pinned := true, written := true }) ∧
        (num x.entry 8 1 = 4 → (s.dev.can1 k).pinned = true → (s.dev.can1 k).dirty = false → Completes (.unpin q pos) s fun t =>
          Answered q pos (Cpl.ok 0) t ∧ (t.dev.can1 k).valid = false)) ∧
    (num x.entry 9 1 = 1 →
      (num x.entry 8 1 = 5 → s.dev.lineState (lineNamed x.entry) ≠ .unwritten → (Completes (.canopyMaintRead q pos none) s
        (Delivered q pos (Cpl.ok 0) (num x.entry 40 8) (s.dev.readLine (lineNamed x.entry)).2)) ∧
        ((s.dev.can1 (lineNamed x.entry)).valid = false → Completes (.canopyMaintRead q pos (some true)) s (Answered q pos .poisoned))) ∧
      (num x.entry 8 1 = 6 → s.dev.pinnedWay (lineNamed x.entry % 16) = true → (s.dev.can1 (lineNamed x.entry)).valid = false →
        Completes (.zero q pos) s fun t => Answered q pos (Cpl.ok 0) t ∧
          t.dev.can1 (lineNamed x.entry) = { (default : CanLine) with written := true, ctr := List.replicate 8 0 }))) ∧
  (∀ (err : Option CanErr) (ke : Option (KeyRef × Bool)) (s : State) (k : Nat) (x : NodeId) (key : BitVec 256) (v : Ctr), Canonical s.dev →
    (∀ k u, err ≠ some (.data k u)) → (∀ r, ke ≠ some (r, true)) → InService s → s.dev.pickWriteBack = some k →
    (s.dev.can1 k).node = x → x.level = 8 → x.index = 0 → s.dev.poisonAbove x = false →
    s.dev.retired (channelOf (s.dev.nodeAddr x)) = false → x.zone ∈ s.dev.per.opened → (s.dev.zone x.zone).key = some key →
    nextCtr (s.dev.zone x.zone).root ≤ Config.maxCount → v = BitVec.ofNat 56 (nextCtr (s.dev.zone x.zone).root) →
    s.dev.can.maint = [] → s.dev.per.adopt = none → Completes (.writeBack err ke) s fun t => (t.dev.zone x.zone).root = v ∧
      MediaIssued t.dev ⟨3, s.dev.nodeAddr x, metaBeat (Node.line ⟨(s.dev.can1 k).ctr, nodeMac key x (s.dev.can1 k).ctr v⟩),
        .writeBack x⟩)

/-- With checkpointing armed and nothing in the way a checkpoint starts in its pre-flush, by command or when the period is
over; unarmed the command answers BUSY. With the wanted lines written back it holds; with no dirty line left to flush
it cuts: SEQ is the epoch, the epoch advances, 8,194 lines are written. With all of them persistent the Anvil record
is written; with its 16 words in place PER_SEQ, the copy, the counts and the timer follow. Clauses of it rest on
readings and choices of the model: log entry 5. (spec/ 10_persistence, 13_commands) -/
def Obligations.CheckpointPhases : Prop :=
  (∀ (q : BitVec 14) (pos : BitVec 16) (s : State) (x : Exec), Canonical s.dev → Runs q pos cCheckpoint noRules x s →
    (s.dev.per.armed = true → s.dev.ckptFree = true → s.dev.poolWhole = false → s.dev.del.prepared = none →
      s.dev.del.reconReq = false → Completes (.checkpoint q pos) s fun t =>
        ∃ c, t.dev.per.ckpt = some c ∧ c.phase = .preFlush ∧ (q.toNat, pos.toNat) ∈ c.cmds ∧ c.pck = none) ∧
    (s.dev.per.armed = false → Completes (.checkpoint q pos) s (Answered q pos .busy)) ∧
    (s.dev.per.armed = true → s.dev.mgt.pfWarn = true → Completes (.checkpoint q pos) s (Answered q pos (Cpl.aborted 3)))) ∧
  (∀ s : State, Canonical s.dev → InService s → s.dev.per.armed = true → s.dev.ckptFree = true → s.dev.poolWhole = false →
    s.dev.passed s.dev.per.timerAt (s.dev.per.periodMin * 60000000) = true → Completes .periodicCheckpoint s fun t =>
      ∃ c, t.dev.per.ckpt = some c ∧ c.phase = .preFlush ∧ c.trigger = 1 ∧ c.cmds = []) ∧
  ∀ (err : Option CanErr) (key : Option (KeyRef × Bool)) (zenith : Bool) (s : State) (c : Ckpt), Canonical s.dev → InService s → s.dev.per.ckpt = some c →
    (c.phase = .preFlush → (∀ k ∈ c.want, (s.dev.can1 k).dirty = false) → Completes .hold s fun t =>
      t.dev.per = { s.dev.per with ckpt := some { c with phase := .hold } }) ∧
    (c.phase = .hold → c.pool = none → s.dev.cutReady = true → Draws s → (∀ r, key ≠ some (r, true)) →
      (∀ r, r < 8194 → s.dev.retired (channelOf (s.dev.imageLine c.copy r)) = false) → Completes (.cut err key) s fun t =>
        t.dev.per.epoch = s.dev.per.epoch + 1 ∧ t.dev.per.opened = [] ∧
        ∃ d, t.dev.per.ckpt = some d ∧ d.phase = .image ∧ d.seq = s.dev.per.epoch ∧ d.cutTime = s.dev.stamp ∧ d.left = 8194 ∧
          d.cmds = c.cmds) ∧
    (c.phase = .image → c.left = 0 → s.dev.up domAnv = true → s.dev.per.anvil = none → s.dev.per.restore = none →
      Completes .release s fun t => t.dev.per.ckpt = some { c with phase := .anvil, word := 0 } ∧
        ∃ v, t.dev.per.anvil = some ⟨true, 16 * c.copy, v, s.dev.mgt.tref, false⟩ ∧ .anvil true (16 * c.copy) v ∈ t.dev.drive) ∧
    (c.phase = .anvil → c.word = 16 → s.dev.per.anvil = none → Completes (.commit zenith) s fun t => t.dev.per.seq = c.seq ∧
      t.dev.per.committed = some c.copy ∧ t.dev.per.ckptTime = BitVec.ofNat 48 c.cutTime ∧ t.dev.per.timerAt = s.dev.mgt.tref ∧
      t.dev.per.ckptCnt = min 0xFFFFFFFF (s.dev.per.ckptCnt + 1))

/-- ANCHOR_RESTORE of an unarmed engine with every zone OFFLINE and the ports disabled begins by reading Anvil word 0; an
armed engine answers INVALID_FIELD of kind 4. An answer to a read is kept and the next word is read; an answer to a
write counts the word. An access without an answer for 50 ms fails the checkpoint. An access of an abandoned record,
or one outstanding in the safe state, that ends with an error raises PER_ANVIL_FAIL. Arming ends ARMED, or with
ARM_FAIL where a write failed. Clauses of it rest on readings and choices of the model: log entries 51, 62, 123.
(spec/ 10_persistence, 02_boundary_ports) -/
def Obligations.AnvilAndRestore : Prop :=
  (∀ (q : BitVec 14) (pos : BitVec 16) (zenith : Bool) (s : State) (x : Exec), Canonical s.dev → Runs q pos cAnchorRestore noRules x s → s.dev.measuring = false →
    (s.dev.per.armed = false → s.dev.restoring = false → (∀ p ∈ s.dev.frs.zones, p.2.st = .offline) → s.dev.fab.portEn = 0 →
      s.dev.key.drbg.instantiated = true → s.dev.up domAnv = true → s.dev.per.anvil = none →
      Completes (.anchorRestore q pos zenith) s fun t => t.dev.per.anvil = some ⟨false, 0, 0, s.dev.mgt.tref, false⟩ ∧
        .anvil false 0 0 ∈ t.dev.drive ∧ ∃ r, t.dev.per.restore = some r ∧ r.stage = .records ∧ r.words = []) ∧
    (s.dev.per.armed = true → Completes (.anchorRestore q pos zenith) s (Answered q pos (Cpl.invalid 4 0)))) ∧
  (∀ (v : Word32) (s : State) (a : Anv), Canonical s.dev → InService s → s.dev.per.anvil = some a → a.stale = false → s.dev.up domAnv = true →
    (∀ r : Restore, s.dev.per.restore = some r → a.write = false → r.stage = .records → r.words.length < 31 →
      Completes (.anvilResponse v false) s fun t => t.dev.per.restore = some { r with words := r.words ++ [some v] } ∧
        t.dev.per.anvil = some ⟨false, r.words.length + 1, 0, s.dev.mgt.tref, false⟩) ∧
    (∀ c : Ckpt, s.dev.per.restore = none → s.dev.per.ckpt = some c → a.write = true →
      Completes (.anvilResponse v false) s fun t => t.dev.per.ckpt = some { c with word := c.word + 1 }) ∧
    ∀ c : Ckpt, s.dev.per.restore = none → s.dev.per.ckpt = some c → a.write = true → s.dev.passed a.since 50000 = true →
      Completes .anvilTimeout s fun t => t.dev.per.failCnt = min 0xFFFFFFFF (s.dev.per.failCnt + 1)) ∧
  (∀ (v : Word32) (s : State) (a : Anv), Canonical s.dev → s.dev.per.anvil = some a → a.stale = true ∨ s.safe.active = true → s.dev.up domAnv = true →
    s.dev.up domCore = true → s.flt.banks.wf = true → 1 ∉ (s.flt.banks.get bPer).mask → 1 ∉ (s.flt.banks.get bPer).live →
    Completes (.anvilResponse v true) s fun t => (t.flt.banks.get bPer).first.isSome = true ∧
      (s.safe.active = true → t.dev.per = { s.dev.per with anvil := none })) ∧
  ∀ s : State, Canonical s.dev → InService s →
    (s.dev.per.arming = some 0 → s.dev.per.armBad = false → Completes .armingDone s fun t =>
      t.dev.per.armed = true ∧ t.dev.per.arming = none ∧ t.dev.per.timerAt = s.dev.mgt.tref) ∧
    ∀ n, s.dev.per.arming = some n → s.dev.per.armBad = true → Completes .armingDone s fun t =>
      t.dev.per.armFail = true ∧ t.dev.per.arming = none ∧ t.dev.per.armed = s.dev.per.armed

/-- A lane whose period is about to end with no set complete runs one and takes no new pass. A set whose items all give
the expected results passes and restarts the period, and reports to the TAP that started it, before READY and in the
safe state as well; a quarantined lane that passes turns PROBATION. An ACTIVE lane that fails is QUARANTINED and
counted. A PROBATION lane with no failure for 1 ms turns ACTIVE. A standby lane that failed lately runs a set every
100 µs. A cluster that may gate, with no set, no AUDITOR, no lane that is OFF and no access between two passes in it,
is gated, in service or not. Clauses of it rest on readings and choices of the model: log entries 20, 37, 96, 113,
114, 115, 116, 138. (spec/ 07_transcipher_lanes, 03_clocks_resets_power) -/
def Obligations.LaneRows : Prop :=
  (∀ (l : Fin 36) (s : State), Canonical s.dev → InService s → (s.dev.lane l).st.tested = true →
    s.dev.passed (s.dev.lane l).katAt (s.dev.lan.katPeriod - 2) = true → Completes (.katPeriodExpiry l) s fun t =>
      t.dev.lane l = { s.dev.lane l with katRun := true, katHold := true, vec := katVec }) ∧
  (∀ (l : Fin 36) (results : List Bytes) (s : State), Canonical s.dev → InService s → s.dev.up (clusterOf l) = true →
    ((s.dev.lane l).st = .active →
      (results = katExpected katVec → Completes (.katSetDone l results) s fun t =>
        t.dev.lane l = { s.dev.lane l with katRun := false, katHold := false, katAt := s.dev.mgt.tref, vec := katVec }) ∧
      (results ≠ katExpected katVec → Completes (.katSetDone l results) s fun t => (t.dev.lane l).st = .quarantined ∧
        (t.dev.lane l).slots = [] ∧ (t.dev.lane l).regs = [] ∧ (t.dev.lane l).katRun = true ∧
        (t.dev.lane l).katFails = min 255 ((s.dev.lane l).katFails + 1) ∧ (t.dev.lane l).failedAt = some s.dev.mgt.tref)) ∧
    ((s.dev.lane l).st = .quarantined → (s.dev.lane l).wasStandby = false → results = katExpected katVec →
      Completes (.katSetDone l results) s fun t => (t.dev.lane l).st = .probation ∧ (t.dev.lane l).katAt = s.dev.mgt.tref)) ∧
  (∀ (l : Fin 36) (s : State), Canonical s.dev → (s.dev.mgt.ready = false ∨ s.safe.active = true) → s.dev.up (clusterOf l) = true →
    (s.dev.lane l).st = .active → (s.dev.lane l).katRun = true → Completes (.katSetDone l (katExpected katVec)) s fun t =>
      t.dev.lane l = { s.dev.lane l with katRun := false, katHold := false, katAt := s.dev.mgt.tref, vec := katVec } ∧
      (s.dev.tap.kBusy = true → s.dev.tap.kLane.toNat = l.val →
        t.dev.tap = { s.dev.tap with kBusy := false, kDone := true, kPass := true, kRefused := false })) ∧
  (∀ (l : Fin 36) (s : State), Canonical s.dev → InService s →
    ((s.dev.lane l).st = .probation → s.dev.recentFailure l = false → Completes (.probationEnd l) s fun t =>
      (t.dev.lane l).st = .active) ∧
    ((s.dev.lane l).st = .standby → s.dev.recentFailure l = true → s.dev.passed (s.dev.lane l).katAt 100 = true →
      Completes (.standbyKatRepeat l) s fun t => t.dev.lane l = { s.dev.lane l with katRun := true, vec := katVec })) ∧
  ∀ (k : Fin 9) (s : State), Canonical s.dev → s.dev.mgt.clusterGate.getLsbD k = true → s.dev.up k = true → s.dev.clusterHolds k = false →
    (∀ j, j < 4 → (s.dev.lane (4 * k + j)).katRun = false ∧ (s.dev.lane (4 * k + j)).st ≠ .auditor ∧ (s.dev.lane (4 * k + j)).st ≠ .off) →
    Completes (.clusterIdleGate k) s fun t => t.dev.mgt.clusterIdle.getLsbD k = true

/-- A power loss clears every memory of the block but SAFE; a power cycle resets SAFE and the fault banks too and, with
SYS_RST_N at 1, starts the fuse load. SYS_RST_N resets every domain but SAFE and DBG and sets RESET_CAUSE.SYS, or
waits while the power-fail flush runs. Its release starts power-up. Clauses of it rest on readings and choices of the
model: log entries 30, 31, 71, 72, 103, 106, 126, 127, 128. (spec/ 03_clocks_resets_power, 02_boundary_ports,
15_faults, 17_bring_up) -/
def Obligations.PowerAndReset : Prop :=
  (∀ s : State, Canonical s.dev → s.dev.mgt.pwrGood = true → Completes .powerLoss s fun t => Cleared t ∧ t.dev.mgt.pwrGood = false ∧
    (s.safe.active = true → t.safe.active = true)) ∧
  (∀ s : State, Canonical s.dev → s.dev.mgt.pwrGood = false → Completes .powerCycle s fun t => Cleared t ∧ t.dev.mgt.pwrGood = true ∧
    t.safe = Safe.reset ∧ t.dev.tap = { Tap.reset with trstN := s.dev.tap.trstN } ∧ t.dev.mgt.fuse = [] ∧ t.dev.mgt.fuseReq = s.dev.mgt.sysRstN ∧
    ∀ b, (t.flt.banks.get b).first = none ∧ (t.flt.banks.get b).mask = [] ∧ (t.flt.banks.get b).esc = []) ∧
  (∀ s : State, Canonical s.dev → s.dev.mgt.sysRstN = true →
    (s.defers = false → Completes .sysRstNAssert s fun t => Cleared t ∧ t.dev.mgt.sysRstN = false ∧
      t.safe.resetCause = s.safe.resetCause ||| 2 ∧ t.safe.drillEn = s.safe.drillEn ∧ t.dev.tap.ir = s.dev.tap.ir ∧
      t.dev.mgt.fuse = s.dev.mgt.fuse ∧ t.dev.mgt.pfWarn = s.dev.mgt.pfWarn) ∧
    (s.defers = true → Completes .sysRstNAssert s fun t => t.dev.mgt = { s.dev.mgt with sysRstN := false, rstDeferred := true } ∧
      t.safe.resetCause = s.safe.resetCause ||| 1 ∧ OnlyChanges [.mgt, .safeRegs] s t)) ∧
  ∀ s : State, Canonical s.dev → s.dev.mgt.sysRstN = false → s.dev.mgt.rstDeferred = false → s.dev.tap.ir ≠ 0 → s.dev.tap.ir ≠ 3 →
    s.dev.mgt.pwrGood = true → s.dev.mgt.phase = .fuse → s.dev.inReset domTref = true → Completes .sysRstNRelease s fun t =>
      t.dev.mgt.sysRstN = true ∧ t.dev.inReset domTref = false ∧ t.dev.mgt.fuseReq = true ∧ .fuse true 0 ∈ t.dev.drive

/-- A reset of a port resets both its domains and its credits; released after power-up has come to it, the domains run
again and an enabled port gets its initial credits. A reset of a channel retires it with cause 2, and it stays retired
after the release. A reset of HDMA fails what is outstanding; after the release, outside the safe state, doorbell
credits go out again. A reset of a link takes it DOWN; released, a named link with its partner present goes to HELLO.
Clauses of it rest on readings and choices of the model: log entries 75, 105, 129. (spec/ 03_clocks_resets_power,
02_boundary_ports, 16_pool_epochs) -/
def Obligations.DomainResets : Prop :=
  (∀ (p : Fin 8) (s : State), Canonical s.dev → s.dev.up (domFrx p) = true → Completes (.fpnRstN p) s fun t =>
    t.dev.inReset (domFrx p) = true ∧ t.dev.inReset (domFtx p) = true ∧ t.dev.mgt.fpRst.getLsbD p = true ∧
    (t.dev.port p).req = 0 ∧ (t.dev.port p).wdat = 0 ∧ (t.dev.port p).wlpc = 0 ∧ (t.dev.port p).rlpc = 0) ∧
  (∀ (p : Fin 8) (s : State), Canonical s.dev → s.dev.mgt.fpRst.getLsbD p = true → s.dev.stepFive = true → s.dev.clocked (domFrx p) = true →
    s.dev.clocked (domFtx p) = true → Completes (.fpnResetRelease p) s fun t =>
      t.dev.inReset (domFrx p) = false ∧ t.dev.inReset (domFtx p) = false ∧
      (s.safe.active = false → s.dev.portOpen p = true → s.dev.port p = default → s.dev.fab.holding = false →
        (s.dev.mgt.clkMeas.get (domFrx p)).lost = false → (s.dev.mgt.clkMeas.get (domFtx p)).lost = false →
        .credits p 32 32 16 16 ∈ t.dev.drive)) ∧
  (∀ (ch : Fin 16) (s : State), Canonical s.dev → s.dev.mgt.mcRst.getLsbD ch = false → (s.dev.mgt.sysRstN = true ∨ s.dev.mgt.rstDeferred = true) →
    (s.dev.chan ch).retired = false → Completes (.mcnRstN ch) s fun t => t.dev.inReset (domMch ch) = true ∧ (t.dev.chan ch).retired = true ∧
      (t.dev.chan ch).cause = 2 ∧ (t.dev.chan ch).mcmd = 0 ∧ (t.dev.chan ch).mwd = 0) ∧
  (∀ (ch : Fin 16) (s : State), Canonical s.dev → s.dev.stepFive = true → s.dev.inReset (domMch ch) = true → Completes (.mcnResetRelease ch) s fun t =>
    t.dev.inReset (domMch ch) = false ∧ t.dev.med = s.dev.med) ∧
  (∀ s : State, Canonical s.dev → s.dev.inReset domHdma = false → Completes .hdmaRstN s fun t => t.dev.inReset domHdma = true ∧
    t.dev.qmg.wrOut = [] ∧ t.dev.qmg.rdOut = [] ∧ t.dev.qmg.wrCredit = 0 ∧ t.dev.qmg.rdCredit = 0) ∧
  (∀ s : State, Canonical s.dev → s.dev.mgt.hdmaRst = true → s.dev.stepFive = true → s.dev.clocked domHdma = true →
    Completes .hdmaResetRelease s fun t => t.dev.inReset domHdma = false ∧ t.dev.mgt.hdmaRst = false ∧
      (s.safe.active = false → .dbCredit ∈ t.dev.drive)) ∧
  (∀ (n : Fin 4) (s : State), Canonical s.dev → Completes (.pelnRstN n) s fun t => t.dev.inReset (domPel n) = true ∧
    (t.dev.link n).st = .down ∧ (t.dev.link n).errs = 0 ∧ (t.dev.link n).unacked = []) ∧
  ∀ (n : Fin 4) (s : State), Canonical s.dev → s.dev.stepFive = true → s.dev.inReset (domPel n) = true → s.dev.del.inPool = true →
    s.dev.del.linksUse.getLsbD n = true → (s.dev.link n).up = true → (s.dev.mgt.clkMeas.get (domPel n)).lost = false →
    Completes (.pelnResetRelease n) s fun t => t.dev.inReset (domPel n) = false ∧ (t.dev.link n).st = .hello

/-- The loss of the clock of a domain that runs clears its CLKOK bit, sets LOST and, with CORE running, is a condition of
the MGT bank. A measurement sets VALID and FREQ; a FREQ more than 10 % above the maximum of the range of a domain that
runs is the loss of its clock. An acknowledged fuse word of the first reading is kept and the request falls; its fall
asks for the next word. A word that differs in the second reading, or an acknowledgement that does not come for 2 µs,
enters the safe state with SAFE_CLASS 11. Clauses of it rest on readings and choices of the model: log entries 30,
104, 105, 108. (spec/ 03_clocks_resets_power, 15_faults, 02_boundary_ports, 17_bring_up) -/
def Obligations.ClocksAndFuses : Prop :=
  (∀ (k : Fin 60) (s : State), Canonical s.dev → k.val ≠ 58 → s.dev.up k = true → Completes (.clockLoss k) s fun t =>
    t.dev.clocked k = false ∧ (t.dev.mgt.clkMeas.get k).lost = true ∧
    (k.val < 58 → s.dev.up domCore = true → k.val ≠ domCore → k.val ∈ (t.flt.banks.get bMgt).live)) ∧
  (∀ (k : Fin 60) (f : BitVec 16) (s : State), Canonical s.dev → s.dev.inReset k = false → s.dev.inReset domTref = false →
    (f.toNat ≤ freqLimit k → Completes (.clockMeasurement k f) s fun t =>
      t.dev.mgt.clkMeas.get k = { s.dev.mgt.clkMeas.get k with valid := true, freq := f } ∧ t.dev.mgt.clkOk = s.dev.mgt.clkOk) ∧
    (freqLimit k < f.toNat → k.val ≠ 58 → Completes (.clockMeasurement k f) s fun t =>
      t.dev.mgt.clkMeas.get k = { valid := true, lost := true, freq := f } ∧
      (s.dev.clockLostAt k = false → t.dev.clocked k = false))) ∧
  (∀ (w : Word32) (s : State), Canonical s.dev → s.dev.mgt.phase = .fuse → s.dev.up domTref = true →
    (s.dev.mgt.fuseReq = true → s.dev.mgt.fuseIdx < 11 → Completes (.fuseAck true w) s fun t =>
      t.dev.mgt = { s.dev.mgt with fuseFirst := s.dev.mgt.fuseFirst ++ [w], fuseReq := false, fuseAt := s.dev.mgt.tref } ∧
      .fuse false s.dev.mgt.fuseIdx ∈ t.dev.drive) ∧
    (s.dev.mgt.fuseReq = false → s.dev.mgt.fuseIdx < 21 → Completes (.fuseAck false w) s fun t =>
      t.dev.mgt = { s.dev.mgt with fuseIdx := s.dev.mgt.fuseIdx + 1, fuseReq := true, fuseAt := s.dev.mgt.tref } ∧
      .fuse true ((s.dev.mgt.fuseIdx + 1) % 11) ∈ t.dev.drive) ∧
    (s.dev.mgt.fuseReq = true → 11 ≤ s.dev.mgt.fuseIdx → s.dev.mgt.fuseIdx < 22 →
      s.dev.mgt.fuseFirst.getD (s.dev.mgt.fuseIdx - 11) 0 ≠ w → s.dev.inReset domCore = true → s.safe.active = false →
      Completes (.fuseAck true w) s fun t => t.safe.active = true ∧ t.safe.cls = 3 ∧ t.safe.bank = 15)) ∧
  ∀ s : State, Canonical s.dev → s.dev.mgt.phase = .fuse → s.dev.up domTref = true → s.dev.mgt.fuseIdx < 22 →
    s.dev.passed s.dev.mgt.fuseAt 2 = true → s.dev.inReset domCore = true → s.safe.active = false →
    Completes .fuseLoadFailure s fun t => t.safe.active = true ∧ t.safe.cls = 3 ∧ t.safe.bank = 15

/-- With the 22 readings done FUSE ends: the fuse words are held, REG and CORE leave reset, fused lanes are DISABLED, and
a blown DBG_DISABLE closes the SIBs. SRAM_INIT ends with the ports, channels, links and HDMA out of reset as their
inputs allow. SELFTEST ends with the derived keys; failed lanes are RETIRED; with a source OK the DRBG begins to
instantiate. READY rises when the DRBG is READY or in ERROR with keys derived and a lane ACTIVE. With PF_WARN at 1,
outside the safe state, a phase whose work is done is suspended in place of ending. Clauses of it rest on readings and
choices of the model: log entries 30, 73, 74, 96, 112. (spec/ 17_bring_up, 03_clocks_resets_power,
07_transcipher_lanes, 11_key_services, 02_boundary_ports) -/
def Obligations.PowerUpPhases : Prop :=
  (∀ s : State, Canonical s.dev → s.dev.mgt.phase = .fuse → s.dev.inReset domTref = false → s.dev.mgt.pfWarn = false → s.dev.mgt.fuseIdx = 22 →
    Completes .fusePhaseDone s fun t => t.dev.mgt.phase = .sramInit ∧ t.dev.mgt.fuse = s.dev.mgt.fuseFirst ∧
      t.dev.inReset domReg = false ∧ t.dev.inReset domCore = false ∧
      (bit (s.dev.mgt.fuseFirst.getD 8 0) 0 = true → t.dev.tap.sibReg = false ∧ t.dev.tap.sibKat = false) ∧
      ∀ i, i < 36 → laneFused s.dev.mgt.fuseFirst i = true → (t.dev.lane i).st = .disabled) ∧
  (∀ s : State, Canonical s.dev → s.dev.mgt.phase = .sramInit → s.dev.inReset domTref = false → s.dev.mgt.pfWarn = false →
    Completes .sramInitDone s fun t => t.dev.mgt.phase = .selftest ∧ t.dev.key.drbg.st = .testing ∧
      (∀ p, p < 8 → s.dev.mgt.fpRst.getLsbD p = false → t.dev.inReset (domFrx p) = false ∧ t.dev.inReset (domFtx p) = false) ∧
      (∀ c, c < 16 → s.dev.mgt.mcRst.getLsbD c = false → t.dev.inReset (domMch c) = false) ∧
      (∀ n, n < 4 → s.dev.mgt.pelRst.getLsbD n = false → t.dev.inReset (domPel n) = false) ∧
      (s.dev.mgt.hdmaRst = false → t.dev.inReset domHdma = false ∧ (s.safe.active = false → .dbCredit ∈ t.dev.drive)) ∧ t.dev.inReset domAnv = false) ∧
  (∀ (results : List (List Bytes)) (s : State), Canonical s.dev → s.dev.mgt.phase = .selftest → s.dev.inReset domTref = false → s.dev.mgt.pfWarn = false →
    s.safe.active = false → (∀ p ∈ s.dev.key.ent, p.2.st ≠ .startup) → Completes (.selftestDone results true) s fun t =>
      t.dev.mgt.phase = .drbg ∧ t.dev.key.derived.isSome = true ∧
      (s.dev.sourceOk = true → t.dev.key.drbg.st = .instantiating) ∧ (s.dev.sourceOk = false → t.dev.key.drbg.st = .error) ∧
      ∀ i, i < 36 → (s.dev.lane i).st = .off → results.getD i [] ≠ katExpected katVec → (t.dev.lane i).st = .retired) ∧
  (∀ s : State, Canonical s.dev → s.dev.mgt.phase = .drbg → s.dev.inReset domTref = false → s.dev.mgt.pfWarn = false → s.safe.active = false →
    (s.dev.key.drbg.st = .ready ∨ s.dev.key.drbg.st = .error) → s.dev.key.derived.isSome = true → s.dev.activeLanes ≠ 0 →
    Completes .ready s fun t => t.dev.mgt.ready = true ∧ t.dev.mgt.phase = .done) ∧
  ∀ (results : List (List Bytes)) (k : Bool) (c : Instr) (s : State), Canonical s.dev → s.dev.inReset domTref = false → s.dev.mgt.pfWarn = true →
    s.safe.active = false →
    (s.dev.mgt.phase = .fuse ∧ s.dev.mgt.fuseIdx = 22 ∧ c = .fusePhaseDone ∨ s.dev.mgt.phase = .sramInit ∧ c = .sramInitDone ∨
      s.dev.mgt.phase = .selftest ∧ (∀ p ∈ s.dev.key.ent, p.2.st ≠ .startup) ∧ c = .selftestDone results k ∨
      s.dev.mgt.phase = .drbg ∧ (s.dev.key.drbg.st = .ready ∨ s.dev.key.drbg.st = .error) ∧
        s.dev.key.derived.isSome = true ∧ s.dev.activeLanes ≠ 0 ∧ c = .ready) →
    Completes c s fun t => t.dev.mgt = { s.dev.mgt with suspended := true } ∧ OnlyChanges [.mgt] s t

/-- PF_WARN in service starts the power-fail flush and ends parked requests ACCESS_ERROR; before READY it is only noted.
The flush ends with PFW_DONE; with PF_WARN clear again the engine goes back to normal work. A SYS_RST_N that waited
for a flush takes effect with PFW_DONE, in the safe state as well. Clauses of it rest on readings and choices of the
model: log entries 78, 86, 106, 126. (spec/ 10_persistence, 02_boundary_ports, 04_request_path) -/
def Obligations.PowerFailRows : Prop :=
  (∀ s : State, Canonical s.dev → s.safe.active = false → s.dev.mgt.pfWarn = false → s.dev.up domTref = true →
    (s.dev.mgt.ready = true → Completes .pfWarn s fun t => t.dev.mgt.pfWarn = true ∧ t.dev.mgt.pfw = .flushing ∧
      ∀ id a p, s.dev.acc id = some a → a.stage = .parked → a.origin = .port p →
        ∃ b, t.dev.acc id = some b ∧ b.stage = .done ∧ b.status = .accessError) ∧
    (s.dev.mgt.ready = false → Completes .pfWarn s fun t => t.dev.mgt = { s.dev.mgt with pfWarn := true } ∧ OnlyChanges [.mgt] s t)) ∧
  (∀ s : State, Canonical s.dev → s.safe.active = false → s.dev.flushEnded = true → s.dev.mgt.rstDeferred = false → Completes .pfwDone s fun t =>
    t.dev.mgt.pfw = .done ∧ t.dev.per.pfwDone = true) ∧
  (∀ s : State, Canonical s.dev → s.dev.mgt.rstDeferred = true → s.dev.mgt.sysRstN = false → (s.safe.active = true ∨ s.dev.flushEnded = true) →
    Completes .pfwDone s fun t => Cleared t ∧ t.safe.resetCause = s.safe.resetCause ||| 2) ∧
  ∀ s : State, Canonical s.dev → s.safe.active = false → s.dev.mgt.pfWarn = true → s.dev.mgt.pfw = .done → Completes .pfWarnClear s fun t =>
    t.dev.mgt.pfWarn = false ∧ t.dev.mgt.pfw = .none ∧ t.dev.per.pfwDone = false

/-- An occurrence of an FT source enters the safe state; when nothing else is to be registered, SAFE holds its class,
bank, source and time: those of a fuse-load failure, MGT 59, are class 11 and bank 15. A loss of a clock has its own
row, and so SQUALL_ENTRY has no effect for it. The end of zeroisation leaves no key in the key store, the DRBG, the
zones and the lanes, and no pass and no known-answer set in a lane. A command other than POWER_CYCLE run in the safe
state answers a state that is still in the safe state, with the class, bank, source and time of the first cause.
Clauses of it rest on readings and choices of the model: log entry 137. (spec/ 15_faults) -/
def Obligations.SafeState : Prop :=
  ((∀ (b : Fin 14) (src : BitVec 10) (fuse : Bool) (s : State), s.safe.active = false → (∀ n, Quiet n s) →
    fuse = decide (b.val = 13 ∧ src.toNat = 59) → (s.dev.inReset domCore = false ∨ fuse = true) →
    src.toNat < sources b → (s.flt.banks.get b).cls b src.toNat = 3 → src.toNat ∉ (s.flt.banks.get b).live →
    (b.val = 13 → 59 ≤ src.toNat) → (fuse = true → s.dev.mgt.phase = .fuse ∧ s.dev.up domTref = true) →
    Completes (.squallEntry b src) s fun t => t.safe.active = true ∧ t.safe.bank = (if fuse then 15 else b.val) ∧
      t.safe.src = src.toNat ∧ t.safe.time = BitVec.ofNat 48 s.dev.mgt.tref ∧
      t.safe.cls = (if b.val = 11 then 2 else if fuse then 3 else 1)) ∧
  (∀ (src : BitVec 10) (s : State), src.toNat < 59 → Completes (.squallEntry 13 src) s (OnlyChanges [] s)) ∧
  ∀ s : State, s.safe.active = true → s.safe.zeroised = false → Completes .zeroisationDone s fun t => t.safe.zeroised = true ∧
    t.dev.key.slots = [] ∧ t.dev.key.regs = [] ∧ t.dev.key.keks = [] ∧ t.dev.key.derived = none ∧ t.dev.key.drbg.key = 0 ∧
    t.dev.key.drbg.v = 0 ∧ t.dev.key.drbg.served = 0 ∧ t.dev.key.drawn = [] ∧ (∀ p ∈ t.dev.frs.zones, p.2.key = none ∧ p.2.drawn = none) ∧
    (∀ p ∈ t.dev.lan.lanes, p.2.slots = [] ∧ p.2.regs = [] ∧ p.2.katRun = false) ∧ t.dev.tap.kBusy = false ∧
    (∀ a ∈ t.dev.fab.accs, a.stage ≠ .lane ∧ a.linkKey = none ∧ a.winKey = none) ∧ ∀ p ∈ t.dev.fab.sessions,
      (∀ w ∈ p.2.rwins, w.tk = default) ∧ (∀ w ∈ p.2.wdone, w.tk = default) ∧ ∀ w, p.2.wwin = some w → w.tk = default) ∧
  (∀ (c : Instr) (s t : State), s.safe.active = true → c ≠ .powerCycle → exec c s = .next t →
  t.safe.active = true ∧ t.safe.cls = s.safe.cls ∧ t.safe.bank = s.safe.bank ∧ t.safe.src = s.safe.src ∧
    t.safe.time = s.safe.time)

/-- TRST_N at 0 holds the TAP and the DBG domain in reset; at 1 they leave it. With the TAP out of reset, not held and,
for EXTEST and CLAMP, SYS_RST_N at 0, each instruction becomes the current one, and what its capture loaded and the
bits of its data register leave on TDO; EXTEST and CLAMP drive the output cells; NETWORK with DBG_DISABLE blown acts
as BYPASS, closes the SIBs and is counted. A register read through the network gives the register's value, captures
ERR where its domain does not run, or in lifecycle DEPLOYED is denied for KEY and STL. A known-answer set is started
on a lane that may run one, and refused on any other. Clauses of it rest on readings and choices of the model: log
entries 32, 33, 77, 107. (spec/ 17_bring_up, 02_boundary_ports) -/
def Obligations.TestAccessPort : Prop :=
  (∀ s : State, (Completes (.trstN false) s fun t => t.dev.tap = Tap.reset ∧ t.dev.inReset domDbg = true) ∧
    (s.dev.tap.trstN = false → Completes (.trstN true) s fun t => t.dev.tap = { s.dev.tap with trstN := true } ∧
      t.dev.inReset domDbg = false) ∧
    (s.dev.tap.trstN = true → Completes (.trstN true) s fun t => t.dev.tap = s.dev.tap ∧ t.dev.mgt = s.dev.mgt)) ∧
  ∀ s : State, s.dev.tapOn = true →
    (s.dev.mgt.sysRstN = false → (∀ x y, Completes (.extest x y) s fun t =>
        t.dev.tap = { s.dev.tap with ir := 0, sampled := s.captured x, cells := y } ∧ pinsDriven s.dev.tap.cells ∈ t.dev.drive ∧
        pinsDriven y ∈ t.dev.drive ∧ .tdo 8 1 ∈ t.dev.drive ∧ .tdo Config.chainBits (s.captured x).toNat ∈ t.dev.drive) ∧
      Completes .clamp s fun t => t.dev.tap = { s.dev.tap with ir := 3 } ∧ pinsDriven s.dev.tap.cells ∈ t.dev.drive ∧
        .tdo 8 1 ∈ t.dev.drive ∧ .tdo 1 0 ∈ t.dev.drive) ∧
    (Completes (.idcode false) s fun t => t.dev.tap = { s.dev.tap with ir := 1 } ∧ .tdo 8 1 ∈ t.dev.drive ∧
      .tdo 32 0x105129A7 ∈ t.dev.drive) ∧
    (Completes (.idcode true) s fun t => t.dev.tap = { s.dev.tap with ir := 1, sibReg := false, sibKat := false } ∧
      .tdo 32 0x105129A7 ∈ t.dev.drive) ∧
    (∀ x y, Completes (.samplePreload x y) s fun t => t.dev.tap = { s.dev.tap with ir := 2, sampled := s.captured x, cells := y } ∧
      .tdo 8 1 ∈ t.dev.drive ∧ .tdo Config.chainBits (s.captured x).toNat ∈ t.dev.drive) ∧
    (∀ c : BitVec 8, c ∉ [0#8, 1#8, 2#8, 3#8, 0x10#8] → Completes (.bypass c) s fun t => t.dev.tap = { s.dev.tap with ir := c } ∧
      .tdo 8 1 ∈ t.dev.drive ∧ .tdo 1 0 ∈ t.dev.drive) ∧
    (∀ x y, (s.dev.dbgDisabled = false → Completes (.network x y) s fun t =>
        t.dev.tap = { s.dev.tap with ir := 0x10, sibReg := x, sibKat := y } ∧ .tdo 8 1 ∈ t.dev.drive ∧
        .tdo s.dev.tap.path.1 s.dev.tap.path.2 ∈ t.dev.drive) ∧
      (s.dev.dbgDisabled = true → Completes (.network x y) s fun t => .tdo 8 1 ∈ t.dev.drive ∧ .tdo 1 0 ∈ t.dev.drive ∧
        t.dev.tap = { s.dev.tap with ir := 0x10, sibReg := false, sibKat := false, denied := min 0xFFFF (s.dev.tap.denied + 1) })) ∧
    (∀ (w : BitVec 22) (zenith : Bool), s.dev.tap.ir = 0x10 → s.dev.dbgDisabled = false → s.dev.tap.sibReg = true →
      (s.dev.lifecycle ≠ 3 ∨ tapRefused (4 * w.toNat) = false →
        (s.dev.up domReg = true → (∀ k ∈ regDoms (4 * w.toNat), s.dev.up k = true) → s.dev.tap.rHeld = [] →
          Completes (.tapRegRead w zenith) s fun t => t.dev.tap.rDone = true ∧ t.dev.tap.rErr = false ∧ t.dev.tap.rDenied = false ∧
            t.dev.tap.rData = (s.regAt (4 * w.toNat)).getD 0) ∧
        ((s.regAt (4 * w.toNat)).isSome = true →
          ((∃ k ∈ regDoms (4 * w.toNat), s.dev.up k = false) ∨ regDoms (4 * w.toNat) = [] ∧ s.dev.up domReg = false) →
          Completes (.tapRegRead w zenith) s fun t => t.dev.tap.rDone = true ∧ t.dev.tap.rErr = true ∧ t.dev.tap.rData = 0)) ∧
      (s.dev.lifecycle = 3 → tapRefused (4 * w.toNat) = true → Completes (.tapRegRead w zenith) s fun t => t.dev.tap.rDone = true ∧
        t.dev.tap.rDenied = true ∧ t.dev.tap.rData = 0 ∧ t.dev.tap.denied = min 0xFFFF (s.dev.tap.denied + 1))) ∧
    ∀ l : BitVec 6, s.dev.tap.ir = 0x10 → s.dev.dbgDisabled = false → s.dev.tap.sibKat = true →
      (l.toNat < 36 → (s.dev.lane l.toNat).st.startable = true → Completes (.tapKat l) s fun t => t.dev.tap.kBusy = true ∧
        t.dev.tap.kLane = l ∧ t.dev.tap.kDone = false ∧ (t.dev.lane l.toNat).katRun = true) ∧
      (36 ≤ l.toNat ∨ (s.dev.lane l.toNat).st.startable = false → Completes (.tapKat l) s fun t => t.dev.tap.kBusy = false ∧
        t.dev.tap.kRefused = true ∧ t.dev.tap.kDone = true ∧ t.dev.lan = s.dev.lan)

/-- POOL_JOIN of an engine that may join and has not gives it its identity. POOL_LEAVE with no pool checkpoint and no
striped rekey takes it out again. POOL_RECONCILE of its own group, not SPLIT, waits for RECON_DONE; SPLIT it answers
SPLIT_GROUP. Clauses of it rest on readings and choices of the model: log entries 52, 58, 122. (spec/ 16_pool_epochs,
13_commands) -/
def Obligations.PoolCommands : Prop :=
  (∀ (q : BitVec 14) (pos : BitVec 16) (s : State) (x : Exec), Canonical s.dev → Runs q pos cPoolJoin noRules x s →
    (s.dev.mgt.fuse.getD 8 0).getLsbD 3 = true →
    (s.dev.del.inPool = false → Completes (.poolJoin q pos) s fun t => Answered q pos (Cpl.ok 0) t ∧ t.dev.del.inPool = true ∧
      t.dev.del.poolId = BitVec.ofNat 6 (num x.entry 8 1) ∧ t.dev.del.linksUse = BitVec.ofNat 4 (num x.entry 10 1) ∧
      t.dev.del.ident = BitVec.ofNat 64 (num x.entry 16 8) ∧
      (num x.entry 9 1 = 0xFF → t.dev.del.group = none ∧ t.dev.del.gstate = .none) ∧
      (num x.entry 9 1 ≠ 0xFF → t.dev.del.group = some (BitVec.ofNat 4 (num x.entry 9 1)) ∧ t.dev.del.gstate = .whole)) ∧
    (s.dev.del.inPool = true → Completes (.poolJoin q pos) s (Answered q pos .exists))) ∧
  (∀ (q : BitVec 14) (pos : BitVec 16) (s : State) (x : Exec), Canonical s.dev → Runs q pos cPoolLeave noRules x s →
    (s.dev.del.inPool = true → s.dev.poolCkpt = false → s.dev.stripedRekey = false → s.dev.del.recon = none →
      Completes (.poolLeave q pos) s fun t => Answered q pos (Cpl.ok 0) t ∧ t.dev.del.inPool = false ∧ t.dev.del.group = none ∧
        t.dev.del.members = [] ∧ t.dev.svc.retire = [] ∧ t.dev.del.gstate = .none) ∧
    (s.dev.del.inPool = false → Completes (.poolLeave q pos) s (Answered q pos .notFound))) ∧
  ∀ (q : BitVec 14) (pos : BitVec 16) (s : State) (x : Exec), Canonical s.dev → Runs q pos cPoolReconcile noRules x s → s.dev.del.recon = none →
    s.dev.del.inPool = true → s.dev.del.group = some (BitVec.ofNat 4 (num x.entry 8 1)) →
    (s.dev.del.gstate ≠ .split → Completes (.poolReconcile q pos) s fun t => t.dev.del.recon = some (q.toNat, pos.toNat)) ∧
    (s.dev.del.gstate = .split → Completes (.poolReconcile q pos) s (Answered q pos .split))

/-- Of a frame of its own group that the engine acts on, while nothing else of the group is due: PREPARE(Q) starts its
checkpoint Q, or is kept until one may start; HELD counts at the coordinator, and with the last one CUT goes out on
every link that is UP; CUT lets the checkpoint cut; DONE counts, and the last one ends the transaction, after which
one that waits starts; ABORT makes the checkpoint a local one; CKREQ starts a pool checkpoint. A coordinator that
waits too long for HELD gives up and sends ABORT; a POOL_RECONCILE that waits too long for RECON_DONE after its own
part answers SPLIT_GROUP. Clauses of it rest on readings and choices of the model: log entries 5, 47, 48, 52, 53, 54,
122. (spec/ 16_pool_epochs) -/
def Obligations.PoolCheckpointFrames : Prop :=
  (∀ (n : Fin 4) (f : Frame) (s : State), Canonical s.dev → Acts n f s → Steady s → s.dev.ofGroup f = true →
    (s.dev.poolAdmits = true → s.dev.per.armed = true →
      (s.dev.ckptFree = true → Completes (.prepare n f) s fun t => ∃ c, t.dev.per.ckpt = some c ∧ c.phase = .preFlush ∧
        c.pck = some (fPck f) ∧ c.cmds = s.dev.per.waiting ∧ t.dev.per.waiting = []) ∧
      (s.dev.ckptFree = false → Completes (.prepare n f) s fun t => t.dev.del.prepared = some (fPck f))) ∧
    (∀ x : Txn, s.dev.del.txn = some x → x.pck = fPck f → x.cut = false → s.dev.cutReady = false →
      (∀ m ∈ s.dev.groupMembers, m ∉ insSorted f.origin.toNat x.held → Completes (.held n f) s fun t =>
        t.dev.del.txn = some { x with held := insSorted f.origin.toNat x.held }) ∧
      ((∀ m ∈ s.dev.groupMembers, m ∈ insSorted f.origin.toNat x.held) → Completes (.held n f) s fun t =>
        t.dev.del.txn = some { x with held := insSorted f.origin.toNat x.held, cut := true } ∧
        (∀ c : Ckpt, s.dev.per.ckpt = some c → c.pck = some (fPck f) → t.dev.per.ckpt = some { c with cutSeen := true }) ∧
        BroadcastsOnLinks tCut (s.dev.pckWords (fPck f) false) s t)) ∧
    (∀ c : Ckpt, s.dev.per.ckpt = some c → c.pool = some (fPck f) → s.dev.cutReady = false →
      (Completes (.cutFrame n f) s fun t => t.dev.per.ckpt = some { c with cutSeen := true }) ∧
      (c.cutSeen = false → (c.phase = .preFlush ∨ c.phase = .hold) → Completes (.abort n f) s fun t =>
        t.dev.per.ckpt = some { c with localCut := true })) ∧
    (∀ x : Txn, s.dev.del.txn = some x → x.pck = fPck f →
      (∀ m ∈ s.dev.groupMembers, m ∉ insSorted f.origin.toNat x.done → Completes (.done n f) s fun t => t.dev.del.txn =
        some { x with done := insSorted f.origin.toNat x.done, failed := x.failed || bit (fWord f 0) 8 }) ∧
      ((∀ m ∈ s.dev.groupMembers, m ∈ insSorted f.origin.toNat x.done) → x.recon = false →
        (s.dev.del.ckreq = false → s.dev.per.waiting = [] → s.dev.del.reconReq = false → Completes (.done n f) s fun t =>
          t.dev.del.txn = none) ∧
        (s.dev.ckptFree = true → s.dev.isCoord = true → s.dev.poolWhole = true → (s.dev.del.ckreq = true ∨ s.dev.per.waiting ≠ []) →
          Completes (.done n f) s fun t => ∃ y c, t.dev.del.txn = some y ∧ y.done = [] ∧ t.dev.per.ckpt = some c ∧
            c.pck = some y.pck))) ∧
    (s.dev.isCoord = true → s.dev.poolWhole = true → s.dev.per.armed = true → s.dev.ckptFree = true → s.dev.del.txn = none →
      Completes (.ckreq n f) s fun t => ∃ x c, t.dev.del.txn = some x ∧ t.dev.per.ckpt = some c ∧ c.pck = some x.pck)) ∧
  (∀ (s : State) (x : Txn), Canonical s.dev → InService s → s.dev.del.inPool = true → s.dev.del.txn = some x → x.cut = false →
    s.dev.passed x.since s.dev.del.txnTimeout = true → s.dev.per.ckpt = none → s.dev.del.ckreq = false →
    s.dev.del.reconReq = false → s.dev.per.waiting = [] → Completes .txnTimeout s fun t => t.dev.del.txn = none ∧
      BroadcastsOnLinks tAbort (s.dev.pckWords x.pck false) s t) ∧
  ∀ (q : BitVec 14) (pos : BitVec 16) (x : Exec) (since : Nat) (s : State), Canonical s.dev → InService s → s.dev.del.recon = some (q.toNat, pos.toNat) →
    s.dev.del.txn = none → s.dev.del.reconReq = false → s.dev.del.prepared = none → s.dev.per.ckpt = none → s.dev.per.adopt = none →
    s.dev.del.reconAt = some since → s.dev.passed since s.dev.del.txnTimeout = true → s.dev.exec1 q.toNat pos = some x →
    x.discard = false → Completes .txnTimeout s (Answered q pos .split)

/-- At the coordinator of a WHOLE group a REPORT that is not the last is kept; with the last one RETIRE goes out on every
link that is UP and the slot leaves the retirement list, as it does on RETIRE. RECON starts the reconciling
checkpoint. RECON_DONE makes the group WHOLE and completes a POOL_RECONCILE that waits with the low word of its PCK.
Clauses of it rest on readings and choices of the model: log entries 5, 52, 53, 57. (spec/ 16_pool_epochs) -/
def Obligations.PoolRetirementFrames : Prop :=
  ∀ (n : Fin 4) (f : Frame) (s : State), Canonical s.dev → Acts n f s → Steady s → s.dev.ofGroup f = true →
    (∀ (i : Nat) (old new : BitVec 16), i = bits (fWord f 0) 27 16 → old = (fWord f 1).extractLsb' 0 16 →
      new = (fWord f 1).extractLsb' 16 16 →
      (s.dev.isCoord = true → s.dev.del.gstate = .whole →
        ((∃ m ∈ s.dev.groupMembers, m ≠ f.origin.toNat ∧ s.dev.reported i old m = false) → Completes (.report n f) s fun t =>
          t.dev.reported i old f.origin.toNat = true ∧ t.dev.svc.retire = s.dev.svc.retire) ∧
        ((∀ m ∈ s.dev.groupMembers, m = f.origin.toNat ∨ s.dev.reported i old m = true) → Completes (.report n f) s fun t =>
          t.dev.svc.retire = s.dev.svc.retire.filter (fun r => !(decide (r.1 = i) && r.2.1 == old)) ∧
          BroadcastsOnLinks tRetire (reportWords s.dev.groupWord i old.toNat new.toNat) s t)) ∧
      Completes (.retire n f) s fun t => t.dev.svc.retire = s.dev.svc.retire.filter fun r => !(decide (r.1 = i) && r.2.1 == old)) ∧
    (s.dev.isCoord = true → s.dev.poolAdmits = true → s.dev.per.armed = true → s.dev.ckptFree = true → s.dev.del.txn = none →
      Completes (.recon n f) s fun t => ∃ x, t.dev.del.txn = some x ∧ x.recon = true ∧ t.dev.del.reconReq = false) ∧
    (s.dev.poolAdmits = true →
      (Completes (.reconDone n f) s fun t => t.dev.del.gstate = .whole ∧ t.dev.del.recon = none) ∧
      ∀ (q : BitVec 14) (pos : BitVec 16) (x : Exec), s.dev.del.recon = some (q.toNat, pos.toNat) →
        s.dev.exec1 q.toNat pos = some x → x.discard = false → Completes (.reconDone n f) s
          (Answered q pos (Cpl.ok ((fPck f).extractLsb' 0 32))))

/-- HELLO with ECHO from a partner with a common version brings the link UP in the highest of them; one without ECHO
leaves it in HELLO, and heard; one without a common version leaves it NO_VERSION, where it stays. HB refreshes its
origin's entry with its group and PCK, MEMBER with its group or, with LEAVE, makes it ABSENT, as SAFE does. ACK stops
the retransmission of the frame it names. A received frame that passes its check acts as the row of its type, each of
the 15; one that fails it, has no such type, is longer than its link's version allows or is a HELLO of another pool is
counted. Clauses of it rest on readings and choices of the model: log entries 5, 28, 29, 55, 56, 61. (spec/
16_pool_epochs) -/
def Obligations.LinkFrames : Prop :=
  (∀ (n : Fin 4) (f : Frame) (s : State), Canonical s.dev → InService s → s.dev.linkNamed n = true → fWord f 2 ++ fWord f 1 = s.dev.del.ident →
    f.payload.length ≤ maxLen (s.dev.link n).version →
    ((s.dev.link n).st = .hello → bit (fWord f 0) 3 = true → bits (fWord f 0) 2 0 ≠ 0 → Completes (.hello n f) s fun t =>
      (t.dev.link n).st = .up ∧ (t.dev.link n).heard = true ∧ (t.dev.link n).peer = (fWord f 0).extractLsb' 8 6 ∧
      (t.dev.link n).version = (if 4 ≤ bits (fWord f 0) 2 0 then 3 else if 2 ≤ bits (fWord f 0) 2 0 then 2 else 1)) ∧
    ((s.dev.link n).st = .hello → bit (fWord f 0) 3 = false → bits (fWord f 0) 2 0 ≠ 0 → Completes (.hello n f) s fun t =>
      (t.dev.link n).st = .hello ∧ (t.dev.link n).heard = true ∧ (t.dev.link n).peer = (fWord f 0).extractLsb' 8 6 ∧
      (t.dev.link n).version = (s.dev.link n).version) ∧
    ((s.dev.link n).st = .hello → bits (fWord f 0) 2 0 = 0 → Completes (.hello n f) s fun t => (t.dev.link n).st = .noVersion) ∧
    ((s.dev.link n).st = .noVersion → Completes (.hello n f) s fun t => (t.dev.link n).st = .noVersion)) ∧
  (∀ (n : Fin 4) (f : Frame) (s : State), Canonical s.dev → Acts n f s →
    (Completes (.hb n f) s fun t => (t.dev.memberOf f.origin.toNat).st = .member ∧
      (t.dev.memberOf f.origin.toNat).group = fGroupOpt f ∧ (t.dev.memberOf f.origin.toNat).pck = fPck f ∧
      (t.dev.memberOf f.origin.toNat).lastAt = s.dev.mgt.tref) ∧
    (fLeave f = false → Completes (.member n f) s fun t => (t.dev.memberOf f.origin.toNat).st = .member ∧
      (t.dev.memberOf f.origin.toNat).group = fGroupOpt f) ∧
    (
      (fLeave f = true → Completes (.member n f) s fun t => (t.dev.memberOf f.origin.toNat).st = .absent) ∧
      Completes (.safe n f) s fun t => (t.dev.memberOf f.origin.toNat).st = .absent)) ∧
  (∀ (n : Fin 4) (f : Frame) (s : State), Canonical s.dev → InService s → s.dev.linkNamed n = true → (s.dev.link n).st = .up →
    f.payload.length ≤ maxLen (s.dev.link n).version → Completes (.ack n f) s fun t => (t.dev.link n).unacked =
      (s.dev.link n).unacked.filter fun u => !(u.frame.origin == (fWord f 0).extractLsb' 0 6 && u.frame.oseq == fWord f 1)) ∧
  ∀ (n : Fin 4) (ws : List Word32) (s : State), Canonical s.dev → InService s → s.dev.linkNamed n = true →
    ((parseFrame (s.dev.link n).version ws = none ∨ ∃ typ f, parseFrame (s.dev.link n).version ws = some (typ, f) ∧
        (typ ∉ frameTypes ∨ maxLen (s.dev.link n).version < f.payload.length ∨
          typ = tHello ∧ fWord f 2 ++ fWord f 1 ≠ s.dev.del.ident)) → Completes (.frameReceived n ws) s fun t =>
      t.dev.link n = { s.dev.link n with errs := min 0xFFFF ((s.dev.link n).errs + 1) }) ∧
    ∀ (typ : Nat) (f : Frame) (c : Instr), parseFrame (s.dev.link n).version ws = some (typ, f) →
      (typ, c) ∈ [(tHello, .hello n f), (tHb, .hb n f), (tMember, .member n f), (tSafe, .safe n f), (tAck, .ack n f),
        (tPrepare, .prepare n f), (tHeld, .held n f), (tCut, .cutFrame n f), (tDone, .done n f), (tAbort, .abort n f),
        (tCkreq, .ckreq n f), (tReport, .report n f), (tRetire, .retire n f), (tRecon, .recon n f),
        (tReconDone, .reconDone n f)] → exec (.frameReceived n ws) s = exec c s

/-- A change of PELn_LINK_UP takes the link to HELLO where the engine uses it, else DOWN. A link without a frame for
TIMEOUT is silent, and one that was UP goes back to HELLO. A member without one turns SILENT, and its own group SPLIT.
HELLO goes out every 10 µs, HB every PERIOD on every link that is UP, SAFE in the safe state, and a frame not
acknowledged for 20 µs again. Clauses of it rest on readings and choices of the model: log entries 5, 28, 55, 57.
(spec/ 16_pool_epochs, 02_boundary_ports, 15_faults) -/
def Obligations.LinkTimers : Prop :=
  (∀ (n : Fin 4) (s : State), Canonical s.dev →
    ((s.dev.link n).up = false → s.dev.del.inPool = true → s.dev.del.linksUse.getLsbD n = true → s.dev.up (domPel n) = true →
      Completes (.linkUpChange n true) s fun t => (t.dev.link n).up = true ∧ (t.dev.link n).st = .hello) ∧
    ((s.dev.link n).up = true → Completes (.linkUpChange n false) s fun t =>
      (t.dev.link n).up = false ∧ (t.dev.link n).st = .down ∧ (t.dev.link n).unacked = [])) ∧
  (∀ (n : Fin 4) (s : State), Canonical s.dev → InService s → s.dev.linkNamed n = true →
    ((s.dev.link n).st = .up → s.dev.passed (s.dev.link n).lastAt s.dev.del.hbTimeout = true → Completes (.linkTimeout n) s fun t =>
      (t.dev.link n).st = .hello ∧ (t.dev.link n).heard = false ∧ (t.dev.link n).unacked = []) ∧
    (s.dev.passed (s.dev.link n).lastAt s.dev.del.hbTimeout = true → Completes (.linkTimeout n) s fun t =>
      (t.dev.link n).silent = true) ∧
    ((s.dev.link n).st = .hello → s.dev.passed (s.dev.link n).helloAt 10 = true → Completes (.helloTimer n) s fun t =>
      (t.dev.link n).helloAt = s.dev.mgt.tref ∧ ∃ f, f.origin = s.dev.del.poolId ∧ f.ttl = 0 ∧ f.payload.length = 3 ∧
        .frame n (frameWords (s.dev.link n).version tHello f) ∈ t.dev.drive) ∧
    ∀ u ∈ (s.dev.link n).unacked, s.dev.passed u.sentAt 20 = true → u.tries < 3 → Completes (.retransmitTimer n) s fun t =>
      .frame n (frameWords (s.dev.link n).version u.typ u.frame) ∈ t.dev.drive ∧
      { u with sentAt := s.dev.mgt.tref, tries := u.tries + 1 } ∈ (t.dev.link n).unacked) ∧
  (∀ (m : BitVec 6) (s : State), Canonical s.dev → InService s → (s.dev.memberOf m.toNat).st = .member →
    s.dev.passed (s.dev.memberOf m.toNat).lastAt s.dev.del.hbTimeout = true → Completes (.memberTimeout m) s fun t =>
      (t.dev.memberOf m.toNat).st = .silent ∧
      (m ≠ s.dev.del.poolId → (s.dev.memberOf m.toNat).group = s.dev.del.group → s.dev.del.group.isSome = true →
        t.dev.del.gstate = .split)) ∧
  ∀ s : State, Canonical s.dev → s.dev.del.inPool = true → s.dev.passed s.dev.del.hbAt s.dev.del.hbPeriod = true →
    Completes .heartbeatTimer s fun t => t.dev.del.hbAt = s.dev.mgt.tref ∧
      ∀ n, n < 4 → (s.dev.link n).st = .up → s.dev.linkUsable n = true →
        (s.safe.active = false → ∃ pl, .frame n (frameWords (s.dev.link n).version tHb
          ⟨true, s.dev.del.poolId, 0, 63, s.dev.del.oseq, pl⟩) ∈ t.dev.drive) ∧
        (s.safe.active = true → .frame n (frameWords (s.dev.link n).version tSafe
          ⟨true, s.dev.del.poolId, 0, 63, s.dev.del.oseq, []⟩) ∈ t.dev.drive)

/-- Each row named leaves every part of the block as it was, but the parts named after it. FABRIC_REQUEST,
RESPONSE_TRANSFER, PARKING_TIMEOUT, PARKED_RELEASE: FAB, STL; WRITE_PAYLOAD, WLPC_OPEN, WLPC_AAD, WLPC_CLOSE,
WLPC_RESERVED_TYPE, WINDOW_RESULT, WRITE_WINDOW_TIMEOUT, RLPC_OPEN, RLPC_AAD, RLPC_FORMAT_ERROR, RTAG,
READ_WINDOW_WAIT_TIMEOUT: FAB; ACCESS_GRANT: CAN, FAB, FRS, MED, STL, SVC; LADDER_VERIFY_DONE, MEDIA_READ_BEAT: CAN,
DEL, FAB, FRS, HDMA, KEY, LAN, MED, PER, queues, RMP, STL, SVC; LANE_PASS_DONE: CAN, DEL, FAB, FRS, HDMA, KEY, LAN,
MED, MGT, PER, queues, RMP, STL, SVC, TAP; MEDIA_WRITE_COMPLETION: CAN, DEL, FAB, FRS, HDMA, KEY, MED, PER, queues,
STL, SVC; CREDIT_RETURN: FAB, HDMA, MED, QMG, queues; MCN_FAIL: CAN, DEL, FAB, FRS, HDMA, KEY, MED, PER, queues, RMP,
STL, SVC; TRANSIENT_BUCKET_LEAK: MED; AGEING_TICK: STL. LADDER_VERIFY_DONE and MEDIA_READ_BEAT with no uncorrectable
key error leave LAN too. With no adoption in progress the rows of checkpoints, links, media and departures that go on
with one leave more of these parts. Clauses of it rest on readings and choices of the model: log entry 21. (spec/
04_request_path, 02_boundary_ports, 05_stream_table, 07_transcipher_lanes, 08_freshness_tree) -/
def Obligations.RequestPathFrames : Prop :=
  ∀ s t : State,
    (∀ (p : Fin 8) (op : BitVec 2) (tag : BitVec 12) (sid kid : BitVec 16) (line : LineNo) (sess : BitVec 5) (chk :
      List Chk) (id : Nat) (err : Bool) (chk' : List (Nat × Chk)), ∀ c ∈ ([.fabricRequest p op tag sid kid line sess
      chk, .responseTransfer id err, .parkingTimeout id err, .parkedRelease chk'] : List Instr), exec c s = .next t →
      OnlyChanges [.fab, .stl] s t) ∧
    (∀ (p : Fin 8) (data : Line) (mask : BitVec 64) (e : BitVec 128) (ty : BitVec 2) (sess : BitVec 8) (read : Option
      Nat), ∀ c ∈ ([.writePayload p data mask, .wlpcOpen p e, .wlpcAad p e, .wlpcClose p e, .wlpcReservedType p ty e,
      .windowResult sess, .writeWindowTimeout sess, .rlpcOpen p e, .rlpcAad p e, .rlpcFormatError p ty e, .rtag sess,
      .readWindowWaitTimeout sess read] : List Instr), exec c s = .next t → OnlyChanges [.fab] s t) ∧
    (∀ (id : Nat) (err : Option CanErr), ∀ c ∈ ([.accessGrant id err] : List Instr), exec c s = .next t → OnlyChanges
      [.can, .fab, .frs, .med, .stl, .svc] s t) ∧
    (∀ (id : Nat) (err : Option CanErr) (key : Option (KeyRef × Bool)) (ch : Fin 16) (tag : BitVec 10) (beat : Beat)
      (ecc : BitVec 2) (zenith : Bool), ∀ c ∈ ([.ladderVerifyDone id err key, .mediaReadBeat ch tag beat ecc zenith
      key] : List Instr), exec c s = .next t → OnlyChanges [.can, .del, .fab, .frs, .hdma, .key, .lan, .med, .per,
      .queues, .rmp, .stl, .svc] s t) ∧
    (∀ (id : Nat) (lane : Fin 36) (audit : Audit) (err : Option CanErr) (key : Option (KeyRef × Bool)), ∀ c ∈
      ([.lanePassDone id lane audit err key] : List Instr), exec c s = .next t → OnlyChanges [.can, .del, .fab, .frs,
      .hdma, .key, .lan, .med, .mgt, .per, .queues, .rmp, .stl, .svc, .tap] s t) ∧
    (∀ (ch : Fin 16) (tag : BitVec 10) (status : BitVec 2) (zenith : Bool), ∀ c ∈ ([.mediaWriteCompletion ch tag
      status zenith] : List Instr), exec c s = .next t → OnlyChanges [.can, .del, .fab, .frs, .hdma, .key, .med, .per,
      .queues, .stl, .svc] s t) ∧
    (∀ (c1 : CreditCh), ∀ c ∈ ([.creditReturn c1] : List Instr), exec c s = .next t → OnlyChanges [.fab, .hdma, .med,
      .qmg, .queues] s t) ∧
    (∀ (ch : Fin 16), ∀ c ∈ ([.mcnFail ch] : List Instr), exec c s = .next t → OnlyChanges [.can, .del, .fab, .frs,
      .hdma, .key, .med, .per, .queues, .rmp, .stl, .svc] s t) ∧
    (∀ (ch : Fin 16), ∀ c ∈ ([.transientBucketLeak ch] : List Instr), exec c s = .next t → OnlyChanges [.med] s t) ∧
    (∀ c ∈ ([.ageingTick] : List Instr), exec c s = .next t → OnlyChanges [.stl] s t) ∧
    (∀ (id : Nat) (err : Option CanErr) (ch : Fin 16) (tag : BitVec 10) (beat : Beat) (ecc : BitVec 2) (zenith : Bool)
      (key : Option (KeyRef × Bool)), (∀ r, key ≠ some (r, true)) →
      ∀ c ∈ ([.ladderVerifyDone id err key, .mediaReadBeat ch tag beat ecc zenith key] : List Instr), exec c s = .next t →
        OnlyChanges [.can, .del, .fab, .frs, .hdma, .key, .med, .per, .queues, .rmp, .stl, .svc] s t) ∧
    (s.dev.per.adopt = none →
      (∀ (ch : Fin 16) (tag : BitVec 10) (status : BitVec 2) (zenith : Bool), ∀ c ∈ ([.mediaWriteCompletion ch tag
        status zenith] : List Instr), exec c s = .next t → OnlyChanges [.can, .del, .fab, .frs, .hdma, .med, .per,
        .queues, .stl, .svc] s t) ∧
      (∀ (ch : Fin 16), ∀ c ∈ ([.mcnFail ch] : List Instr), exec c s = .next t → OnlyChanges [.can, .del, .fab, .frs,
        .hdma, .med, .per, .queues, .rmp, .stl, .svc] s t))

/-- Each row named leaves every part of the block as it was, but the parts named after it. HDMA_WRITE_ACK: CAN, DEL, FAB,
FRS, HDMA, KEY, MED, PER, QMG, queues, RMP, STL, SVC; HDMA_READ_DATA: FAB, FRS, HDMA, KEY, QMG, queues, RMP, STL, SVC;
HOST_HOLDOFF_RISE, REG_READ_PAIR_LO, CLUSTER_IDLE_GATE: MGT; HOST_HOLDOFF_FALL: HDMA, MGT, QMG, queues; TAIL, SCAN,
INVALIDATE, DRAIN, ENTRY_FETCH, SCAN_POLL, VECTOR_DUE, ADMIN_RESET, QMG_VEC_LOAD: HDMA, QMG, queues;
ENTRY_CONSUMPTION: HDMA, queues; EVENT_RECORD_WRITE: HDMA, queues, STL; FAB_PORT_EN, FAB_CNT_CLR: FAB; STL_CLEAR,
STL_REJECT_CLR, STL_CNT_CLR, STL_GEOM_SEED_WRITE: STL; STL_CLEAR_DONE: FAB, HDMA, queues, STL; RMP_CLEAR, RMP_SET_CFG:
RMP; RMP_CLEAR_DONE: HDMA, queues, RMP; LAN_KAT_RUN, KAT_PERIOD_EXPIRY, STANDBY_KAT_REPEAT: LAN, MGT; KAT_SET_DONE:
FAB, LAN, MGT, TAP; PROBATION_END: LAN; CAN_CTRL_EN: CAN, FAB, FRS, HDMA, MED, queues; CAN_PIN_CFG, CAN_CNT_CLR: CAN;
CAN_LFSR_RESEED, KEY_DRBG_RESEED: CAN, KEY; WRITE_BACK: CAN, FAB, FRS, HDMA, KEY, LAN, MED, PER, queues, STL, SVC;
FRS_META_BASE_WRITE, FRS_CNT_CLR: FRS; PER_ARM: MED, PER; ARMING_DONE: CAN, DEL, FAB, FRS, HDMA, KEY, MED, PER,
queues, SVC; PER_ANCHOR_BASE_WRITE, PER_CNT_CLR: PER; DRBG_RESEED_DONE, KEY_ENT_EN, ENTROPY_STARTUP_DONE,
ENTROPY_HEALTH_FAIL: CAN, KEY, LAN; KEY_CNT_CLR: KEY; DRBG_INSTANTIATE: CAN, DEL, FAB, FRS, HDMA, KEY, LAN, MED, PER,
queues, SVC; ENABLE: QMG, queues; DISABLE, QUEUE_IDLE: queues; FLT_FIRST_HI_CLEAR, FLT_FORCE, NOTIFICATION_CLEAR:
nothing; FLT_CLASS_WRITE: banks; MED_CNT_CLR: MED; SVC_CNT_CLR: SVC. REG_WRITE of a plain register changes only the
block of that register. WRITE_BACK with no uncorrectable key error leaves LAN, STL and SVC too, HDMA_WRITE_ACK with no
MEASURE running CAN, DEL, MED and PER. With no adoption in progress the rows of checkpoints, links, media and
departures that go on with one leave more of these parts. Clauses of it rest on readings and choices of the model: log
entry 21. (spec/ 12_queue_interface, 18_register_reference, 02_boundary_ports) -/
def Obligations.HostAndRegisterFrames : Prop :=
  ∀ s t : State,
    (∀ (tag : BitVec 8) (err : Bool), ∀ c ∈ ([.hdmaWriteAck tag err] : List Instr), exec c s = .next t → OnlyChanges
      [.can, .del, .fab, .frs, .hdma, .key, .med, .per, .qmg, .queues, .rmp, .stl, .svc] s t) ∧
    (∀ (tag : BitVec 8) (data : BitVec 256) (last err : Bool), ∀ c ∈ ([.hdmaReadData tag data last err] : List Instr),
      exec c s = .next t → OnlyChanges [.fab, .frs, .hdma, .key, .qmg, .queues, .rmp, .stl, .svc] s t) ∧
    (∀ (woff : BitVec 22) (zenith : Bool) (k : Fin 9), ∀ c ∈ ([.hostHoldoffRise, .regReadPairLo woff zenith,
      .clusterIdleGate k] : List Instr), exec c s = .next t → OnlyChanges [.mgt] s t) ∧
    (∀ c ∈ ([.hostHoldoffFall] : List Instr), exec c s = .next t → OnlyChanges [.hdma, .mgt, .qmg, .queues] s t) ∧
    (∀ (slot q : BitVec 14) (low : BitVec 30) (be : BitVec 8) (vec : BitVec 11) (v : Word32), ∀ c ∈ ([.tail slot low
      be, .scan slot low be, .invalidate slot low be, .drain slot low be, .entryFetch q, .scanPoll q, .vectorDue vec,
      .adminReset q, .qmgVecLoad v] : List Instr), exec c s = .next t → OnlyChanges [.hdma, .qmg, .queues] s t) ∧
    (∀ (q : BitVec 14) (err : Option Bool), ∀ c ∈ ([.entryConsumption q err] : List Instr), exec c s = .next t →
      OnlyChanges [.hdma, .queues] s t) ∧
    (∀ (src : EvSrc), ∀ c ∈ ([.eventRecordWrite src] : List Instr), exec c s = .next t → OnlyChanges [.hdma, .queues,
      .stl] s t) ∧
    (∀ (v : Word32), ∀ c ∈ ([.fabPortEn v, .fabCntClr v] : List Instr), exec c s = .next t → OnlyChanges [.fab] s t) ∧
    (∀ (v : Word32) (reg : GeomReg) (set : Fin 2), ∀ c ∈ ([.stlClear v, .stlRejectClr v, .stlCntClr v,
      .stlGeomSeedWrite reg set v] : List Instr), exec c s = .next t → OnlyChanges [.stl] s t) ∧
    (∀ c ∈ ([.stlClearDone] : List Instr), exec c s = .next t → OnlyChanges [.fab, .hdma, .queues, .stl] s t) ∧
    (∀ (v : Word32) (set : Fin 2), ∀ c ∈ ([.rmpClear v, .rmpSetCfg set v] : List Instr), exec c s = .next t →
      OnlyChanges [.rmp] s t) ∧
    (∀ c ∈ ([.rmpClearDone] : List Instr), exec c s = .next t → OnlyChanges [.hdma, .queues, .rmp] s t) ∧
    (∀ (hi : Word32) (lane : Fin 36), ∀ c ∈ ([.lanKatRun hi, .katPeriodExpiry lane, .standbyKatRepeat lane] : List
      Instr), exec c s = .next t → OnlyChanges [.lan, .mgt] s t) ∧
    (∀ (lane : Fin 36) (results : List Bytes), ∀ c ∈ ([.katSetDone lane results] : List Instr), exec c s = .next t →
      OnlyChanges [.fab, .lan, .mgt, .tap] s t) ∧
    (∀ (lane : Fin 36), ∀ c ∈ ([.probationEnd lane] : List Instr), exec c s = .next t → OnlyChanges [.lan] s t) ∧
    (∀ (v : Word32), ∀ c ∈ ([.canCtrlEn v] : List Instr), exec c s = .next t → OnlyChanges [.can, .fab, .frs, .hdma,
      .med, .queues] s t) ∧
    (∀ (v : Word32), ∀ c ∈ ([.canPinCfg v, .canCntClr v] : List Instr), exec c s = .next t → OnlyChanges [.can] s t) ∧
    (∀ (v : Word32) (drbg : Option Bool), ∀ c ∈ ([.canLfsrReseed v drbg, .keyDrbgReseed v] : List Instr), exec c s =
      .next t → OnlyChanges [.can, .key] s t) ∧
    (∀ (err : Option CanErr) (key : Option (KeyRef × Bool)), ∀ c ∈ ([.writeBack err key] : List Instr), exec c s =
      .next t → OnlyChanges [.can, .fab, .frs, .hdma, .key, .lan, .med, .per, .queues, .stl, .svc] s t) ∧
    (∀ (limit : Bool) (v : Word32), ∀ c ∈ ([.frsMetaBaseWrite limit v, .frsCntClr v] : List Instr), exec c s = .next t
      → OnlyChanges [.frs] s t) ∧
    (∀ (v : Word32), ∀ c ∈ ([.perArm v] : List Instr), exec c s = .next t → OnlyChanges [.med, .per] s t) ∧
    (∀ c ∈ ([.armingDone] : List Instr), exec c s = .next t → OnlyChanges [.can, .del, .fab, .frs, .hdma, .key, .med,
      .per, .queues, .svc] s t) ∧
    (∀ (v : Word32), ∀ c ∈ ([.perAnchorBaseWrite v, .perCntClr v] : List Instr), exec c s = .next t → OnlyChanges
      [.per] s t) ∧
    (∀ (samples : Bytes) (drbg : Option Bool) (v : Word32) (n : Fin 8), ∀ c ∈ ([.drbgReseedDone samples drbg,
      .keyEntEn v, .entropyStartupDone n samples, .entropyHealthFail n samples] : List Instr), exec c s = .next t →
      OnlyChanges [.can, .key, .lan] s t) ∧
    (∀ (v : Word32), ∀ c ∈ ([.keyCntClr v] : List Instr), exec c s = .next t → OnlyChanges [.key] s t) ∧
    (∀ (samples : Bytes) (lfsr : List Word32), ∀ c ∈ ([.drbgInstantiate samples lfsr] : List Instr), exec c s = .next
      t → OnlyChanges [.can, .del, .fab, .frs, .hdma, .key, .lan, .med, .per, .queues, .svc] s t) ∧
    (∀ (q : BitVec 14), ∀ c ∈ ([.enable q] : List Instr), exec c s = .next t → OnlyChanges [.qmg, .queues] s t) ∧
    (∀ (q : BitVec 14), ∀ c ∈ ([.disable q, .queueIdle q] : List Instr), exec c s = .next t → OnlyChanges [.queues] s
      t) ∧
    (∀ (b : Fin 14) (w : BitVec 6) (v : Word32), ∀ c ∈ ([.fltFirstHiClear b, .fltForce b w v, .notificationClear b w
      v] : List Instr), exec c s = .next t → OnlyChanges [] s t) ∧
    (∀ (b : Fin 14) (w : BitVec 6) (v : Word32), ∀ c ∈ ([.fltClassWrite b w v] : List Instr), exec c s = .next t →
      OnlyChanges [.banks] s t) ∧
    (∀ (v : Word32), ∀ c ∈ ([.medCntClr v] : List Instr), exec c s = .next t → OnlyChanges [.med] s t) ∧
    (∀ (v : Word32), ∀ c ∈ ([.svcCntClr v] : List Instr), exec c s = .next t → OnlyChanges [.svc] s t) ∧
    (∀ v : Word32, ∀ p ∈ ([(0x10000, .safeRegs), (0x10020, .mgt), (0x20004, .fab), (0x40000, .stl), (0x40004, .stl), (0x40008, .stl), (0x4000C, .stl), (0x40010, .stl), (0x68004, .rmp), (0x80004, .lan), (0x80008, .lan), (0x80010, .mgt), (0xA0000, .mgt), (0xA000C, .frs), (0xA0010, .frs), (0xA0020, .frs), (0xC0004, .can), (0xC000C, .can), (0xE0000, .med), (0xE0004, .med), (0x100004, .key), (0x120004, .qmg), (0x12000C, .qmg), (0x120010, .qmg), (0x120018, .qmg), (0x120020, .mgt), (0x120024, .qmg), (0x140000, .svc), (0x140004, .svc), (0x140008, .svc), (0x14000C, .svc), (0x140010, .svc), (0x160000, .per), (0x160004, .per), (0x160008, .mgt), (0x160010, .per), (0x18000C, .safeRegs), (0x180010, .qmg), (0x180014, .qmg), (0x1A0000, .del), (0x1A0004, .del), (0x1A0008, .del), (0x1A000C, .del)] :
        List (Nat × Sys2Proof.Machine.Part)),
      exec (.regWrite (BitVec.ofNat 22 (p.1 / 4)) v) s = .next t → OnlyChanges [p.2] s t) ∧
    (∀ (err : Option CanErr) (key : Option (KeyRef × Bool)), (∀ r, key ≠ some (r, true)) → exec (.writeBack err key) s = .next t →
      OnlyChanges [.can, .fab, .frs, .hdma, .key, .med, .per, .queues] s t) ∧
    (∀ (tag : BitVec 8) (err : Bool), s.dev.measuring = false → exec (.hdmaWriteAck tag err) s = .next t →
      OnlyChanges [.fab, .frs, .hdma, .key, .qmg, .queues, .rmp, .stl, .svc] s t) ∧
    (s.dev.per.adopt = none →
      (∀ (tag : BitVec 8) (err : Bool), ∀ c ∈ ([.hdmaWriteAck tag err] : List Instr), exec c s = .next t → OnlyChanges
        [.del, .fab, .frs, .hdma, .key, .med, .per, .qmg, .queues, .rmp, .stl, .svc] s t) ∧
      (∀ c ∈ ([.armingDone] : List Instr), exec c s = .next t → OnlyChanges [.del, .hdma, .per, .queues] s t) ∧
      (∀ (samples : Bytes) (lfsr : List Word32), ∀ c ∈ ([.drbgInstantiate samples lfsr] : List Instr), exec c s =
        .next t → OnlyChanges [.can, .del, .hdma, .key, .lan, .med, .per, .queues, .svc] s t))

/-- Each row named leaves every part of the block as it was, but the parts named after it. ANVIL_RESPONSE, ANVIL_TIMEOUT,
ANCHOR_RESTORE, POOL_LEAVE, POOL_RECONCILE, CHECKPOINT, RELEASE, COMMIT: CAN, DEL, FAB, FRS, HDMA, KEY, MED, PER,
queues, SVC; ZEROISATION_CONFIRM, KEK_LOAD_DERIVE: HDMA, KEY, queues; KEY_ZEROISE_TIMEOUT: nothing; CREATE_QUEUE,
DELETE_QUEUE, RESET_QUEUE, GET_FEATURE, IDENTIFY: HDMA, queues; SWAP_CONFIG, REGION_WRITE, REGION_READ: HDMA, queues,
RMP; SWAP_CYCLE, SHADOW_RELEASE: FAB, HDMA, queues, RMP, STL; ADOPT_ZONE, ADOPTION_START, ZONE_DEPARTURE: CAN, FAB,
FRS, HDMA, KEY, MED, PER, queues, SVC; FORMAT_ZONE, SANITIZE, SCRUB, SEAL, UNSEAL, TRANSCODE: CAN, FRS, HDMA, KEY,
queues, SVC; TREE_RESET, SERVICE_STEP_DONE: CAN, FAB, FRS, HDMA, MED, queues, SVC; POOL_JOIN: DEL, HDMA, queues;
KEY_INSTALL, KEY_GENERATE, KEK_LOAD_UNWRAP, SESSION_KEY_INSTALL: CAN, FAB, FRS, HDMA, KEY, LAN, MED, queues, STL, SVC;
KEY_DESTROY: FAB, HDMA, KEY, LAN, queues; KEY_DRAINED: FAB, KEY, LAN; STREAM_INSERT, STREAM_REMOVE, STREAM_QUERY: FAB,
HDMA, queues, STL; REKEY_START: HDMA, queues, RMP, SVC; REKEY_ABORT: FRS, HDMA, queues, RMP, SVC;
SERVICE_COMMAND_START: FRS, HDMA, queues, SVC; CANOPY_MAINT_FLUSH, CANOPY_MAINT_INVALIDATE, FLUSH_INV, PIN, UNPIN,
CANOPY_MAINT_READ, ZERO: CAN, FAB, FRS, HDMA, MED, queues; MEASURE: CAN, FAB, FRS, HDMA, KEY, LAN, MED, queues, RMP,
STL, SVC; PERIODIC_CHECKPOINT: DEL, PER; HOLD: PER; CUT: CAN, DEL, FAB, FRS, HDMA, KEY, LAN, MED, PER, queues, STL,
SVC; SERVICE_STEP_START: CAN, FAB, FRS, HDMA, MED, queues, RMP, STL, SVC; FRONT_STEP_DONE: DEL, FAB, RMP, SVC;
SCRUB_DONE: SVC. SET_FEATURE: queues, HDMA and the feature's block. With no uncorrectable key error key commands and
CUT change less. With no adoption in progress the rows of checkpoints, links, media and departures that go on with one
leave more of these parts. Clauses of it rest on readings and choices of the model: log entry 21. (spec/ 13_commands,
11_key_services, 10_persistence, 14_background_services, 09_canopy_cache) -/
def Obligations.QueueCommandFrames : Prop :=
  ∀ s t : State,
    (∀ (rdata : Word32) (err zenith : Bool) (q : BitVec 14) (pos : BitVec 16), ∀ c ∈ ([.anvilResponse rdata err,
      .anvilTimeout, .anchorRestore q pos zenith, .poolLeave q pos, .poolReconcile q pos, .checkpoint q pos, .release,
      .commit zenith] : List Instr), exec c s = .next t → OnlyChanges [.can, .del, .fab, .frs, .hdma, .key, .med,
      .per, .queues, .svc] s t) ∧
    (∀ (q : BitVec 14) (pos : BitVec 16), ∀ c ∈ ([.zeroisationConfirm q pos, .kekLoadDerive q pos] : List Instr), exec
      c s = .next t → OnlyChanges [.hdma, .key, .queues] s t) ∧
    (∀ (q : BitVec 14) (pos : BitVec 16), ∀ c ∈ ([.keyZeroiseTimeout q pos] : List Instr), exec c s = .next t →
      OnlyChanges [] s t) ∧
    (∀ (q : BitVec 14) (pos : BitVec 16), ∀ c ∈ ([.createQueue q pos, .deleteQueue q pos, .resetQueue q pos,
      .getFeature q pos, .identify q pos] : List Instr), exec c s = .next t → OnlyChanges [.hdma, .queues] s t) ∧
    (∀ (q : BitVec 14) (pos : BitVec 16), ∀ c ∈ ([.swapConfig q pos, .regionWrite q pos, .regionRead q pos] : List
      Instr), exec c s = .next t → OnlyChanges [.hdma, .queues, .rmp] s t) ∧
    (∀ c ∈ ([.swapCycle, .shadowRelease] : List Instr), exec c s = .next t → OnlyChanges [.fab, .hdma, .queues, .rmp,
      .stl] s t) ∧
    (∀ (q : BitVec 14) (pos : BitVec 16) (zenith : Bool) (drbg : Option Bool) (z : BitVec 13), ∀ c ∈ ([.adoptZone q
      pos zenith drbg, .adoptionStart zenith, .zoneDeparture z] : List Instr), exec c s = .next t → OnlyChanges [.can,
      .fab, .frs, .hdma, .key, .med, .per, .queues, .svc] s t) ∧
    (∀ (q : BitVec 14) (pos : BitVec 16) (zenith : Bool) (drbg : Option Bool), ∀ c ∈ ([.formatZone q pos zenith drbg,
      .sanitize q pos zenith drbg, .scrub q pos zenith, .seal q pos zenith drbg, .unseal q pos zenith, .transcode q
      pos zenith] : List Instr), exec c s = .next t → OnlyChanges [.can, .frs, .hdma, .key, .queues, .svc] s t) ∧
    (∀ (z : BitVec 13) (zenith : Bool) (step : Nat), ∀ c ∈ ([.treeReset z zenith, .serviceStepDone step zenith] : List
      Instr), exec c s = .next t → OnlyChanges [.can, .fab, .frs, .hdma, .med, .queues, .svc] s t) ∧
    (∀ (q : BitVec 14) (pos : BitVec 16), ∀ c ∈ ([.poolJoin q pos] : List Instr), exec c s = .next t → OnlyChanges
      [.del, .hdma, .queues] s t) ∧
    (∀ (q : BitVec 14) (pos : BitVec 16) (key : Option (KeyRef × Bool)), ∀ c ∈ ([.keyInstall q pos key, .keyGenerate q
      pos key, .kekLoadUnwrap q pos key, .sessionKeyInstall q pos key] : List Instr), exec c s = .next t → OnlyChanges
      [.can, .fab, .frs, .hdma, .key, .lan, .med, .queues, .stl, .svc] s t) ∧
    (∀ (q : BitVec 14) (pos : BitVec 16), ∀ c ∈ ([.keyDestroy q pos] : List Instr), exec c s = .next t → OnlyChanges
      [.fab, .hdma, .key, .lan, .queues] s t) ∧
    (∀ (q : BitVec 14) (pos : BitVec 16), ∀ c ∈ ([.keyDrained q pos] : List Instr), exec c s = .next t → OnlyChanges
      [.fab, .key, .lan] s t) ∧
    (∀ (q : BitVec 14) (pos : BitVec 16) (chk : List (Nat × Chk)), ∀ c ∈ ([.streamInsert q pos chk, .streamRemove q
      pos chk, .streamQuery q pos chk] : List Instr), exec c s = .next t → OnlyChanges [.fab, .hdma, .queues, .stl] s
      t) ∧
    (∀ (q : BitVec 14) (pos : BitVec 16), ∀ c ∈ ([.rekeyStart q pos] : List Instr), exec c s = .next t → OnlyChanges
      [.hdma, .queues, .rmp, .svc] s t) ∧
    (∀ (q : BitVec 14) (pos : BitVec 16), ∀ c ∈ ([.rekeyAbort q pos] : List Instr), exec c s = .next t → OnlyChanges
      [.frs, .hdma, .queues, .rmp, .svc] s t) ∧
    (∀ (q : BitVec 14) (pos : BitVec 16), ∀ c ∈ ([.serviceCommandStart q pos] : List Instr), exec c s = .next t →
      OnlyChanges [.frs, .hdma, .queues, .svc] s t) ∧
    (∀ (q : BitVec 14) (pos : BitVec 16) (err : Option CanErr) (err' : Option Bool), ∀ c ∈ ([.canopyMaintFlush q pos,
      .canopyMaintInvalidate q pos, .flushInv q pos, .pin q pos err, .unpin q pos, .canopyMaintRead q pos err', .zero
      q pos] : List Instr), exec c s = .next t → OnlyChanges [.can, .fab, .frs, .hdma, .med, .queues] s t) ∧
    (∀ (q : BitVec 14) (pos : BitVec 16) (key : Option (KeyRef × Bool)) (zenith : Bool), ∀ c ∈ ([.measure q pos key
      zenith] : List Instr), exec c s = .next t → OnlyChanges [.can, .fab, .frs, .hdma, .key, .lan, .med, .queues,
      .rmp, .stl, .svc] s t) ∧
    (∀ c ∈ ([.periodicCheckpoint] : List Instr), exec c s = .next t → OnlyChanges [.del, .per] s t) ∧
    (∀ c ∈ ([.hold] : List Instr), exec c s = .next t → OnlyChanges [.per] s t) ∧
    (∀ (err : Option CanErr) (key : Option (KeyRef × Bool)), ∀ c ∈ ([.cut err key] : List Instr), exec c s = .next t →
      OnlyChanges [.can, .del, .fab, .frs, .hdma, .key, .lan, .med, .per, .queues, .stl, .svc] s t) ∧
    (∀ (who : SvcWho) (chk : List Chk), ∀ c ∈ ([.serviceStepStart who chk] : List Instr), exec c s = .next t →
      OnlyChanges [.can, .fab, .frs, .hdma, .med, .queues, .rmp, .stl, .svc] s t) ∧
    (∀ (step : Nat), ∀ c ∈ ([.frontStepDone step] : List Instr), exec c s = .next t → OnlyChanges [.del, .fab, .rmp,
      .svc] s t) ∧
    (∀ c ∈ ([.scrubDone] : List Instr), exec c s = .next t → OnlyChanges [.svc] s t) ∧
    (∀ (q : BitVec 14) (pos : BitVec 16) (x : Exec), Runs q pos cSetFeature noRules x s → exec (.setFeature q pos) s = .next t →
      ∀ p ∈ ([(1, .fab), (2, .stl), (3, .stl), (4, .stl), (5, .lan), (6, .lan), (7, .can), (8, .per), (9, .key), (10, .qmg)] : List (Nat × Sys2Proof.Machine.Part)),
        num x.entry 8 2 = p.1 → OnlyChanges [.queues, .hdma, p.2] s t) ∧
    (∀ (q : BitVec 14) (pos : BitVec 16) (key : Option (KeyRef × Bool)) (zenith : Bool) (err : Option CanErr),
      (∀ r, key ≠ some (r, true)) →
      ∀ p ∈ ([(.keyInstall q pos key, [.key, .queues, .hdma]), (.kekLoadUnwrap q pos key, [.key, .queues, .hdma]),
        (.keyGenerate q pos key, [.key, .can, .queues, .hdma]), (.sessionKeyInstall q pos key, [.key, .fab, .queues, .hdma]),
        (.measure q pos key zenith, [.key, .fab, .stl, .rmp, .queues, .hdma]),
        (.cut err key, [.can, .del, .fab, .frs, .hdma, .key, .med, .per, .queues, .svc])] :
          List (Instr × List Sys2Proof.Machine.Part)),
        exec p.1 s = .next t → OnlyChanges p.2 s t) ∧
    (s.dev.per.adopt = none →
      (∀ (rdata : Word32) (err zenith : Bool) (q : BitVec 14) (pos : BitVec 16), ∀ c ∈ ([.anvilResponse rdata err,
        .anvilTimeout, .anchorRestore q pos zenith, .release] : List Instr), exec c s = .next t → OnlyChanges [.del,
        .hdma, .med, .per, .queues, .svc] s t) ∧
      (∀ (q : BitVec 14) (pos : BitVec 16) (zenith : Bool), ∀ c ∈ ([.poolLeave q pos, .commit zenith] : List Instr),
        exec c s = .next t → OnlyChanges [.del, .hdma, .per, .queues, .svc] s t) ∧
      (∀ (q : BitVec 14) (pos : BitVec 16), ∀ c ∈ ([.poolReconcile q pos, .checkpoint q pos] : List Instr), exec c s =
        .next t → OnlyChanges [.del, .hdma, .per, .queues] s t) ∧
      (∀ (z : BitVec 13), ∀ c ∈ ([.zoneDeparture z] : List Instr), exec c s = .next t → OnlyChanges [.frs, .hdma,
        .queues, .svc] s t))

/-- Each row named leaves every part of the block as it was, but the parts named after it. PF_WARN, PF_WARN_CLEAR: CAN,
DEL, FAB, FRS, HDMA, KEY, MED, MGT, PER, queues, STL, SVC; SYS_RST_N_RELEASE: banks, CAN, DEL, FAB, FRS, HDMA, KEY,
LAN, MED, MGT, PER, QMG, queues, RMP, SAFE registers, STL, SVC, TAP; FPN_RST_N: FAB, MGT, STL; MCN_RST_N: CAN, DEL,
FAB, FRS, HDMA, KEY, MED, MGT, PER, queues, RMP, STL, SVC; HDMA_RST_N: CAN, DEL, FAB, FRS, HDMA, KEY, MED, MGT, PER,
QMG, queues, RMP, STL, SVC; HDMA_RESET_RELEASE: HDMA, MGT, QMG, queues; PELN_RST_N, PELN_RESET_RELEASE: DEL, MGT;
CLOCK_MEASUREMENT: CAN, DEL, FAB, FRS, HDMA, KEY, LAN, MED, MGT, PER, QMG, queues, RMP, STL, SVC, TAP; FUSE_ACK,
FUSE_LOAD_FAILURE, MCN_RESET_RELEASE: MGT; FUSE_PHASE_DONE: KEY, LAN, MGT, TAP; SRAM_INIT_DONE: KEY, MGT;
SELFTEST_DONE: CAN, KEY, LAN, MGT; READY: LAN, MGT, PER, STL, SVC; SQUALL_ENTRY: nothing; ZEROISATION_DONE: FAB, FRS,
KEY, LAN, TAP; LINK_UP_CHANGE, HELLO_TIMER, HEARTBEAT_TIMER, RETRANSMIT_TIMER, LINK_TIMEOUT: DEL; FRAME_RECEIVED,
HELLO, HB, MEMBER, SAFE, ACK, MEMBER_TIMEOUT, PREPARE, HELD, CUT_FRAME, DONE, ABORT, CKREQ, TXN_TIMEOUT, REPORT,
RETIRE, RECON, RECON_DONE: CAN, DEL, FAB, FRS, HDMA, KEY, MED, PER, queues, SVC; TRST_N: MGT, TAP; EXTEST, IDCODE,
SAMPLE_PRELOAD, CLAMP, NETWORK, BYPASS, TAP_REG_READ: TAP; TAP_KAT: LAN, MGT, TAP; FPN_RESET_RELEASE: FAB, MGT. With
no adoption in progress the rows of checkpoints, links, media and departures that go on with one leave more of these
parts. Clauses of it rest on readings and choices of the model: log entry 21. (spec/ 03_clocks_resets_power,
17_bring_up, 16_pool_epochs, 15_faults) -/
def Obligations.PowerAndPoolFrames : Prop :=
  ∀ s t : State,
    (∀ c ∈ ([.pfWarn, .pfWarnClear] : List Instr), exec c s = .next t → OnlyChanges [.can, .del, .fab, .frs, .hdma,
      .key, .med, .mgt, .per, .queues, .stl, .svc] s t) ∧
    (∀ c ∈ ([.sysRstNRelease] : List Instr), exec c s = .next t → OnlyChanges [.banks, .can, .del, .fab, .frs, .hdma,
      .key, .lan, .med, .mgt, .per, .qmg, .queues, .rmp, .safeRegs, .stl, .svc, .tap] s t) ∧
    (∀ (p : Fin 8), ∀ c ∈ ([.fpnRstN p] : List Instr), exec c s = .next t → OnlyChanges [.fab, .mgt, .stl] s t) ∧
    (∀ (ch : Fin 16), ∀ c ∈ ([.mcnRstN ch] : List Instr), exec c s = .next t → OnlyChanges [.can, .del, .fab, .frs,
      .hdma, .key, .med, .mgt, .per, .queues, .rmp, .stl, .svc] s t) ∧
    (∀ c ∈ ([.hdmaRstN] : List Instr), exec c s = .next t → OnlyChanges [.can, .del, .fab, .frs, .hdma, .key, .med,
      .mgt, .per, .qmg, .queues, .rmp, .stl, .svc] s t) ∧
    (∀ c ∈ ([.hdmaResetRelease] : List Instr), exec c s = .next t → OnlyChanges [.hdma, .mgt, .qmg, .queues] s t) ∧
    (∀ (n : Fin 4), ∀ c ∈ ([.pelnRstN n, .pelnResetRelease n] : List Instr), exec c s = .next t → OnlyChanges [.del,
      .mgt] s t) ∧
    (∀ (dom : Fin 60) (freq : BitVec 16), ∀ c ∈ ([.clockMeasurement dom freq] : List Instr), exec c s = .next t →
      OnlyChanges [.can, .del, .fab, .frs, .hdma, .key, .lan, .med, .mgt, .per, .qmg, .queues, .rmp, .stl, .svc, .tap]
      s t) ∧
    (∀ (level : Bool) (data : Word32) (ch : Fin 16), ∀ c ∈ ([.fuseAck level data, .fuseLoadFailure, .mcnResetRelease
      ch] : List Instr), exec c s = .next t → OnlyChanges [.mgt] s t) ∧
    (∀ c ∈ ([.fusePhaseDone] : List Instr), exec c s = .next t → OnlyChanges [.key, .lan, .mgt, .tap] s t) ∧
    (∀ c ∈ ([.sramInitDone] : List Instr), exec c s = .next t → OnlyChanges [.key, .mgt] s t) ∧
    (∀ (laneResults : List (List Bytes)) (keyPass : Bool), ∀ c ∈ ([.selftestDone laneResults keyPass] : List Instr),
      exec c s = .next t → OnlyChanges [.can, .key, .lan, .mgt] s t) ∧
    (∀ c ∈ ([.ready] : List Instr), exec c s = .next t → OnlyChanges [.lan, .mgt, .per, .stl, .svc] s t) ∧
    (∀ (b : Fin 14) (src : BitVec 10), ∀ c ∈ ([.squallEntry b src] : List Instr), exec c s = .next t → OnlyChanges []
      s t) ∧
    (∀ c ∈ ([.zeroisationDone] : List Instr), exec c s = .next t → OnlyChanges [.fab, .frs, .key, .lan, .tap] s t) ∧
    (∀ (n : Fin 4) (up : Bool), ∀ c ∈ ([.linkUpChange n up, .helloTimer n, .heartbeatTimer, .retransmitTimer n,
      .linkTimeout n] : List Instr), exec c s = .next t → OnlyChanges [.del] s t) ∧
    (∀ (n : Fin 4) (words : List Word32) (f : Frame) (m : BitVec 6), ∀ c ∈ ([.frameReceived n words, .hello n f, .hb n
      f, .member n f, .safe n f, .ack n f, .memberTimeout m, .prepare n f, .held n f, .cutFrame n f, .done n f, .abort
      n f, .ckreq n f, .txnTimeout, .report n f, .retire n f, .recon n f, .reconDone n f] : List Instr), exec c s =
      .next t → OnlyChanges [.can, .del, .fab, .frs, .hdma, .key, .med, .per, .queues, .svc] s t) ∧
    (∀ (level : Bool), ∀ c ∈ ([.trstN level] : List Instr), exec c s = .next t → OnlyChanges [.mgt, .tap] s t) ∧
    (∀ (sampled loaded : BitVec Config.chainBits) (testLogicReset sibReg sibKat zenith : Bool) (code : BitVec 8) (woff
      : BitVec 22), ∀ c ∈ ([.extest sampled loaded, .idcode testLogicReset, .samplePreload sampled loaded, .clamp,
      .network sibReg sibKat, .bypass code, .tapRegRead woff zenith] : List Instr), exec c s = .next t → OnlyChanges
      [.tap] s t) ∧
    (∀ (lane : BitVec 6), ∀ c ∈ ([.tapKat lane] : List Instr), exec c s = .next t → OnlyChanges [.lan, .mgt, .tap] s
      t) ∧
    (∀ (p : Fin 8), ∀ c ∈ ([.fpnResetRelease p] : List Instr), exec c s = .next t → OnlyChanges [.fab, .mgt] s t) ∧
    (s.dev.per.adopt = none →
      (∀ c ∈ ([.pfWarn] : List Instr), exec c s = .next t → OnlyChanges [.del, .fab, .frs, .hdma, .key, .med, .mgt,
        .per, .queues, .stl, .svc] s t) ∧
      (∀ c ∈ ([.pfWarnClear] : List Instr), exec c s = .next t → OnlyChanges [.del, .fab, .mgt, .per, .stl] s t) ∧
      (∀ (ch : Fin 16), ∀ c ∈ ([.mcnRstN ch] : List Instr), exec c s = .next t → OnlyChanges [.can, .del, .fab, .frs,
        .hdma, .med, .mgt, .per, .queues, .rmp, .stl, .svc] s t) ∧
      (∀ c ∈ ([.hdmaRstN] : List Instr), exec c s = .next t → OnlyChanges [.del, .fab, .frs, .hdma, .key, .med, .mgt,
        .per, .qmg, .queues, .rmp, .stl, .svc] s t) ∧
      (∀ (n : Fin 4) (words : List Word32) (f : Frame) (m : BitVec 6), ∀ c ∈ ([.frameReceived n words, .hello n f, .hb
        n f, .member n f, .safe n f, .ack n f, .memberTimeout m, .prepare n f, .held n f, .cutFrame n f, .done n f,
        .abort n f, .ckreq n f, .txnTimeout, .report n f, .retire n f, .recon n f, .reconDone n f] : List Instr), exec
        c s = .next t → OnlyChanges [.can, .del, .hdma, .key, .med, .per, .queues, .svc] s t))
end

