-- ==== Sys2Proof/Laws/Cipher.lean ====
section
/-! SUPPORT. The substitution table of AES is inversion in the field followed by the affine map, and the inverse table
undoes it. -/

namespace Sys2Proof
namespace Laws

open Sys2Proof.Machine

/-- Multiplication in the field of AES, byte by byte. -/
def fieldMul (a b : Byte) : Byte :=
  ((List.range 8).foldl (fun (r : Byte × Byte) k =>
    (if b.getLsbD k then r.1 ^^^ r.2 else r.1, (r.2 <<< 1) ^^^ (if r.2.msb then 0x1B#8 else 0#8))) (0#8, a)).1

/-- The inverse of the affine map. -/
def affineInverse (b : Byte) : Byte := b.rotateLeft 1 ^^^ b.rotateLeft 3 ^^^ b.rotateLeft 6 ^^^ 0x05#8

/-- The table entry of a byte other than 0 is the affine image of its inverse in the field. -/
theorem sub_byte_inverts : ∀ a ∈ (List.range 256).drop 1,
    fieldMul (BitVec.ofNat 8 a) (affineInverse (subByte (BitVec.ofNat 8 a))) = 1 := by decide +kernel

/-- The table entry of 0 is the affine image of 0. -/
theorem sub_byte_zero : affineInverse (subByte 0) = 0 := by decide +kernel

/-- The inverse table undoes the table. -/
theorem inv_sbox_undoes : ∀ a ∈ List.range 256, lookup invSbox (lookup sbox a) = a := by decide +kernel

end Laws
end Sys2Proof
end

