-- ==== Sys2Proof/Laws/Dispatch.lean ====
section
/-! SUPPORT. Each arm of exec, so that no proof unfolds the whole match. -/

namespace Sys2Proof
namespace Machine

theorem exec_fabricRequest (p : Fin 8) (op : BitVec 2) (tag : BitVec 12) (sid : BitVec 16) (kid : BitVec 16) (line : LineNo) (sess : BitVec 5) (chk : List Chk) (s : State) : exec (.fabricRequest p op tag sid kid line sess chk) s = execFabricRequest p op tag sid kid line sess chk s := rfl
theorem exec_writePayload (p : Fin 8) (data : Line) (mask : BitVec 64) (s : State) : exec (.writePayload p data mask) s = execWritePayload p data mask s := rfl
theorem exec_wlpcOpen (p : Fin 8) (e : BitVec 128) (s : State) : exec (.wlpcOpen p e) s = execWlpcOpen p e s := rfl
theorem exec_wlpcAad (p : Fin 8) (e : BitVec 128) (s : State) : exec (.wlpcAad p e) s = execWlpcAad p e s := rfl
theorem exec_wlpcClose (p : Fin 8) (e : BitVec 128) (s : State) : exec (.wlpcClose p e) s = execWlpcClose p e s := rfl
theorem exec_wlpcReservedType (p : Fin 8) (ty : BitVec 2) (e : BitVec 128) (s : State) : exec (.wlpcReservedType p ty e) s = execWlpcReservedType p ty e s := rfl
theorem exec_windowResult (sess : BitVec 8) (s : State) : exec (.windowResult sess) s = execWindowResult sess s := rfl
theorem exec_writeWindowTimeout (sess : BitVec 8) (s : State) : exec (.writeWindowTimeout sess) s = execWriteWindowTimeout sess s := rfl
theorem exec_rlpcOpen (p : Fin 8) (e : BitVec 128) (s : State) : exec (.rlpcOpen p e) s = execRlpcOpen p e s := rfl
theorem exec_rlpcAad (p : Fin 8) (e : BitVec 128) (s : State) : exec (.rlpcAad p e) s = execRlpcAad p e s := rfl
theorem exec_rlpcFormatError (p : Fin 8) (ty : BitVec 2) (e : BitVec 128) (s : State) : exec (.rlpcFormatError p ty e) s = execRlpcFormatError p ty e s := rfl
theorem exec_rtag (sess : BitVec 8) (s : State) : exec (.rtag sess) s = execRtag sess s := rfl
theorem exec_readWindowWaitTimeout (sess : BitVec 8) (read : Option Nat) (s : State) : exec (.readWindowWaitTimeout sess read) s = execReadWindowWaitTimeout sess read s := rfl
theorem exec_accessGrant (id : Nat) (err : Option CanErr) (s : State) : exec (.accessGrant id err) s = execAccessGrant id err s := rfl
theorem exec_ladderVerifyDone (id : Nat) (err : Option CanErr) (key : Option (KeyRef × Bool)) (s : State) : exec (.ladderVerifyDone id err key) s = execLadderVerifyDone id err key s := rfl
theorem exec_mediaReadBeat (ch : Fin 16) (tag : BitVec 10) (beat : Beat) (ecc : BitVec 2) (zenith : Bool) (key : Option (KeyRef × Bool)) (s : State) : exec (.mediaReadBeat ch tag beat ecc zenith key) s = execMediaReadBeat ch tag beat ecc zenith key s := rfl
theorem exec_lanePassDone (id : Nat) (lane : Fin 36) (audit : Audit) (err : Option CanErr) (key : Option (KeyRef × Bool)) (s : State) : exec (.lanePassDone id lane audit err key) s = execLanePassDone id lane audit err key s := rfl
theorem exec_mediaWriteCompletion (ch : Fin 16) (tag : BitVec 10) (status : BitVec 2) (zenith : Bool) (s : State) : exec (.mediaWriteCompletion ch tag status zenith) s = execMediaWriteCompletion ch tag status zenith s := rfl
theorem exec_responseTransfer (id : Nat) (err : Bool) (s : State) : exec (.responseTransfer id err) s = execResponseTransfer id err s := rfl
theorem exec_creditReturn (c : CreditCh) (s : State) : exec (.creditReturn c) s = execCreditReturn c s := rfl
theorem exec_mcnFail (ch : Fin 16) (s : State) : exec (.mcnFail ch) s = execMcnFail ch s := rfl
theorem exec_transientBucketLeak (ch : Fin 16) (s : State) : exec (.transientBucketLeak ch) s = execTransientBucketLeak ch s := rfl
theorem exec_parkingTimeout (id : Nat) (err : Bool) (s : State) : exec (.parkingTimeout id err) s = execParkingTimeout id err s := rfl
theorem exec_parkedRelease (chk : List (Nat × Chk)) (s : State) : exec (.parkedRelease chk) s = execParkedRelease chk s := rfl
theorem exec_ageingTick (s : State) : exec (.ageingTick) s = execAgeingTick s := rfl
theorem exec_hdmaWriteAck (tag : BitVec 8) (err : Bool) (s : State) : exec (.hdmaWriteAck tag err) s = execHdmaWriteAck tag err s := rfl
theorem exec_hdmaReadData (tag : BitVec 8) (data : BitVec 256) (last : Bool) (err : Bool) (s : State) : exec (.hdmaReadData tag data last err) s = execHdmaReadData tag data last err s := rfl
theorem exec_hostHoldoffRise (s : State) : exec (.hostHoldoffRise) s = execHostHoldoffRise s := rfl
theorem exec_hostHoldoffFall (s : State) : exec (.hostHoldoffFall) s = execHostHoldoffFall s := rfl
theorem exec_tail (slot : BitVec 14) (low : BitVec 30) (be : BitVec 8) (s : State) : exec (.tail slot low be) s = execTail slot low be s := rfl
theorem exec_scan (slot : BitVec 14) (low : BitVec 30) (be : BitVec 8) (s : State) : exec (.scan slot low be) s = execScan slot low be s := rfl
theorem exec_invalidate (slot : BitVec 14) (low : BitVec 30) (be : BitVec 8) (s : State) : exec (.invalidate slot low be) s = execInvalidate slot low be s := rfl
theorem exec_drain (slot : BitVec 14) (low : BitVec 30) (be : BitVec 8) (s : State) : exec (.drain slot low be) s = execDrain slot low be s := rfl
theorem exec_entryFetch (q : BitVec 14) (s : State) : exec (.entryFetch q) s = execEntryFetch q s := rfl
theorem exec_scanPoll (q : BitVec 14) (s : State) : exec (.scanPoll q) s = execScanPoll q s := rfl
theorem exec_entryConsumption (q : BitVec 14) (err : Option Bool) (s : State) : exec (.entryConsumption q err) s = execEntryConsumption q err s := rfl
theorem exec_eventRecordWrite (src : EvSrc) (s : State) : exec (.eventRecordWrite src) s = execEventRecordWrite src s := rfl
theorem exec_vectorDue (vec : BitVec 11) (s : State) : exec (.vectorDue vec) s = execVectorDue vec s := rfl
theorem exec_regWrite (woff : BitVec 22) (v : Word32) (s : State) : exec (.regWrite woff v) s = execRegWrite woff v s := rfl
theorem exec_regReadPairLo (woff : BitVec 22) (zenith : Bool) (s : State) : exec (.regReadPairLo woff zenith) s = execRegReadPairLo woff zenith s := rfl
theorem exec_fabPortEn (v : Word32) (s : State) : exec (.fabPortEn v) s = execFabPortEn v s := rfl
theorem exec_fabCntClr (v : Word32) (s : State) : exec (.fabCntClr v) s = execFabCntClr v s := rfl
theorem exec_stlClear (v : Word32) (s : State) : exec (.stlClear v) s = execStlClear v s := rfl
theorem exec_stlClearDone (s : State) : exec (.stlClearDone) s = execStlClearDone s := rfl
theorem exec_stlRejectClr (v : Word32) (s : State) : exec (.stlRejectClr v) s = execStlRejectClr v s := rfl
theorem exec_stlCntClr (v : Word32) (s : State) : exec (.stlCntClr v) s = execStlCntClr v s := rfl
theorem exec_stlGeomSeedWrite (reg : GeomReg) (set : Fin 2) (v : Word32) (s : State) : exec (.stlGeomSeedWrite reg set v) s = execStlGeomSeedWrite reg set v s := rfl
theorem exec_rmpClear (v : Word32) (s : State) : exec (.rmpClear v) s = execRmpClear v s := rfl
theorem exec_rmpClearDone (s : State) : exec (.rmpClearDone) s = execRmpClearDone s := rfl
theorem exec_rmpSetCfg (set : Fin 2) (v : Word32) (s : State) : exec (.rmpSetCfg set v) s = execRmpSetCfg set v s := rfl
theorem exec_lanKatRun (hi : Word32) (s : State) : exec (.lanKatRun hi) s = execLanKatRun hi s := rfl
theorem exec_katPeriodExpiry (lane : Fin 36) (s : State) : exec (.katPeriodExpiry lane) s = execKatPeriodExpiry lane s := rfl
theorem exec_katSetDone (lane : Fin 36) (results : List Bytes) (s : State) : exec (.katSetDone lane results) s = execKatSetDone lane results s := rfl
theorem exec_probationEnd (lane : Fin 36) (s : State) : exec (.probationEnd lane) s = execProbationEnd lane s := rfl
theorem exec_standbyKatRepeat (lane : Fin 36) (s : State) : exec (.standbyKatRepeat lane) s = execStandbyKatRepeat lane s := rfl
theorem exec_clusterIdleGate (k : Fin 9) (s : State) : exec (.clusterIdleGate k) s = execClusterIdleGate k s := rfl
theorem exec_canCtrlEn (v : Word32) (s : State) : exec (.canCtrlEn v) s = execCanCtrlEn v s := rfl
theorem exec_canPinCfg (v : Word32) (s : State) : exec (.canPinCfg v) s = execCanPinCfg v s := rfl
theorem exec_canLfsrReseed (v : Word32) (drbg : Option Bool) (s : State) : exec (.canLfsrReseed v drbg) s = execCanLfsrReseed v drbg s := rfl
theorem exec_canCntClr (v : Word32) (s : State) : exec (.canCntClr v) s = execCanCntClr v s := rfl
theorem exec_writeBack (err : Option CanErr) (key : Option (KeyRef × Bool)) (s : State) : exec (.writeBack err key) s = execWriteBack err key s := rfl
theorem exec_frsMetaBaseWrite (limit : Bool) (v : Word32) (s : State) : exec (.frsMetaBaseWrite limit v) s = execFrsMetaBaseWrite limit v s := rfl
theorem exec_frsCntClr (v : Word32) (s : State) : exec (.frsCntClr v) s = execFrsCntClr v s := rfl
theorem exec_perArm (v : Word32) (s : State) : exec (.perArm v) s = execPerArm v s := rfl
theorem exec_armingDone (s : State) : exec (.armingDone) s = execArmingDone s := rfl
theorem exec_perAnchorBaseWrite (v : Word32) (s : State) : exec (.perAnchorBaseWrite v) s = execPerAnchorBaseWrite v s := rfl
theorem exec_perCntClr (v : Word32) (s : State) : exec (.perCntClr v) s = execPerCntClr v s := rfl
theorem exec_keyDrbgReseed (v : Word32) (s : State) : exec (.keyDrbgReseed v) s = execKeyDrbgReseed v s := rfl
theorem exec_drbgReseedDone (samples : Bytes) (drbg : Option Bool) (s : State) : exec (.drbgReseedDone samples drbg) s = execDrbgReseedDone samples drbg s := rfl
theorem exec_keyEntEn (v : Word32) (s : State) : exec (.keyEntEn v) s = execKeyEntEn v s := rfl
theorem exec_keyCntClr (v : Word32) (s : State) : exec (.keyCntClr v) s = execKeyCntClr v s := rfl
theorem exec_entropyStartupDone (n : Fin 8) (samples : Bytes) (s : State) : exec (.entropyStartupDone n samples) s = execEntropyStartupDone n samples s := rfl
theorem exec_entropyHealthFail (n : Fin 8) (samples : Bytes) (s : State) : exec (.entropyHealthFail n samples) s = execEntropyHealthFail n samples s := rfl
theorem exec_drbgInstantiate (samples : Bytes) (lfsr : List Word32) (s : State) : exec (.drbgInstantiate samples lfsr) s = execDrbgInstantiate samples lfsr s := rfl
theorem exec_enable (q : BitVec 14) (s : State) : exec (.enable q) s = execEnable q s := rfl
theorem exec_disable (q : BitVec 14) (s : State) : exec (.disable q) s = execDisable q s := rfl
theorem exec_adminReset (q : BitVec 14) (s : State) : exec (.adminReset q) s = execAdminReset q s := rfl
theorem exec_queueIdle (q : BitVec 14) (s : State) : exec (.queueIdle q) s = execQueueIdle q s := rfl
theorem exec_qmgVecLoad (v : Word32) (s : State) : exec (.qmgVecLoad v) s = execQmgVecLoad v s := rfl
theorem exec_fltFirstHiClear (b : Fin 14) (s : State) : exec (.fltFirstHiClear b) s = execFltFirstHiClear b s := rfl
theorem exec_fltForce (b : Fin 14) (w : BitVec 6) (v : Word32) (s : State) : exec (.fltForce b w v) s = execFltForce b w v s := rfl
theorem exec_fltClassWrite (b : Fin 14) (w : BitVec 6) (v : Word32) (s : State) : exec (.fltClassWrite b w v) s = execFltClassWrite b w v s := rfl
theorem exec_notificationClear (b : Fin 14) (w : BitVec 6) (v : Word32) (s : State) : exec (.notificationClear b w v) s = execNotificationClear b w v s := rfl
theorem exec_medCntClr (v : Word32) (s : State) : exec (.medCntClr v) s = execMedCntClr v s := rfl
theorem exec_svcCntClr (v : Word32) (s : State) : exec (.svcCntClr v) s = execSvcCntClr v s := rfl
theorem exec_anvilResponse (rdata : Word32) (err : Bool) (s : State) : exec (.anvilResponse rdata err) s = execAnvilResponse rdata err s := rfl
theorem exec_anvilTimeout (s : State) : exec (.anvilTimeout) s = execAnvilTimeout s := rfl
theorem exec_powerLoss (s : State) : exec (.powerLoss) s = execPowerLoss s := rfl
theorem exec_powerCycle (s : State) : exec (.powerCycle) s = execPowerCycle s := rfl
theorem exec_pfWarn (s : State) : exec (.pfWarn) s = execPfWarn s := rfl
theorem exec_pfwDone (s : State) : exec (.pfwDone) s = execPfwDone s := rfl
theorem exec_pfWarnClear (s : State) : exec (.pfWarnClear) s = execPfWarnClear s := rfl
theorem exec_sysRstNAssert (s : State) : exec (.sysRstNAssert) s = execSysRstNAssert s := rfl
theorem exec_sysRstNRelease (s : State) : exec (.sysRstNRelease) s = execSysRstNRelease s := rfl
theorem exec_fpnRstN (p : Fin 8) (s : State) : exec (.fpnRstN p) s = execFpnRstN p s := rfl
theorem exec_mcnRstN (ch : Fin 16) (s : State) : exec (.mcnRstN ch) s = execMcnRstN ch s := rfl
theorem exec_hdmaRstN (s : State) : exec (.hdmaRstN) s = execHdmaRstN s := rfl
theorem exec_hdmaResetRelease (s : State) : exec (.hdmaResetRelease) s = execHdmaResetRelease s := rfl
theorem exec_pelnRstN (n : Fin 4) (s : State) : exec (.pelnRstN n) s = execPelnRstN n s := rfl
theorem exec_clockLoss (dom : Fin 60) (s : State) : exec (.clockLoss dom) s = execClockLoss dom s := rfl
theorem exec_clockMeasurement (dom : Fin 60) (freq : BitVec 16) (s : State) : exec (.clockMeasurement dom freq) s = execClockMeasurement dom freq s := rfl
theorem exec_fuseAck (level : Bool) (data : Word32) (s : State) : exec (.fuseAck level data) s = execFuseAck level data s := rfl
theorem exec_fuseLoadFailure (s : State) : exec (.fuseLoadFailure) s = execFuseLoadFailure s := rfl
theorem exec_fusePhaseDone (s : State) : exec (.fusePhaseDone) s = execFusePhaseDone s := rfl
theorem exec_sramInitDone (s : State) : exec (.sramInitDone) s = execSramInitDone s := rfl
theorem exec_selftestDone (laneResults : List (List Bytes)) (keyPass : Bool) (s : State) : exec (.selftestDone laneResults keyPass) s = execSelftestDone laneResults keyPass s := rfl
theorem exec_ready (s : State) : exec (.ready) s = execReady s := rfl
theorem exec_squallEntry (b : Fin 14) (src : BitVec 10) (s : State) : exec (.squallEntry b src) s = execSquallEntry b src s := rfl
theorem exec_zeroisationDone (s : State) : exec (.zeroisationDone) s = execZeroisationDone s := rfl
theorem exec_zeroisationConfirm (q : BitVec 14) (pos : BitVec 16) (s : State) : exec (.zeroisationConfirm q pos) s = execZeroisationConfirm q pos s := rfl
theorem exec_keyZeroiseTimeout (q : BitVec 14) (pos : BitVec 16) (s : State) : exec (.keyZeroiseTimeout q pos) s = execKeyZeroiseTimeout q pos s := rfl
theorem exec_createQueue (q : BitVec 14) (pos : BitVec 16) (s : State) : exec (.createQueue q pos) s = execCreateQueue q pos s := rfl
theorem exec_deleteQueue (q : BitVec 14) (pos : BitVec 16) (s : State) : exec (.deleteQueue q pos) s = execDeleteQueue q pos s := rfl
theorem exec_resetQueue (q : BitVec 14) (pos : BitVec 16) (s : State) : exec (.resetQueue q pos) s = execResetQueue q pos s := rfl
theorem exec_setFeature (q : BitVec 14) (pos : BitVec 16) (s : State) : exec (.setFeature q pos) s = execSetFeature q pos s := rfl
theorem exec_getFeature (q : BitVec 14) (pos : BitVec 16) (s : State) : exec (.getFeature q pos) s = execGetFeature q pos s := rfl
theorem exec_identify (q : BitVec 14) (pos : BitVec 16) (s : State) : exec (.identify q pos) s = execIdentify q pos s := rfl
theorem exec_swapConfig (q : BitVec 14) (pos : BitVec 16) (s : State) : exec (.swapConfig q pos) s = execSwapConfig q pos s := rfl
theorem exec_swapCycle (s : State) : exec (.swapCycle) s = execSwapCycle s := rfl
theorem exec_anchorRestore (q : BitVec 14) (pos : BitVec 16) (zenith : Bool) (s : State) : exec (.anchorRestore q pos zenith) s = execAnchorRestore q pos zenith s := rfl
theorem exec_adoptZone (q : BitVec 14) (pos : BitVec 16) (zenith : Bool) (drbg : Option Bool) (s : State) : exec (.adoptZone q pos zenith drbg) s = execAdoptZone q pos zenith drbg s := rfl
theorem exec_adoptionStart (zenith : Bool) (s : State) : exec (.adoptionStart zenith) s = execAdoptionStart zenith s := rfl
theorem exec_formatZone (q : BitVec 14) (pos : BitVec 16) (zenith : Bool) (drbg : Option Bool) (s : State) : exec (.formatZone q pos zenith drbg) s = execFormatZone q pos zenith drbg s := rfl
theorem exec_treeReset (z : BitVec 13) (zenith : Bool) (s : State) : exec (.treeReset z zenith) s = execTreeReset z zenith s := rfl
theorem exec_poolJoin (q : BitVec 14) (pos : BitVec 16) (s : State) : exec (.poolJoin q pos) s = execPoolJoin q pos s := rfl
theorem exec_poolLeave (q : BitVec 14) (pos : BitVec 16) (s : State) : exec (.poolLeave q pos) s = execPoolLeave q pos s := rfl
theorem exec_poolReconcile (q : BitVec 14) (pos : BitVec 16) (s : State) : exec (.poolReconcile q pos) s = execPoolReconcile q pos s := rfl
theorem exec_keyInstall (q : BitVec 14) (pos : BitVec 16) (key : Option (KeyRef × Bool)) (s : State) : exec (.keyInstall q pos key) s = execKeyInstall q pos key s := rfl
theorem exec_keyGenerate (q : BitVec 14) (pos : BitVec 16) (key : Option (KeyRef × Bool)) (s : State) : exec (.keyGenerate q pos key) s = execKeyGenerate q pos key s := rfl
theorem exec_keyDestroy (q : BitVec 14) (pos : BitVec 16) (s : State) : exec (.keyDestroy q pos) s = execKeyDestroy q pos s := rfl
theorem exec_keyDrained (q : BitVec 14) (pos : BitVec 16) (s : State) : exec (.keyDrained q pos) s = execKeyDrained q pos s := rfl
theorem exec_kekLoadDerive (q : BitVec 14) (pos : BitVec 16) (s : State) : exec (.kekLoadDerive q pos) s = execKekLoadDerive q pos s := rfl
theorem exec_kekLoadUnwrap (q : BitVec 14) (pos : BitVec 16) (key : Option (KeyRef × Bool)) (s : State) : exec (.kekLoadUnwrap q pos key) s = execKekLoadUnwrap q pos key s := rfl
theorem exec_sessionKeyInstall (q : BitVec 14) (pos : BitVec 16) (key : Option (KeyRef × Bool)) (s : State) : exec (.sessionKeyInstall q pos key) s = execSessionKeyInstall q pos key s := rfl
theorem exec_streamInsert (q : BitVec 14) (pos : BitVec 16) (chk : List (Nat × Chk)) (s : State) : exec (.streamInsert q pos chk) s = execStreamInsert q pos chk s := rfl
theorem exec_streamRemove (q : BitVec 14) (pos : BitVec 16) (chk : List (Nat × Chk)) (s : State) : exec (.streamRemove q pos chk) s = execStreamRemove q pos chk s := rfl
theorem exec_streamQuery (q : BitVec 14) (pos : BitVec 16) (chk : List (Nat × Chk)) (s : State) : exec (.streamQuery q pos chk) s = execStreamQuery q pos chk s := rfl
theorem exec_regionWrite (q : BitVec 14) (pos : BitVec 16) (s : State) : exec (.regionWrite q pos) s = execRegionWrite q pos s := rfl
theorem exec_regionRead (q : BitVec 14) (pos : BitVec 16) (s : State) : exec (.regionRead q pos) s = execRegionRead q pos s := rfl
theorem exec_rekeyStart (q : BitVec 14) (pos : BitVec 16) (s : State) : exec (.rekeyStart q pos) s = execRekeyStart q pos s := rfl
theorem exec_rekeyAbort (q : BitVec 14) (pos : BitVec 16) (s : State) : exec (.rekeyAbort q pos) s = execRekeyAbort q pos s := rfl
theorem exec_sanitize (q : BitVec 14) (pos : BitVec 16) (zenith : Bool) (drbg : Option Bool) (s : State) : exec (.sanitize q pos zenith drbg) s = execSanitize q pos zenith drbg s := rfl
theorem exec_scrub (q : BitVec 14) (pos : BitVec 16) (zenith : Bool) (s : State) : exec (.scrub q pos zenith) s = execScrub q pos zenith s := rfl
theorem exec_seal (q : BitVec 14) (pos : BitVec 16) (zenith : Bool) (drbg : Option Bool) (s : State) : exec (.seal q pos zenith drbg) s = execSeal q pos zenith drbg s := rfl
theorem exec_unseal (q : BitVec 14) (pos : BitVec 16) (zenith : Bool) (s : State) : exec (.unseal q pos zenith) s = execUnseal q pos zenith s := rfl
theorem exec_transcode (q : BitVec 14) (pos : BitVec 16) (zenith : Bool) (s : State) : exec (.transcode q pos zenith) s = execTranscode q pos zenith s := rfl
theorem exec_serviceCommandStart (q : BitVec 14) (pos : BitVec 16) (s : State) : exec (.serviceCommandStart q pos) s = execServiceCommandStart q pos s := rfl
theorem exec_checkpoint (q : BitVec 14) (pos : BitVec 16) (s : State) : exec (.checkpoint q pos) s = execCheckpoint q pos s := rfl
theorem exec_canopyMaintFlush (q : BitVec 14) (pos : BitVec 16) (s : State) : exec (.canopyMaintFlush q pos) s = execCanopyMaintFlush q pos s := rfl
theorem exec_canopyMaintInvalidate (q : BitVec 14) (pos : BitVec 16) (s : State) : exec (.canopyMaintInvalidate q pos) s = execCanopyMaintInvalidate q pos s := rfl
theorem exec_flushInv (q : BitVec 14) (pos : BitVec 16) (s : State) : exec (.flushInv q pos) s = execFlushInv q pos s := rfl
theorem exec_pin (q : BitVec 14) (pos : BitVec 16) (err : Option CanErr) (s : State) : exec (.pin q pos err) s = execPin q pos err s := rfl
theorem exec_unpin (q : BitVec 14) (pos : BitVec 16) (s : State) : exec (.unpin q pos) s = execUnpin q pos s := rfl
theorem exec_canopyMaintRead (q : BitVec 14) (pos : BitVec 16) (err : Option Bool) (s : State) : exec (.canopyMaintRead q pos err) s = execCanopyMaintRead q pos err s := rfl
theorem exec_zero (q : BitVec 14) (pos : BitVec 16) (s : State) : exec (.zero q pos) s = execZero q pos s := rfl
theorem exec_measure (q : BitVec 14) (pos : BitVec 16) (key : Option (KeyRef × Bool)) (zenith : Bool) (s : State) : exec (.measure q pos key zenith) s = execMeasure q pos key zenith s := rfl
theorem exec_periodicCheckpoint (s : State) : exec (.periodicCheckpoint) s = execPeriodicCheckpoint s := rfl
theorem exec_hold (s : State) : exec (.hold) s = execHold s := rfl
theorem exec_cut (err : Option CanErr) (key : Option (KeyRef × Bool)) (s : State) : exec (.cut err key) s = execCut err key s := rfl
theorem exec_release (s : State) : exec (.release) s = execRelease s := rfl
theorem exec_commit (zenith : Bool) (s : State) : exec (.commit zenith) s = execCommit zenith s := rfl
theorem exec_serviceStepStart (who : SvcWho) (chk : List Chk) (s : State) : exec (.serviceStepStart who chk) s = execServiceStepStart who chk s := rfl
theorem exec_frontStepDone (step : Nat) (s : State) : exec (.frontStepDone step) s = execFrontStepDone step s := rfl
theorem exec_serviceStepDone (step : Nat) (zenith : Bool) (s : State) : exec (.serviceStepDone step zenith) s = execServiceStepDone step zenith s := rfl
theorem exec_scrubDone (s : State) : exec (.scrubDone) s = execScrubDone s := rfl
theorem exec_zoneDeparture (z : BitVec 13) (s : State) : exec (.zoneDeparture z) s = execZoneDeparture z s := rfl
theorem exec_shadowRelease (s : State) : exec (.shadowRelease) s = execShadowRelease s := rfl
theorem exec_linkUpChange (n : Fin 4) (up : Bool) (s : State) : exec (.linkUpChange n up) s = execLinkUpChange n up s := rfl
theorem exec_frameReceived (n : Fin 4) (words : List Word32) (s : State) : exec (.frameReceived n words) s = execFrameReceived n words s := rfl
theorem exec_hello (n : Fin 4) (f : Frame) (s : State) : exec (.hello n f) s = execHello n f s := rfl
theorem exec_helloTimer (n : Fin 4) (s : State) : exec (.helloTimer n) s = execHelloTimer n s := rfl
theorem exec_hb (n : Fin 4) (f : Frame) (s : State) : exec (.hb n f) s = execHb n f s := rfl
theorem exec_heartbeatTimer (s : State) : exec (.heartbeatTimer) s = execHeartbeatTimer s := rfl
theorem exec_member (n : Fin 4) (f : Frame) (s : State) : exec (.member n f) s = execMember n f s := rfl
theorem exec_safe (n : Fin 4) (f : Frame) (s : State) : exec (.safe n f) s = execSafe n f s := rfl
theorem exec_ack (n : Fin 4) (f : Frame) (s : State) : exec (.ack n f) s = execAck n f s := rfl
theorem exec_retransmitTimer (n : Fin 4) (s : State) : exec (.retransmitTimer n) s = execRetransmitTimer n s := rfl
theorem exec_memberTimeout (m : BitVec 6) (s : State) : exec (.memberTimeout m) s = execMemberTimeout m s := rfl
theorem exec_linkTimeout (n : Fin 4) (s : State) : exec (.linkTimeout n) s = execLinkTimeout n s := rfl
theorem exec_prepare (n : Fin 4) (f : Frame) (s : State) : exec (.prepare n f) s = execPrepare n f s := rfl
theorem exec_held (n : Fin 4) (f : Frame) (s : State) : exec (.held n f) s = execHeld n f s := rfl
theorem exec_cutFrame (n : Fin 4) (f : Frame) (s : State) : exec (.cutFrame n f) s = execCutFrame n f s := rfl
theorem exec_done (n : Fin 4) (f : Frame) (s : State) : exec (.done n f) s = execDone n f s := rfl
theorem exec_abort (n : Fin 4) (f : Frame) (s : State) : exec (.abort n f) s = execAbort n f s := rfl
theorem exec_ckreq (n : Fin 4) (f : Frame) (s : State) : exec (.ckreq n f) s = execCkreq n f s := rfl
theorem exec_txnTimeout (s : State) : exec (.txnTimeout) s = execTxnTimeout s := rfl
theorem exec_report (n : Fin 4) (f : Frame) (s : State) : exec (.report n f) s = execReport n f s := rfl
theorem exec_retire (n : Fin 4) (f : Frame) (s : State) : exec (.retire n f) s = execRetire n f s := rfl
theorem exec_recon (n : Fin 4) (f : Frame) (s : State) : exec (.recon n f) s = execRecon n f s := rfl
theorem exec_reconDone (n : Fin 4) (f : Frame) (s : State) : exec (.reconDone n f) s = execReconDone n f s := rfl
theorem exec_trstN (level : Bool) (s : State) : exec (.trstN level) s = execTrstN level s := rfl
theorem exec_extest (sampled : BitVec Config.chainBits) (loaded : BitVec Config.chainBits) (s : State) : exec (.extest sampled loaded) s = execExtest sampled loaded s := rfl
theorem exec_idcode (testLogicReset : Bool) (s : State) : exec (.idcode testLogicReset) s = execIdcode testLogicReset s := rfl
theorem exec_samplePreload (sampled : BitVec Config.chainBits) (loaded : BitVec Config.chainBits) (s : State) : exec (.samplePreload sampled loaded) s = execSamplePreload sampled loaded s := rfl
theorem exec_clamp (s : State) : exec (.clamp) s = execClamp s := rfl
theorem exec_network (sibReg : Bool) (sibKat : Bool) (s : State) : exec (.network sibReg sibKat) s = execNetwork sibReg sibKat s := rfl
theorem exec_bypass (code : BitVec 8) (s : State) : exec (.bypass code) s = execBypass code s := rfl
theorem exec_tapRegRead (woff : BitVec 22) (zenith : Bool) (s : State) : exec (.tapRegRead woff zenith) s = execTapRegRead woff zenith s := rfl
theorem exec_tapKat (lane : BitVec 6) (s : State) : exec (.tapKat lane) s = execTapKat lane s := rfl
theorem exec_fpnResetRelease (p : Fin 8) (s : State) : exec (.fpnResetRelease p) s = execFpnResetRelease p s := rfl
theorem exec_mcnResetRelease (ch : Fin 16) (s : State) : exec (.mcnResetRelease ch) s = execMcnResetRelease ch s := rfl
theorem exec_pelnResetRelease (n : Fin 4) (s : State) : exec (.pelnResetRelease n) s = execPelnResetRelease n s := rfl

end Machine
end Sys2Proof
end

