-- ==== Sys2Proof/Laws/Table.lean ====
section
/-! SUPPORT. What a sparse table does: a read after a write, and the canonical form that every write keeps. -/

namespace Sys2Proof
namespace Tab

variable {α : Type} [Inhabited α] [DecidableEq α]

omit [Inhabited α] [DecidableEq α] in
/-- All indices of a table lie above a bound. -/
def above (n : Nat) (t : Tab α) : Prop := ∀ p ∈ t, n < p.1

omit [DecidableEq α] in
theorem get_above {n : Nat} {t : Tab α} (h : above n t) : get t n = default := by
  induction t with
  | nil => rfl
  | cons p r ih =>
    have hp : n < p.1 := h p (by simp)
    simp only [get]
    rw [if_neg (by omega)]
    exact ih fun q hq => h q (by simp [hq])

omit [Inhabited α] [DecidableEq α] in
theorem above_mono {m n : Nat} {t : Tab α} (hmn : m ≤ n) (h : above n t) : above m t :=
  fun p hp => Nat.lt_of_le_of_lt hmn (h p hp)

/-- What the canonical form says of a table with a first entry. -/
theorem wf_cons {p : Nat × α} {t : Tab α} : wf (p :: t) = true ↔ above p.1 t ∧ p.2 ≠ default ∧ wf t = true := by
  simp only [wf, above, List.pairwise_cons, List.all_cons, Bool.and_eq_true, decide_eq_true_eq]
  constructor
  · rintro ⟨⟨h1, h2⟩, h3, h4⟩
    exact ⟨h1, h3, h2, h4⟩
  · rintro ⟨h1, h3, h2, h4⟩
    exact ⟨⟨h1, h2⟩, h3, h4⟩

theorem wf_nil : wf ([] : Tab α) = true := by simp [wf]

/-- Indices that a write lists are those listed before and the one written. -/
theorem mem_put {t : Tab α} {i : Nat} {v : α} {p : Nat × α} (h : p ∈ put t i v) : p ∈ t ∨ p = (i, v) := by
  induction t with
  | nil => simp only [put] at h; split at h <;> simp_all
  | cons q r ih =>
    simp only [put] at h
    split at h
    · split at h <;> simp_all <;> tauto
    · split at h
      · split at h <;> simp_all <;> tauto
      · rcases List.mem_cons.mp h with h | h
        · simp [h]
        · rcases ih h with h | h <;> simp [h]

/-- A write keeps the canonical form. -/
theorem put_wf {t : Tab α} (i : Nat) (v : α) (h : wf t = true) : wf (put t i v) = true := by
  induction t with
  | nil =>
    simp only [put]
    split
    · exact wf_nil
    · exact wf_cons.mpr ⟨by simp [above], ‹_›, wf_nil⟩
  | cons p r ih =>
    obtain ⟨ha, hp, hr⟩ := wf_cons.mp h
    simp only [put]
    split
    · rename_i hlt
      split
      · exact h
      · refine wf_cons.mpr ⟨?_, ‹_›, h⟩
        intro q hq
        rcases List.mem_cons.mp hq with rfl | hq
        · exact hlt
        · exact Nat.lt_trans hlt (ha q hq)
    · split
      · rename_i heq
        split
        · exact hr
        · exact wf_cons.mpr ⟨by simpa [heq] using ha, ‹_›, hr⟩
      · refine wf_cons.mpr ⟨?_, hp, ih hr⟩
        intro q hq
        rcases mem_put hq with hq | rfl
        · exact ha q hq
        · show p.1 < i
          omega

/-- A read of the index written gives the value written. -/
theorem get_put_self {t : Tab α} (i : Nat) (v : α) (h : wf t = true) : get (put t i v) i = v := by
  induction t with
  | nil =>
    simp only [put]
    split <;> simp_all [get]
  | cons p r ih =>
    obtain ⟨ha, hp, hr⟩ := wf_cons.mp h
    simp only [put]
    split
    · rename_i hlt
      split
      · subst v
        simp only [get]
        rw [if_neg (by omega)]
        exact get_above (above_mono (Nat.le_of_lt hlt) ha)
      · simp [get]
    · split
      · rename_i heq
        split
        · subst v heq
          exact get_above ha
        · simp [get]
      · simp only [get]
        rw [if_neg (by omega)]
        exact ih hr

/-- A write of a value that the table lists gives that value, in canonical form or not. -/
theorem get_put_listed {t : Tab α} (i : Nat) {v : α} (hv : v ≠ default) : get (put t i v) i = v := by
  induction t with
  | nil => simp [put, hv, get]
  | cons p r ih =>
    simp only [put, if_neg hv]
    split
    · simp [get]
    · split
      · simp [get]
      · simp only [get]
        rw [if_neg (by omega)]
        exact ih

/-- A write leaves every other index alone. -/
theorem get_put_other {t : Tab α} {i j : Nat} (v : α) (hij : j ≠ i) : get (put t i v) j = get t j := by
  have hij' : ¬i = j := fun h => hij h.symm
  induction t with
  | nil =>
    simp only [put]
    split
    · rfl
    · simp [get, hij']
  | cons p r ih =>
    simp only [put]
    split
    · split
      · rfl
      · simp [get, hij']
    · split
      · rename_i heq
        subst heq
        split <;> simp [get, hij']
      · simp only [get, ih]

theorem get_upd_self {t : Tab α} (i : Nat) (f : α → α) (h : wf t = true) : get (upd t i f) i = f (get t i) :=
  get_put_self i _ h

theorem get_upd_other {t : Tab α} {i j : Nat} (f : α → α) (hij : j ≠ i) :
    get (upd t i f) j = get t j := get_put_other _ hij

theorem upd_wf {t : Tab α} (i : Nat) (f : α → α) (h : wf t = true) : wf (upd t i f) = true := put_wf i _ h

/-- Keeping some of the entries keeps the canonical form. -/
theorem filter_wf {t : Tab α} (f : Nat × α → Bool) (h : wf t = true) : wf (t.filter f) = true := by
  simp only [wf, Bool.and_eq_true, decide_eq_true_eq, List.all_eq_true] at *
  refine ⟨h.1.filter f, fun p hp => h.2 p ?_⟩
  exact (List.mem_filter.mp hp).1

end Tab
end Sys2Proof
end

