-- ==== Sys2Proof/Laws/Ops.lean ====
section
/-! SUPPORT. What each shared operation can do, said once: when a row of a port, a ring or a register acts, what a
transfer of HDMA, a media command, a credit or an event record changes. -/

namespace Sys2Proof
namespace Laws

open Machine

/-! ### Rows -/

/-- A row acts: the transfers of the last step are gone, the effect runs, what was raised is registered. -/
theorem act_completes {f : Dev → Dev} {s : State} {P : State → Prop}
    (h : P (settle { s with dev := f { s.dev with drive := [] } })) : ∃ t, s.act f = .next t ∧ P t := ⟨_, rfl, h⟩

/-- A row that needs the engine in service has its effect there. -/
theorem serve_acts {f : Dev → Dev} {s : State} (hs : InService s) : s.serve f = s.act f := by
  obtain ⟨h1, h2⟩ := hs
  simp [State.serve, State.act, h1, h2]

/-- Out of service it has none. -/
theorem serve_idles {f : Dev → Dev} {s : State} (hs : ¬InService s) : s.serve f = s.act id := by
  have : (s.safe.active || !s.dev.mgt.ready) = true := by
    cases h1 : s.safe.active <;> cases h2 : s.dev.mgt.ready <;> simp_all [InService]
  simp [State.serve, State.act, this]

theorem serve_completes {f : Dev → Dev} {s : State} {P : State → Prop} (hs : InService s)
    (h : P (settle { s with dev := f { s.dev with drive := [] } })) : ∃ t, s.serve f = .next t ∧ P t := by
  rw [serve_acts hs]; exact act_completes h

/-- A write to a register of CORE is done and answered without error where CORE is served. -/
theorem core_acts {f : Dev → Dev} {s : State} (hs : CoreServed s) :
    s.core f = s.act fun d => (f d).emit (.regRsp 0 false) := by
  obtain ⟨⟨h1, h2⟩, h3, h4⟩ := hs
  have h3' : ({ s.dev with drive := [] } : Dev).up domReg = true := h3
  have h4' : ({ s.dev with drive := [] } : Dev).up domCore = true := h4
  simp [State.core, State.act, h1, h2, h3', h4']

/-- Before READY it is answered with an error and does nothing. -/
theorem core_turns_away {f : Dev → Dev} {s : State} (hr : s.dev.up domReg = true) (hs : s.dev.mgt.ready = false) :
    s.core f = s.act fun d => d.emit (.regRsp 0 true) := by
  have h3' : ({ s.dev with drive := [] } : Dev).up domReg = true := hr
  simp [State.core, State.act, hs, h3']

theorem core_completes {f : Dev → Dev} {s : State} {P : State → Prop} (hs : CoreServed s)
    (h : P (settle { s with dev := (f { s.dev with drive := [] }).emit (.regRsp 0 false) })) :
    ∃ t, s.core f = .next t ∧ P t := by
  rw [core_acts hs]; exact act_completes h

/-- A doorbell acts and returns its credit. -/
theorem ring_acts {slot : BitVec 14} {low : BitVec 30} {be : BitVec 8} {f : Dev → Dev} {s : State} (hs : InService s)
    (hh : s.dev.up domHdma = true) (hc : s.dev.up domCore = true) :
    s.ring slot low be f = s.act fun d => (d.doorbell slot low be f).emit .dbCredit := by
  obtain ⟨h1, h2⟩ := hs
  have h3 : ({ s.dev with drive := [] } : Dev).up domHdma = true := hh
  have h4 : ({ s.dev with drive := [] } : Dev).up domCore = true := hc
  simp [State.ring, State.act, h1, h2, h3, h4]

/-- Any other REG access: answered with the error that R64 gives, and done only without one and outside Squall. -/
theorem regPort_acts {a : Nat} {f : State → State} {s : State} (hr : s.dev.up domReg = true) (he : s.regErr a = false)
    (hs : s.safe.active = false) : s.regPort a f = s.whole fun t => let u := f t; { u with dev := u.dev.emit (.regRsp 0 false) } := by
  simp [State.regPort, State.whole, hr, he, hs]

theorem regPort_turns_away {a : Nat} {f : State → State} {s : State} (hr : s.dev.up domReg = true)
    (he : s.regErr a = true) : s.regPort a f = s.act fun d => d.emit (.regRsp 0 true) := by
  simp [State.regPort, State.act, hr, he]

/-- A TAP row acts unless TRST_N or a clock loss holds the TAP. -/
theorem onTap_acts {f : Dev → Dev} {s : State} (h : s.dev.tapOn = true) : s.onTap f = s.act f := by
  have h1 : ({ s.dev with drive := [] } : Dev).tapOn = true := h
  simp [State.onTap, State.act, h1]

/-- An entry on WLPC takes a credit, acts, and the credit goes back. -/
theorem wlpc_acts {f : Dev → Dev} {s : State} {p : Nat} (hu : RxRuns p s) (hs : s.safe.active = false)
    (hc : (s.dev.port p).wlpc ≠ 0) : s.wlpc p f = s.act fun d =>
      (f (d.setPort p { d.port p with wlpc := (d.port p).wlpc - 1 })).giveCredits p 0 0 1 0 := by
  obtain ⟨h3, h4⟩ := hu
  have h3' : ({ s.dev with drive := [] } : Dev).up (domFrx p) = true := h3
  have h4' : ({ s.dev with drive := [] } : Dev).up domCore = true := h4
  have hc' : ¬ (({ s.dev with drive := [] } : Dev).port p).wlpc = 0 := hc
  simp [State.wlpc, State.act, hs, h3', h4', hc']

/-- An entry on RLPC takes a credit, acts, and the credit goes back. -/
theorem rlpc_acts {f : Dev → Dev} {s : State} {p : Nat} (hu : TxRuns p s) (hs : s.safe.active = false)
    (hc : (s.dev.port p).rlpc ≠ 0) : s.rlpc p f = s.act fun d =>
      (f (d.setPort p { d.port p with rlpc := (d.port p).rlpc - 1 })).giveCredits p 0 0 0 1 := by
  obtain ⟨h3, h4⟩ := hu
  have h3' : ({ s.dev with drive := [] } : Dev).up (domFtx p) = true := h3
  have h4' : ({ s.dev with drive := [] } : Dev).up domCore = true := h4
  have hc' : ¬ (({ s.dev with drive := [] } : Dev).port p).rlpc = 0 := hc
  simp [State.rlpc, State.act, hs, h3', h4', hc']

/-! ### Tables whose keys rise -/

section Tables

variable {α : Type} [Inhabited α] [DecidableEq α]

/-- A write keeps the keys rising. -/
theorem put_rising {t : Tab α} (i : Nat) (v : α) (h : Tab.rising t) : Tab.rising (t.put i v) := by
  induction t with
  | nil => simp only [Tab.put]; split <;> simp [Tab.rising]
  | cons p r ih =>
    obtain ⟨ha, hr⟩ := List.pairwise_cons.mp h
    simp only [Tab.put]
    split
    · rename_i hlt
      split
      · exact h
      · refine List.pairwise_cons.mpr ⟨fun q hq => ?_, h⟩
        rcases List.mem_cons.mp hq with rfl | hq
        · exact hlt
        · exact Nat.lt_trans hlt (ha q hq)
    · split
      · rename_i heq
        split
        · exact hr
        · exact List.pairwise_cons.mpr ⟨fun q hq => by simpa [heq] using ha q hq, hr⟩
      · refine List.pairwise_cons.mpr ⟨fun q hq => ?_, ih hr⟩
        rcases Tab.mem_put hq with hq | rfl
        · exact ha q hq
        · show p.1 < i
          omega

omit [DecidableEq α] in
/-- An index that is not listed reads as the default. -/
theorem get_unlisted {t : Tab α} {i : Nat} (h : ∀ p ∈ t, p.1 ≠ i) : t.get i = default := by
  induction t with
  | nil => rfl
  | cons p r ih =>
    simp only [Tab.get]
    rw [if_neg (h p (by simp))]
    exact ih fun q hq => h q (by simp [hq])

/-- What was written is read. -/
theorem get_put_self_rising {t : Tab α} (i : Nat) (v : α) (h : Tab.rising t) : (t.put i v).get i = v := by
  by_cases hv : v = default
  · subst hv
    induction t with
    | nil => simp [Tab.put, Tab.get]
    | cons p r ih =>
      obtain ⟨ha, hr⟩ := List.pairwise_cons.mp h
      simp only [Tab.put]
      split
      · rename_i hlt
        simp only [if_true]
        refine get_unlisted fun q hq => ?_
        rcases List.mem_cons.mp hq with rfl | hq
        · omega
        · have := ha q hq; omega
      · split
        · rename_i heq
          simp only [if_true]
          exact get_unlisted fun q hq => by have := ha q hq; omega
        · rename_i h1 h2
          simp only [Tab.get]
          rw [if_neg (by omega)]
          exact ih hr
  · exact Tab.get_put_listed i hv

end Tables

/-! ### Transfers of HDMA -/

/-- A queue but for P and the record sequence number, which the issue of a record's last write advances. -/
def unheaded (x : Queue) : Queue := { x with head := 0, seq := 0 }

/-- Only what waits and is outstanding at HDMA, its credits, the outputs and the allocator changed, and P of event queues. -/
def HdmaOnly (d e : Dev) : Prop :=
  (e = { d with
    drive := e.drive, seq := e.seq, qmg.wrWait := e.qmg.wrWait, qmg.wrOut := e.qmg.wrOut, qmg.wrCredit := e.qmg.wrCredit
    qmg.rdWait := e.qmg.rdWait, qmg.rdOut := e.qmg.rdOut, qmg.rdCredit := e.qmg.rdCredit, qmg.queues := e.qmg.queues }) ∧
    (Tab.rising d.qmg.queues → Tab.rising e.qmg.queues ∧ ∀ q, unheaded (e.queue q) = unheaded (d.queue q))

theorem HdmaOnly.refl (d : Dev) : HdmaOnly d d := ⟨rfl, fun h => ⟨h, fun _ => rfl⟩⟩

theorem HdmaOnly.trans {d e f : Dev} (h : HdmaOnly d e) (g : HdmaOnly e f) : HdmaOnly d f := by
  refine ⟨?_, fun hr => ?_⟩
  · rw [g.1, h.1]
  · obtain ⟨h1, h2⟩ := h.2 hr
    obtain ⟨g1, g2⟩ := g.2 h1
    exact ⟨g1, fun q => (g2 q).trans (h2 q)⟩

/-- The issue of a write changes queues only where it is a record's last. -/
theorem recordIssued_only (d : Dev) (w : WrWhy) : HdmaOnly d (d.recordIssued w) := by
  unfold Dev.recordIssued
  split
  · refine ⟨rfl, fun hr => ⟨put_rising _ _ hr, fun k => ?_⟩⟩
    rename_i q _
    by_cases hk : k = q
    · subst hk
      show unheaded ((d.qmg.queues.put k _).get k) = _
      rw [get_put_self_rising _ _ hr]
      rfl
    · show unheaded ((d.qmg.queues.put q _).get k) = _
      rw [Tab.get_put_other _ hk]
      rfl
  · exact .refl d

/-- Driving a write does nothing to the writes that wait. -/
theorem driveWr_only (d : Dev) (t : Nat) (w : HWr) : HdmaOnly d (d.driveWr t w) :=
  HdmaOnly.trans ⟨rfl, fun h => ⟨h, fun _ => rfl⟩⟩ (recordIssued_only _ _)

theorem recordIssued_writes (d : Dev) (w : WrWhy) :
    (d.recordIssued w).qmg.wrOut = d.qmg.wrOut ∧ (d.recordIssued w).qmg.wrWait = d.qmg.wrWait := by
  unfold Dev.recordIssued
  split <;> exact ⟨rfl, rfl⟩

/-- A driven write is outstanding under its tag, a completion with the time of its issue. -/
theorem driveWr_out (d : Dev) (t : Nat) (w : HWr) :
    (d.driveWr t w).qmg.wrOut = d.qmg.wrOut.put t (some { d.stampWr w with issued := d.seq }) :=
  (recordIssued_writes _ _).1

/-- The write carries no completion. -/
def NoCpl (w : HWr) : Prop := ∀ q pos counts, w.why ≠ .completion q pos counts

/-- Only a completion changes as it is issued. -/
theorem stampWr_eq (d : Dev) {w : HWr} (h : NoCpl w) : d.stampWr w = w := by
  unfold Dev.stampWr
  split
  · rename_i hw
    exact absurd hw (h _ _ _)
  · rfl

theorem pumpWr_only (ws : List HWr) (d : Dev) : HdmaOnly d (pumpWr ws d) := by
  induction ws generalizing d with
  | nil => exact ⟨rfl, fun h => ⟨h, fun _ => rfl⟩⟩
  | cons w r ih =>
    simp only [pumpWr]
    split
    · split
      · exact ⟨rfl, fun h => ⟨h, fun _ => rfl⟩⟩
      · exact (driveWr_only d _ w).trans (ih _)
    · exact ⟨rfl, fun h => ⟨h, fun _ => rfl⟩⟩

theorem pumpRd_only (ws : List HRd) (d : Dev) : HdmaOnly d (pumpRd ws d) := by
  induction ws generalizing d with
  | nil => exact ⟨rfl, fun h => ⟨h, fun _ => rfl⟩⟩
  | cons w r ih =>
    simp only [pumpRd]
    split
    · split
      · exact ⟨rfl, fun h => ⟨h, fun _ => rfl⟩⟩
      · exact HdmaOnly.trans ⟨rfl, fun h => ⟨h, fun _ => rfl⟩⟩ (ih _)
    · exact ⟨rfl, fun h => ⟨h, fun _ => rfl⟩⟩

theorem pumpHdma_only (d : Dev) : HdmaOnly d d.pumpHdma := by
  unfold Dev.pumpHdma
  split
  · exact (pumpWr_only _ _).trans (pumpRd_only _ _)
  · exact .refl d

theorem hostWrite_only (d : Dev) (a : Nat) (b : Bytes) (q : Nat) (w : WrWhy) : HdmaOnly d (d.hostWrite a b q w) :=
  HdmaOnly.trans ⟨rfl, fun h => ⟨h, fun _ => rfl⟩⟩ (pumpHdma_only _)

theorem hostRead_only (d : Dev) (a n : Nat) (w : RdWhy) : HdmaOnly d (d.hostRead a n w) :=
  HdmaOnly.trans ⟨rfl, fun h => ⟨h, fun _ => rfl⟩⟩ (pumpHdma_only _)

/-- The lowest unused index of a table is not one it lists. -/
theorem unused_not_listed {α : Type} {t : Tab α} {n i : Nat} (h : Tab.unused t n = some i) : ∀ p ∈ t, p.1 ≠ i := by
  unfold Tab.unused at h
  have := List.find?_some h
  simpa using this

/-- A waiting or outstanding write that carries no completion stays one when writes are issued; it takes the number of its
issue. -/
theorem pumpWr_keeps (ws : List HWr) (d : Dev) (hr : Tab.rising d.qmg.wrOut) {w : HWr} (hw : NoCpl w)
    (h : w ∈ ws ∨ ∃ t i, d.qmg.wrOut.get t = some { w with issued := i }) :
    w ∈ (pumpWr ws d).qmg.wrWait ∨ ∃ t i, (pumpWr ws d).qmg.wrOut.get t = some { w with issued := i } := by
  induction ws generalizing d with
  | nil => exact h
  | cons x r ih =>
    simp only [pumpWr]
    split
    · rename_i t ht
      split
      · exact h
      · have ho := driveWr_out d t x
        refine ih _ (by rw [ho]; exact put_rising _ _ hr) ?_
        rw [ho]
        rcases h with h | ⟨k, i, h⟩
        · rcases List.mem_cons.mp h with rfl | h
          · exact .inr ⟨t, d.seq, by rw [stampWr_eq d hw]; exact get_put_self_rising _ _ hr⟩
          · exact .inl h
        · refine .inr ⟨k, i, ?_⟩
          have hk : k ≠ t := by
            rintro rfl
            rw [get_unlisted (unused_not_listed ht)] at h
            cases h
          exact (Tab.get_put_other _ hk).trans h
    · exact h

theorem pumpWr_rising (ws : List HWr) (d : Dev) (hr : Tab.rising d.qmg.wrOut) : Tab.rising (pumpWr ws d).qmg.wrOut := by
  induction ws generalizing d with
  | nil => exact hr
  | cons x r ih =>
    simp only [pumpWr]
    split
    · split
      · exact hr
      · exact ih _ (by rw [driveWr_out]; exact put_rising _ _ hr)
    · exact hr

theorem pumpRd_writes (ws : List HRd) (d : Dev) :
    (pumpRd ws d).qmg.wrWait = d.qmg.wrWait ∧ (pumpRd ws d).qmg.wrOut = d.qmg.wrOut := by
  induction ws generalizing d with
  | nil => exact ⟨rfl, rfl⟩
  | cons x r ih =>
    simp only [pumpRd]
    split
    · split
      · exact ⟨rfl, rfl⟩
      · exact ih _
    · exact ⟨rfl, rfl⟩

/-- A write that was asked for waits or is outstanding. A completion is left out: its TIMESTAMP is that of its issue. -/
theorem hostWrite_issued (d : Dev) (a : Nat) (b : Bytes) (q : Nat) (w : WrWhy) (hr : Tab.rising d.qmg.wrOut)
    (hw : ∀ k pos counts, w ≠ .completion k pos counts) :
    WriteIssued (d.hostWrite a b q w) a b q w := by
  have key : ∀ e : Dev, Tab.rising e.qmg.wrOut → (⟨a, b, q, w, d.seq, 0⟩ : HWr) ∈ e.qmg.wrWait →
      WriteIssued e.pumpHdma a b q w := by
    intro e he hm
    unfold Dev.pumpHdma
    split
    · have h := pumpWr_keeps (w := ⟨a, b, q, w, d.seq, 0⟩) e.qmg.wrWait e he hw (.inl hm)
      simp only [WriteIssued, (pumpRd_writes _ _).1, (pumpRd_writes _ _).2]
      rcases h with h | ⟨t, i, h⟩
      · exact .inl ⟨_, h, rfl, rfl, rfl, rfl⟩
      · exact .inr ⟨t, _, h, rfl, rfl, rfl, rfl⟩
    · exact .inl ⟨_, hm, rfl, rfl, rfl, rfl⟩
  exact key _ hr (by simp [Dev.bump])

/-! ### Media commands and credits -/

/-- Only one channel and the outputs changed. -/
def ChanOnly (n : Nat) (d e : Dev) : Prop := ∃ x, e = { d with drive := e.drive, med.ch := x } ∧
  ∀ k, k ≠ n → x.get k = d.med.ch.get k

theorem ChanOnly.trans {n : Nat} {d e f : Dev} (h : ChanOnly n d e) (g : ChanOnly n e f) : ChanOnly n d f := by
  obtain ⟨x, h, hx⟩ := h
  obtain ⟨y, g, hy⟩ := g
  refine ⟨y, ?_, fun k hk => ?_⟩
  · rw [g, h]
  · rw [hy k hk, h]
    exact hx k hk

theorem setChan_only (n : Nat) (d : Dev) (c : Channel) : ChanOnly n d (d.setChan n c) :=
  ⟨_, rfl, fun _ hk => Tab.get_put_other _ hk⟩

theorem emit_only (n : Nat) (d : Dev) (t : Transfer) : ChanOnly n d (d.emit t) := ⟨_, rfl, fun _ _ => rfl⟩

theorem issueMedia_only (d : Dev) (n t : Nat) (m : MCmd) : ChanOnly n d (d.issueMedia n t m) := by
  unfold Dev.issueMedia
  extract_lets c e
  split
  · exact ((setChan_only n d _).trans (emit_only n _ _)).trans (emit_only n _ _)
  · exact (setChan_only n d _).trans (emit_only n _ _)

theorem pumpChan_only (ms : List MCmd) (n : Nat) (d : Dev) : ChanOnly n d (pumpChan ms n d) := by
  induction ms generalizing d with
  | nil => exact setChan_only n d _
  | cons m r ih =>
    simp only [pumpChan]
    split
    · exact (issueMedia_only d n _ m).trans (ih _)
    · exact setChan_only n d _

/-- A media command reaches only the channel of its address. -/
theorem media_only (d : Dev) (op a : Nat) (b : Beat) (w : MedWhy) : ChanOnly (channelOf a) d (d.media op a b w) :=
  (setChan_only _ _ _).trans (pumpChan_only _ _ _)

theorem chan_setChan (d : Dev) (n : Nat) (c : Channel) (h : Tab.rising d.med.ch) : (d.setChan n c).chan n = c :=
  get_put_self_rising n c h

theorem issueMedia_chan (d : Dev) (n t : Nat) (m : MCmd) (h : Tab.rising d.med.ch) :
    Tab.rising (d.issueMedia n t m).med.ch ∧ ((d.issueMedia n t m).chan n).out = (d.chan n).out.put t (some m) := by
  unfold Dev.issueMedia
  extract_lets c e
  have he : Tab.rising e.med.ch ∧ (e.chan n).out = (d.chan n).out.put t (some m) :=
    ⟨put_rising _ _ h, by show ((d.med.ch.put n _).get n).out = _; rw [get_put_self_rising _ _ h]⟩
  split
  · exact he
  · exact he

/-- A command that waits or is outstanding stays so when commands are issued. -/
theorem pumpChan_keeps (ms : List MCmd) (n : Nat) (d : Dev) (hc : Tab.rising d.med.ch) (ho : Tab.rising (d.chan n).out)
    {m : MCmd} (h : m ∈ ms ∨ ∃ t, (d.chan n).out.get t = some m) :
    m ∈ ((pumpChan ms n d).chan n).waiting ∨ ∃ t, ((pumpChan ms n d).chan n).out.get t = some m := by
  induction ms generalizing d with
  | nil =>
    simp only [pumpChan, chan_setChan _ _ _ hc]
    exact h
  | cons x r ih =>
    simp only [pumpChan]
    split
    · rename_i t ht
      obtain ⟨h1, h2⟩ := issueMedia_chan d n t x hc
      have hf : Tab.unused (d.chan n).out 1024 = some t := by
        unfold Channel.mayIssue at ht
        split at ht
        · cases ht
        · exact ht
      refine ih _ h1 (h2 ▸ put_rising _ _ ho) ?_
      rw [h2]
      rcases h with h | ⟨k, h⟩
      · rcases List.mem_cons.mp h with rfl | h
        · exact .inr ⟨t, get_put_self_rising _ _ ho⟩
        · exact .inl h
      · refine .inr ⟨k, ?_⟩
        have hk : k ≠ t := by
          rintro rfl
          rw [get_unlisted (unused_not_listed hf)] at h
          cases h
        exact (Tab.get_put_other _ hk).trans h
    · rw [chan_setChan _ _ _ hc]
      exact h

/-- A media command that was handed over waits or is outstanding. -/
theorem media_issued (d : Dev) (op a : Nat) (b : Beat) (w : MedWhy) (hc : Tab.rising d.med.ch)
    (ho : Tab.rising (d.chan (channelOf a)).out) : MediaIssued (d.media op a b w) ⟨op, a, b, w⟩ := by
  have hg := chan_setChan d (channelOf a)
    { d.chan (channelOf a) with waiting := (d.chan (channelOf a)).waiting ++ [⟨op, a, b, w⟩] } hc
  refine pumpChan_keeps _ _ _ (put_rising _ _ hc) ?_ (.inl ?_)
  · rw [hg]; exact ho
  · rw [hg]; simp

/-- Giving credits changes one port and the outputs. -/
theorem giveCredits_only (d : Dev) (p a b c k : Nat) :
    ∃ x dr, d.giveCredits p a b c k = { d with fab.ports := d.fab.ports.put p x, drive := dr } := by
  unfold Dev.giveCredits
  extract_lets x y rx tx q w l r z e
  split
  · exact ⟨_, _, rfl⟩
  · split
    · exact ⟨_, _, rfl⟩
    · exact ⟨_, _, rfl⟩

/-! ### Event records -/

/-- Posting a record changes what is held for its source register, or marks the register EVT_LOST. -/
theorem post_only (d : Dev) (src : EvSrc) (r : Rec) :
    d.post src r = d ∨ d.post src r = d.markLost src ∨
      ∃ l, d.post src r = { d with qmg.held := d.qmg.held.put (evCode src) l } := by
  unfold Dev.post
  split
  · exact .inl rfl
  · extract_lets h
    split
    · exact .inr (.inr ⟨_, rfl⟩)
    · split
      · exact .inr (.inl rfl)
      · exact .inr (.inr ⟨_, rfl⟩)

end Laws
end Sys2Proof
end

