-- ==== Sys2Proof/Laws/State.lean ====
section
/-! SUPPORT. What each primitive update of the block does to each component: one lemma per update and component. -/

namespace Sys2Proof
namespace Machine

/-! ### emit -/

@[simp] theorem Dev.emit_mgt (d : Dev) (t : Transfer) : (d.emit t).mgt = d.mgt := rfl
@[simp] theorem Dev.emit_tap (d : Dev) (t : Transfer) : (d.emit t).tap = d.tap := rfl
@[simp] theorem Dev.emit_fab (d : Dev) (t : Transfer) : (d.emit t).fab = d.fab := rfl
@[simp] theorem Dev.emit_stl (d : Dev) (t : Transfer) : (d.emit t).stl = d.stl := rfl
@[simp] theorem Dev.emit_rmp (d : Dev) (t : Transfer) : (d.emit t).rmp = d.rmp := rfl
@[simp] theorem Dev.emit_lan (d : Dev) (t : Transfer) : (d.emit t).lan = d.lan := rfl
@[simp] theorem Dev.emit_frs (d : Dev) (t : Transfer) : (d.emit t).frs = d.frs := rfl
@[simp] theorem Dev.emit_can (d : Dev) (t : Transfer) : (d.emit t).can = d.can := rfl
@[simp] theorem Dev.emit_med (d : Dev) (t : Transfer) : (d.emit t).med = d.med := rfl
@[simp] theorem Dev.emit_key (d : Dev) (t : Transfer) : (d.emit t).key = d.key := rfl
@[simp] theorem Dev.emit_qmg (d : Dev) (t : Transfer) : (d.emit t).qmg = d.qmg := rfl
@[simp] theorem Dev.emit_svc (d : Dev) (t : Transfer) : (d.emit t).svc = d.svc := rfl
@[simp] theorem Dev.emit_per (d : Dev) (t : Transfer) : (d.emit t).per = d.per := rfl
@[simp] theorem Dev.emit_del (d : Dev) (t : Transfer) : (d.emit t).del = d.del := rfl
@[simp] theorem Dev.emit_drive (d : Dev) (t : Transfer) : (d.emit t).drive = d.drive ++ [t] := rfl
@[simp] theorem Dev.emit_raised (d : Dev) (t : Transfer) : (d.emit t).raised = d.raised := rfl
@[simp] theorem Dev.emit_free (d : Dev) (t : Transfer) : (d.emit t).free = d.free := rfl
@[simp] theorem Dev.emit_seq (d : Dev) (t : Transfer) : (d.emit t).seq = d.seq := rfl

/-! ### raise -/

@[simp] theorem Dev.raise_mgt (d : Dev) (b k : Nat) : (d.raise b k).mgt = d.mgt := rfl
@[simp] theorem Dev.raise_tap (d : Dev) (b k : Nat) : (d.raise b k).tap = d.tap := rfl
@[simp] theorem Dev.raise_fab (d : Dev) (b k : Nat) : (d.raise b k).fab = d.fab := rfl
@[simp] theorem Dev.raise_stl (d : Dev) (b k : Nat) : (d.raise b k).stl = d.stl := rfl
@[simp] theorem Dev.raise_rmp (d : Dev) (b k : Nat) : (d.raise b k).rmp = d.rmp := rfl
@[simp] theorem Dev.raise_lan (d : Dev) (b k : Nat) : (d.raise b k).lan = d.lan := rfl
@[simp] theorem Dev.raise_frs (d : Dev) (b k : Nat) : (d.raise b k).frs = d.frs := rfl
@[simp] theorem Dev.raise_can (d : Dev) (b k : Nat) : (d.raise b k).can = d.can := rfl
@[simp] theorem Dev.raise_med (d : Dev) (b k : Nat) : (d.raise b k).med = d.med := rfl
@[simp] theorem Dev.raise_key (d : Dev) (b k : Nat) : (d.raise b k).key = d.key := rfl
@[simp] theorem Dev.raise_qmg (d : Dev) (b k : Nat) : (d.raise b k).qmg = d.qmg := rfl
@[simp] theorem Dev.raise_svc (d : Dev) (b k : Nat) : (d.raise b k).svc = d.svc := rfl
@[simp] theorem Dev.raise_per (d : Dev) (b k : Nat) : (d.raise b k).per = d.per := rfl
@[simp] theorem Dev.raise_del (d : Dev) (b k : Nat) : (d.raise b k).del = d.del := rfl
@[simp] theorem Dev.raise_drive (d : Dev) (b k : Nat) : (d.raise b k).drive = d.drive := rfl
@[simp] theorem Dev.raise_raised (d : Dev) (b k : Nat) : (d.raise b k).raised = d.raised ++ [⟨b, k, false⟩] := rfl
@[simp] theorem Dev.raise_free (d : Dev) (b k : Nat) : (d.raise b k).free = d.free := rfl
@[simp] theorem Dev.raise_seq (d : Dev) (b k : Nat) : (d.raise b k).seq = d.seq := rfl

/-! ### bump -/

@[simp] theorem Dev.bump_mgt (d : Dev) : (d.bump).mgt = d.mgt := rfl
@[simp] theorem Dev.bump_tap (d : Dev) : (d.bump).tap = d.tap := rfl
@[simp] theorem Dev.bump_fab (d : Dev) : (d.bump).fab = d.fab := rfl
@[simp] theorem Dev.bump_stl (d : Dev) : (d.bump).stl = d.stl := rfl
@[simp] theorem Dev.bump_rmp (d : Dev) : (d.bump).rmp = d.rmp := rfl
@[simp] theorem Dev.bump_lan (d : Dev) : (d.bump).lan = d.lan := rfl
@[simp] theorem Dev.bump_frs (d : Dev) : (d.bump).frs = d.frs := rfl
@[simp] theorem Dev.bump_can (d : Dev) : (d.bump).can = d.can := rfl
@[simp] theorem Dev.bump_med (d : Dev) : (d.bump).med = d.med := rfl
@[simp] theorem Dev.bump_key (d : Dev) : (d.bump).key = d.key := rfl
@[simp] theorem Dev.bump_qmg (d : Dev) : (d.bump).qmg = d.qmg := rfl
@[simp] theorem Dev.bump_svc (d : Dev) : (d.bump).svc = d.svc := rfl
@[simp] theorem Dev.bump_per (d : Dev) : (d.bump).per = d.per := rfl
@[simp] theorem Dev.bump_del (d : Dev) : (d.bump).del = d.del := rfl
@[simp] theorem Dev.bump_drive (d : Dev) : (d.bump).drive = d.drive := rfl
@[simp] theorem Dev.bump_raised (d : Dev) : (d.bump).raised = d.raised := rfl
@[simp] theorem Dev.bump_free (d : Dev) : (d.bump).free = d.free := rfl
@[simp] theorem Dev.bump_seq (d : Dev) : (d.bump).seq = d.seq + 1 := rfl

/-! ### setQueue -/

@[simp] theorem Dev.setQueue_mgt (d : Dev) (q : Nat) (x : Queue) : (d.setQueue q x).mgt = d.mgt := rfl
@[simp] theorem Dev.setQueue_tap (d : Dev) (q : Nat) (x : Queue) : (d.setQueue q x).tap = d.tap := rfl
@[simp] theorem Dev.setQueue_fab (d : Dev) (q : Nat) (x : Queue) : (d.setQueue q x).fab = d.fab := rfl
@[simp] theorem Dev.setQueue_stl (d : Dev) (q : Nat) (x : Queue) : (d.setQueue q x).stl = d.stl := rfl
@[simp] theorem Dev.setQueue_rmp (d : Dev) (q : Nat) (x : Queue) : (d.setQueue q x).rmp = d.rmp := rfl
@[simp] theorem Dev.setQueue_lan (d : Dev) (q : Nat) (x : Queue) : (d.setQueue q x).lan = d.lan := rfl
@[simp] theorem Dev.setQueue_frs (d : Dev) (q : Nat) (x : Queue) : (d.setQueue q x).frs = d.frs := rfl
@[simp] theorem Dev.setQueue_can (d : Dev) (q : Nat) (x : Queue) : (d.setQueue q x).can = d.can := rfl
@[simp] theorem Dev.setQueue_med (d : Dev) (q : Nat) (x : Queue) : (d.setQueue q x).med = d.med := rfl
@[simp] theorem Dev.setQueue_key (d : Dev) (q : Nat) (x : Queue) : (d.setQueue q x).key = d.key := rfl
@[simp] theorem Dev.setQueue_qmg (d : Dev) (q : Nat) (x : Queue) : (d.setQueue q x).qmg = { d.qmg with queues := d.qmg.queues.put q x } := rfl
@[simp] theorem Dev.setQueue_svc (d : Dev) (q : Nat) (x : Queue) : (d.setQueue q x).svc = d.svc := rfl
@[simp] theorem Dev.setQueue_per (d : Dev) (q : Nat) (x : Queue) : (d.setQueue q x).per = d.per := rfl
@[simp] theorem Dev.setQueue_del (d : Dev) (q : Nat) (x : Queue) : (d.setQueue q x).del = d.del := rfl
@[simp] theorem Dev.setQueue_drive (d : Dev) (q : Nat) (x : Queue) : (d.setQueue q x).drive = d.drive := rfl
@[simp] theorem Dev.setQueue_raised (d : Dev) (q : Nat) (x : Queue) : (d.setQueue q x).raised = d.raised := rfl
@[simp] theorem Dev.setQueue_free (d : Dev) (q : Nat) (x : Queue) : (d.setQueue q x).free = d.free := rfl
@[simp] theorem Dev.setQueue_seq (d : Dev) (q : Nat) (x : Queue) : (d.setQueue q x).seq = d.seq := rfl

/-! ### setPort -/

@[simp] theorem Dev.setPort_mgt (d : Dev) (p : Nat) (x : Port) : (d.setPort p x).mgt = d.mgt := rfl
@[simp] theorem Dev.setPort_tap (d : Dev) (p : Nat) (x : Port) : (d.setPort p x).tap = d.tap := rfl
@[simp] theorem Dev.setPort_fab (d : Dev) (p : Nat) (x : Port) : (d.setPort p x).fab = { d.fab with ports := d.fab.ports.put p x } := rfl
@[simp] theorem Dev.setPort_stl (d : Dev) (p : Nat) (x : Port) : (d.setPort p x).stl = d.stl := rfl
@[simp] theorem Dev.setPort_rmp (d : Dev) (p : Nat) (x : Port) : (d.setPort p x).rmp = d.rmp := rfl
@[simp] theorem Dev.setPort_lan (d : Dev) (p : Nat) (x : Port) : (d.setPort p x).lan = d.lan := rfl
@[simp] theorem Dev.setPort_frs (d : Dev) (p : Nat) (x : Port) : (d.setPort p x).frs = d.frs := rfl
@[simp] theorem Dev.setPort_can (d : Dev) (p : Nat) (x : Port) : (d.setPort p x).can = d.can := rfl
@[simp] theorem Dev.setPort_med (d : Dev) (p : Nat) (x : Port) : (d.setPort p x).med = d.med := rfl
@[simp] theorem Dev.setPort_key (d : Dev) (p : Nat) (x : Port) : (d.setPort p x).key = d.key := rfl
@[simp] theorem Dev.setPort_qmg (d : Dev) (p : Nat) (x : Port) : (d.setPort p x).qmg = d.qmg := rfl
@[simp] theorem Dev.setPort_svc (d : Dev) (p : Nat) (x : Port) : (d.setPort p x).svc = d.svc := rfl
@[simp] theorem Dev.setPort_per (d : Dev) (p : Nat) (x : Port) : (d.setPort p x).per = d.per := rfl
@[simp] theorem Dev.setPort_del (d : Dev) (p : Nat) (x : Port) : (d.setPort p x).del = d.del := rfl
@[simp] theorem Dev.setPort_drive (d : Dev) (p : Nat) (x : Port) : (d.setPort p x).drive = d.drive := rfl
@[simp] theorem Dev.setPort_raised (d : Dev) (p : Nat) (x : Port) : (d.setPort p x).raised = d.raised := rfl
@[simp] theorem Dev.setPort_free (d : Dev) (p : Nat) (x : Port) : (d.setPort p x).free = d.free := rfl
@[simp] theorem Dev.setPort_seq (d : Dev) (p : Nat) (x : Port) : (d.setPort p x).seq = d.seq := rfl

/-! ### setChan -/

@[simp] theorem Dev.setChan_mgt (d : Dev) (n : Nat) (x : Channel) : (d.setChan n x).mgt = d.mgt := rfl
@[simp] theorem Dev.setChan_tap (d : Dev) (n : Nat) (x : Channel) : (d.setChan n x).tap = d.tap := rfl
@[simp] theorem Dev.setChan_fab (d : Dev) (n : Nat) (x : Channel) : (d.setChan n x).fab = d.fab := rfl
@[simp] theorem Dev.setChan_stl (d : Dev) (n : Nat) (x : Channel) : (d.setChan n x).stl = d.stl := rfl
@[simp] theorem Dev.setChan_rmp (d : Dev) (n : Nat) (x : Channel) : (d.setChan n x).rmp = d.rmp := rfl
@[simp] theorem Dev.setChan_lan (d : Dev) (n : Nat) (x : Channel) : (d.setChan n x).lan = d.lan := rfl
@[simp] theorem Dev.setChan_frs (d : Dev) (n : Nat) (x : Channel) : (d.setChan n x).frs = d.frs := rfl
@[simp] theorem Dev.setChan_can (d : Dev) (n : Nat) (x : Channel) : (d.setChan n x).can = d.can := rfl
@[simp] theorem Dev.setChan_med (d : Dev) (n : Nat) (x : Channel) : (d.setChan n x).med = { d.med with ch := d.med.ch.put n x } := rfl
@[simp] theorem Dev.setChan_key (d : Dev) (n : Nat) (x : Channel) : (d.setChan n x).key = d.key := rfl
@[simp] theorem Dev.setChan_qmg (d : Dev) (n : Nat) (x : Channel) : (d.setChan n x).qmg = d.qmg := rfl
@[simp] theorem Dev.setChan_svc (d : Dev) (n : Nat) (x : Channel) : (d.setChan n x).svc = d.svc := rfl
@[simp] theorem Dev.setChan_per (d : Dev) (n : Nat) (x : Channel) : (d.setChan n x).per = d.per := rfl
@[simp] theorem Dev.setChan_del (d : Dev) (n : Nat) (x : Channel) : (d.setChan n x).del = d.del := rfl
@[simp] theorem Dev.setChan_drive (d : Dev) (n : Nat) (x : Channel) : (d.setChan n x).drive = d.drive := rfl
@[simp] theorem Dev.setChan_raised (d : Dev) (n : Nat) (x : Channel) : (d.setChan n x).raised = d.raised := rfl
@[simp] theorem Dev.setChan_free (d : Dev) (n : Nat) (x : Channel) : (d.setChan n x).free = d.free := rfl
@[simp] theorem Dev.setChan_seq (d : Dev) (n : Nat) (x : Channel) : (d.setChan n x).seq = d.seq := rfl

/-! ### setLink -/

@[simp] theorem Dev.setLink_mgt (d : Dev) (n : Nat) (x : Link) : (d.setLink n x).mgt = d.mgt := rfl
@[simp] theorem Dev.setLink_tap (d : Dev) (n : Nat) (x : Link) : (d.setLink n x).tap = d.tap := rfl
@[simp] theorem Dev.setLink_fab (d : Dev) (n : Nat) (x : Link) : (d.setLink n x).fab = d.fab := rfl
@[simp] theorem Dev.setLink_stl (d : Dev) (n : Nat) (x : Link) : (d.setLink n x).stl = d.stl := rfl
@[simp] theorem Dev.setLink_rmp (d : Dev) (n : Nat) (x : Link) : (d.setLink n x).rmp = d.rmp := rfl
@[simp] theorem Dev.setLink_lan (d : Dev) (n : Nat) (x : Link) : (d.setLink n x).lan = d.lan := rfl
@[simp] theorem Dev.setLink_frs (d : Dev) (n : Nat) (x : Link) : (d.setLink n x).frs = d.frs := rfl
@[simp] theorem Dev.setLink_can (d : Dev) (n : Nat) (x : Link) : (d.setLink n x).can = d.can := rfl
@[simp] theorem Dev.setLink_med (d : Dev) (n : Nat) (x : Link) : (d.setLink n x).med = d.med := rfl
@[simp] theorem Dev.setLink_key (d : Dev) (n : Nat) (x : Link) : (d.setLink n x).key = d.key := rfl
@[simp] theorem Dev.setLink_qmg (d : Dev) (n : Nat) (x : Link) : (d.setLink n x).qmg = d.qmg := rfl
@[simp] theorem Dev.setLink_svc (d : Dev) (n : Nat) (x : Link) : (d.setLink n x).svc = d.svc := rfl
@[simp] theorem Dev.setLink_per (d : Dev) (n : Nat) (x : Link) : (d.setLink n x).per = d.per := rfl
@[simp] theorem Dev.setLink_del (d : Dev) (n : Nat) (x : Link) : (d.setLink n x).del = { d.del with links := d.del.links.put n x } := rfl
@[simp] theorem Dev.setLink_drive (d : Dev) (n : Nat) (x : Link) : (d.setLink n x).drive = d.drive := rfl
@[simp] theorem Dev.setLink_raised (d : Dev) (n : Nat) (x : Link) : (d.setLink n x).raised = d.raised := rfl
@[simp] theorem Dev.setLink_free (d : Dev) (n : Nat) (x : Link) : (d.setLink n x).free = d.free := rfl
@[simp] theorem Dev.setLink_seq (d : Dev) (n : Nat) (x : Link) : (d.setLink n x).seq = d.seq := rfl

/-! ### nextOseq -/

@[simp] theorem Dev.nextOseq_mgt (d : Dev) : (d.nextOseq).mgt = d.mgt := rfl
@[simp] theorem Dev.nextOseq_tap (d : Dev) : (d.nextOseq).tap = d.tap := rfl
@[simp] theorem Dev.nextOseq_fab (d : Dev) : (d.nextOseq).fab = d.fab := rfl
@[simp] theorem Dev.nextOseq_stl (d : Dev) : (d.nextOseq).stl = d.stl := rfl
@[simp] theorem Dev.nextOseq_rmp (d : Dev) : (d.nextOseq).rmp = d.rmp := rfl
@[simp] theorem Dev.nextOseq_lan (d : Dev) : (d.nextOseq).lan = d.lan := rfl
@[simp] theorem Dev.nextOseq_frs (d : Dev) : (d.nextOseq).frs = d.frs := rfl
@[simp] theorem Dev.nextOseq_can (d : Dev) : (d.nextOseq).can = d.can := rfl
@[simp] theorem Dev.nextOseq_med (d : Dev) : (d.nextOseq).med = d.med := rfl
@[simp] theorem Dev.nextOseq_key (d : Dev) : (d.nextOseq).key = d.key := rfl
@[simp] theorem Dev.nextOseq_qmg (d : Dev) : (d.nextOseq).qmg = d.qmg := rfl
@[simp] theorem Dev.nextOseq_svc (d : Dev) : (d.nextOseq).svc = d.svc := rfl
@[simp] theorem Dev.nextOseq_per (d : Dev) : (d.nextOseq).per = d.per := rfl
@[simp] theorem Dev.nextOseq_del (d : Dev) : (d.nextOseq).del = { d.del with oseq := d.del.oseq + 1 } := rfl
@[simp] theorem Dev.nextOseq_drive (d : Dev) : (d.nextOseq).drive = d.drive := rfl
@[simp] theorem Dev.nextOseq_raised (d : Dev) : (d.nextOseq).raised = d.raised := rfl
@[simp] theorem Dev.nextOseq_free (d : Dev) : (d.nextOseq).free = d.free := rfl
@[simp] theorem Dev.nextOseq_seq (d : Dev) : (d.nextOseq).seq = d.seq := rfl

end Machine
end Sys2Proof
end

