-- ==== Sys2Proof/Laws/Settle.lean ====
section
/-! SUPPORT. What registering the occurrences of a step can change, and the frame of every meaning: a command changes what
its effect changes, and registering reaches no part of the block. -/

namespace Sys2Proof
namespace Machine

/-- What one iteration leaves alone, the whole loop leaves alone. -/
theorem forAll_keeps {α σ β : Type} (g : σ → β) (f : α → σ → σ) (h : ∀ x s, g (f x s) = g s) (xs : List α) (s : σ) :
    g (forAll xs f s) = g s := by
  induction xs generalizing s with
  | nil => rfl
  | cons x r ih => exact (ih (f x s)).trans (h x s)

/-! ### The SAFE frame -/

theorem Dev.transmit_safe (d : Dev) (n : Nat) (f : Frame) :
    d.transmit n tSafe f = d ∨ ∃ t, d.transmit n tSafe f = d.emit t := by
  unfold Dev.transmit
  by_cases h : d.linkUsable n = true
  · right
    exact ⟨.frame n (frameWords (d.link n).version tSafe f), by simp [h, tSafe]⟩
  · left
    simp [h]

/-- Flooding a SAFE frame only drives outputs. -/
theorem Dev.flood_safe (d : Dev) (but : Option Nat) (f : Frame) :
    ∃ ts, d.flood but tSafe f = { d with drive := d.drive ++ ts } := by
  unfold Dev.flood forAll
  suffices h : ∀ (ns : List Nat) (d : Dev), ∃ ts, ns.foldl (fun s n =>
      if (s.link n).st == .up && decide (but ≠ some n) then s.transmit n tSafe f else s) d = { d with drive := d.drive ++ ts } from h _ d
  intro ns
  induction ns with
  | nil => exact fun d => ⟨[], by simp⟩
  | cons n r ih =>
    intro d
    simp only [List.foldl_cons]
    split
    · rcases Dev.transmit_safe d n f with h | ⟨t, h⟩
      · rw [h]
        exact ih d
      · rw [h]
        obtain ⟨ts, hts⟩ := ih (d.emit t)
        exact ⟨t :: ts, by rw [hts]; simp [Dev.emit]⟩
    · exact ih d

/-- Entering the safe state drives outputs and counts OSEQ. -/
theorem Dev.sendSafe_eq (d : Dev) : ∃ ts o, d.sendSafe = { d with drive := d.drive ++ ts, del.oseq := o } := by
  unfold Dev.sendSafe Dev.broadcast
  split
  · exact ⟨[], d.del.oseq, by simp⟩
  · obtain ⟨ts, hts⟩ := Dev.flood_safe d none (d.newFrame true 0 63 [])
    rw [hts]
    exact ⟨ts, d.del.oseq + 1, rfl⟩

/-! ### Registering -/

/-- A registration changes of the block outside the banks and SAFE: outputs, occurrences, OSEQ, the items of a vector,
held records and their loss. -/
structure Registers (d e : Dev) : Prop where
  mgt : e.mgt = d.mgt
  tap : e.tap = d.tap
  fab : e.fab = d.fab
  stl : e.stl = d.stl
  rmp : e.rmp = d.rmp
  lan : e.lan = d.lan
  frs : e.frs = d.frs
  can : e.can = d.can
  med : e.med = d.med
  key : e.key = d.key
  svc : e.svc = d.svc
  per : e.per = d.per
  free : e.free = d.free
  seq : e.seq = d.seq
  del : { e.del with evtLost := false, oseq := 0 } = { d.del with evtLost := false, oseq := 0 }
  queues : e.qmg.queues = d.qmg.queues
  hdma : e.qmg.wrCredit = d.qmg.wrCredit ∧ e.qmg.rdCredit = d.qmg.rdCredit ∧ e.qmg.wrWait = d.qmg.wrWait ∧
    e.qmg.wrOut = d.qmg.wrOut ∧ e.qmg.rdWait = d.qmg.rdWait ∧ e.qmg.rdOut = d.qmg.rdOut ∧ e.qmg.lastFetch = d.qmg.lastFetch
  qmg : e.qmg.cfgIgn = d.qmg.cfgIgn ∧ e.qmg.vecLoading = d.qmg.vecLoading ∧ e.qmg.admqBase = d.qmg.admqBase ∧
    e.qmg.admqCfg = d.qmg.admqCfg ∧ e.qmg.scanPeriod = d.qmg.scanPeriod ∧ e.qmg.vecBase = d.qmg.vecBase ∧
    e.qmg.drains = d.qmg.drains ∧ e.qmg.drainVecs = d.qmg.drainVecs ∧ e.qmg.drainDue = d.qmg.drainDue ∧
    e.qmg.fltEvq = d.qmg.fltEvq
  vecs : ∀ v, (e.qmg.vecs.get v).settings = (d.qmg.vecs.get v).settings
  drive : d.drive <+: e.drive

theorem Registers.refl (d : Dev) : Registers d d := by
  constructor <;> simp

theorem Registers.trans {a b c : Dev} (h : Registers a b) (k : Registers b c) : Registers a c where
  mgt := k.mgt.trans h.mgt
  tap := k.tap.trans h.tap
  fab := k.fab.trans h.fab
  stl := k.stl.trans h.stl
  rmp := k.rmp.trans h.rmp
  lan := k.lan.trans h.lan
  frs := k.frs.trans h.frs
  can := k.can.trans h.can
  med := k.med.trans h.med
  key := k.key.trans h.key
  svc := k.svc.trans h.svc
  per := k.per.trans h.per
  free := k.free.trans h.free
  seq := k.seq.trans h.seq
  del := k.del.trans h.del
  queues := k.queues.trans h.queues
  hdma := by
    obtain ⟨h1, h2, h3, h4, h5, h6, h7⟩ := h.hdma
    obtain ⟨k1, k2, k3, k4, k5, k6, k7⟩ := k.hdma
    exact ⟨k1.trans h1, k2.trans h2, k3.trans h3, k4.trans h4, k5.trans h5, k6.trans h6, k7.trans h7⟩
  qmg := by
    obtain ⟨h1, h2, h3, h4, h5, h6, h7, h8, h9, h10⟩ := h.qmg
    obtain ⟨k1, k2, k3, k4, k5, k6, k7, k8, k9, k10⟩ := k.qmg
    exact ⟨k1.trans h1, k2.trans h2, k3.trans h3, k4.trans h4, k5.trans h5, k6.trans h6, k7.trans h7, k8.trans h8,
      k9.trans h9, k10.trans h10⟩
  vecs v := (k.vecs v).trans (h.vecs v)
  drive := h.drive.trans k.drive

theorem Registers.raised (d : Dev) (r : List Raise) : Registers d { d with raised := r } := by
  constructor <;> simp

theorem Registers.raise (d : Dev) (b k : Nat) : Registers d (d.raise b k) := Registers.raised d _

/-- What the check bits of the Zenith or the ceiling store show is registered, and nothing else changes. -/
theorem Registers.zenithRead (d : Dev) (c : Bool) : Registers d (d.zenithRead c) := by
  cases c
  exacts [.refl d, .raise d _ _]

/-- So with the check bits of the DRBG working state. -/
theorem Registers.drbgRead (d : Dev) (x : Option Bool) : Registers d (d.drbgRead x) := by
  cases x
  exacts [.refl d, .raise d _ _]

theorem Registers.emit (d : Dev) (t : Transfer) : Registers d (d.emit t) := by
  constructor <;> simp

theorem Registers.sendSafe (d : Dev) : Registers d d.sendSafe := by
  obtain ⟨ts, o, h⟩ := d.sendSafe_eq
  rw [h]
  constructor <;> simp

theorem Registers.countItem (d : Dev) (v n : Nat) : Registers d (d.countItem v n) := by
  unfold Dev.countItem
  split
  · exact .refl d
  · rename_i hn
    constructor <;> try simp
    intro u
    by_cases hu : u = v
    · subst hu
      rw [Tab.get_put_listed]
      · rfl
      · intro h
        have := congrArg Vec.n h
        simp [default, instInhabitedVec.default] at this
        omega
    · rw [Tab.get_put_other _ hu]

theorem Registers.held (d : Dev) (h : Tab (List Rec)) : Registers d { d with qmg.held := h } := by
  constructor <;> simp

theorem Registers.post (d : Dev) (r : Rec) : Registers d (d.post .flt r) := by
  unfold Dev.post
  split
  · exact .refl d
  · dsimp only
    split
    · exact .held d _
    · have h : ∀ c : Bool, Registers d (if c = true then d.markLost .flt
          else { d with qmg.held := d.qmg.held.put (evCode .flt) (d.qmg.held.get (evCode .flt) ++ [r]) }) := by
        intro c
        cases c
        · exact .held d _
        · constructor <;> simp [Dev.markLost]
      exact h _

/-- Entering the safe state reaches no part of the block. -/
theorem enterSquall_registers (b k : Nat) (f : Bool) (s : State) :
    Registers s.dev (enterSquall b k f s).dev ∧ (enterSquall b k f s).pending = s.pending ∧ (enterSquall b k f s).flt = s.flt ∧
      (enterSquall b k f s).safe.drillEn = s.safe.drillEn ∧ (enterSquall b k f s).safe.resetCause = s.safe.resetCause := by
  unfold enterSquall
  split
  · exact ⟨.refl _, rfl, rfl, rfl, rfl⟩
  · exact ⟨.sendSafe _, rfl, rfl, rfl, rfl⟩

/-- A bank registers: its mask, class and vector registers stay. -/
theorem Bank.register_settings (x : Bank) (b now : Nat) (os : List Occ) (hs : List Nat) (dr : Bool) :
    (x.register b now os hs dr).bank.mask = x.mask ∧ (x.register b now os hs dr).bank.esc = x.esc ∧
      (x.register b now os hs dr).bank.vecEn = x.vecEn ∧ (x.register b now os hs dr).bank.vec = x.vec :=
  ⟨rfl, rfl, rfl, rfl⟩

/-- What registering by one bank leaves alone. -/
structure Settled (s t : State) : Prop where
  dev : Registers s.dev t.dev
  pending : t.pending = s.pending
  drillEn : t.safe.drillEn = s.safe.drillEn
  resetCause : t.safe.resetCause = s.safe.resetCause
  banks : s.flt.banks.wf = true → t.flt.banks.wf = true ∧ ∀ b,
    (t.flt.banks.get b).mask = (s.flt.banks.get b).mask ∧ (t.flt.banks.get b).esc = (s.flt.banks.get b).esc ∧
    (t.flt.banks.get b).vecEn = (s.flt.banks.get b).vecEn ∧ (t.flt.banks.get b).vec = (s.flt.banks.get b).vec

theorem Settled.refl (s : State) : Settled s s :=
  ⟨.refl _, rfl, rfl, rfl, fun h => ⟨h, fun _ => ⟨rfl, rfl, rfl, rfl⟩⟩⟩

theorem Settled.trans {a b c : State} (h : Settled a b) (k : Settled b c) : Settled a c where
  dev := h.dev.trans k.dev
  pending := k.pending.trans h.pending
  drillEn := k.drillEn.trans h.drillEn
  resetCause := k.resetCause.trans h.resetCause
  banks hw := by
    obtain ⟨hb, h'⟩ := h.banks hw
    obtain ⟨hc, k'⟩ := k.banks hb
    refine ⟨hc, fun i => ?_⟩
    obtain ⟨h1, h2, h3, h4⟩ := h' i
    obtain ⟨k1, k2, k3, k4⟩ := k' i
    exact ⟨k1.trans h1, k2.trans h2, k3.trans h3, k4.trans h4⟩

theorem enterSquall_settled (b k : Nat) (f : Bool) (s : State) : Settled s (enterSquall b k f s) := by
  obtain ⟨h1, h2, h3, h4, h5⟩ := enterSquall_registers b k f s
  exact ⟨h1, h2, h4, h5, by rw [h3]; exact fun h => ⟨h, fun _ => ⟨rfl, rfl, rfl, rfl⟩⟩⟩

/-- Writing a bank that keeps its settings keeps those of every bank. -/
theorem banks_put {t : Tab Bank} {b : Nat} {x : Bank} (hw : t.wf = true)
    (hx : x.mask = (t.get b).mask ∧ x.esc = (t.get b).esc ∧ x.vecEn = (t.get b).vecEn ∧ x.vec = (t.get b).vec) :
    (t.put b x).wf = true ∧ ∀ i, ((t.put b x).get i).mask = (t.get i).mask ∧ ((t.put b x).get i).esc = (t.get i).esc ∧
      ((t.put b x).get i).vecEn = (t.get i).vecEn ∧ ((t.put b x).get i).vec = (t.get i).vec := by
  refine ⟨Tab.put_wf b x hw, fun i => ?_⟩
  by_cases hi : i = b
  · subst hi
    rw [Tab.get_put_self i x hw]
    exact hx
  · rw [Tab.get_put_other x hi]
    exact ⟨rfl, rfl, rfl, rfl⟩

theorem settleBank_settled (b : Nat) (s : State) : Settled s (settleBank b s) := by
  unfold settleBank
  split
  · split
    · exact .refl s
    · split
      · exact enterSquall_settled _ _ _ _
      · split
        · exact enterSquall_settled _ _ _ _
        · exact .refl s
  · dsimp only
    generalize hr : Bank.register (s.flt.banks.get b) b s.dev.stamp _ _ _ = r
    have hset := Bank.register_settings (s.flt.banks.get b) b s.dev.stamp
      ((s.dev.raised.filter fun r => r.bank = b).map fun r => ⟨r.src, !r.forced, r.forced⟩) (s.dev.holding b) s.drillOn
    rw [hr] at hset
    have h1 : ∀ d, Registers s.dev d →
        Settled s { s with dev := d, flt.banks := s.flt.banks.put b r.bank } := fun d hd =>
      ⟨hd, rfl, rfl, rfl, fun hw => banks_put hw hset⟩
    have hd : Registers s.dev { s.dev with raised := s.dev.raised.filter fun r => r.bank ≠ b } := .raised _ _
    have hc : ∀ d, Registers s.dev d → Registers s.dev
        (if r.bank.vecEn = true then d.countItem r.bank.vec.toNat r.items else d) := by
      intro d h
      split
      · exact h.trans (.countItem _ _ _)
      · exact h
    have hp : ∀ d q, Registers s.dev d → Registers s.dev (if r.latched = true then d.post .flt q else d) := by
      intro d q h
      split
      · exact h.trans (.post _ _)
      · exact h
    split
    · exact (h1 _ (hp _ _ (hc _ hd))).trans (enterSquall_settled _ _ _ _)
    · split
      · exact h1 _ (hp _ _ (hc _ hd))
      · refine (h1 _ (hp _ _ (hc _ hd))).trans ⟨.raise _ _ _, rfl, rfl, rfl, fun h => ⟨h, fun _ => ⟨rfl, rfl, rfl, rfl⟩⟩⟩

/-- Registering the occurrences of a step reaches no part of the block. -/
theorem settle_settled (s : State) : Settled s (settle s) := by
  unfold settle forAll
  suffices h : ∀ (bs : List Nat) (s : State), Settled s (bs.foldl (fun s x => settleBank x s) s) from h _ s
  intro bs
  induction bs with
  | nil => exact fun s => .refl s
  | cons b r ih => exact fun s => (settleBank_settled b s).trans (ih _)

/-! ### What a settled state shows of the state before -/

@[simp] theorem settle_mgt (s : State) : (settle s).dev.mgt = s.dev.mgt := (settle_settled s).dev.mgt
@[simp] theorem settle_tap (s : State) : (settle s).dev.tap = s.dev.tap := (settle_settled s).dev.tap
@[simp] theorem settle_fab (s : State) : (settle s).dev.fab = s.dev.fab := (settle_settled s).dev.fab
@[simp] theorem settle_stl (s : State) : (settle s).dev.stl = s.dev.stl := (settle_settled s).dev.stl
@[simp] theorem settle_rmp (s : State) : (settle s).dev.rmp = s.dev.rmp := (settle_settled s).dev.rmp
@[simp] theorem settle_lan (s : State) : (settle s).dev.lan = s.dev.lan := (settle_settled s).dev.lan
@[simp] theorem settle_frs (s : State) : (settle s).dev.frs = s.dev.frs := (settle_settled s).dev.frs
@[simp] theorem settle_can (s : State) : (settle s).dev.can = s.dev.can := (settle_settled s).dev.can
@[simp] theorem settle_med (s : State) : (settle s).dev.med = s.dev.med := (settle_settled s).dev.med
@[simp] theorem settle_key (s : State) : (settle s).dev.key = s.dev.key := (settle_settled s).dev.key
@[simp] theorem settle_svc (s : State) : (settle s).dev.svc = s.dev.svc := (settle_settled s).dev.svc
@[simp] theorem settle_per (s : State) : (settle s).dev.per = s.dev.per := (settle_settled s).dev.per
@[simp] theorem settle_free (s : State) : (settle s).dev.free = s.dev.free := (settle_settled s).dev.free
@[simp] theorem settle_seq (s : State) : (settle s).dev.seq = s.dev.seq := (settle_settled s).dev.seq
@[simp] theorem settle_pending (s : State) : (settle s).pending = s.pending := (settle_settled s).pending
@[simp] theorem settle_queues (s : State) : (settle s).dev.qmg.queues = s.dev.qmg.queues := (settle_settled s).dev.queues
@[simp] theorem settle_drillEn (s : State) : (settle s).safe.drillEn = s.safe.drillEn := (settle_settled s).drillEn
@[simp] theorem settle_resetCause (s : State) : (settle s).safe.resetCause = s.safe.resetCause := (settle_settled s).resetCause
/-- What a step drives stays driven. -/
theorem settle_drive {s : State} {x : Transfer} (h : x ∈ s.dev.drive) : x ∈ (settle s).dev.drive :=
  (settle_settled s).dev.drive.subset h

@[simp] theorem settle_settings (s : State) (v : Nat) :
    ((settle s).dev.qmg.vecs.get v).settings = (s.dev.qmg.vecs.get v).settings := (settle_settled s).dev.vecs v

/-- Registering changes no part. -/
theorem settle_same (s : State) (p : Part) : Same s (settle s) p := by
  have h := settle_settled s
  cases p
  case frs => exact congrArg (fun x : Frs => { x with evtLost := false }) h.dev.frs
  case svc => exact congrArg (fun x : Svc => { x with evtLost := false }) h.dev.svc
  case per => exact congrArg (fun x : Per => { x with evtLost := false }) h.dev.per
  case qmg =>
    obtain ⟨h1, h2, h3, h4, h5, h6, h7, h8, h9, h10⟩ := h.dev.qmg
    exact ⟨h1, h2, h3, h4, h5, h6, h7, h8, h9, h10, h.dev.vecs⟩
  case safeRegs => exact ⟨h.drillEn, h.resetCause⟩
  case banks => exact h.banks
  case pending => exact h.pending
  case del => exact h.dev.del
  case queues => exact h.dev.queues
  case hdma => exact h.dev.hdma
  case mgt => exact h.dev.mgt
  case tap => exact h.dev.tap
  case fab => exact h.dev.fab
  case stl => exact h.dev.stl
  case rmp => exact h.dev.rmp
  case lan => exact h.dev.lan
  case can => exact h.dev.can
  case med => exact h.dev.med
  case key => exact h.dev.key

/-- Sameness composes. -/
theorem Same.trans {a b c : State} {p : Part} (h : Same a b p) (k : Same b c p) : Same a c p := by
  cases p
  case hdma =>
    obtain ⟨h1, h2, h3, h4, h5, h6, h7⟩ := h
    obtain ⟨k1, k2, k3, k4, k5, k6, k7⟩ := k
    exact ⟨k1.trans h1, k2.trans h2, k3.trans h3, k4.trans h4, k5.trans h5, k6.trans h6, k7.trans h7⟩
  case qmg =>
    obtain ⟨h1, h2, h3, h4, h5, h6, h7, h8, h9, h10, hv⟩ := h
    obtain ⟨k1, k2, k3, k4, k5, k6, k7, k8, k9, k10, kv⟩ := k
    exact ⟨k1.trans h1, k2.trans h2, k3.trans h3, k4.trans h4, k5.trans h5, k6.trans h6, k7.trans h7, k8.trans h8,
      k9.trans h9, k10.trans h10, fun v => (kv v).trans (hv v)⟩
  case banks =>
    intro hw
    obtain ⟨hb, h'⟩ := h hw
    obtain ⟨hc, k'⟩ := k hb
    refine ⟨hc, fun i => ?_⟩
    obtain ⟨h1, h2, h3, h4⟩ := h' i
    obtain ⟨k1, k2, k3, k4⟩ := k' i
    exact ⟨k1.trans h1, k2.trans h2, k3.trans h3, k4.trans h4⟩
  case safeRegs => exact ⟨k.1.trans h.1, k.2.trans h.2⟩
  all_goals exact Eq.trans k h

/-- A frame is that of the effect before it is settled. -/
theorem onlyChanges_settle {ps : List Part} {s t : State} (h : OnlyChanges ps s t) : OnlyChanges ps s (settle t) :=
  fun p hp => (h p hp).trans (settle_same t p)

end Machine
end Sys2Proof
end

