-- ==== Sys2Proof/Laws/Entries.lean ====
section
/-! SUPPORT. Entries in execution: what a command row finds, and how a command that ends has answered. -/

namespace Sys2Proof
namespace Laws

open Machine

/-- A change of an entry is read back. -/
theorem exec1_updExec {d : Dev} {q : Nat} {pos : QPos} {x : Exec} (f : Exec → Exec) (hf : ∀ y, (f y).pos = y.pos)
    (hq : Tab.rising d.qmg.queues) (h : d.exec1 q pos = some x) : (d.updExec q pos f).exec1 q pos = some (f x) := by
  have key : ∀ l : List Exec, l.find? (fun y => y.pos == pos) = some x →
      (l.map fun y => if y.pos = pos then f y else y).find? (fun y => y.pos == pos) = some (f x) := by
    intro l
    induction l with
    | nil => intro h; cases h
    | cons y r ih =>
      intro h
      by_cases hy : y.pos = pos
      · have hxy : y = x := by simpa [hy] using h
        subst hxy
        simp [hy, hf]
      · rw [List.find?_cons_of_neg (by simpa using hy)] at h
        simp only [List.map_cons, if_neg hy]
        rw [List.find?_cons_of_neg (by simpa using hy)]
        exact ih h
  have hg : (d.updExec q pos f).queue q =
      { d.queue q with exec := (d.queue q).exec.map fun y => if y.pos = pos then f y else y } :=
    get_put_self_rising _ _ hq
  rw [Dev.exec1, hg]
  exact key _ h

/-- A transfer of HDMA leaves the entries in execution. -/
theorem hostWrite_exec1 {d : Dev} (a : Nat) (b : Bytes) (k : Nat) (w : WrWhy) (q : Nat) (pos : QPos)
    (hq : Tab.rising d.qmg.queues) : (d.hostWrite a b k w).exec1 q pos = d.exec1 q pos := by
  have h := congrArg Queue.exec (((hostWrite_only d a b k w).2 hq).2 q)
  show ((d.hostWrite a b k w).queue q).exec.find? _ = (d.queue q).exec.find? _
  exact congrArg (List.find? _) h

theorem updExec_rising {d : Dev} (q : Nat) (pos : QPos) (f : Exec → Exec) (hq : Tab.rising d.qmg.queues) :
    Tab.rising (d.updExec q pos f).qmg.queues := put_rising _ _ hq

/-- The completion write of an entry is under way. -/
theorem issueCpl_answers {d : Dev} {q : Nat} {pos : QPos} {x : Exec} (hq : Tab.rising d.qmg.queues)
    (h : d.exec1 q pos = some x) : (d.issueCpl q pos).exec1 q pos = some { x with st := .completing } := by
  unfold Dev.issueCpl
  rw [h]
  dsimp only
  rw [hostWrite_exec1 _ _ _ _ _ _ (updExec_rising _ _ _ hq)]
  exact exec1_updExec (fun y => { y with st := .completing }) (fun _ => rfl) hq h

/-- SVC_BULK_DONE is all that the end of a service command adds. -/
theorem noteBulk_only (d : Dev) (q : Nat) (pos : QPos) : d.noteBulk q pos = { d with raised := (d.noteBulk q pos).raised } := by
  unfold Dev.noteBulk
  split <;> rfl

@[simp] theorem noteBulk_qmg (d : Dev) (q : Nat) (pos : QPos) : (d.noteBulk q pos).qmg = d.qmg := by
  rw [noteBulk_only]

@[simp] theorem noteBulk_exec1 (d : Dev) (q : Nat) (pos : QPos) (r : Nat) (p : QPos) :
    (d.noteBulk q pos).exec1 r p = d.exec1 r p := by
  rw [noteBulk_only]; rfl

/-- A command that ends without a result buffer has answered, where its completion is not discarded. -/
theorem finish_answers {d : Dev} {q : Nat} {pos : QPos} {x : Exec} (c : Cpl) (hq : Tab.rising d.qmg.queues)
    (h : d.exec1 q pos = some x) (hd : x.discard = false) :
    ∃ y, (d.finish q pos c).exec1 q pos = some y ∧ y.cpl = some c ∧ y.st = .completing := by
  have hq : Tab.rising (d.noteBulk q pos).qmg.queues := by rwa [noteBulk_qmg]
  have h : (d.noteBulk q pos).exec1 q pos = some x := by rwa [noteBulk_exec1]
  have h1 := exec1_updExec (fun y => { y with cpl := some c, st := .writing, wrLeft := 0, wrFail := false, buf := [] })
    (fun _ => rfl) hq h
  have h2 := issueCpl_answers (updExec_rising q pos
    (fun y => { y with cpl := some c, st := .writing, wrLeft := 0, wrFail := false, buf := [] }) hq) h1
  refine ⟨{ x with cpl := some c, st := .completing, wrLeft := 0, wrFail := false, buf := [] }, ?_, rfl, rfl⟩
  · unfold Dev.finish Dev.finishWith
    simp only [List.flatMap_nil, List.length_nil, List.isEmpty_nil, if_true]
    unfold Dev.writeCpl
    rw [h1]
    dsimp only
    rw [if_neg (by rw [hd]; decide)]
    exact h2

/-- Registering what was raised leaves every entry. -/
@[simp] theorem settle_exec1 (s : State) (q : Nat) (pos : QPos) : (settle s).dev.exec1 q pos = s.dev.exec1 q pos := by
  simp only [Dev.exec1, Dev.queue, settle_queues]

/-- A command row whose entry is in hand and in order runs its command. -/
theorem command_runs {q : BitVec 14} {pos : BitVec 16} {op : Nat} {more : Dev → Exec → List (Nat × Bool)} {x : Exec}
    {s : State} (act : Exec → Dev → Dev) (h : Runs q pos op more x s)
    (hm : more { s.dev with drive := [] } x = more s.dev x) :
    ({ s.dev with drive := [] } : Dev).command q.toNat pos op more act = act x { s.dev with drive := [] } := by
  obtain ⟨⟨-, hl, hx, -⟩, hb⟩ := h
  have hx' : ({ s.dev with drive := [] } : Dev).readyEntry q.toNat pos op = some x := hx
  have hl' : ({ s.dev with drive := [] } : Dev).lifecycle ≠ 0 := hl
  unfold Dev.command
  simp only [hx', hm]
  unfold Dev.checked
  rw [hb]
  simp [hl']

/-- The entry that a row has in hand. -/
theorem readyEntry_exec1 {d : Dev} {q : Nat} {pos : QPos} {op : Nat} {x : Exec} (h : d.readyEntry q pos op = some x) :
    d.exec1 q pos = some x := by
  unfold Dev.readyEntry at h
  split at h
  · split at h
    · rename_i e _
      rw [e, h]
    · cases h
  · cases h

/-- A command row that ends at once answers its entry. -/
theorem answered_of_finish {q : BitVec 14} {pos : BitVec 16} {x : Exec} {s : State} (c : Cpl) (d : Dev)
    (hx : d.exec1 q.toNat pos = some x) (hd : x.discard = false) (hq : Tab.rising d.qmg.queues) :
    Answered q pos c (settle { s with dev := d.finish q.toNat pos c }) := by
  obtain ⟨y, h1, h2, h3⟩ := finish_answers c hq hx hd
  exact ⟨y, by simpa using h1, h2, h3⟩

end Laws
end Sys2Proof
end

