-- ==== Sys2Proof/WellFormed.lean ====
section
/-! DEFINITION. What a row's operands must satisfy to spell something the spec describes: an entry is malformed exactly
where its row says so, a source number names a source of its bank, a draw and a start-up test have their 1,024 samples, and
samples that fail a health test do. -/

namespace Sys2Proof

open Machine

/-- A Canopy error names a line of the Canopy or of the staging buffer (spec/09 R233, R252). -/
def canErrOk : Option CanErr → Bool
  | some (.data line _) => decide (line ≤ staging)
  | _ => true

/-- A Front is that of one of 4,096 entry indices; a queue number has 14 bits and a position 16 (spec/06 R152). -/
def whoOk : SvcWho → Bool
  | .front i => decide (i < 4096)
  | .drizzle => true
  | .cmd q pos => decide (q < 16384) && decide (pos < 65536)

/-- The checks of each row's operands. -/
def Instr.wf : Instr → Bool
  | .fabricRequest _ _ _ _ _ _ _ _ => true
  | .writePayload _ _ _ => true
  | .wlpcOpen _ e => openOk e
  | .wlpcAad _ e => aadOk e
  | .wlpcClose _ e => aadOk e
  | .wlpcReservedType _ ty e => decide (ty = 3) || !(if ty = 0 then openOk e else aadOk e)
  | .windowResult _ => true
  | .writeWindowTimeout _ => true
  | .rlpcOpen _ e => openOk e
  | .rlpcAad _ e => aadOk e
  | .rlpcFormatError _ ty e => decide (2 ≤ ty.toNat) || !(if ty = 0 then openOk e else aadOk e)
  | .rtag _ => true
  | .readWindowWaitTimeout _ _ => true
  | .accessGrant _ err => canErrOk err
  | .ladderVerifyDone _ err _ => canErrOk err
  | .mediaReadBeat _ _ _ _ _ _ => true
  | .lanePassDone _ _ _ err _ => canErrOk err
  | .mediaWriteCompletion _ _ _ _ => true
  | .responseTransfer _ _ => true
  | .creditReturn _ => true
  | .mcnFail _ => true
  | .transientBucketLeak _ => true
  | .parkingTimeout _ _ => true
  | .parkedRelease _ => true
  | .ageingTick => true
  | .hdmaWriteAck _ _ => true
  | .hdmaReadData _ _ _ _ => true
  | .hostHoldoffRise => true
  | .hostHoldoffFall => true
  | .tail _ _ _ => true
  | .scan _ _ _ => true
  | .invalidate _ _ _ => true
  | .drain _ _ _ => true
  | .entryFetch _ => true
  | .scanPoll _ => true
  | .entryConsumption _ _ => true
  | .eventRecordWrite _ => true
  | .vectorDue _ => true
  | .regWrite _ _ => true
  | .regReadPairLo _ _ => true
  | .fabPortEn _ => true
  | .fabCntClr _ => true
  | .stlClear _ => true
  | .stlClearDone => true
  | .stlRejectClr _ => true
  | .stlCntClr _ => true
  | .stlGeomSeedWrite _ _ _ => true
  | .rmpClear _ => true
  | .rmpClearDone => true
  | .rmpSetCfg _ _ => true
  | .lanKatRun _ => true
  | .katPeriodExpiry _ => true
  | .katSetDone _ _ => true
  | .probationEnd _ => true
  | .standbyKatRepeat _ => true
  | .clusterIdleGate _ => true
  | .canCtrlEn _ => true
  | .canPinCfg _ => true
  | .canLfsrReseed _ _ => true
  | .canCntClr _ => true
  | .writeBack err _ => canErrOk err
  | .frsMetaBaseWrite _ _ => true
  | .frsCntClr _ => true
  | .perArm _ => true
  | .armingDone => true
  | .perAnchorBaseWrite _ => true
  | .perCntClr _ => true
  | .keyDrbgReseed _ => true
  | .drbgReseedDone samples _ => decide (samples.length = 128)
  | .keyEntEn _ => true
  | .keyCntClr _ => true
  | .entropyStartupDone _ samples => decide (samples.length = 128)
  | .entropyHealthFail _ samples => decide (samples.length ≤ 128) && (rctFails (sampleBits samples) || aptFails (sampleBits samples))
  | .drbgInstantiate samples lfsr => decide (samples.length = 128) && decide (lfsr.length = 36)
  | .enable _ => true
  | .disable _ => true
  | .adminReset _ => true
  | .queueIdle _ => true
  | .qmgVecLoad _ => true
  | .fltFirstHiClear _ => true
  | .fltForce b w _ => decide (w.toNat < bitWords b)
  | .fltClassWrite b w _ => decide (w.toNat < classWords b)
  | .notificationClear b w _ => decide (w.toNat < bitWords b)
  | .medCntClr _ => true
  | .svcCntClr _ => true
  | .anvilResponse _ _ => true
  | .anvilTimeout => true
  | .powerLoss => true
  | .powerCycle => true
  | .pfWarn => true
  | .pfwDone => true
  | .pfWarnClear => true
  | .sysRstNAssert => true
  | .sysRstNRelease => true
  | .fpnRstN _ => true
  | .mcnRstN _ => true
  | .hdmaRstN => true
  | .hdmaResetRelease => true
  | .pelnRstN _ => true
  | .clockLoss _ => true
  | .clockMeasurement _ _ => true
  | .fuseAck _ _ => true
  | .fuseLoadFailure => true
  | .fusePhaseDone => true
  | .sramInitDone => true
  | .selftestDone laneResults _ => decide (laneResults.length = 36)
  | .ready => true
  | .squallEntry b src => decide (src.toNat < sources b)
  | .zeroisationDone => true
  | .zeroisationConfirm _ _ => true
  | .keyZeroiseTimeout _ _ => true
  | .createQueue _ _ => true
  | .deleteQueue _ _ => true
  | .resetQueue _ _ => true
  | .setFeature _ _ => true
  | .getFeature _ _ => true
  | .identify _ _ => true
  | .swapConfig _ _ => true
  | .swapCycle => true
  | .anchorRestore _ _ _ => true
  | .adoptZone _ _ _ _ => true
  | .adoptionStart _ => true
  | .formatZone _ _ _ _ => true
  | .treeReset _ _ => true
  | .poolJoin _ _ => true
  | .poolLeave _ _ => true
  | .poolReconcile _ _ => true
  | .keyInstall _ _ _ => true
  | .keyGenerate _ _ _ => true
  | .keyDestroy _ _ => true
  | .keyDrained _ _ => true
  | .kekLoadDerive _ _ => true
  | .kekLoadUnwrap _ _ _ => true
  | .sessionKeyInstall _ _ _ => true
  | .streamInsert _ _ _ => true
  | .streamRemove _ _ _ => true
  | .streamQuery _ _ _ => true
  | .regionWrite _ _ => true
  | .regionRead _ _ => true
  | .rekeyStart _ _ => true
  | .rekeyAbort _ _ => true
  | .sanitize _ _ _ _ => true
  | .scrub _ _ _ => true
  | .seal _ _ _ _ => true
  | .unseal _ _ _ => true
  | .transcode _ _ _ => true
  | .serviceCommandStart _ _ => true
  | .checkpoint _ _ => true
  | .canopyMaintFlush _ _ => true
  | .canopyMaintInvalidate _ _ => true
  | .flushInv _ _ => true
  | .pin _ _ err => canErrOk err
  | .unpin _ _ => true
  | .canopyMaintRead _ _ _ => true
  | .zero _ _ => true
  | .measure _ _ _ _ => true
  | .periodicCheckpoint => true
  | .hold => true
  | .cut err _ => canErrOk err
  | .release => true
  | .commit _ => true
  | .serviceStepStart who _ => whoOk who
  | .frontStepDone _ => true
  | .serviceStepDone _ _ => true
  | .scrubDone => true
  | .zoneDeparture _ => true
  | .shadowRelease => true
  | .linkUpChange _ _ => true
  | .frameReceived _ _ => true
  | .hello _ f => decide (f.payload.length ≤ 8)
  | .helloTimer _ => true
  | .hb _ f => decide (f.payload.length ≤ 8)
  | .heartbeatTimer => true
  | .member _ f => decide (f.payload.length ≤ 8)
  | .safe _ f => decide (f.payload.length ≤ 8)
  | .ack _ f => decide (f.payload.length ≤ 8)
  | .retransmitTimer _ => true
  | .memberTimeout _ => true
  | .linkTimeout _ => true
  | .prepare _ f => decide (f.payload.length ≤ 8)
  | .held _ f => decide (f.payload.length ≤ 8)
  | .cutFrame _ f => decide (f.payload.length ≤ 8)
  | .done _ f => decide (f.payload.length ≤ 8)
  | .abort _ f => decide (f.payload.length ≤ 8)
  | .ckreq _ f => decide (f.payload.length ≤ 8)
  | .txnTimeout => true
  | .report _ f => decide (f.payload.length ≤ 8)
  | .retire _ f => decide (f.payload.length ≤ 8)
  | .recon _ f => decide (f.payload.length ≤ 8)
  | .reconDone _ f => decide (f.payload.length ≤ 8)
  | .trstN _ => true
  | .extest _ _ => true
  | .idcode _ => true
  | .samplePreload _ _ => true
  | .clamp => true
  | .network _ _ => true
  | .bypass code => code ∉ ([0x00, 0x01, 0x02, 0x03, 0x10] : List (BitVec 8))
  | .tapRegRead _ _ => true
  | .tapKat _ => true
  | .fpnResetRelease _ => true
  | .mcnResetRelease _ => true
  | .pelnResetRelease _ => true

end Sys2Proof
end

