-- ==== Sys2Proof/Tests/Slice0.lean ====
section
/-! SUPPORT. Tests: the well-formedness checks on terms they refuse, small runs of single commands, and for the hypotheses
of every statement a state that meets them. -/

namespace Sys2Proof
namespace Tests

open Sys2Proof.Machine

set_option Elab.async false

/-! ### States to test on -/

/-- Change the block of a state. -/
def on (s : State) (f : Dev → Dev) : State := { s with dev := f s.dev }

/-- A port with credits everywhere. -/
def openPort : Port := { (default : Port) with
  req := 32, wdat := 32, wlpc := 16, rlpc := 16, granted := true, rsp := 4, rdat := 4, wchk := 4, rtag := 4 }

/-- A stream on port 0 with KSLOT 3. -/
def stream : SEntry := ⟨false, 9, 1, 3, 7, 5⟩

/-- An ACTIVE queue of 16 entries. -/
def queueOf (ty : QTy) (base : Nat) : Queue := { (default : Queue) with st := .active, ty := ty, fmt := 2, log2 := 4, base := base }

/-- The engine READY: one stream, a region of each mode, two keys, one zone ONLINE, three queues. -/
def serving : State := on State.reset fun d => { d with
  mgt.phase := .done, mgt.ready := true, mgt.domReset := 0, mgt.clkOk := 0xFFFFFFFFFFFFFFF#60, mgt.tref := 1000000
  mgt.fuse := [0, 0, 0, 0, 0, 0, 0, 0, 10, 0x12345678, 0], mgt.lanesOk := 36
  fab.portEn := 1, fab.ports := [(0, openPort)]
  stl.learnEvq := ⟨true, 2⟩
  rmp.setA.tab := [(0, some ⟨0, 4095, 0, 0xFFFF, .mac, false, 0⟩), (1, some ⟨4096, 8191, 0, 0xFFFF, .full, false, 0⟩)]
  lan.lanes := [(0, { (default : Lane) with st := .active }), (1, { (default : Lane) with st := .active }),
    (2, { (default : Lane) with st := .auditor }), (3, { (default : Lane) with st := .standby })]
  frs.zoneLimit := 4, frs.zones := [(1, { (default : Zone) with st := .online, key := some 77 })]
  key.slots := [(3, ⟨.loaded, 11, 12, 5⟩), (4, ⟨.loaded, 13, 14, 6⟩)]
  key.keks := [(0, ⟨true, 21, false, false, []⟩), (1, ⟨true, 22, true, false, []⟩)]
  key.derived := some ⟨31, 32, 33⟩, key.drbg := ⟨.ready, 41, 42, 0, true⟩, key.ent := [(0, ⟨.ok, 0, 0⟩)]
  qmg.wrCredit := 8, qmg.rdCredit := 8
  qmg.queues := [(0, queueOf .admin 0x10000), (1, queueOf .io 0x20000), (2, queueOf .event 0x30000)]
  med.ch := [(0, { (default : Channel) with mcmd := 64, mwd := 64 })] }

/-- `serving` with the stream in its first bucket. -/
def withStream : State := on serving fun d => d.putSlot 0 (4 * (d.stlSet 0).h0 5 7) (some stream)

/-- An access of port 0 to line 9, admitted. -/
def access (id : Nat) : Access := { (default : Access) with
  id := id, origin := .port 0, tag := 0x55, sid := 5, kid := 7, line := 9, gen := 1, kslot := 3, slot := 3, mode := .mac,
  inFlight := true, stage := .gated, place := some 0 }

/-- A state with one access. -/
def having (s : State) (a : Access) : State := on s fun d => { d with fab.accs := [a], seq := a.id + 1 }

/-- An entry: its opcode, and (offset, value) fields. -/
def entry (op : Nat) (fs : List (Nat × Nat)) : Line := BitVec.ofNat 512 (fs.foldl (fun n f => n + f.2 * 2 ^ (8 * f.1)) op)

/-- Such an entry at the head of a queue, its input in hand. -/
def ready (op : Nat) (fs : List (Nat × Nat)) (buf : Bytes) : Exec := { (default : Exec) with
  pos := 0, entry := entry op fs, st := .ready, buf := buf }

def given (s : State) (q op : Nat) (fs : List (Nat × Nat)) (buf : Bytes) : State :=
  on s fun d => d.updQueue q fun x => { x with exec := [ready op fs buf], head := 1, tail := 1, fetch := 1 }

/-- The eight slots of the two buckets of stream (5, 7) in set 0 hold other streams. -/
def filled (d : Dev) (lock : Bool) : Dev :=
  let bucket (j : Nat) : Nat := if j < 4 then (d.stlSet 0).h0 5 7 else (d.stlSet 0).h1 5 7
  (List.range 8).foldl (fun e j => e.putSlot 0 (4 * bucket j + j % 4)
    (some ⟨lock, 3 + 5 * j % 8, 1, 3, BitVec.ofNat 16 (20 + j), BitVec.ofNat 16 (100 + j)⟩)) d

/-- So does the other bucket of the first of them. -/
def filledOn (d : Dev) : Dev :=
  let v := (d.stlSet 0).h0 100 20
  let a := if v = (d.stlSet 0).h0 5 7 then (d.stlSet 0).h1 100 20 else v
  (List.range 4).foldl (fun e j => e.putSlot 0 (4 * a + j)
    (some ⟨false, 9, 1, 3, BitVec.ofNat 16 (30 + j), BitVec.ofNat 16 (200 + j)⟩)) d

/-- `Passes`, as a check. -/
def passesB (d : Dev) (p : Nat) (sid kid : BitVec 16) (line : LineNo) (e : SEntry) (i : Nat) (r : RegionCfg) : Bool :=
  (d.findStream d.activeSet sid kid).any (fun x => x.2 == e) && e.ports.getLsbD p &&
    decide ((d.rmpSet d.activeSet).lookup line = some (i, r)) &&
    decide (r.kidLo.toNat ≤ kid.toNat ∧ kid.toNat ≤ r.kidHi.toNat) && d.keyCheck i e.kslot &&
    decide (r.mode = .full → (d.zone (zoneOf line)).st = .online)

/-- `Canonical`, as one conjunction. -/
abbrev InOrder (d : Dev) : Prop :=
  Tab.rising d.mgt.clkMeas ∧ Tab.rising d.mgt.loHeld ∧ Tab.rising d.fab.ports ∧ Tab.rising d.fab.sessions ∧
    Tab.rising d.stl.setA.tab ∧ Tab.rising d.stl.setB.tab ∧ Tab.rising d.stl.rejectCnt ∧ Tab.rising d.stl.timeoutCnt
    ∧ Tab.rising d.stl.parkfullCnt ∧ Tab.rising d.rmp.setA.tab ∧ Tab.rising d.rmp.setB.tab ∧ Tab.rising
    d.rmp.setA.stale ∧ Tab.rising d.rmp.setB.stale ∧ Tab.rising d.rmp.rekey ∧ Tab.rising d.lan.lanes ∧ Tab.rising
    d.frs.zones ∧ Tab.rising d.can.lines ∧ Tab.rising d.can.lfsr ∧ Tab.rising d.can.ways ∧ Tab.rising d.med.ch ∧ (∀
    p ∈ d.med.ch, Tab.rising p.2.out) ∧ Tab.rising d.key.slots ∧ Tab.rising d.key.regs ∧ Tab.rising d.key.keks ∧
    Tab.rising d.key.ent ∧ Tab.rising d.qmg.queues ∧ Tab.rising d.qmg.vecs ∧ Tab.rising d.qmg.wrOut ∧ Tab.rising
    d.qmg.rdOut ∧ Tab.rising d.per.openMap ∧ Tab.rising d.qmg.held ∧ Tab.rising d.svc.fronts ∧ Tab.rising
    d.del.links ∧ Tab.rising d.del.members

theorem canonical_of_in_order {d : Dev} (h : InOrder d) : Canonical d := by
  obtain ⟨h0, h1, h2, h3, h4, h5, h6, h7, h8, h9, h10, h11, h12, h13, h14, h15, h16, h17, h18, h19, h20, h21, h22,
    h23, h24, h25, h26, h27, h28, h29, h30, h31, h32, h33⟩ := h
  constructor <;> assumption

theorem passes_of_check {d : Dev} {p : Nat} {sid kid : BitVec 16} {line : LineNo} {e : SEntry} {i : Nat} {r : RegionCfg}
    (h : passesB d p sid kid line e i r = true) : Passes d p sid kid line e i r := by
  simp only [passesB, Bool.and_eq_true, decide_eq_true_eq, Option.any_eq_true, beq_iff_eq] at h
  obtain ⟨⟨⟨⟨⟨⟨x, hx, rfl⟩, hp⟩, hr⟩, hk⟩, hs⟩, hz⟩ := h
  exact ⟨⟨x.1, hx⟩, hp, hr, hk, hs, hz⟩

/-- `Steady`, as a check. -/
def steadyB (s : State) : Bool :=
  (match s.dev.del.txn with
   | none => true
   | some x => (x.cut || s.dev.groupMembers.any fun m => decide (m ∉ x.held)) && s.dev.groupMembers.any fun m => decide (m ∉ x.done)) &&
  (match s.dev.per.ckpt with
   | none => true
   | some c => !(decide (c.phase = .hold) && s.dev.cutReady) || (!c.cutSeen && !c.localCut)) &&
  (s.dev.del.reports.all fun r => s.dev.groupMembers.any fun m => !s.dev.reported r.1 r.2.1 m) &&
  (!s.dev.ckptFree || (decide (s.dev.del.prepared = none ∧ s.dev.del.reconReq = false) &&
    (s.dev.poolWhole || decide (s.dev.per.waiting = [])) &&
    (!(s.dev.isCoord && decide (s.dev.del.txn = none)) || decide (s.dev.del.ckreq = false ∧ s.dev.per.waiting = [])))) &&
  (match s.dev.per.adopt with
   | none => true
   | some a => a.outcome.isNone && a.started && (!a.closing || s.dev.per.ckpt.isSome) && a.stack.head?.all fun h => h.reading || h.writing)

theorem steady_of_check {s : State} (h : steadyB s = true) : Steady s := by
  simp only [steadyB, Bool.and_eq_true] at h
  obtain ⟨⟨⟨⟨h1, h2⟩, h3⟩, h4⟩, h5⟩ := h
  refine ⟨fun x hx => ?_, fun c hc hp hr => ?_, fun r hr => ?_, fun hf => ?_, fun a ha => ?_⟩
  · simp only [hx] at h1
    simpa using h1
  · simp only [hc, hp, hr] at h2
    simpa using h2
  · simpa using List.all_eq_true.mp h3 r hr
  · simp only [hf] at h4
    simp only [Bool.not_true, Bool.false_or, Bool.and_eq_true, decide_eq_true_eq, Bool.or_eq_true, Bool.not_eq_true'] at h4
    obtain ⟨⟨⟨g5, g6⟩, g7⟩, g8⟩ := h4
    refine ⟨g5, g6, fun hw => ?_, fun hi ht => ?_⟩
    · simpa [hw] using g7
    · simpa [hi, ht] using g8
  · simp only [ha, Bool.and_eq_true, Bool.or_eq_true, Bool.not_eq_true', Option.all_eq_true] at h5
    obtain ⟨⟨⟨g1, g2⟩, g3⟩, g4⟩ := h5
    exact ⟨Option.isNone_iff_eq_none.mp g1, g2, fun hc => by simpa [hc] using g3, g4⟩

/-- A state with its tables in order that satisfies a list of hypotheses. -/
abbrev Meets (s : State) (hyps : State → Prop) : Prop := decide (InOrder s.dev) = true ∧ hyps s

theorem canonical_of_meets {s : State} {hyps : State → Prop} (h : Meets s hyps) : Canonical s.dev ∧ hyps s :=
  ⟨canonical_of_in_order (of_decide_eq_true h.1), h.2⟩


/-- In a pool of group 2, one link UP, member 9. -/
def pooled : State := on serving fun d => { d with del.inPool := true, del.poolId := 5, del.group := some 2, del.gstate := .whole, del.ident := 0x900000007, del.linksUse := 15, per.armed := true, del.links := [(1, { (default : Link) with up := true, st := .up, version := 2 })], del.members := [(9, { (default : Member) with st := .member, group := some 2 })] }

/-! ### Hypotheses that are met: for each statement with hypotheses, a theorem -/

/-- `Obligations.StepRunsTheFront`. -/
theorem meets_step_runs_the_front :
    ({ serving with pending := [.hold, .ageingTick] } : State).pending = [.hold, .ageingTick] ∧ serving.pending = [] := by
  decide

/-- `Obligations.ExecKeepsTheQueue`. -/
theorem meets_exec_keeps_the_queue : ∃ t, exec .ageingTick { serving with pending := [.hold] } = .next t := ⟨_, rfl⟩

/-- EXTEST and CLAMP before and after the release of SYS_RST_N. -/
theorem meets_only_boundary_scan_stops :
    serving.dev.tapOn = true ∧ serving.dev.mgt.sysRstN = true ∧
    (on serving fun d => { d with tap.ir := 0 }).dev.tap.ir = 0 ∧ (on serving fun d => { d with tap.ir := 3 }).dev.tap.ir = 3 := by
  decide

/-- A bank with a record, an escalated source and a condition that holds; the safe state with its cause. -/
def faulty : State := { serving with
  flt.banks := [(7, { (default : Bank) with first := some { (default : FRec) with cls := 2, raw := true }, esc := [1], live := [12] })]
  safe := { serving.safe with active := true, cls := 3, bank := 7, src := 13, drillCnt := 255 }
  pending := [.fltFirstHiClear 7] }

theorem faulty_get (b : Nat) : faulty.flt.banks.get b = default ∨
    b = 7 ∧ faulty.flt.banks.get b = { (default : Bank) with
      first := some { (default : FRec) with cls := 2, raw := true }, esc := [1], live := [12] } := by
  by_cases h : b = 7
  · subst h; exact .inr ⟨rfl, rfl⟩
  · refine .inl ?_
    simp only [faulty, Tab.get, if_neg (Ne.symm h)]

theorem meets_fault_banks_hold_every_step : BanksHold faulty ∧ ∃ t, step faulty = .next t := by
  refine ⟨⟨by decide, ?_, ?_, by decide, by decide, by decide⟩, _, rfl⟩
  · intro b r h
    rcases faulty_get b with e | ⟨-, e⟩ <;> rw [e] at h <;> cases h
    decide
  · intro b k h
    rcases faulty_get b with e | ⟨rfl, e⟩ <;> rw [e] at h
    · cases h
    · rw [List.mem_singleton.mp h]; decide

/-- A step of `serving` with an access and a command in front. -/
theorem meets_tables_stay_canonical :
    InOrder (having serving (access 6)).dev ∧ FreshIds (having serving (access 6)).dev ∧
      ∃ t, step { having serving (access 6) with pending := [.accessGrant 6 none] } = .next t :=
  ⟨by decide +kernel, by decide, _, rfl⟩

theorem meets_fuses_hold_their_word :
    (let s := on State.reset fun d => { d with
        mgt.phase := .fuse, mgt.domReset := 0, mgt.fuseIdx := 22, mgt.fuseFirst := [0, 0, 0, 0, 0, 0, 0, 0, 5, 0, 0] };
      s.dev.mgt.phase = .fuse ∧ s.dev.inReset domTref = false ∧ s.dev.mgt.pfWarn = false ∧ s.dev.mgt.fuseIdx = 22 ∧
        s.dev.mgt.fuseFirst.getD 8 0 = 5) ∧ ∃ t, exec .ageingTick serving = .next t :=
  ⟨by decide +kernel, _, rfl⟩

/-- A write with an empty byte mask whose line needs no tree. -/
theorem meets_empty_write_completes_ok :
    let a := { access 6 with isWrite := true, mask := 0, win := .passed };
    Meets (having withStream a) fun s => InService s ∧ s.dev.acc 6 = some a ∧ a.origin = .port 0 ∧ s.dev.grantable a = true ∧ a.isWrite = true ∧
      a.mask = 0 ∧ a.win = .passed := by
  decide +kernel

theorem holding_none (d : Dev) (b : Nat) (h : 14 ≤ b) : d.holding b = [] := by
  unfold Dev.holding
  split <;> first | rfl | omega

/-- Offset 0x300000 has no register, and neither has the last word. -/
theorem meets_unoccupied_offsets :
    InOrder serving.dev ∧ serving.flt.banks.wf = true ∧ serving.dev.up domReg = true ∧
    serving.regAt (4 * (0x0C0000#22).toNat) = none ∧ serving.regAt (4 * (0x3FFFFF#22).toNat) = none ∧
    serving.dev.mgt.hiHeld = [] ∧ ∀ b, Quiet b serving := by
  refine ⟨by decide +kernel, by decide, by decide +kernel, by decide +kernel, by decide +kernel, rfl, fun b => ?_⟩
  by_cases h : 14 ≤ b
  · exact ⟨by decide, by rw [holding_none _ _ h]; simp⟩
  · have : ∀ b < 14, Quiet b serving := by decide +kernel
    exact this b (by omega)

/-- `Obligations.BatchesRunInOrder`: elements of REGION_WRITE. -/
theorem meets_region_elements :
    let v := 0x10 + 0x20 * 2 ^ 32 + 3 * 2 ^ 80 + 2 ^ 96 + 2 ^ 127
    let other := on serving fun d => { d with
      rmp.setB := { tab := [(4, some ⟨0x20, 0x30, 0, 1, .mac, false, 0⟩)], stale := [], fmt := 2, clearing := false } }
    (∀ w ∈ [v, 7], let b := leBytes 16 9 ++ leBytes 16 w
      field b 0 2 = 9 ∧ field b 16 16 = w ∧ (∀ k < 14, field b (2 + k) 1 = 0) ∧
        (∀ p ∈ serving.dev.regionRules 9 w 16, p.2 = true) ∧
        entryValid (serving.dev.rmpSet serving.dev.shadowSet).fmt.toNat w = decide (w = v)) ∧
    field (leBytes 16 4096 ++ leBytes 16 v) 0 2 = 4096 ∧
    InOrder other.dev ∧ entryValid (other.dev.rmpSet other.dev.shadowSet).fmt.toNat v = true ∧
    (other.dev.rmpSet other.dev.shadowSet).overlapped 9 v = some 4 := by
  decide +kernel

/-- Elements of KEY_INSTALL: a blob that unwraps, and one that does not. -/
theorem meets_key_elements :
    let blob := (leBytes 80 1194918312878580816244785864027796356645626606623072510886634960009757344834807317841824555402706412141344188012054978158439211003233728297597432511719822460643832726358900126642940479677203340)
    (∀ c ∈ [blob, leBytes 80 5], let b := leBytes 16 7 ++ c
      field b 0 2 = 7 ∧ field b 2 1 = 0 ∧ (∀ j < 13, field b (3 + j) 1 = 0) ∧ slice b 16 80 = c) ∧
    serving.dev.key.keks.get 0 = ⟨true, 21, false, false, []⟩ ∧ (serving.dev.key.slots.get 7).st = .empty ∧
    (match unwrapBlob 21 1 68 blob with | .ok pt => field pt 3 1 == 0 | _ => false) = true ∧ keyUnwrap 21 (leBytes 80 5) = none := by
  decide +kernel

/-- Elements of STREAM_INSERT and STREAM_REMOVE. -/
theorem meets_stream_elements :
    (∀ b ∈ [leBytes 16 (5 + 7 * 2 ^ 16 + 4 * 2 ^ 32 + 3 * 2 ^ 48)],
     bv16 (field b 0 2) = 5 ∧ bv16 (field b 2 2) = 7 ∧ field b 6 1 ≠ 0 ∧ field b 7 1 < 2 ∧ ∀ j < 8, field b (8 + j) 1 = 0) ∧
    (∀ b ∈ [leBytes 16 (5 + 7 * 2 ^ 16)],
     bv16 (field b 0 2) = 5 ∧ bv16 (field b 2 2) = 7 ∧ ∀ j < 12, field b (4 + j) 1 = 0) ∧
    serving.dev.findStream 0 5 7 = none ∧ ((serving.dev.stlSet 0).freeIn ((serving.dev.stlSet 0).h0 5 7)).isSome = true ∧
    InOrder withStream.dev ∧ (withStream.dev.findStream 0 5 7).isSome = true := by
  refine ⟨?_, ?_, ?_, ?_, ?_, ?_⟩ <;> decide +kernel

/-- The second bucket takes an element where the first is full. -/
theorem meets_stream_element_second_bucket :
    let s := on serving fun d => (List.range 4).foldl (fun e j => e.putSlot 0 (4 * (d.stlSet 0).h0 5 7 + j)
      (some ⟨false, 9, 1, 3, BitVec.ofNat 16 (20 + j), BitVec.ofNat 16 (100 + j)⟩)) d
    InOrder s.dev ∧ s.dev.findStream 0 5 7 = none ∧ (s.dev.stlSet 0).freeIn ((s.dev.stlSet 0).h0 5 7) = none ∧
    ((s.dev.stlSet 0).freeIn ((s.dev.stlSet 0).h1 5 7)).isSome = true := by
  decide +kernel

/-- `Obligations.TransferWithoutCreditStopsTheSide`. -/
theorem meets_transfer_without_credit_stops_the_side :
    Meets (on serving fun d => d.setPort 0 { openPort with req := 0 }) (fun s => RxRuns 0 s ∧ (s.dev.port 0).req = 0 ∧
      s.flt.banks.wf = true ∧ s.dev.raised = [] ∧ (512 + 0) ∉ (s.flt.banks.get bFab).mask ∧ (512 + 0) ∉ (s.flt.banks.get
      bFab).live ∧ (s.flt.banks.get bFab).first = none) ∧
    Meets (on serving fun d => d.setPort 0 { openPort with wdat := 0 }) (fun s => RxRuns 0 s ∧ (s.dev.port 0).wdat = 0 ∧
      s.flt.banks.wf = true ∧ s.dev.raised = [] ∧ (512 + 0) ∉ (s.flt.banks.get bFab).mask ∧ (512 + 0) ∉ (s.flt.banks.get
      bFab).live ∧ (s.flt.banks.get bFab).first = none) ∧
    Meets (on serving fun d => d.setPort 0 { openPort with wlpc := 0 }) (fun s => RxRuns 0 s ∧ (s.dev.port 0).wlpc = 0 ∧
      s.flt.banks.wf = true ∧ s.dev.raised = [] ∧ (512 + 0) ∉ (s.flt.banks.get bFab).mask ∧ (512 + 0) ∉ (s.flt.banks.get
      bFab).live ∧ (s.flt.banks.get bFab).first = none) ∧
    Meets (on serving fun d => d.setPort 0 { openPort with rlpc := 0 }) (fun s => TxRuns 0 s ∧ (s.dev.port 0).rlpc = 0 ∧
      s.flt.banks.wf = true ∧ s.dev.raised = [] ∧ (512 + 0) ∉ (s.flt.banks.get bFab).mask ∧ (512 + 0) ∉ (s.flt.banks.get
      bFab).live ∧ (s.flt.banks.get bFab).first = none) := by
  refine ⟨?_, ?_, ?_, ?_⟩ <;> decide +kernel

/-- `Obligations.RequestAdmission`. -/
theorem meets_request_admission :
    Meets (withStream) (fun s => passesB s.dev 0 5 7 9 stream 0 ⟨0, 4095, 0, 0xFFFF, .mac, false, 0⟩ = true ∧ RxRuns 0 s ∧
      s.safe.active = false ∧ (s.dev.port 0).req ≠ 0 ∧ s.dev.mgt.pfWarn = false ∧ s.dev.releasing 5 7 = false ∧ FreshIds s.dev
      ∧ s.dev.full false = false ∧ s.dev.full true = false ∧ (s.dev.port 0).wdats = []) ∧
    Meets (withStream) (fun s => passesB s.dev 0 5 7 9 stream 0 ⟨0, 4095, 0, 0xFFFF, .mac, false, 0⟩ = true ∧ RxRuns 0 s ∧
      s.safe.active = false ∧ (s.dev.port 0).req ≠ 0 ∧ s.dev.mgt.pfWarn = false ∧ s.dev.releasing 5 7 = false ∧ FreshIds s.dev
      ∧ s.dev.full true = false ∧ (s.dev.port 0).wdats = []) ∧
    Meets (serving) (fun s => RxRuns 0 s ∧ s.safe.active = false ∧ (s.dev.port 0).req ≠ 0 ∧ s.dev.mgt.pfWarn = false ∧
      s.dev.releasing 5 7 = false ∧ FreshIds s.dev ∧ s.dev.full false = false ∧ s.dev.findStream s.dev.activeSet 5 7 = none ∧
      s.dev.rejected 5 7 = false ∧ s.dev.stl.learnEvq.valid = true ∧ s.dev.parked.length < 512) ∧
    Meets (on serving fun d => { d with stl.learnEvq := ⟨false, 0⟩ }) (fun s => s.dev.full false = false ∧ RxRuns 0 s ∧
      s.safe.active = false ∧ (s.dev.port 0).req ≠ 0 ∧ s.dev.mgt.pfWarn = false ∧ s.dev.releasing 5 7 = false ∧ FreshIds s.dev
      ∧ s.dev.findStream s.dev.activeSet 5 7 = none ∧ s.dev.stl.learnEvq.valid = false) ∧
    Meets (serving) (fun s => RxRuns 0 s ∧ (s.dev.port 0).req ≠ 0 ∧ FreshIds s.dev ∧ s.safe.active = false) ∧
    Meets ({ serving with safe := { Safe.reset with active := true, cls := 1 } }) (fun s => RxRuns 0 s ∧ (s.dev.port 0).req ≠
      0 ∧ FreshIds s.dev ∧ s.safe.active = true) ∧
    Meets (serving) (fun s => RxRuns 0 s ∧ s.safe.active = false ∧ (s.dev.port 0).req ≠ 0 ∧ s.dev.mgt.pfWarn = false ∧
      s.dev.releasing 5 7 = false ∧ FreshIds s.dev ∧ s.dev.full true = false ∧ (s.dev.port 0).wdats = [] ∧ s.dev.findStream
      s.dev.activeSet 5 7 = none ∧ s.dev.rejected 5 7 = false ∧ s.dev.stl.learnEvq.valid = true ∧ s.dev.parked.length < 512) ∧
    Meets (on serving fun d => { d with stl.learnEvq := ⟨false, 0⟩ }) (fun s => RxRuns 0 s ∧ s.safe.active = false ∧
      (s.dev.port 0).req ≠ 0 ∧ s.dev.mgt.pfWarn = false ∧ s.dev.releasing 5 7 = false ∧ FreshIds s.dev ∧ s.dev.full true =
      false ∧ (s.dev.port 0).wdats = [] ∧ s.dev.findStream s.dev.activeSet 5 7 = none ∧ s.dev.stl.learnEvq.valid = false) ∧
    Meets (on serving fun d => { d with stl.reject := [(5, 7)] }) (fun s => RxRuns 0 s ∧ s.safe.active = false ∧ (s.dev.port
      0).req ≠ 0 ∧ s.dev.mgt.pfWarn = false ∧ s.dev.releasing 5 7 = false ∧ FreshIds s.dev ∧ s.dev.full false = false ∧
      (s.dev.port 0).wdats = [] ∧ s.dev.findStream s.dev.activeSet 5 7 = none ∧ s.dev.rejected 5 7 = true) ∧
    Meets (on serving fun d => { d with stl.reject := [(5, 7)] }) (fun s => RxRuns 0 s ∧ s.safe.active = false ∧ (s.dev.port
      0).req ≠ 0 ∧ s.dev.mgt.pfWarn = false ∧ s.dev.releasing 5 7 = false ∧ FreshIds s.dev ∧ s.dev.full true = false ∧
      (s.dev.port 0).wdats = [] ∧ s.dev.findStream s.dev.activeSet 5 7 = none ∧ s.dev.rejected 5 7 = true) := by
  refine ⟨?_, ?_, ?_, ?_, ?_, ?_, ?_, ?_, ?_, ?_⟩ <;> decide +kernel

/-- `Obligations.WriteSideTransfers`. -/
theorem meets_write_side_transfers :
    Meets (serving) (fun s => RxRuns 0 s ∧ s.safe.active = false ∧ (s.dev.port 0).wdat ≠ 0 ∧ (s.dev.port 0).reqs = []) ∧
    Meets (on (having serving { access 6 with stage := .unbound, isWrite := true, place := none }) fun d =>
      { d.setPort 0 { openPort with reqs := [(6, 0)] } with
      fab.sessions := [(0, { (default : Session) with
      wwin := some { (default : WWin) with id := 9, count := 2, usable := true, openedAt := 0 } })] }) (fun s => RxRuns 0 s ∧
      s.safe.active = false ∧ (s.dev.port 0).wdat ≠ 0 ∧ (s.dev.port 0).reqs = [(6, 0)] ∧ (s.dev.port 0).wdats = [] ∧
      (s.dev.acc 6).isSome = true ∧ (s.dev.session 0).wwin =
      some { (default : WWin) with id := 9, count := 2, usable := true, openedAt := 0 } ∧
      ({ (default : WWin) with id := 9, count := 2, usable := true, openedAt := 0 } : WWin).members.length <
      ({ (default : WWin) with id := 9, count := 2, usable := true, openedAt := 0 } : WWin).count) ∧
    Meets (on serving fun d => { d with key.regs := [(1, some 0x1234)] }) (fun s => s.dev.sessKey (lpcSess 0 0x10120) 0 1 =
      some 0x1234 ∧ (s.dev.session (lpcSess 0 0x10120)).rxFailed = false ∧ RxRuns 0 s ∧ s.safe.active = false ∧ (s.dev.port
      0).wlpc ≠ 0 ∧ openOk 0x10120 = true ∧ (s.dev.session (lpcSess 0 0x10120)).wwin = none) ∧
    Meets (on serving fun d => { d with
      fab.sessions := [(0, { (default : Session) with
      wwin := some { (default : WWin) with id := 9, aadn := 1, count := 1, members := [6], usable := true } })] }) (fun s =>
      RxRuns 0 s ∧ s.safe.active = false ∧ (s.dev.port 0).wlpc ≠ 0 ∧ aadOk 0x700000000 = true ∧ ((s.dev.session 0).wwin.any
      fun w => decide (w.aad.length < w.aadn * w.count) && w.tag.isNone) = true) ∧
    Meets (on serving fun d => { d with
      fab.sessions := [(0, { (default : Session) with
      wwin := some { { (default : WWin) with id := 9, aadn := 1, count := 1, members := [6], usable := true } with
      aadn := 0 } })] }) (fun s => RxRuns 0 s ∧ s.safe.active = false ∧ (s.dev.port 0).wlpc ≠ 0 ∧ aadOk 0x700000000 = true ∧
      ((s.dev.session 0).wwin.any fun w => w.tag.isNone && w.aad.length == w.aadn * w.count && w.members.length == w.count) =
      true ∧ (s.dev.session 0).wdone = []) ∧
    Meets (on serving fun d => { d with
      fab.sessions := [(0, { (default : Session) with
      wwin := some { (default : WWin) with id := 9, aadn := 1, count := 1, members := [6], usable := true } })] }) (fun s =>
      RxRuns 0 s ∧ s.safe.active = false ∧ (s.dev.port 0).wlpc ≠ 0 ∧ (s.dev.session (lpcSess 0 0)).wdone = []) ∧
    Meets (serving) (fun s => RxRuns 0 s ∧ s.safe.active = false ∧ (s.dev.port 0).wlpc ≠ 0 ∧ (s.dev.session (lpcSess 0
      0x80)).wdone = [] ∧ openOk 0x80 = false) := by
  refine ⟨?_, ?_, ?_, ?_, ?_, ?_, ?_⟩ <;> decide +kernel

/-- `Obligations.WindowResults`. -/
theorem meets_window_results :
    Meets (on (having serving { access 6 with stage := .unbound, isWrite := true, win := .waiting 9, place := none }) fun d =>
      { d with
      key.regs := [(0, some 0x1234)], fab.sessions := [(0, { (default : Session) with
      wdone := [{ (default : WWin) with
      id := 9, count := 1, members := [6], usable := true, tag := some 5, cts := [3], tk := tagKey 0x1234 0 }] })] }) (fun s
      => (5 : BitVec 96) ≠ linkTag 0x1234 0 [] [3] ∧ InService s ∧ (s.dev.session 0).wdone = [{ (default : WWin) with
      id := 9, count := 1, members := [6], usable := true, tag := some 5, cts := [3], tk := tagKey 0x1234 0 }] ∧
      ({ (default : WWin) with
      id := 9, count := 1, members := [6], usable := true, tag := some 5, cts := [3], tk := tagKey 0x1234 0 } : WWin).tk =
      tagKey 0x1234 0) ∧
    Meets (on (having serving { access 6 with stage := .unbound, isWrite := true, win := .waiting 9, place := none }) fun d =>
      { d with
      key.regs := [(0, some 0x1234)], fab.sessions := [(0, { (default : Session) with
      wdone :=
      [{ { (default : WWin) with id := 9, count := 1, members := [6], usable := true, tag := some 5, cts := [3], tk := tagKey 0x1234 0 } with
      tag := some (linkTag 0x1234 0 [] [3]) }] })] }) (fun s => (s.dev.session 0).wdone = [{ (default : WWin) with
      id := 9, count := 1, members := [6], usable := true, tag := some (linkTag 0x1234 0 [] [3]), cts := [3], tk :=
      tagKey 0x1234 0 }] ∧ InService s ∧ RxRuns 0 s ∧ (s.dev.port 0).wchk ≠ 0 ∧ (s.dev.port 0).wchkq = []) ∧
    Meets (on serving fun d => { d with
      fab.sessions := [(0, { (default : Session) with
      wwin := some { (default : WWin) with id := 9, count := 2, usable := true, openedAt := 0 } })] }) (fun s => InService s ∧
      ((s.dev.session 0).wwin.any fun w => s.dev.passed w.openedAt s.dev.fab.winTimeout) = true ∧ (s.dev.session 0).wdone =
      []) := by
  refine ⟨?_, ?_, ?_⟩ <;> decide +kernel

/-- `Obligations.ReadWindowRows`. -/
theorem meets_read_window_rows :
    Meets (on serving fun d => { d with key.regs := [(2, some 0x1234)] }) (fun s => TxRuns 0 s ∧ s.safe.active = false ∧
      (s.dev.port 0).rlpc ≠ 0 ∧ (s.dev.session 0).txFailed = false ∧ openOk 0x10100 = true ∧ (s.dev.session (lpcSess 0
      0x10100)).rwins = [] ∧ s.dev.sessKey (lpcSess 0 0x10100) 1 (flag ((0x10100 : BitVec 128).getLsbD 5)) = some 0x1234 ∧
      s.dev.waitingReads 0 = []) ∧
    Meets (on (having serving { access 6 with stage := .waitWindow, fresh := true }) fun d =>
      { d with key.regs := [(2, some 0x1234)] }) (fun s => TxRuns 0 s ∧ s.safe.active = false ∧ (s.dev.port 0).rlpc ≠ 0 ∧
      (s.dev.session 0).txFailed = false ∧ openOk 0x10100 = true ∧ (s.dev.session (lpcSess 0 0x10100)).rwins = [] ∧
      s.dev.sessKey (lpcSess 0 0x10100) 1 (flag ((0x10100 : BitVec 128).getLsbD 5)) = some 0x1234 ∧ ((s.dev.acc 6).any fun a
      => a.fresh) = true ∧ s.dev.waitingReads (lpcSess 0 0x10100) = [6]) ∧
    Meets (on (having serving { access 6 with stage := .waitWindow }) fun d => { d with
      key.regs := [(2, some 0x1234)], fab.sessions := [(0, { (default : Session) with
      rwins := [{ (default : RWin) with id := 9, aadn := 1, count := 1, active := true }] })] }) (fun s => TxRuns 0 s ∧
      s.safe.active = false ∧ (s.dev.port 0).rlpc ≠ 0 ∧ (s.dev.session 0).txFailed = false ∧ TxRuns 0 s ∧ (s.dev.session
      (lpcSess 0 0x700000000)).txFailed = false ∧ aadOk 0x700000000 = true ∧ ((s.dev.session 0).rwins.find? fun w => decide
      (w.aad.length < w.aadn * w.count)) = some { (default : RWin) with id := 9, aadn := 1, count := 1, active := true }) ∧
    Meets (on (having serving { access 6 with stage := .waitWindow }) fun d => { d with
      key.regs := [(2, some 0x1234)], fab.sessions := [(0, { (default : Session) with
      rwins := [{ (default : RWin) with id := 9, aadn := 1, count := 1, active := true }] })] }) (fun s => TxRuns 0 s ∧
      s.safe.active = false ∧ (s.dev.port 0).rlpc ≠ 0 ∧ (s.dev.session 0).txFailed = false ∧ (s.dev.session 0).txFailed =
      false) ∧
    Meets (on (having serving { access 6 with stage := .waitWindow }) fun d => { d with
      key.regs := [(2, some 0x1234)], fab.sessions := [(0, { (default : Session) with
      rwins := [{ (default : RWin) with
      id := 9, count := 1, active := true, sent := 1, placed := 1, cts := [8], tk := tagKey 0x1234 0 }] })] }) (fun s =>
      InService s ∧ TxRuns 0 s ∧ (s.dev.session 0).rwins = [{ (default : RWin) with
      id := 9, count := 1, active := true, sent := 1, placed := 1, cts := [8], tk := tagKey 0x1234 0 }] ∧
      ({ (default : RWin) with
      id := 9, count := 1, active := true, sent := 1, placed := 1, cts := [8], tk := tagKey 0x1234 0 } : RWin).tk =
      tagKey 0x1234 0 ∧ (s.dev.port 0).rtag ≠ 0 ∧ (s.dev.port 0).rtagq = [] ∧ s.dev.mgt.pfWarn = false) ∧
    Meets (on (having serving { access 6 with stage := .waitWindow }) fun d => { d with
      key.regs := [(2, some 0x1234)], fab.sessions := [(0, { (default : Session) with
      rwins := [{ (default : RWin) with
      id := 9, count := 1, active := true, sent := 1, placed := 1, cts := [8], tk := tagKey 0x1234 0 }] })] }) (fun s =>
      InService s ∧ ((s.dev.acc 6).any fun a => decide (a.stage = .waitWindow ∧ a.sess = 0) && s.dev.passed a.waitAt
      s.dev.fab.winTimeout) = true) ∧
    Meets (on (having serving { access 6 with stage := .waitWindow }) fun d => { d with
      key.regs := [(2, some 0x1234)], fab.sessions := [(0, { (default : Session) with
      rwins := [{ (default : RWin) with id := 9, count := 1, aadn := 1, placed := 1 }] })] }) (fun s => (s.dev.session
      0).txFailed = false ∧ InService s ∧ ∃ w ∈ (s.dev.session 0).rwins, w.placed = w.count ∧ w.aad.length < w.aadn * w.count
      ∧ s.dev.passed w.fullAt s.dev.fab.winTimeout = true) := by
  refine ⟨?_, ?_, ?_, ?_, ?_, ?_, ?_⟩ <;> decide +kernel

/-- `Obligations.ResponsesAndCredits`. -/
theorem meets_responses_and_credits :
    Meets (having serving { access 6 with stage := .done, status := .ok, rdata := 3 }) (fun s => ((s.dev.acc 6).any fun a =>
      a.origin == .port 0) = true ∧ s.safe.active = false ∧ ((s.dev.acc 6).any fun a => a.origin == .port 0 && !a.dropped &&
      s.dev.canRespond a 0 true) = true) ∧
    Meets (having serving { access 6 with stage := .done, isWrite := true, status := .poisoned }) (fun s => s.safe.active =
      false ∧ ((s.dev.acc 6).any fun a => a.origin == .port 0 && !a.dropped && s.dev.canRespond a 0 true) = true) ∧
    Meets ({ having serving (access 6) with safe := { Safe.reset with active := true, cls := 1 } }) (fun s => ((s.dev.acc
      6).any fun a => a.origin == .port 0) = true ∧ s.safe.active = true ∧ ((s.dev.acc 6).any fun a => a.origin == .port 0 &&
      !a.dropped && s.dev.canRespond { a with stage := .done, rwin := none } 0 false) = true) ∧
    Meets (serving) (fun s => s.dev.up (domFtx 0) = true ∧ s.dev.up (domFrx 0) = true ∧ (s.dev.port 0).rtagq = [] ∧
      (s.dev.port 0).wchkq = [] ∧ s.dev.up (domMch 0) = true ∧ (s.dev.chan 0).waiting = [] ∧ s.dev.up domHdma = true ∧
      s.dev.qmg.wrWait = [] ∧ s.dev.qmg.rdWait = [] ∧ (∀ p ∈ s.dev.qmg.vecs, p.2.pend = false) ∧ s.dev.qmg.drainDue = [] ∧
      s.dev.qmg.drains = []) ∧
    Meets (on serving fun d => d.setPort 0 { openPort with rtag := 0, rtagq := [(3, 0x99), (4, 0x98)] }) (fun s => s.dev.up
      (domFtx 0) = true ∧ s.safe.active = false ∧ (s.dev.port 0).rtagq = [(3, 0x99), (4, 0x98)]) ∧
    Meets (on serving fun d => d.setPort 0 { openPort with wchk := 0, wchkq := [(3, .pass), (4, .tagFail)] }) (fun s =>
      s.dev.up (domFrx 0) = true ∧ s.safe.active = false ∧ (s.dev.port 0).wchkq = [(3, .pass), (4, .tagFail)]) ∧
    Meets (on (having serving { access 6 with stage := .reading, isWrite := false }) fun d => { d with
      med.ch := [(0, { (default : Channel) with mcmd := 0, mwd := 0, waiting := [⟨0, 0, ⟨7, 8, 9⟩, .data 6⟩] })] }) (fun s =>
      s.dev.up (domMch 0) = true ∧ s.safe.active = false ∧ s.dev.retired 0 = false ∧ (s.dev.chan 0).waiting = [⟨0, 0, ⟨7, 8,
      9⟩, .data 6⟩] ∧ (s.dev.chan 0).freeTag = some 0) ∧
    Meets (on (having serving { access 6 with stage := .writing, isWrite := true }) fun d => { d with
      med.ch := [(0, { (default : Channel) with mcmd := 0, mwd := 1, waiting := [⟨1, 0, ⟨7, 8, 9⟩, .data 6⟩] })] }) (fun s =>
      s.dev.up (domMch 0) = true ∧ s.safe.active = false ∧ s.dev.retired 0 = false ∧ (s.dev.chan 0).waiting = [⟨1, 0, ⟨7, 8,
      9⟩, .data 6⟩] ∧ (s.dev.chan 0).freeTag = some 0 ∧ (s.dev.chan 0).mwd ≠ 0) ∧
    Meets (on (having serving { access 6 with stage := .writing, isWrite := true }) fun d => { d with
      med.ch := [(0, { (default : Channel) with mcmd := 1, mwd := 0, waiting := [⟨1, 0, ⟨7, 8, 9⟩, .data 6⟩] })] }) (fun s =>
      s.dev.up (domMch 0) = true ∧ s.safe.active = false ∧ s.dev.retired 0 = false ∧ (s.dev.chan 0).waiting = [⟨1, 0, ⟨7, 8,
      9⟩, .data 6⟩] ∧ (s.dev.chan 0).freeTag = some 0 ∧ (s.dev.chan 0).mcmd ≠ 0) ∧
    Meets (on (given serving 1 0x4A [] []) fun d =>
      { d with qmg.wrCredit := 0, qmg.wrWait := [⟨0x20030, [], 1, .completion 1 0 true, 0, 0⟩] }) (fun s => s.dev.up domHdma =
      true ∧ s.safe.active = false ∧ s.dev.qmg.wrWait = [⟨0x20030, [], 1, .completion 1 0 true, 0, 0⟩] ∧ Tab.unused
      s.dev.qmg.wrOut 256 = some 0) ∧
    Meets (on serving fun d => { d with qmg.rdCredit := 0, qmg.rdWait := [⟨0x20000, 64, .entries 1 0 1 false, [], false⟩] })
      (fun s => s.dev.up domHdma = true ∧ s.safe.active = false ∧ s.dev.qmg.rdWait = [⟨0x20000, 64, .entries 1 0 1 false, [],
      false⟩] ∧ Tab.unused s.dev.qmg.rdOut 256 = some 0) := by
  refine ⟨?_, ?_, ?_, ?_, ?_, ?_, ?_, ?_, ?_, ?_, ?_⟩ <;> decide +kernel

/-- `Obligations.AccessPipeline`. -/
theorem meets_access_pipeline :
    Meets (having serving { access 6 with isWrite := true, mask := 0, win := .passed }) (fun s => ((s.dev.acc 6).any fun a =>
      a.origin == .port 0) = true ∧ InService s ∧ ((s.dev.acc 6).any fun a => s.dev.grantable a && a.isWrite && a.mask == 0 &&
      a.win == .passed) = true) ∧
    Meets (on (having serving { access 6 with line := 0 }) fun d => d) (fun s => ((s.dev.acc 6).any fun a => a.origin == .port
      0) = true ∧ InService s ∧ ((s.dev.acc 6).any fun a => s.dev.grantable a && !a.isWrite && a.mode != .full && a.stage ==
      .gated && a.pass != .poison && !s.dev.retired (channelOf a.line.toNat)) = true) ∧
    Meets (on (having serving { access 6 with stage := .ladder 8 }) fun d => { d with
      frs.ladders := [{
      id := 8, zone := 2, n := 0, low := 0, anchor := 9, value := 0, rungs := [], waiters := [.access 6], fromRoot := true,
      check := false }] }) (fun s => ((s.dev.acc 6).any fun a => a.origin == .port 0 && a.stage != .done) = true ∧ InService s
      ∧ ((s.dev.frs.ladders.find? fun l => l.id = 8).any fun l => decide (((s.dev.countAnchor l.zone l.n l.low).seenOf
      l).verify l = (.error 8 5, [])) && l.waiters == [.access 6]) = true) ∧
    Meets (on serving fun d => { d with
      frs.ladders := [{
      id := 8, zone := 1, n := 0, low := 0, anchor := 9, value := 0, rungs := [], waiters := [.scrub 5], fromRoot := true,
      check := true }], svc.steps := [{ d.newStep .drizzle .scrub 0 1 0 .mac 0 0 with id := 5, nodes := 2 }] }) (fun s =>
      InService s ∧ ((s.dev.frs.ladders.find? fun l => l.id = 8).any fun l => decide (((s.dev.countAnchor l.zone l.n
      l.low).seenOf l).verify l = (.ok 9 0, [])) && l.waiters == [.scrub 5] && l.check) = true ∧ (s.dev.step1 5).isSome = true
      ∧ s.dev.can.maint = [] ∧ s.dev.per.adopt = none) ∧
    Meets (on (having serving { access 6 with stage := .reading }) fun d => { d with
      med.ch := [(0, { (default : Channel) with mcmd := 64, mwd := 64, out := [(7, some ⟨0, 0, default, .data 6⟩)] })] }) (fun
      s => ((s.dev.acc 6).any fun a => a.stage == .reading && a.origin == .port 0) = true ∧ s.safe.active = false ∧
      s.dev.mediaUp 0 = true ∧ (s.dev.chan 0).out.get 7 = some ⟨0, 0, default, .data 6⟩ ∧ (s.dev.session 0).txFailed = false)
      ∧
    Meets (on (having serving { access 6 with stage := .writing, isWrite := true }) fun d => { d with
      med.ch := [(0, { (default : Channel) with mcmd := 64, mwd := 64, out := [(7, some ⟨1, 0, default, .data 6⟩)] })] }) (fun
      s => s.safe.active = false ∧ s.dev.mediaUp 0 = true ∧ (s.dev.chan 0).out.get 7 = some ⟨1, 0, default, .data 6⟩ ∧
      ((s.dev.acc 6).any fun a => a.stage == .writing && a.origin == .port 0 && a.leaf == .none && !a.lost) = true) ∧
    Meets (on (having serving { access 6 with stage := .writing, isWrite := true, lost := true }) fun d => { d with
      med.ch := [(0, { (default : Channel) with mcmd := 64, mwd := 64, out := [(7, some ⟨1, 0, default, .data 6⟩)] })] }) (fun
      s => s.safe.active = false ∧ s.dev.mediaUp 0 = true ∧ (s.dev.chan 0).out.get 7 = some ⟨1, 0, default, .data 6⟩ ∧
      ((s.dev.acc 6).any fun a => a.stage == .writing && a.origin == .port 0 && a.lost) = true) ∧
    Meets (serving) (fun s => s.safe.active = false ∧ s.dev.mediaUp 0 = true ∧ (s.dev.chan 0).out.get 7 = none ∧ 80 ∉
      (s.flt.banks.get bMed).mask ∧ 80 ∉ (s.flt.banks.get bMed).live) ∧
    Meets (on (having serving { access 6 with stage := .lane, pass := .read, verified := true }) fun d =>
      { d with key.regs := [(2, some 0x1234)] }) (fun s => InService s ∧ ((s.dev.acc 6).any fun a => a.stage == .lane &&
      a.origin == .port 0 && !a.isWrite && a.pass == .read && a.verified && s.dev.laneMay a 0 (s.dev.passKeys a)) = true) ∧
    Meets (on (having serving { access 6 with
      stage := .lane, pass := .write, isWrite := true, line := 0, mask := BitVec.allOnes 64, winKey := some 0x1234 }) fun d =>
      { d with key.regs := [(0, some 0x1234)], lan.auditEn := false }) (fun s => InService s ∧ ((s.dev.acc 6).any fun a =>
      a.stage == .lane && a.origin == .port 0 && a.isWrite && a.pass == .write && a.winKey.isSome && s.dev.laneMay a 0
      (s.dev.passKeys a)) = true ∧ (s.dev.kslot 3).st = .loaded ∧ s.dev.samples 0 = false ∧ s.dev.retired (channelOf 0) =
      false) := by
  refine ⟨?_, ?_, ?_, ?_, ?_, ?_, ?_, ?_, ?_, ?_⟩ <;> decide +kernel

/-- `Obligations.ParkingAndChannels`. -/
theorem meets_parking_and_channels :
    Meets (serving) (fun s => s.dev.up domCore = true ∧ (s.dev.chan 5).retired = false) ∧
    Meets (on serving fun d => { d.setChan 0 { (default : Channel) with bucket := 1 } with mgt.tref := 10000000 }) (fun s =>
      s.dev.up domCore = true ∧ (s.dev.chan 0).bucket ≠ 0 ∧ (s.dev.chan 0).retired = false ∧ s.dev.passed (s.dev.chan
      0).leakAt (1000000 / s.dev.thresholdOf 0) = true) ∧
    Meets (on (having serving { access 6 with
      stage := .parked, parkedAt := 10, released := false, inFlight := false, place := none, gen := 0 }) fun d =>
      { d with stl.filter := [⟨5, 7, false, 1, 0, 1, false, 10, 0, 0⟩] }) (fun s => ((s.dev.acc 6).any fun a => a.origin ==
      .port 0 && !a.isWrite) = true ∧ InService s ∧ ((s.dev.acc 6).any fun a => decide (a.stage = .parked ∧ a.released =
      false) && s.dev.passed a.parkedAt s.dev.stl.parkTimeout) = true) ∧
    Meets (on (having withStream { access 6 with
      stage := .parked, parkedAt := 10, released := true, inFlight := false, place := none, gen := 0 }) fun d =>
      { d with stl.filter := [⟨5, 7, false, 1, 0, 1, false, 10, 0, 0⟩] }) (fun s => ((s.dev.acc 6).any fun a => a.origin ==
      .port 0 && a.win == .none && !a.isWrite) = true ∧ passesB s.dev 0 5 7 9 stream 0 ⟨0, 4095, 0, 0xFFFF, .mac, false, 0⟩ =
      true ∧ InService s ∧ (s.dev.parked.filter fun a => a.released).map (·.id) = [6] ∧ s.dev.full false = false ∧ (∀ b ∈
      s.dev.fab.accs, b.stage ≠ .received)) ∧
    Meets (on (having serving { access 6 with
      stage := .parked, parkedAt := 10, released := true, inFlight := false, place := none, gen := 0 }) fun d =>
      { d with stl.filter := [⟨5, 7, false, 1, 0, 1, false, 10, 0, 0⟩] }) (fun s => InService s ∧ ((s.dev.acc 6).any fun a =>
      decide (a.stage = .parked) && a.origin == .port 0 && !a.isWrite) = true) ∧
    Meets (on (having serving { access 6 with
      stage := .parked, parkedAt := 10, inFlight := false, place := none, isWrite := true }) fun d => d) (fun s => InService s
      ∧ ((s.dev.acc 6).any fun a => decide (a.stage = .parked ∧ a.released = false ∧ a.win ≠ .passed ∧ a.win ≠ .failed) &&
      a.isWrite && a.origin == .port 0 && s.dev.passed a.parkedAt s.dev.stl.parkTimeout) = true) ∧
    Meets (on withStream fun d => { d with stl.agePeriod := 10 }) (fun s => InService s ∧ s.dev.passed s.dev.stl.ageAt
      s.dev.stl.agePeriod = true) ∧
    Meets ({ serving with safe := { Safe.reset with active := true, cls := 1 } }) (fun s => s.dev.up domCore = true ∧
      (s.dev.chan 5).retired = false) ∧
    Meets (on serving fun d => { d.setChan 0 { (default : Channel) with bucket := 9, oldThreshold := some 16 } with
      mgt.tref := 10000000, med.threshold := 2 }) (fun s => s.dev.up domCore = true ∧ (s.dev.chan 0).bucket ≠ 0 ∧ (s.dev.chan
      0).retired = false ∧ s.dev.passed (s.dev.chan 0).leakAt (1000000 / s.dev.thresholdOf 0) = true) := by
  refine ⟨?_, ?_, ?_, ?_, ?_, ?_, ?_, ?_, ?_⟩ <;> decide +kernel

/-- `Obligations.HostAnswers`. -/
theorem meets_host_answers :
    Meets (on (given serving 1 0x4A [] []) fun d =>
      { d with qmg.wrOut := [(3, some ⟨0x20030, [], 1, .completion 1 0 true, 0, 0⟩)] }) (fun s => s.safe.active = false ∧
      s.dev.qmg.wrOut.get 3 = some ⟨0x20030, [], 1, .completion 1 0 true, 0, 0⟩ ∧ (s.dev.queue 1).st ≠ .none ∧ (s.dev.queue
      1).resetting = false ∧ (s.dev.queue 1).st ≠ .error) ∧
    Meets (on serving fun d =>
      { d with qmg.rdOut := [(3, some ⟨0x20000, 64, .entries 1 0 1 false, leBytes 32 0x4A, false⟩)] }) (fun s =>
      s.dev.qmg.rdOut.get 3 = some ⟨0x20000, 64, .entries 1 0 1 false, leBytes 32 0x4A, false⟩) ∧
    Meets (on serving fun d =>
      { d with qmg.rdOut := [(3, some ⟨0x20000, 64, .entries 1 0 1 false, leBytes 32 0x4A, false⟩)] }) (fun s => s.safe.active
      = false ∧ ownFlag (bytesLine ((HRd.data ⟨0x20000, 64, .entries 1 0 1 false, leBytes 32 0x4A ++ leBytes 32 (2 ^ 255),
      false⟩).take 64)) = true) ∧
    Meets (on serving fun d =>
      { d with qmg.rdOut := [(3, some ⟨0x20000, 64, .entries 1 0 1 false, leBytes 32 0x4A, false⟩)] }) (fun s => s.safe.active
      = false ∧ ownFlag (bytesLine ((HRd.data ⟨0x20000, 64, .entries 1 0 1 false, leBytes 32 0x4A ++ leBytes 32 0,
      false⟩).take 64)) = false ∧ (s.dev.queue 1).st = .active) ∧
    Meets (on serving fun d => { d with
      mgt.holdoff := true, qmg.vecs := [(9, { (default : Vec) with addr := 0x88, data := 5, loaded := true, pend := true })]
      }) (fun s => InService s ∧ RoomFor (Tab.which s.dev.qmg.vecs fun x => x.pend).length s ∧ (s.dev.vec 9).pend = true ∧
      (s.dev.vec 9).loaded = true ∧ (s.dev.vec 9).mask = false) ∧
    Meets (on serving fun d => { d with
      mgt.holdoff := true, qmg.wrCredit := 0, qmg.vecs := [(9,
      { (default : Vec) with addr := 0x88, data := 5, loaded := true, pend := true })] }) (fun s => InService s ∧ s.dev.wrRoom
      = false) := by
  refine ⟨?_, ?_, ?_, ?_, ?_, ?_⟩ <;> decide +kernel

/-- `Obligations.DoorbellsAct`. -/
theorem meets_doorbells_act :
    Meets (serving) (fun s => (s.dev.queue 1).scanOnly = false ∧ (s.dev.queue 1).head = 0 ∧ (s.dev.queue 1).tail = 0 ∧
      (s.dev.queue 1).size = 16 ∧ InService s ∧ s.dev.up domHdma = true ∧ s.dev.up domCore = true ∧ (15 : BitVec
      8).extractLsb' 0 4 = 15 ∧ (3 : BitVec 30).extractLsb' 16 14 = 0 ∧ (s.dev.queue 1).st ≠ .none ∧ (s.dev.queue 1).st ≠
      .error ∧ (s.dev.queue 1).submission = true ∧ posI (doorPos 16) = 16 ∧ posI (doorPos 3) < (s.dev.queue 1).size ∧ occ 16 0
      0 ≤ occ 16 0 3 ∧ occ 16 0 3 ≤ 16) ∧
    Meets (serving) (fun s => InService s ∧ s.dev.up domHdma = true ∧ s.dev.up domCore = true ∧ (s.dev.queue 1).st ≠ .none ∧
      (s.dev.queue 1).st ≠ .error ∧ (s.dev.queue 1).submission = true ∧ (s.dev.queue 1).scanOnly = false ∧ (s.dev.queue
      1).head = 0 ∧ (s.dev.queue 1).tail = 0 ∧ (s.dev.queue 1).size = 16 ∧ posI (doorPos 32768) < (s.dev.queue 1).size ∧ occ
      16 0 32768 ≤ 16) ∧
    Meets (serving) (fun s => InService s ∧ s.dev.up domHdma = true ∧ s.dev.up domCore = true ∧ (s.dev.queue 1).st ≠ .none ∧
      (s.dev.queue 1).st ≠ .error ∧ (s.dev.queue 1).submission = true ∧ (s.dev.queue 1).scanOnly = false ∧ ¬(posI (doorPos 16)
      < (s.dev.queue 1).size)) ∧
    Meets (on serving fun d => d.updQueue 2 fun x => { x with head := 3 }) (fun s => InService s ∧ s.dev.up domHdma = true ∧
      s.dev.up domCore = true ∧ (s.dev.queue 2).st ≠ .none ∧ (s.dev.queue 2).st ≠ .error ∧ (s.dev.queue 2).head = 3 ∧
      (s.dev.queue 2).tail = 0 ∧ (s.dev.queue 2).size = 16 ∧ (s.dev.queue 2).ty = .event ∧ posI (doorPos 3) < (s.dev.queue
      2).size ∧ 0 ≤ occ 16 0 3 ∧ occ 16 0 3 ≤ occ 16 0 3) ∧
    Meets (serving) (fun s => InService s ∧ s.dev.up domHdma = true ∧ s.dev.up domCore = true ∧ (s.dev.queue 1).st ≠ .none ∧
      (s.dev.queue 1).st ≠ .error ∧ NoRecordWaits 1 s ∧ (s.dev.queue 1).submission = true ∧ (s.dev.queue 1).st = .active) ∧
    Meets (on serving fun d => { d.updQueue 1 fun x => { x with scanning := true, stopped := true } with
      qmg.rdOut := [(3, some ⟨0x20000, 64, .entries 1 0 1 true, [], false⟩)] }) (fun s => NoRecordWaits 1 s ∧ InService s ∧
      s.dev.up domHdma = true ∧ s.dev.up domCore = true ∧ (s.dev.queue 1).submission = true ∧ (s.dev.queue 1).st = .active ∧
      s.dev.scanOut 1 = true) ∧
    Meets (on serving fun d => d.updQueue 1 fun x => { x with cached := [⟨0, 0x4A⟩], fetch := 1 }) (fun s => InService s ∧
      s.dev.up domHdma = true ∧ s.dev.up domCore = true ∧ (s.dev.queue 1).st ≠ .none ∧ (s.dev.queue 1).st ≠ .error ∧
      NoRecordWaits 1 s ∧ (s.dev.queue 1).submission = true) ∧
    Meets (on serving fun d => { d with qmg.wrOut := [(3, some ⟨0x20030, [], 1, .completion 1 0 true, 0, 0⟩)], seq := 5 })
      (fun s => InService s ∧ s.dev.up domHdma = true ∧ s.dev.up domCore = true ∧ (s.dev.queue 1).st ≠ .none ∧ (s.dev.queue
      1).st ≠ .error ∧ s.dev.qmg.drains = [] ∧ s.dev.writesBefore s.dev.seq = true) ∧
    Meets (on serving fun d => { d with qmg.vecs := [(9, { (default : Vec) with n := 1 })] }) (fun s => InService s ∧ s.dev.up
      domHdma = true ∧ s.dev.up domCore = true ∧ (s.dev.queue 1).st ≠ .none ∧ (s.dev.queue 1).st ≠ .error ∧ s.dev.qmg.drains =
      [] ∧ s.dev.writesBefore s.dev.seq = false ∧ 1 ≤ (s.dev.vec 9).n ∧ s.dev.msgOpen (s.dev.vec 9) = false) ∧
    Meets (on serving fun d => { d with
      qmg.vecs := [(9, { (default : Vec) with n := 1, loaded := true, addr := 0x88, data := 5 })] }) (fun s => InService s ∧
      s.dev.up domHdma = true ∧ s.dev.up domCore = true ∧ (15 : BitVec 8).extractLsb' 0 4 = 15 ∧ (3 : BitVec 30).extractLsb'
      16 14 = 0 ∧ (s.dev.queue 1).st ≠ .none ∧ (s.dev.queue 1).st ≠ .error ∧ s.dev.qmg.drains = [] ∧ s.dev.writesBefore
      s.dev.seq = false ∧ 1 ≤ (s.dev.vec 9).n ∧ s.dev.msgOpen (s.dev.vec 9) = true ∧ s.dev.qmg.drainDue = [] ∧ RoomFor
      (Tab.which s.dev.qmg.vecs fun x => decide (1 ≤ x.n)).length s) ∧
    Meets (on serving fun d => { d with
      qmg.vecs := [(9, { (default : Vec) with n := 1, loaded := true, addr := 0x88, data := 5 })], qmg.wrCredit := 0 }) (fun s
      => InService s ∧ s.dev.up domHdma = true ∧ s.dev.up domCore = true ∧ (15 : BitVec 8).extractLsb' 0 4 = 15 ∧ (3 : BitVec
      30).extractLsb' 16 14 = 0 ∧ (s.dev.queue 1).st ≠ .none ∧ (s.dev.queue 1).st ≠ .error ∧ s.dev.qmg.drains = [] ∧
      s.dev.writesBefore s.dev.seq = false ∧ 1 ≤ (s.dev.vec 9).n ∧ s.dev.msgOpen (s.dev.vec 9) = true ∧ s.dev.wrRoom = false)
      ∧
    Meets (serving) (fun s => InService s ∧ s.dev.up domHdma = true ∧ s.dev.up domCore = true ∧ (14 : BitVec 8).extractLsb' 0
      4 ≠ 15) ∧
    Meets (serving) (fun s => InService s ∧ s.dev.up domHdma = true ∧ s.dev.up domCore = true ∧ (0x10000 : BitVec
      30).extractLsb' 16 14 ≠ 0) ∧
    Meets (serving) (fun s => InService s ∧ s.dev.up domHdma = true ∧ s.dev.up domCore = true ∧ (s.dev.queue 7).st = .none) ∧
    Meets (on serving fun d => d.updQueue 2 fun x => { x with head := 3 }) (fun s => InService s ∧ s.dev.up domHdma = true ∧
      s.dev.up domCore = true ∧ (15 : BitVec 8).extractLsb' 0 4 = 15 ∧ (5 : BitVec 30).extractLsb' 16 14 = 0 ∧ (s.dev.queue
      2).st ≠ .none ∧ (s.dev.queue 2).st ≠ .error ∧ (s.dev.queue 2).ty = .event ∧ ¬(occ (s.dev.queue 2).size (s.dev.queue
      2).tail (doorPos 5) ≤ occ (s.dev.queue 2).size (s.dev.queue 2).tail (s.dev.queue 2).head)) ∧
    Meets (on serving fun d => d.updQueue 2 fun x => { x with head := 3 }) (fun s => InService s ∧ s.dev.up domHdma = true ∧
      s.dev.up domCore = true ∧ (15 : BitVec 8).extractLsb' 0 4 = 15 ∧ (16 : BitVec 30).extractLsb' 16 14 = 0 ∧ (s.dev.queue
      2).st ≠ .none ∧ (s.dev.queue 2).st ≠ .error ∧ (s.dev.queue 2).ty = .event ∧ ¬(posI (doorPos 16) < (s.dev.queue 2).size))
      ∧
    Meets (on serving fun d => d.updQueue 1 fun x => { x with scanOnly := true, stopped := true }) (fun s => InService s ∧
      s.dev.up domHdma = true ∧ s.dev.up domCore = true ∧ (15 : BitVec 8).extractLsb' 0 4 = 15 ∧ (3 : BitVec 30).extractLsb'
      16 14 = 0 ∧ (s.dev.queue 1).st ≠ .none ∧ (s.dev.queue 1).st ≠ .error ∧ (s.dev.queue 1).submission = true ∧ (s.dev.queue
      1).scanOnly = true) ∧
    Meets (on serving fun d => d.updQueue 1 fun x => { x with st := .idle }) (fun s => InService s ∧ s.dev.up domHdma = true ∧
      s.dev.up domCore = true ∧ (15 : BitVec 8).extractLsb' 0 4 = 15 ∧ (0 : BitVec 30).extractLsb' 16 14 = 0 ∧ (s.dev.queue
      1).st ≠ .none ∧ (s.dev.queue 1).st ≠ .error ∧ ((s.dev.queue 1).ty = .event ∨ (s.dev.queue 1).st ≠ .active)) ∧
    Meets (on serving fun d => d.updQueue 1 fun x => { x with st := .stopping }) (fun s => InService s ∧ s.dev.up domHdma =
      true ∧ s.dev.up domCore = true ∧ (15 : BitVec 8).extractLsb' 0 4 = 15 ∧ (0 : BitVec 30).extractLsb' 16 14 = 0 ∧
      (s.dev.queue 1).st ≠ .none ∧ (s.dev.queue 1).st ≠ .error ∧ ((s.dev.queue 1).ty = .event ∨ (s.dev.queue 1).st ≠ .active))
      ∧
    Meets (serving) (fun s => InService s ∧ s.dev.up domHdma = true ∧ s.dev.up domCore = true ∧ (15 : BitVec 8).extractLsb' 0
      4 = 15 ∧ (0 : BitVec 30).extractLsb' 16 14 = 0 ∧ (s.dev.queue 2).st ≠ .none ∧ (s.dev.queue 2).st ≠ .error ∧
      ((s.dev.queue 2).ty = .event ∨ (s.dev.queue 2).st ≠ .active)) ∧
    Meets (on serving fun d => d.updQueue 2 fun x => { x with head := 3 }) (fun s => InService s ∧ s.dev.up domHdma = true ∧
      s.dev.up domCore = true ∧ (15 : BitVec 8).extractLsb' 0 4 = 15 ∧ (0 : BitVec 30).extractLsb' 16 14 = 0 ∧ (s.dev.queue
      2).st ≠ .none ∧ (s.dev.queue 2).st ≠ .error ∧ (s.dev.queue 2).ty = .event) := by
  refine ⟨?_, ?_, ?_, ?_, ?_, ?_, ?_, ?_, ?_, ?_, ?_, ?_, ?_, ?_, ?_, ?_, ?_, ?_, ?_, ?_, ?_⟩
  · exact ⟨by decide +kernel, by and_intros <;> decide +kernel⟩
  · decide +kernel
  · decide +kernel
  · decide +kernel
  · decide +kernel
  · decide +kernel
  · decide +kernel
  · decide +kernel
  · decide +kernel
  · decide +kernel
  · decide +kernel
  · decide +kernel
  · decide +kernel
  · decide +kernel
  · decide +kernel
  · decide +kernel
  · decide +kernel
  · decide +kernel
  · decide +kernel
  · decide +kernel
  · decide +kernel

/-- `Obligations.QueueManagerRows`. -/
theorem meets_queue_manager_rows :
    Meets (on serving fun d => d.updQueue 1 fun x => { x with tail := 3 }) (fun s => InService s ∧ NoRecordWaits 1 s ∧
      s.dev.fetchTurn 1 = true ∧ 3 = min (min 8 (min (s.dev.slotsWanted 1) (s.dev.freeSlots 1))) ((s.dev.queue 1).size - posI
      (s.dev.queue 1).fetch)) ∧
    Meets (on serving fun d => d.updQueue 1 fun x => { x with scanOnly := true, stopped := true }) (fun s => InService s ∧
      NoRecordWaits 1 s ∧ (s.dev.queue 1).st = .active ∧ (s.dev.queue 1).submission = true ∧ (s.dev.queue 1).scanOnly = true ∧
      (s.dev.queue 1).stopped = true ∧ s.dev.passed (s.dev.queue 1).polledAt s.dev.qmg.scanPeriod = true) ∧
    Meets (on serving fun d => d.updQueue 1 fun x =>
      { x with cached := [⟨0, (entry 0x40 [(2, 2), (63, 128)])⟩], fetch := 1, tail := 1 }) (fun s => InService s ∧
      (s.dev.queue 1).cached = [⟨0, (entry 0x40 [(2, 2), (63, 128)])⟩] ∧ (s.dev.queue 1).st = .active ∧ s.dev.mgt.pfWarn =
      false ∧ (s.dev.queue 1).fenced (entry 0x40 [(2, 2), (63, 128)]) = false ∧ entryError (s.dev.queue 1) (entry 0x40 [(2,
      2), (63, 128)]) = none ∧ s.dev.exec1 1 0 = none ∧ fragFlag (entry 0x40 [(2, 2), (63, 128)]) = false ∧ inputOf (entry
      0x40 [(2, 2), (63, 128)]) = none) ∧
    Meets (on serving fun d => d.updQueue 1 fun x =>
      { x with cached := [⟨0, (entry 0xFF [(63, 128)])⟩], fetch := 1, tail := 1 }) (fun s => InService s ∧ (s.dev.queue
      1).cached = [⟨0, (entry 0xFF [(63, 128)])⟩] ∧ (s.dev.queue 1).st = .active ∧ s.dev.mgt.pfWarn = false ∧ (s.dev.queue
      1).fenced (entry 0xFF [(63, 128)]) = false ∧ (entryError (s.dev.queue 1) (entry 0xFF [(63, 128)])).isSome = true) ∧
    Meets (on serving fun d => d.updQueue 1 fun x =>
      { x with cached := [⟨0, (entry 0x40 [(2, 2), (63, 128)])⟩], fetch := 1, tail := 1 }) (fun s => InService s ∧
      (s.dev.queue 1).head = 0 ∧ (s.dev.queue 1).st ≠ .none ∧ (s.dev.queue 1).st ≠ .error) ∧
    Meets (on serving fun d => { d with stl.learnEvq := ⟨true, 2⟩, qmg.held := [(0, [⟨1, 1, payload [], 5, .plain⟩])] }) (fun
      s => InService s ∧ s.dev.qmg.held.get (evCode .stl) = [⟨1, 1, payload [], 5, .plain⟩] ∧ (s.dev.evq .stl).valid = true ∧
      (s.dev.evq .stl).qid.toNat = 2 ∧ s.dev.canTake (s.dev.evq .stl) = true ∧ s.dev.turnOf .stl = true ∧ NoRecordWaits 2 s ∧
      s.dev.up domHdma = true ∧ s.dev.wrRoom = true ∧ RoomFor 3 s) ∧
    Meets (on serving fun d => { d with
      stl.learnEvq := ⟨true, 2⟩, qmg.held := [(0, [⟨1, 1, payload [], 5, .plain⟩])], mgt.domReset := domBit domHdma }) (fun s
      => InService s ∧ s.dev.qmg.held.get (evCode .stl) = [⟨1, 1, payload [], 5, .plain⟩] ∧ (s.dev.evq .stl).valid = true ∧
      (s.dev.evq .stl).qid.toNat = 2 ∧ s.dev.canTake (s.dev.evq .stl) = true ∧ s.dev.turnOf .stl = true ∧ NoRecordWaits 2 s ∧
      s.dev.up domHdma = false ∧ s.dev.wrRoom = false) ∧
    Meets (on serving fun d => { d with
      stl.learnEvq := ⟨true, 2⟩, qmg.held := [(0, [⟨1, 1, payload [], 5, .plain⟩])], qmg.wrCredit := 1 }) (fun s => InService
      s ∧ s.dev.qmg.held.get (evCode .stl) = [⟨1, 1, payload [], 5, .plain⟩] ∧ (s.dev.evq .stl).valid = true ∧ (s.dev.evq
      .stl).qid.toNat = 2 ∧ s.dev.canTake (s.dev.evq .stl) = true ∧ s.dev.turnOf .stl = true ∧ NoRecordWaits 2 s ∧ s.dev.up
      domHdma = true ∧ s.dev.wrRoom = true ∧ s.dev.qmg.wrCredit < 3) ∧
    Meets (on serving fun d => { d with
      qmg.wrCredit := 0, qmg.vecs := [(9, { (default : Vec) with n := 1, loaded := true, addr := 0x88, data := 5 })] }) (fun s
      => InService s ∧ s.dev.vecDue (s.dev.vec 9) = true ∧ s.dev.msgOpen (s.dev.vec 9) = true ∧ s.dev.wrRoom = false) ∧
    Meets (on serving fun d => { d with
      qmg.vecs := [(9, { (default : Vec) with n := 1, loaded := true, addr := 0x88, data := 5 })] }) (fun s => InService s ∧
      s.dev.vecDue (s.dev.vec 9) = true ∧ s.dev.msgOpen (s.dev.vec 9) = true ∧ s.dev.wrRoom = true) ∧
    Meets (on serving fun d => { d with qmg.vecs := [(9, { (default : Vec) with n := 1 })] }) (fun s => InService s ∧
      s.dev.vecDue (s.dev.vec 9) = true ∧ s.dev.msgOpen (s.dev.vec 9) = false) ∧
    Meets (on serving fun d => { d with
      qmg.drainDue := [9], qmg.vecs := [(9, { (default : Vec) with
      n := 1, count := 5, time := 500, t0 := 999990, loaded := true, addr := 0x88, data := 5 })] }) (fun s => InService s ∧
      s.dev.vecDue (s.dev.vec 9) = false ∧ 9 ∈ s.dev.qmg.drainDue ∧ s.dev.msgOpen (s.dev.vec 9) = true ∧ s.dev.wrRoom = true)
      ∧
    Meets (on serving fun d => { d with
      qmg.drainDue := [9], qmg.vecs := [(9, { (default : Vec) with
      n := 1, count := 5, time := 500, t0 := 999990, loaded := true, addr := 0x88, data := 5 })], qmg.wrCredit := 0 }) (fun s
      => InService s ∧ s.dev.vecDue (s.dev.vec 9) = false ∧ 9 ∈ s.dev.qmg.drainDue ∧ s.dev.msgOpen (s.dev.vec 9) = true ∧
      s.dev.wrRoom = false) ∧
    Meets (on serving fun d => { d with
      qmg.drainDue := [9], qmg.vecs := [(9, { (default : Vec) with
      n := 1, count := 5, time := 500, t0 := 999990, loaded := true, addr := 0x88, data := 5, mask := true })] }) (fun s =>
      InService s ∧ s.dev.vecDue (s.dev.vec 9) = false ∧ 9 ∈ s.dev.qmg.drainDue ∧ s.dev.msgOpen (s.dev.vec 9) = false) ∧
    Meets (on serving fun d => { d with
      qmg.drainDue := [9], qmg.vecs := [(9, { (default : Vec) with
      n := 1, count := 5, time := 500, t0 := 999990, loaded := true, addr := 0x88, data := 5 })], mgt.holdoff := true }) (fun
      s => InService s ∧ s.dev.vecDue (s.dev.vec 9) = false ∧ 9 ∈ s.dev.qmg.drainDue ∧ s.dev.msgOpen (s.dev.vec 9) = false) :=
      by
  refine ⟨?_, ?_, ?_, ?_, ?_, ?_, ?_, ?_, ?_, ?_, ?_, ?_, ?_, ?_, ?_⟩ <;> decide +kernel

/-- `Obligations.QueueCommands`. -/
theorem meets_queue_commands :
    Meets (on serving fun d => d.updQueue 1 fun x => { x with st := .stopping }) (fun s => CoreServed s ∧ (s.dev.queue 1).st =
      .stopping) ∧
    Meets (on serving fun d => d.updQueue 1 fun x => { x with st := .idle }) (fun s => CoreServed s ∧ (s.dev.queue 1).st =
      .idle) ∧
    Meets (serving) (fun s => CoreServed s ∧ (s.dev.queue 1).st = .active) ∧
    Meets (on serving fun d => { d with qmg.queues := [] }) (fun s => CoreServed s ∧ (s.dev.queue 0).st = .none) ∧
    Meets (on serving fun d => d.updQueue 0 fun x => { x with st := .error }) (fun s => CoreServed s ∧ (s.dev.queue 0).st =
      .error ∧ (s.dev.queue 0).exec = [] ∧ (s.dev.queue 0).resetBy = []) ∧
    Meets (on serving fun d => d.updQueue 1 fun x => { x with st := .stopping }) (fun s => InService s ∧ (s.dev.queue 1).exec
      = [] ∧ s.dev.fetches 1 = [] ∧ (s.dev.queue 1).recWr = 0) ∧
    Meets (serving) (fun s => CoreServed s ∧ s.dev.qmg.vecLoading = 0 ∧ bit 7 31 = false) ∧
    Meets (serving) (fun s => CoreServed s ∧ s.dev.qmg.vecLoading = 0 ∧ bit 0x80000000 31 = true ∧ s.dev.qmg.vecBase % 16 = 0)
      ∧
    Meets (on serving fun d => { d with qmg.vecBase := 0x50010 }) (fun s => CoreServed s ∧ s.dev.qmg.vecLoading = 0 ∧ bit
      0x80000000 31 = true ∧ s.dev.qmg.vecBase % 16 = 0) ∧
    Meets (on serving fun d => { d with qmg.vecLoading := 1 }) (fun s => CoreServed s ∧ s.dev.qmg.vecLoading ≠ 0) ∧
    Meets (given serving 0 1 [(8, 7), (10, 1), (11, 4), (12, 2), (16, 0x40000)] []) (fun s => Runs 0 0 cCreateQueue noRules
      (ready 1 [(8, 7), (10, 1), (11, 4), (12, 2), (16, 0x40000)] []) s ∧ num (entry 1 [(8, 7), (10, 1), (11, 4), (12, 2),
      (16, 0x40000)]) 8 2 = 7 ∧ (s.dev.queue 7).st = .none ∧ num (entry 1 [(8, 7), (10, 1), (11, 4), (12, 2), (16, 0x40000)])
      12 1 = 2 ∧ NoRecordWaits 7 s) ∧
    Meets (given serving 0 1 [(8, 2), (10, 1), (11, 4), (12, 1), (16, 0x40000)] []) (fun s => Runs 0 0 cCreateQueue noRules
      (ready 1 [(8, 2), (10, 1), (11, 4), (12, 1), (16, 0x40000)] []) s ∧ (s.dev.queue 2).st ≠ .none) ∧
    Meets (given serving 0 2 [(8, 7)] []) (fun s => Runs 0 0 cDeleteQueue noRules (ready 2 [(8, 7)] []) s ∧ num (entry 2 [(8,
      7)]) 8 2 = 7 ∧ (s.dev.queue 7).st = .none) ∧
    Meets (given serving 0 2 [(8, 1)] []) (fun s => Runs 0 0 cDeleteQueue noRules (ready 2 [(8, 1)] []) s ∧ (s.dev.queue 1).st
      = .active) ∧
    Meets (given serving 0 3 [(8, 7)] []) (fun s => Runs 0 0 cResetQueue noRules (ready 3 [(8, 7)] []) s ∧ num (entry 3 [(8,
      7)]) 8 2 = 7 ∧ (s.dev.queue 7).st = .none) ∧
    Meets (given serving 0 3 [(8, 1)] []) (fun s => Runs 0 0 cResetQueue noRules (ready 3 [(8, 1)] []) s ∧ (s.dev.queue 1).st
      = .active) ∧
    Meets (given (on serving fun d => d.updQueue 1 fun x => { x with st := .idle }) 0 2 [(8, 1)] []) (fun s => Runs 0 0
      cDeleteQueue noRules (ready 2 [(8, 1)] []) s ∧ num (entry 2 [(8, 1)]) 8 2 = 1 ∧ (s.dev.queue 1).st = .idle ∧
      (s.dev.queue 1).exec = []) ∧
    Meets (given (on serving fun d => d.updQueue 1 fun x =>
      { x with st := .error, head := 3, tail := 4, done := 9, cause := 5 }) 0 3 [(8, 1)] []) (fun s => Runs 0 0 cResetQueue
      noRules (ready 3 [(8, 1)] []) s ∧ num (entry 3 [(8, 1)]) 8 2 = 1 ∧ (s.dev.queue 1).st = .error ∧ (s.dev.queue 1).exec =
      [] ∧ (s.dev.queue 1).resetBy = []) ∧
    Meets (serving) (fun s => CoreServed s ∧ (s.dev.queue 7).st = .none) ∧
    Meets (on serving fun d => d.updQueue 1 fun x => { x with st := .error }) (fun s => CoreServed s ∧ (s.dev.queue 1).st =
      .error) ∧
    Meets (on serving fun d => d.updQueue 1 fun x => { x with st := .idle }) (fun s => CoreServed s ∧ (s.dev.queue 1).st ≠
      .active) ∧
    Meets (on serving fun d => d.updQueue 1 fun x => { x with st := .stopping }) (fun s => CoreServed s ∧ (s.dev.queue 1).st ≠
      .active) ∧
    Meets (on serving fun d => d.updQueue 1 fun x => { x with st := .error }) (fun s => CoreServed s ∧ (s.dev.queue 1).st ≠
      .active) ∧
    Meets (serving) (fun s => CoreServed s ∧ (s.dev.queue 7).st ≠ .active) ∧
    Meets (on serving fun d => d.updQueue 1 fun x => { x with st := .error }) (fun s => CoreServed s) ∧
    Meets (on serving fun d => d.updQueue 0 fun x => { x with st := .active }) (fun s => CoreServed s ∧ (s.dev.queue 0).st ≠
      .idle ∧ (s.dev.queue 0).st ≠ .error) ∧
    Meets (on serving fun d => d.updQueue 0 fun x => { x with st := .stopping }) (fun s => CoreServed s ∧ (s.dev.queue 0).st ≠
      .idle ∧ (s.dev.queue 0).st ≠ .error) ∧
    Meets (on serving fun d => { d with qmg.queues := d.qmg.queues.put 0 default }) (fun s => CoreServed s ∧ (s.dev.queue
      0).st = .none) ∧
    Meets (on serving fun d => d.updQueue 0 fun x => { x with
      st := .idle, exec := [{ (default : Exec) with pos := 3, entry := entry 0x46 [], st := .running }] }) (fun s =>
      CoreServed s ∧ (s.dev.queue 0).st = .idle ∧ (s.dev.queue 0).exec ≠ []) ∧
    Meets (on serving fun d => d.updQueue 0 fun x => { x with
      st := .error, exec := [{ (default : Exec) with pos := 3, entry := entry 0x46 [], st := .running }] }) (fun s =>
      CoreServed s ∧ (s.dev.queue 0).st = .error ∧ (s.dev.queue 0).exec ≠ []) ∧
    Meets (given (on serving fun d => d.updQueue 1 fun x => { x with
      st := .idle, exec := [{ (default : Exec) with pos := 3, entry := entry 0x46 [], st := .running }] }) 0 2 [(8, 1)] [])
      (fun s => Runs 0 0 cDeleteQueue noRules (ready 2 [(8, 1)] []) s ∧ num (entry 2 [(8, 1)]) 8 2 = 1 ∧ (s.dev.queue 1).st ≠
      .none ∧ (s.dev.queue 1).exec ≠ []) ∧
    Meets (given (on serving fun d => d.updQueue 1 fun x => { x with
      st := .idle, exec := [{ (default : Exec) with pos := 3, entry := entry 0x46 [], st := .running }] }) 0 3 [(8, 1)] [])
      (fun s => Runs 0 0 cResetQueue noRules (ready 3 [(8, 1)] []) s ∧ num (entry 3 [(8, 1)]) 8 2 = 1 ∧ (s.dev.queue 1).st =
      .idle ∧ (s.dev.queue 1).exec ≠ []) ∧
    Meets (given (on serving fun d => d.updQueue 1 fun x => { x with
      st := .error, exec := [{ (default : Exec) with pos := 3, entry := entry 0x46 [], st := .running }] }) 0 2 [(8, 1)] [])
      (fun s => Runs 0 0 cDeleteQueue noRules (ready 2 [(8, 1)] []) s ∧ num (entry 2 [(8, 1)]) 8 2 = 1 ∧ (s.dev.queue 1).st ≠
      .none ∧ (s.dev.queue 1).exec ≠ []) ∧
    Meets (given (on serving fun d => d.updQueue 1 fun x => { x with
      st := .error, exec := [{ (default : Exec) with pos := 3, entry := entry 0x46 [], st := .running }] }) 0 3 [(8, 1)] [])
      (fun s => Runs 0 0 cResetQueue noRules (ready 3 [(8, 1)] []) s ∧ num (entry 3 [(8, 1)]) 8 2 = 1 ∧ (s.dev.queue 1).st =
      .error ∧ (s.dev.queue 1).exec ≠ []) ∧
    Meets (given (on serving fun d => d.updQueue 1 fun x => { x with
      st := .active, exec := [{ (default : Exec) with pos := 3, entry := entry 0x46 [], st := .running }] }) 0 2 [(8, 1)] [])
      (fun s => Runs 0 0 cDeleteQueue noRules (ready 2 [(8, 1)] []) s ∧ (s.dev.queue 1).st = .active) ∧
    Meets (given (on serving fun d => d.updQueue 1 fun x => { x with
      st := .stopping, exec := [{ (default : Exec) with pos := 3, entry := entry 0x46 [], st := .running }] }) 0 2 [(8, 1)]
      []) (fun s => Runs 0 0 cDeleteQueue noRules (ready 2 [(8, 1)] []) s ∧ (s.dev.queue 1).st = .stopping) := by
  refine ⟨?_, ?_, ?_, ?_, ?_, ?_, ?_, ?_, ?_, ?_, ?_, ?_, ?_, ?_, ?_, ?_, ?_, ?_, ?_, ?_, ?_, ?_, ?_, ?_, ?_, ?_, ?_, ?_, ?_, ?_, ?_, ?_, ?_, ?_, ?_, ?_⟩ <;> decide +kernel

/-- `Obligations.FeatureCommands`. -/
theorem meets_feature_commands :
    Meets (given serving 0 1 [(47, 1)] []) (fun s => Ready 0 0 cCreateQueue (ready 1 [(47, 1)] []) s ∧ (operandBad (entry 1
      [(47, 1)]) (ready 1 [(47, 1)] []).batchRule).isSome = true) ∧
    Meets (given serving 0 2 [(47, 1)] []) (fun s => Ready 0 0 cDeleteQueue (ready 2 [(47, 1)] []) s ∧ (operandBad (entry 2
      [(47, 1)]) (ready 2 [(47, 1)] []).batchRule).isSome = true) ∧
    Meets (given serving 0 3 [(47, 1)] []) (fun s => Ready 0 0 cResetQueue (ready 3 [(47, 1)] []) s ∧ (operandBad (entry 3
      [(47, 1)]) (ready 3 [(47, 1)] []).batchRule).isSome = true) ∧
    Meets (given serving 0 4 [(47, 1)] []) (fun s => Ready 0 0 cSetFeature (ready 4 [(47, 1)] []) s ∧ (operandBad (entry 4
      [(47, 1)]) (ready 4 [(47, 1)] []).batchRule).isSome = true) ∧
    Meets (given serving 0 5 [(47, 1)] []) (fun s => Ready 0 0 cGetFeature (ready 5 [(47, 1)] []) s ∧ (operandBad (entry 5
      [(47, 1)]) (ready 5 [(47, 1)] []).batchRule).isSome = true) ∧
    Meets (given serving 0 6 [(47, 1)] []) (fun s => Ready 0 0 cIdentify (ready 6 [(47, 1)] []) s ∧ (operandBad (entry 6 [(47,
      1)]) (ready 6 [(47, 1)] []).batchRule).isSome = true) ∧
    Meets (given serving 1 72 [(47, 1)] []) (fun s => Ready 1 0 cCheckpoint (ready 72 [(47, 1)] []) s ∧ (operandBad (entry 72
      [(47, 1)]) (ready 72 [(47, 1)] []).batchRule).isSome = true) ∧
    Meets (given serving 0 4 [(8, 1), (12, 0xFFFFFFFF)] []) (fun s => Runs 0 0 cSetFeature noRules (ready 4 [(8, 1), (12,
      0xFFFFFFFF)] []) s) ∧
    Meets (given serving 0 5 [(8, 1)] []) (fun s => Runs 0 0 cGetFeature noRules (ready 5 [(8, 1)] []) s ∧ featureReg 1 = some
      0x20004) ∧
    Meets (given serving 0 4 [(8, 2), (12, 0xFFFFFFFF)] []) (fun s => Runs 0 0 cSetFeature noRules (ready 4 [(8, 2), (12,
      0xFFFFFFFF)] []) s) ∧
    Meets (given serving 0 5 [(8, 2)] []) (fun s => Runs 0 0 cGetFeature noRules (ready 5 [(8, 2)] []) s ∧ featureReg 2 = some
      0x40000) ∧
    Meets (given serving 0 4 [(8, 3), (12, 0xFFFFFFFF)] []) (fun s => Runs 0 0 cSetFeature noRules (ready 4 [(8, 3), (12,
      0xFFFFFFFF)] []) s) ∧
    Meets (given serving 0 5 [(8, 3)] []) (fun s => Runs 0 0 cGetFeature noRules (ready 5 [(8, 3)] []) s ∧ featureReg 3 = some
      0x40004) ∧
    Meets (given serving 0 4 [(8, 4), (12, 0xFFFFFFFF)] []) (fun s => Runs 0 0 cSetFeature noRules (ready 4 [(8, 4), (12,
      0xFFFFFFFF)] []) s) ∧
    Meets (given serving 0 5 [(8, 4)] []) (fun s => Runs 0 0 cGetFeature noRules (ready 5 [(8, 4)] []) s ∧ featureReg 4 = some
      0x40008) ∧
    Meets (given serving 0 4 [(8, 5), (12, 0xFFFFFFFF)] []) (fun s => Runs 0 0 cSetFeature noRules (ready 4 [(8, 5), (12,
      0xFFFFFFFF)] []) s) ∧
    Meets (given serving 0 5 [(8, 5)] []) (fun s => Runs 0 0 cGetFeature noRules (ready 5 [(8, 5)] []) s ∧ featureReg 5 = some
      0x80004) ∧
    Meets (given serving 0 4 [(8, 6), (12, 0xFFFFFFFF)] []) (fun s => Runs 0 0 cSetFeature noRules (ready 4 [(8, 6), (12,
      0xFFFFFFFF)] []) s) ∧
    Meets (given serving 0 5 [(8, 6)] []) (fun s => Runs 0 0 cGetFeature noRules (ready 5 [(8, 6)] []) s ∧ featureReg 6 = some
      0x80008) ∧
    Meets (given serving 0 4 [(8, 7), (12, 0xFFFFFFFF)] []) (fun s => Runs 0 0 cSetFeature noRules (ready 4 [(8, 7), (12,
      0xFFFFFFFF)] []) s) ∧
    Meets (given serving 0 5 [(8, 7)] []) (fun s => Runs 0 0 cGetFeature noRules (ready 5 [(8, 7)] []) s ∧ featureReg 7 = some
      0xC000C) ∧
    Meets (given serving 0 4 [(8, 8), (12, 0xFFFFFFFF)] []) (fun s => Runs 0 0 cSetFeature noRules (ready 4 [(8, 8), (12,
      0xFFFFFFFF)] []) s) ∧
    Meets (given serving 0 5 [(8, 8)] []) (fun s => Runs 0 0 cGetFeature noRules (ready 5 [(8, 8)] []) s ∧ featureReg 8 = some
      0x160000) ∧
    Meets (given serving 0 4 [(8, 9), (12, 0xFFFFFFFF)] []) (fun s => Runs 0 0 cSetFeature noRules (ready 4 [(8, 9), (12,
      0xFFFFFFFF)] []) s) ∧
    Meets (given serving 0 5 [(8, 9)] []) (fun s => Runs 0 0 cGetFeature noRules (ready 5 [(8, 9)] []) s ∧ featureReg 9 = some
      0x100004) ∧
    Meets (given serving 0 4 [(8, 10), (12, 0xFFFFFFFF)] []) (fun s => Runs 0 0 cSetFeature noRules (ready 4 [(8, 10), (12,
      0xFFFFFFFF)] []) s) ∧
    Meets (given serving 0 5 [(8, 10)] []) (fun s => Runs 0 0 cGetFeature noRules (ready 5 [(8, 10)] []) s ∧ featureReg 10 =
      some 0x120018) ∧
    Meets (given serving 0 6 [(16, 0x5010)] []) (fun s => Runs 0 0 cIdentify noRules (ready 6 [(16, 0x5010)] []) s) := by
  refine ⟨?_, ?_, ?_, ?_, ?_, ?_, ?_, ?_, ?_, ?_, ?_, ?_, ?_, ?_, ?_, ?_, ?_, ?_, ?_, ?_, ?_, ?_, ?_, ?_, ?_, ?_, ?_, ?_⟩ <;> decide +kernel

/-- `Obligations.CounterClears`. -/
theorem meets_counter_clears :
    Meets (on serving fun d => { d.setPort 0 { openPort with accErr := 3, poison := 4 } with
      stl.evictCnt := 4, stl.rejectCnt := [(0, 6)], frs.exhCnt := 5, can.hit := 6, key.unwrapCnt := 7, per.ckptCnt := 8,
      svc.skipCnt := 9, med.ch := [(0, { (default : Channel) with transients := 3, mcmd := 4 })] }) (fun s => CoreServed s ∧
      bit 1 0 = true ∧ bits 1 7 0 ≠ 0) ∧
    Meets (on (on serving fun d => { d.setPort 0 { openPort with accErr := 3, poison := 4 } with
      stl.evictCnt := 4, stl.rejectCnt := [(0, 6)], frs.exhCnt := 5, can.hit := 6, key.unwrapCnt := 7, per.ckptCnt := 8,
      svc.skipCnt := 9, med.ch := [(0, { (default : Channel) with transients := 3, mcmd := 4 })] }) fun d => d) (fun s =>
      CoreServed s ∧ bit 1 0 = true) := by
  refine ⟨?_, ?_⟩ <;> decide +kernel

/-- `Obligations.RegisterWrites`. -/
theorem meets_register_writes :
    Meets (serving) (fun s => CoreServed s ∧ s.dev.up domSafe = true ∧ s.dev.lifecycle ≠ 3 ∧ s.regAt 0x300000 = none ∧ s.regAt
      0x101F0 = none) ∧
    Meets (serving) (fun s => CoreServed s ∧ s.dev.up domSafe = true ∧ s.dev.lifecycle ≠ 3) ∧
    Meets (on serving fun d => { d with mgt.clusterGate := 0x1FF, mgt.clusterIdle := 0x018 }) (fun s => CoreServed s ∧
      s.dev.up domSafe = true ∧ s.dev.lifecycle ≠ 3) ∧
    Meets (on serving fun d => { d with
      qmg.queues := [(1, queueOf .io 0x20000), (2, queueOf .event 0x30000)], mgt.loHeld := [(0x120008 / 4, 0x123)] }) (fun s
      => CoreServed s ∧ s.dev.up domSafe = true ∧ s.dev.lifecycle ≠ 3 ∧ (s.dev.queue 0).st = .none) ∧
    Meets (on serving fun d => { d with
      qmg.queues := [(1, queueOf .io 0x20000), (2, queueOf .event 0x30000)], mgt.loHeld := [(0x120008 / 4, 0x123)] }) (fun s
      => CoreServed s ∧ s.dev.up domSafe = true ∧ s.dev.lifecycle ≠ 3 ∧ (s.dev.queue 0).st = .none ∧ (bits 0x22005 14 13 = 1 ∨
      bits 0x22005 14 13 = 2)) ∧
    Meets (on serving fun d => { d with
      qmg.queues := [(1, queueOf .io 0x20000), (2, queueOf .event 0x30000)], mgt.loHeld := [(0x120008 / 4, 0x123)] }) (fun s
      => CoreServed s ∧ s.dev.up domSafe = true ∧ s.dev.lifecycle ≠ 3 ∧ (s.dev.queue 0).st = .none ∧ (bits 0xF4005 14 13 = 1 ∨
      bits 0xF4005 14 13 = 2)) ∧
    Meets (on serving fun d => { d with
      qmg.queues := [(1, queueOf .io 0x20000), (2, queueOf .event 0x30000)], mgt.loHeld := [(0x120008 / 4, 0x123)] }) (fun s
      => CoreServed s ∧ s.dev.up domSafe = true ∧ s.dev.lifecycle ≠ 3 ∧ (s.dev.queue 0).st = .none ∧ (bits 0x43000 14 13 = 1 ∨
      bits 0x43000 14 13 = 2)) ∧
    Meets (serving) (fun s => CoreServed s ∧ s.dev.up domSafe = true ∧ s.dev.lifecycle ≠ 3 ∧ (s.dev.queue 0).st ≠ .none) ∧
    Meets (on serving fun d => { d with mgt.loHeld := [(0x120020 / 4, 0x123)] }) (fun s => CoreServed s ∧ s.dev.up domSafe =
      true ∧ s.dev.lifecycle ≠ 3 ∧ s.dev.qmg.vecLoading = 0) ∧
    Meets (on serving fun d => { d with qmg.vecLoading := 1 }) (fun s => CoreServed s ∧ s.dev.up domSafe = true ∧
      s.dev.lifecycle ≠ 3 ∧ s.dev.qmg.vecLoading ≠ 0) ∧
    Meets (on serving fun d => { d with
      qmg.vecs := [(9, { (default : Vec) with n := 1, loaded := true, addr := 0x88, data := 5, pend := true, mask := true })]
      }) (fun s => CoreServed s ∧ s.dev.up domSafe = true ∧ s.dev.lifecycle ≠ 3 ∧ (s.dev.vec 9).pend = true ∧ (s.dev.vec
      9).loaded = true ∧ s.dev.mgt.holdoff = false ∧ s.dev.wrRoom = true ∧ (∀ p ∈ s.dev.qmg.vecs, p.1 ≠ 9 → p.2.pend = false))
      ∧
    Meets (on serving fun d => { d with
      qmg.vecs := [(9, { (default : Vec) with n := 1, loaded := true, addr := 0x88, data := 5, pend := true, mask := true })]
      }) (fun s => CoreServed s ∧ s.dev.up domSafe = true ∧ s.dev.lifecycle ≠ 3) ∧
    Meets (on serving fun d => { d with
      stl.cfgIgn := true, rmp.cfgIgn := true, frs.cfgIgn := true, frs.evtLost := true, can.cfgIgn := true, qmg.cfgIgn := true,
      svc.slotOvf := true, svc.evtLost := true, per.cfgIgn := true, per.armFail := true, per.evtLost := true, qmg.fltLost :=
      true, del.evtLost := true }) (fun s => CoreServed s ∧ s.dev.up domSafe = true ∧ s.dev.lifecycle ≠ 3) ∧
    Meets (on serving fun d => { d with
      stl.cfgIgn := true, rmp.cfgIgn := true, frs.cfgIgn := true, frs.evtLost := true, can.cfgIgn := true, qmg.cfgIgn := true,
      svc.slotOvf := true, svc.evtLost := true, per.cfgIgn := true, per.armFail := true, per.evtLost := true, qmg.fltLost :=
      true, del.evtLost := true }) (fun s => CoreServed s ∧ s.dev.up domSafe = true ∧ s.dev.lifecycle ≠ 3 ∧ (∀ n ∈ List.range
      14, Quiet n s)) ∧
    Meets ({ serving with safe.resetCause := 7 }) (fun s => CoreServed s ∧ s.dev.up domSafe = true ∧ s.dev.lifecycle ≠ 3) ∧
    Meets ({ serving with flt.banks := [(7, { (default : Bank) with ovf := true, mask := [0, 40] })] }) (fun s => CoreServed s
      ∧ s.dev.up domSafe = true ∧ s.dev.lifecycle ≠ 3 ∧ s.flt.banks.wf = true ∧ Quiet 7 s) ∧
    Meets ({ serving with flt.banks := [(7, { (default : Bank) with ovf := true, mask := [0, 40] })] }) (fun s => CoreServed s
      ∧ s.dev.up domSafe = true ∧ s.dev.lifecycle ≠ 3 ∧ s.flt.banks.wf = true ∧ Quiet 7 s ∧ 1 < sources 7) ∧
    Meets ({ serving with flt.banks := [(11, { (default : Bank) with ovf := true, mask := [0, 40] })] }) (fun s => CoreServed
      s ∧ s.dev.up domSafe = true ∧ s.dev.lifecycle ≠ 3 ∧ s.flt.banks.wf = true ∧ Quiet 11 s) ∧
    Meets ({ serving with flt.banks := [(11, { (default : Bank) with ovf := true, mask := [0, 40] })] }) (fun s => CoreServed
      s ∧ s.dev.up domSafe = true ∧ s.dev.lifecycle ≠ 3 ∧ s.flt.banks.wf = true ∧ Quiet 11 s ∧ 1 < sources 11) ∧
    Meets (serving) (fun s => CoreServed s ∧ s.dev.up domSafe = true ∧ s.dev.lifecycle ≠ 3 ∧ s.dev.up domHdma = true) ∧
    Meets (on serving fun d => { d with mgt.fuse := [0, 0, 0, 0, 0, 0, 0, 0, 4, 0x12345678, 0] }) (fun s => CoreServed s ∧
      s.dev.up domSafe = true ∧ s.dev.lifecycle = 3) ∧
    Meets (serving) (fun s => CoreServed s ∧ bits (BitVec.ofNat 32 (0 * 2 ^ 13)) 14 13 = 0) ∧
    Meets (on serving fun d => { d with qmg.queues := [] }) (fun s => CoreServed s ∧ (s.dev.queue 0).st = .none) ∧
    Meets (serving) (fun s => CoreServed s ∧ bits (BitVec.ofNat 32 (3 * 2 ^ 13)) 14 13 = 3) := by
  refine ⟨?_, ?_, ?_, ?_, ?_, ?_, ?_, ?_, ?_, ?_, ?_, ?_, ?_, ?_, ?_, ?_, ?_, ?_, ?_, ?_, ?_, ?_, ?_, ?_⟩ <;> decide +kernel

/-- `Obligations.RegisterReads`. -/
theorem meets_register_reads :
    Meets (on serving fun d => { d with can.hit := 0x500000003 }) (fun s => InService s ∧ s.dev.up domReg = true ∧ s.regErr
      0xC0028 = false ∧ (∀ p ∈ s.dev.mgt.hiHeld, p.1 ≠ 0xC0028) ∧ pairLo 0xC0028 = true) ∧
    Meets (on serving fun d => { d with mgt.hiHeld := [(0xC002C, 9)] }) (fun s => s.dev.up domReg = true ∧ s.regErr 0xC002C =
      false ∧ pairLo 0xC002C = false ∧ s.dev.mgt.hiHeld.find? (fun p => p.1 = 0xC002C) = some (0xC002C, 9)) ∧
    Meets (serving) (fun s => InService s ∧ s.dev.up domReg = true ∧ s.regErr 0x300000 = false ∧ (∀ p ∈ s.dev.mgt.hiHeld, p.1
      ≠ 0x300000) ∧ s.regAt 0x300000 = none) := by
  refine ⟨?_, ?_, ?_⟩ <;> decide +kernel

/-- `Obligations.RegAccessBeforeReady`. -/
theorem meets_reg_access_before_ready :
    Meets (on serving fun d => { d with mgt.ready := false }) (fun s => s.safe.active = false ∧ s.dev.up domReg = true ∧
      s.dev.mgt.ready = false) ∧
    Meets (on serving fun d => { d with mgt.ready := false }) (fun s => s.safe.active = false ∧ s.dev.up domReg = true ∧
      s.dev.mgt.ready = false ∧ ∀ k ∈ regDoms 0x10000, s.dev.up k = true) ∧
    Meets (on serving fun d => { d with mgt.ready := false }) (fun s => s.safe.active = false ∧ s.dev.up domReg = true ∧
      s.dev.mgt.ready = false ∧ ∀ k ∈ regDoms 0x18000C, s.dev.up k = true) := by
  refine ⟨?_, ?_, ?_⟩ <;> decide +kernel

/-- `Obligations.FaultRegisterRows`. -/
theorem meets_fault_register_rows :
    Meets ({ serving with
      flt.banks := [(7, { (default : Bank) with first := some ⟨true, false, 1, 0, 5⟩, live := [14] })] }) (fun s => CoreServed
      s ∧ s.flt.banks.wf = true ∧ Quiet 7 s) ∧
    Meets ({ serving with flt.banks := [(7, { (default : Bank) with live := [15] })] }) (fun s => CoreServed s ∧
      s.flt.banks.wf = true ∧ Quiet 7 s ∧ 15 ∈ namedBy 7 0 0x8000 ∧ baseClass 7 15 = 0 ∧ 15 ∉ s.dev.holding 7) ∧
    Meets (serving) (fun s => CoreServed s ∧ s.flt.banks.wf = true ∧ baseClass 7 0 = 1 ∧ 0 / 16 = 0 ∧ 0 < classWords 7) ∧
    Meets ({ serving with flt.banks := [(7, { (default : Bank) with esc := [0] })] }) (fun s => CoreServed s ∧ s.flt.banks.wf
      = true ∧ bits 1 1 0 = baseClass 7 0) ∧
    Meets ({ serving with safe.drillEn := true }) (fun s => CoreServed s ∧ (∀ n ∈ List.range 14, Quiet n s) ∧ 13 ∉
      (s.flt.banks.get 7).live ∧ namedBy 7 0 0x2000 = [13] ∧ (s.flt.banks.get 7).cls 7 13 = 3 ∧ s.drillOn = true ∧ (∀ n ∈
      List.range 14, Quiet n s)) ∧
    Meets (serving) (fun s => CoreServed s ∧ (∀ n ∈ List.range 14, Quiet n s) ∧ 13 ∉ (s.flt.banks.get 7).live ∧ namedBy 7 0
      0x2000 = [13] ∧ (s.flt.banks.get 7).cls 7 13 = 3 ∧ s.drillOn = false) ∧
    Meets (serving) (fun s => CoreServed s ∧ (∀ n ∈ List.range 14, Quiet n s) ∧ 0 ∉ (s.flt.banks.get 7).live ∧ 0 ∉
      (s.flt.banks.get 7).mask ∧ namedBy 7 0 1 = [0] ∧ baseClass 7 0 = 1 ∧ (s.flt.banks.get 7).first = none) ∧
    Meets ({ serving with flt.banks := [(11, { (default : Bank) with first := some ⟨true, false, 1, 0, 5⟩ })] }) (fun s =>
      BankServed 11 s ∧ s.flt.banks.wf = true ∧ Quiet 11 s) ∧
    Meets ({ serving with flt.banks := [(11, { (default : Bank) with live := [15] })] }) (fun s => BankServed 11 s ∧
      s.flt.banks.wf = true ∧ Quiet 11 s ∧ 15 ∈ namedBy 11 0 0x8000 ∧ baseClass 11 15 = 0 ∧ 15 ∉ s.dev.holding 11) ∧
    Meets (serving) (fun s => BankServed 11 s ∧ s.flt.banks.wf = true ∧ (∀ n ∈ List.range 14, Quiet n s) ∧ namedBy 11 0 1 =
      [0] ∧ 0 ∉ (s.flt.banks.get 11).live ∧ (s.flt.banks.get 11).cls 11 0 = 3 ∧ s.drillOn = false) ∧
    Meets ({ serving with safe.drillEn := true }) (fun s => BankServed 11 s ∧ s.flt.banks.wf = true ∧ (∀ n ∈ List.range 14,
      Quiet n s) ∧ namedBy 11 0 1 = [0] ∧ 0 ∉ (s.flt.banks.get 11).live ∧ (s.flt.banks.get 11).cls 11 0 = 3 ∧ s.drillOn =
      true) := by
  refine ⟨?_, ?_, ?_, ?_, ?_, ?_, ?_, ?_, ?_, ?_, ?_⟩
  · decide +kernel
  · decide +kernel
  · decide +kernel
  · decide +kernel
  · exact ⟨by decide +kernel, by and_intros <;> decide +kernel⟩
  · decide +kernel
  · exact ⟨by decide +kernel, by and_intros <;> decide +kernel⟩
  · decide +kernel
  · decide +kernel
  · decide +kernel
  · decide +kernel

/-- `Obligations.SafeState`. -/
theorem meets_safe_state :
    Meets (serving) (fun s => (∀ n ∈ List.range 14, Quiet n s) ∧ 13 < sources 7 ∧ 13 ∉ (s.flt.banks.get 7).live ∧
      s.safe.active = false ∧ s.dev.inReset domCore = false ∧ (s.flt.banks.get 7).cls 7 13 = 3) ∧
    Meets (serving) (fun s => s.safe.active = false ∧ s.dev.inReset domCore = false ∧ (∀ n ∈ List.range 14, Quiet n s) ∧ 0 <
      sources 11 ∧ (s.flt.banks.get 11).cls 11 0 = 3 ∧ 0 ∉ (s.flt.banks.get 11).live) ∧
    Meets
      ({ (on (having serving { access 6 with stage := .lane, pass := .read, linkKey := some 0x1234, winKey := some 0x55 }) fun d => { d with key.drbg.served := 9, key.regs := [(2, some 0x1234)], key.drawn := [⟨1, 2, [3]⟩], tap.kBusy := true, lan.lanes := [(0, { (default : Lane) with st := .active, katRun := true, slots := [(3, keySet ⟨.loaded, 11, 12, 5⟩)], regs := [(1, 9)] })], fab.sessions := [(0, { (default : Session) with rwins := [{ (default : RWin) with tk := tagKey 5 6 }], wdone := [{ (default : WWin) with tk := tagKey 5 6 }], wwin := some { (default : WWin) with tk := tagKey 5 6 } })] }) with
      safe := { Safe.reset with active := true, cls := 1 } }) (fun s => s.safe.active = true ∧ s.safe.zeroised = false) ∧
    Meets ({ serving with safe := { Safe.reset with active := true, cls := 1 } }) (fun s => s.safe.active = true ∧
      s.safe.zeroised = false) ∧
    Meets (on State.reset fun d => { d with
      mgt.domReset := 0x3FFFFFFFFFFFFFF#60, mgt.clkOk := 0x600000000000000#60 ||| domBit domTref, mgt.tref := 1000 }) (fun s
      => s.safe.active = false ∧ (∀ n ∈ List.range 14, Quiet n s) ∧ 59 < sources 13 ∧ (s.flt.banks.get 13).cls 13 59 = 3 ∧ 59
      ∉ (s.flt.banks.get 13).live ∧ s.dev.mgt.phase = .fuse ∧ s.dev.up domTref = true) ∧
    Meets ({ serving with flt.banks := [(13, { (default : Bank) with esc := [60] })] }) (fun s => s.safe.active = false ∧ (∀ n
      ∈ List.range 14, Quiet n s) ∧ 60 < sources 13 ∧ (s.flt.banks.get 13).cls 13 60 = 3 ∧ 60 ∉ (s.flt.banks.get 13).live ∧
      s.dev.inReset domCore = false) ∧
    Meets (serving) (fun s => s.safe.active = false ∧ (58 : BitVec 10).toNat < 59) ∧
    Meets ({ serving with flt.banks := [(13, { (default : Bank) with esc := [0] })] }) (fun s => s.safe.active = false ∧ (0 :
      BitVec 10).toNat < 59) := by
  refine ⟨?_, ?_, ?_, ?_, ?_, ?_, ?_, ?_⟩ <;> decide +kernel

/-- `Obligations.StreamTableRegisters`. -/
theorem meets_stream_table_registers :
    Meets (serving) (fun s => CoreServed s ∧ s.dev.shadowSet = 1 ∧ CoreServed s ∧ bit 2 s.dev.shadowSet = true) ∧
    Meets (serving) (fun s => CoreServed s ∧ s.dev.shadowSet = 1 ∧ bit 2 s.dev.shadowSet = true) ∧
    Meets (serving) (fun s => CoreServed s ∧ s.dev.activeSet = 0 ∧ bit 1 s.dev.activeSet = true) ∧
    Meets (on serving fun d => { d with stl.reject := [(5, 7)] }) (fun s => CoreServed s ∧ bit 1 0 = true) ∧
    Meets (serving) (fun s => CoreServed s ∧ CoreServed s ∧ (s.dev.stlSet 1).tab = [] ∧ s.dev.stl.setA.clearing = false ∧
      s.dev.stl.setB.clearing = false ∧ s.dev.streamBusy 1 = false) ∧
    Meets (serving) (fun s => CoreServed s ∧ (s.dev.stlSet 1).tab = [] ∧ s.dev.stl.setA.clearing = false ∧
      s.dev.stl.setB.clearing = false ∧ s.dev.streamBusy 1 = false) ∧
    Meets (withStream) (fun s => CoreServed s ∧ (s.dev.stlSet 0).tab ≠ []) ∧
    Meets (serving) (fun s => CoreServed s ∧ 1 = s.dev.shadowSet ∧ (s.dev.rmpSet 1).tab = [] ∧ s.dev.rmp.setA.clearing = false
      ∧ s.dev.rmp.setB.clearing = false ∧ s.dev.regionBusy = false ∧ bits 1 1 0 = 1) ∧
    Meets (serving) (fun s => CoreServed s ∧ 0 ≠ s.dev.shadowSet) ∧
    Meets (serving) (fun s => CoreServed s ∧ bits 3 1 0 = 3) ∧
    Meets (on serving fun d => { d with stl.setB := ⟨[(4, some stream)], 3, 1, 2, true⟩ }) (fun s => InService s ∧
      s.dev.oldInFlight = 0 ∧ (s.dev.stlSet s.dev.shadowSet).clearing = true ∧ s.dev.stl.cmds = []) ∧
    Meets (on serving fun d => { d with
      rmp.setB := { tab := [(4, some ⟨0, 1, 0, 1, .mac, false, 0⟩)], stale := [(5, 7)], fmt := 2, clearing := true } }) (fun s
      => InService s ∧ s.dev.oldInFlight = 0 ∧ (s.dev.rmpSet s.dev.shadowSet).clearing = true ∧ s.dev.rmp.cmds = []) ∧
    Meets (on serving fun d => { d with stl.setB.clearing := true }) (fun s => CoreServed s ∧ s.dev.stl.setB.clearing = true)
      ∧
    Meets (on serving fun d => { d with stl.setA.clearing := true }) (fun s => CoreServed s ∧ s.dev.stl.setA.clearing = true)
      ∧
    Meets (on (given serving 1 0x32 [(12, 5), (14, 7), (16, 0x5000)] []) fun d =>
      { d.updExec 1 0 (fun x => { x with st := .writing }) with stl.cmds := [(1, 0, [])] }) (fun s => CoreServed s ∧
      s.dev.streamBusy 0 = true) ∧
    Meets (on serving fun d => { d with rmp.setB.clearing := true }) (fun s => CoreServed s ∧ s.dev.rmp.setB.clearing = true)
      ∧
    Meets (on (given serving 1 0x39 [(16, 0x5000)] []) fun d =>
      { d.updExec 1 0 (fun x => { x with st := .writing }) with rmp.cmds := [(1, 0)] }) (fun s => CoreServed s ∧
      s.dev.regionBusy = true) ∧
    Meets (on serving fun d => { d with rmp.setB.tab := [(4, none), (5, some ⟨0, 1, 0, 1, .mac, false, 0⟩)] }) (fun s =>
      CoreServed s ∧ (s.dev.rmpSet 1).tab ≠ []) := by
  refine ⟨?_, ?_, ?_, ?_, ?_, ?_, ?_, ?_, ?_, ?_, ?_, ?_, ?_, ?_, ?_, ?_, ?_, ?_⟩ <;> decide +kernel

/-- `Obligations.ConfigurationRegisters`. -/
theorem meets_configuration_registers :
    Meets (on serving fun d => { d with frs.zones := [] }) (fun s => s.dev.measuring = false ∧ CoreServed s ∧ (∀ p ∈
      s.dev.frs.zones, p.2.st = .offline) ∧ bits 16 13 0 = 16 ∧ 16 * 2 ^ 33 ≤ s.dev.frs.metaBase ∧ s.dev.frs.metaBase + 16 *
      0x50000000 ≤ 2 ^ 47) ∧
    Meets (on serving fun d => { d with frs.zones := [] }) (fun s => s.dev.measuring = false ∧ CoreServed s ∧ (∀ p ∈
      s.dev.frs.zones, p.2.st = .offline) ∧ bits 0x100 14 0 * 2 ^ 32 + bits (s.dev.mgt.loHeld.get (0xA0000 / 4)) 31 30 * 2 ^
      30 = 2 ^ 40 ∧ s.dev.frs.zoneLimit ≤ 8192 ∧ s.dev.frs.zoneLimit * 2 ^ 33 ≤ 2 ^ 40 ∧ 2 ^ 40 + s.dev.frs.zoneLimit *
      0x50000000 ≤ 2 ^ 47) ∧
    Meets (serving) (fun s => CoreServed s ∧ ∃ p ∈ s.dev.frs.zones, p.2.st ≠ .offline) ∧
    Meets (on serving fun d => { d with can.en := false }) (fun s => CoreServed s ∧ s.dev.can.en = false ∧ s.dev.can.draining
      = false) ∧
    Meets (serving) (fun s => CoreServed s ∧ s.dev.can.en = true) ∧
    Meets (serving) (fun s => CoreServed s ∧ bit 0 0 = false ∧ s.dev.can.en = true ∧ s.dev.can.maint = [] ∧ s.dev.can.lines =
      []) ∧
    Meets (on serving fun d => { d with
      can.lines := [(17, { (default : CanLine) with
      st := .dirty, node := ⟨1, 8, 0⟩, ctr := List.replicate 8 1, written := true })] }) (fun s => CoreServed s ∧ bit 0 0 =
      false ∧ s.dev.can.en = true ∧ s.dev.can.maint = [] ∧ 17 < staging ∧ (s.dev.can.lines.all fun p => p.1 == 17 && p.2.dirty
      && !p.2.stuck) = true ∧ s.dev.can.lines.length = 1) ∧
    Meets (on serving fun d => { d with can.en := false }) (fun s => CoreServed s ∧ bit 1 0 = true ∧ s.dev.can.en = false ∧
      s.dev.can.maint = []) ∧
    Meets (on serving fun d => { d with mgt.loHeld := [(0x160008 / 4, 0x00C00000)] }) (fun s => CoreServed s ∧ s.dev.per.armed
      = false ∧ s.dev.perPhase = 0) ∧
    Meets (on serving fun d => { d with per.armed := true }) (fun s => CoreServed s ∧ s.dev.per.armed = true) ∧
    Meets (serving) (fun s => CoreServed s ∧ s.dev.lifecycle ≠ 0) ∧
    Meets (on serving fun d => { d with mgt.loHeld := [(0x20004, 3)] }) (fun s => CoreServed s ∧ (s.dev.lane 0).st.startable =
      true ∧ bit (s.dev.mgt.loHeld.get 0x20004) 0 = true) ∧
    Meets (on serving fun d => { d with key.drbg.instantiated := false }) (fun s => CoreServed s ∧ bit 1 0 = true ∧
      s.dev.per.armed = false ∧ s.dev.restoring = false ∧ s.dev.key.drbg.instantiated = false) ∧
    Meets (serving) (fun s => CoreServed s ∧ bit 1 0 = true ∧ s.dev.per.armed = false ∧ s.dev.restoring = false ∧
      s.dev.key.drbg.instantiated = true) ∧
    Meets (on serving fun d => { d with per.armed := true }) (fun s => CoreServed s ∧ bit 1 0 = true ∧ s.dev.per.armed = true)
      ∧
    Meets (on serving fun d => { d with frs.zones := [] }) (fun s => CoreServed s ∧ 8192 < bits 8193 13 0) ∧
    Meets (on serving fun d => { d with frs.zones := [], frs.metaBase := 2 ^ 45 }) (fun s => CoreServed s ∧ s.dev.frs.metaBase
      < bits 8192 13 0 * 2 ^ 33 ∨ 2 ^ 47 < s.dev.frs.metaBase + bits 8192 13 0 * 0x50000000) ∧
    Meets (on serving fun d => { d with frs.zones := [] }) (fun s => CoreServed s ∧ bits 0 14 0 * 2 ^ 32 + bits
      (s.dev.mgt.loHeld.get (0xA0000 / 4)) 31 30 * 2 ^ 30 < s.dev.frs.zoneLimit * 2 ^ 33) ∧
    Meets (on serving fun d => { d with can.en := false, can.draining := true }) (fun s => CoreServed s ∧ s.dev.can.draining =
      true) ∧
    Meets (on serving fun d => { d with per.arming := some 9 }) (fun s => CoreServed s ∧ s.dev.per.armed = false ∧
      s.dev.perPhase ≠ 0) ∧
    Meets (on serving fun d => { d with per.restore := some { (default : Restore) with stage := .records } }) (fun s =>
      CoreServed s ∧ bit 1 0 = true ∧ s.dev.restoring = true) ∧
    Meets (on (given serving 1 0x4A [] []) fun d =>
      { d.updExec 1 0 (fun x => { x with st := .writing }) with frs.zones := [] }) (fun s => CoreServed s ∧ s.dev.measuring =
      true) ∧
    Meets (on serving fun d => { d with
      can.lines := [(16, { (default : CanLine) with
      st := .dirty, node := ⟨1, 1, 1⟩, ctr := List.replicate 8 1, written := true }), (33, { (default : CanLine) with
      st := .clean, node := ⟨1, 1, 2⟩, ctr := List.replicate 8 1, written := true }), (50, { (default : CanLine) with
      st := .dirty, node := ⟨1, 1, 3⟩, ctr := List.replicate 8 1, written := true, stuck := true }), (67,
      { (default : CanLine) with
      st := .dirty, node := ⟨1, 1, 4⟩, ctr := List.replicate 8 1, written := true })] }) (fun s => CoreServed s ∧ bit 0 0 =
      false ∧ s.dev.can.en = true ∧ s.dev.can.maint = [] ∧ 67 < staging ∧ (s.dev.can1 67).valid = true ∧ (s.dev.can1 67).dirty
      = true ∧ (s.dev.can1 67).stuck = false) ∧
    Meets (on serving fun d => { d with can.lines := [] }) (fun s => CoreServed s ∧ bit 0 0 = false ∧ s.dev.can.en = true ∧
      s.dev.can.maint = [] ∧ s.dev.can.lines = []) := by
  refine ⟨?_, ?_, ?_, ?_, ?_, ?_, ?_, ?_, ?_, ?_, ?_, ?_, ?_, ?_, ?_, ?_, ?_, ?_, ?_, ?_, ?_, ?_, ?_, ?_⟩ <;> decide +kernel

/-- `Obligations.StreamCommands`. -/
theorem meets_stream_commands :
    Meets (given serving 1 0x30 [(12, 5), (14, 7), (16, 4), (18, 3), (19, 1)] []) (fun s => Runs 1 0 cStreamInsert noRules
      (ready 0x30 [(12, 5), (14, 7), (16, 4), (18, 3), (19, 1)] []) s ∧ s.dev.rmp.swap = none ∧ s.dev.stl.cmds = [] ∧
      s.dev.streamWaits (entry 0x30 [(12, 5), (14, 7), (16, 4), (18, 3), (19, 1)]) = false ∧ fragFlag (entry 0x30 [(12, 5),
      (14, 7), (16, 4), (18, 3), (19, 1)]) = false ∧ s.dev.setNamed (num (entry 0x30 [(12, 5), (14, 7), (16, 4), (18, 3), (19,
      1)]) 8 1) = 0 ∧ s.dev.findStream 0 5 7 = none ∧ ((s.dev.stlSet 0).freeIn ((s.dev.stlSet 0).h0 5 7)).isSome = true) ∧
    Meets (given withStream 1 0x30 [(12, 5), (14, 7), (16, 4), (18, 3), (19, 1)] []) (fun s => s.dev.rmp.swap = none ∧
      s.dev.stl.cmds = [] ∧ s.dev.setNamed (num (entry 0x30 [(12, 5), (14, 7), (16, 4), (18, 3), (19, 1)]) 8 1) = 0 ∧
      s.dev.streamWaits (entry 0x30 [(12, 5), (14, 7), (16, 4), (18, 3), (19, 1)]) = false ∧ Runs 1 0 cStreamInsert noRules
      (ready 0x30 [(12, 5), (14, 7), (16, 4), (18, 3), (19, 1)] []) s ∧ s.dev.streamWaits (entry 0x30 [(12, 5), (14, 7), (16,
      4), (18, 3), (19, 1)]) = false ∧ (s.dev.findStream 0 5 7).isSome = true) ∧
    Meets (given withStream 1 0x31 [(12, 5), (14, 7)] []) (fun s => s.dev.rmp.swap = none ∧ s.dev.stl.cmds = [] ∧
      s.dev.setNamed (num (entry 0x31 [(12, 5), (14, 7)]) 8 1) = 0 ∧ s.dev.streamWaits (entry 0x31 [(12, 5), (14, 7)]) = false
      ∧ Runs 1 0 cStreamRemove noRules (ready 0x31 [(12, 5), (14, 7)] []) s ∧ s.dev.streamWaits (entry 0x31 [(12, 5), (14,
      7)]) = false ∧ (s.dev.findStream 0 5 7).isSome = true) ∧
    Meets (given serving 1 0x31 [(12, 5), (14, 7)] []) (fun s => s.dev.rmp.swap = none ∧ s.dev.stl.cmds = [] ∧ s.dev.setNamed
      (num (entry 0x31 [(12, 5), (14, 7)]) 8 1) = 0 ∧ s.dev.streamWaits (entry 0x31 [(12, 5), (14, 7)]) = false ∧ Runs 1 0
      cStreamRemove noRules (ready 0x31 [(12, 5), (14, 7)] []) s ∧ s.dev.streamWaits (entry 0x31 [(12, 5), (14, 7)]) = false ∧
      s.dev.findStream 0 5 7 = none) ∧
    Meets (given withStream 1 0x32 [(12, 5), (14, 7), (16, 0x5000)] []) (fun s => s.dev.rmp.swap = none ∧ s.dev.stl.cmds = []
      ∧ s.dev.setNamed (num (entry 0x32 [(12, 5), (14, 7), (16, 0x5000)]) 8 1) = 0 ∧ s.dev.streamWaits (entry 0x32 [(12, 5),
      (14, 7), (16, 0x5000)]) = false ∧ Runs 1 0 cStreamQuery noRules (ready 0x32 [(12, 5), (14, 7), (16, 0x5000)] []) s ∧
      s.dev.streamWaits (entry 0x32 [(12, 5), (14, 7), (16, 0x5000)]) = false ∧ ∃ p ∈ s.dev.findStream 0 5 7, p.2 = stream) ∧
    Meets (given serving 1 0x32 [(12, 5), (14, 7), (16, 0x5000)] []) (fun s => s.dev.rmp.swap = none ∧ s.dev.stl.cmds = [] ∧
      s.dev.setNamed (num (entry 0x32 [(12, 5), (14, 7), (16, 0x5000)]) 8 1) = 0 ∧ s.dev.streamWaits (entry 0x32 [(12, 5),
      (14, 7), (16, 0x5000)]) = false ∧ Runs 1 0 cStreamQuery noRules (ready 0x32 [(12, 5), (14, 7), (16, 0x5000)] []) s ∧
      s.dev.findStream 0 5 7 = none) ∧
    Meets (given withStream 1 0x30 [(12, 5), (14, 7), (16, 4), (18, 3), (19, 1)] []) (fun s => Runs 1 0 cStreamInsert noRules
      (ready 0x30 [(12, 5), (14, 7), (16, 4), (18, 3), (19, 1)] []) s ∧ s.dev.rmp.swap = none ∧ s.dev.stl.cmds = [] ∧
      s.dev.streamWaits (entry 0x30 [(12, 5), (14, 7), (16, 4), (18, 3), (19, 1)]) = false ∧ fragFlag (entry 0x30 [(12, 5),
      (14, 7), (16, 4), (18, 3), (19, 1)]) = false ∧ s.dev.setNamed (num (entry 0x30 [(12, 5), (14, 7), (16, 4), (18, 3), (19,
      1)]) 8 1) = 0 ∧ (s.dev.slotErrors 0 (fun _ => true) (elemChk [(0, .slot (BitVec.ofNat 17 (4 * (serving.dev.stlSet 0).h0
      5 7)) true)] 0)).findStream 0 5 7 = none ∧ (((s.dev.slotErrors 0 (fun _ => true) (elemChk [(0, .slot (BitVec.ofNat 17 (4
      * (serving.dev.stlSet 0).h0 5 7)) true)] 0)).stlSet 0).freeIn ((s.dev.stlSet 0).h0 5 7)).isSome = true) ∧
    Meets (on (given serving 1 0x30 [(12, 5), (14, 7), (16, 4), (18, 3), (19, 1)] []) fun d =>
      { d.updExec 1 0 (fun x => { x with st := .running }) with stl.cmds := [(1, 0, [])] }) (fun s => s.dev.setNamed 0 = 0 ∧
      InService s ∧ s.dev.oldInFlight = 0 ∧ s.dev.stl.cmds = [(1, 0, [])] ∧ s.dev.exec1 1 0 =
      some { ready 0x30 [(12, 5), (14, 7), (16, 4), (18, 3), (19, 1)] [] with st := .running } ∧ fragFlag (entry 0x30 [(12,
      5), (14, 7), (16, 4), (18, 3), (19, 1)]) = false ∧ (s.dev.stlSet s.dev.shadowSet).clearing = false ∧ s.dev.rmp.cmds = []
      ∧ s.dev.findStream 0 5 7 = none ∧ ((s.dev.stlSet 0).freeIn ((s.dev.stlSet 0).h0 5 7)).isSome = true) ∧
    Meets (given (on (on serving fun d => { d with seq := 0 }) fun d => filled d false) 1 0x30 [(12, 5), (14, 7), (16, 4),
      (18, 3), (19, 1)] []) (fun s => Runs 1 0 cStreamInsert noRules (ready 0x30 [(12, 5), (14, 7), (16, 4), (18, 3), (19, 1)]
      []) s ∧ s.dev.rmp.swap = none ∧ s.dev.stl.cmds = [] ∧ s.dev.streamWaits (entry 0x30 [(12, 5), (14, 7), (16, 4), (18, 3),
      (19, 1)]) = false ∧ fragFlag (entry 0x30 [(12, 5), (14, 7), (16, 4), (18, 3), (19, 1)]) = false ∧ s.dev.setNamed (num
      (entry 0x30 [(12, 5), (14, 7), (16, 4), (18, 3), (19, 1)]) 8 1) = 0 ∧ s.dev.findStream 0 5 7 = none ∧ (s.dev.stlSet
      0).freeIn ((s.dev.stlSet 0).h0 5 7) = none ∧ (s.dev.stlSet 0).freeIn ((s.dev.stlSet 0).h1 5 7) = none ∧ ((s.dev.stlSet
      0).search s.dev.stl.relocLimit 0 ((s.dev.stlSet 0).h0 5 7) []).isSome = true) ∧
    Meets (given (on (on (on serving fun d => { d with seq := 0 }) fun d => filled d false) filledOn) 1 0x30 [(12, 5), (14,
      7), (16, 4), (18, 3), (19, 1)] []) (fun s => Runs 1 0 cStreamInsert noRules (ready 0x30 [(12, 5), (14, 7), (16, 4), (18,
      3), (19, 1)] []) s ∧ s.dev.rmp.swap = none ∧ s.dev.stl.cmds = [] ∧ s.dev.streamWaits (entry 0x30 [(12, 5), (14, 7), (16,
      4), (18, 3), (19, 1)]) = false ∧ fragFlag (entry 0x30 [(12, 5), (14, 7), (16, 4), (18, 3), (19, 1)]) = false ∧
      s.dev.setNamed (num (entry 0x30 [(12, 5), (14, 7), (16, 4), (18, 3), (19, 1)]) 8 1) = 0 ∧ s.dev.findStream 0 5 7 = none
      ∧ (s.dev.stlSet 0).freeIn ((s.dev.stlSet 0).h0 5 7) = none ∧ (s.dev.stlSet 0).freeIn ((s.dev.stlSet 0).h1 5 7) = none ∧
      ((s.dev.stlSet 0).search s.dev.stl.relocLimit 0 ((s.dev.stlSet 0).h0 5 7) []).isSome = true) ∧
    Meets (given (on (on serving fun d => { d with stl.relocLimit := 0, stl.setA.size := 1 }) fun d => filled d false) 1 0x30
      [(12, 5), (14, 7), (16, 4), (18, 3), (19, 1)] []) (fun s => Runs 1 0 cStreamInsert noRules (ready 0x30 [(12, 5), (14,
      7), (16, 4), (18, 3), (19, 1)] []) s ∧ s.dev.rmp.swap = none ∧ s.dev.stl.cmds = [] ∧ s.dev.streamWaits (entry 0x30 [(12,
      5), (14, 7), (16, 4), (18, 3), (19, 1)]) = false ∧ fragFlag (entry 0x30 [(12, 5), (14, 7), (16, 4), (18, 3), (19, 1)]) =
      false ∧ s.dev.setNamed (num (entry 0x30 [(12, 5), (14, 7), (16, 4), (18, 3), (19, 1)]) 8 1) = 0 ∧ s.dev.findStream 0 5 7
      = none ∧ (s.dev.stlSet 0).freeIn ((s.dev.stlSet 0).h0 5 7) = none ∧ (s.dev.stlSet 0).freeIn ((s.dev.stlSet 0).h1 5 7) =
      none ∧ (s.dev.stlSet 0).search s.dev.stl.relocLimit 0 ((s.dev.stlSet 0).h0 5 7) [] = none ∧ (s.dev.stlSet 0).size.toNat
      < 2 ∧ ((s.dev.stlSet 0).oldestUnlocked 5 7).isSome = true) ∧
    Meets (given (on (on serving fun d => { d with stl.relocLimit := 0, stl.setA.size := 2 }) fun d => filled d false) 1 0x30
      [(12, 5), (14, 7), (16, 4), (18, 3), (19, 1)] []) (fun s => Runs 1 0 cStreamInsert noRules (ready 0x30 [(12, 5), (14,
      7), (16, 4), (18, 3), (19, 1)] []) s ∧ s.dev.rmp.swap = none ∧ s.dev.stl.cmds = [] ∧ s.dev.streamWaits (entry 0x30 [(12,
      5), (14, 7), (16, 4), (18, 3), (19, 1)]) = false ∧ fragFlag (entry 0x30 [(12, 5), (14, 7), (16, 4), (18, 3), (19, 1)]) =
      false ∧ s.dev.setNamed (num (entry 0x30 [(12, 5), (14, 7), (16, 4), (18, 3), (19, 1)]) 8 1) = 0 ∧ s.dev.findStream 0 5 7
      = none ∧ (s.dev.stlSet 0).freeIn ((s.dev.stlSet 0).h0 5 7) = none ∧ (s.dev.stlSet 0).freeIn ((s.dev.stlSet 0).h1 5 7) =
      none ∧ (s.dev.stlSet 0).search s.dev.stl.relocLimit 0 ((s.dev.stlSet 0).h0 5 7) [] = none ∧ 2 ≤ (s.dev.stlSet
      0).size.toNat ∧ s.dev.activeSet = 0) ∧
    Meets (given (on (on serving fun d => { d with stl.relocLimit := 0 }) fun d => filled d true) 1 0x30 [(12, 5), (14, 7),
      (16, 4), (18, 3), (19, 1)] []) (fun s => Runs 1 0 cStreamInsert noRules (ready 0x30 [(12, 5), (14, 7), (16, 4), (18, 3),
      (19, 1)] []) s ∧ s.dev.rmp.swap = none ∧ s.dev.stl.cmds = [] ∧ s.dev.streamWaits (entry 0x30 [(12, 5), (14, 7), (16, 4),
      (18, 3), (19, 1)]) = false ∧ fragFlag (entry 0x30 [(12, 5), (14, 7), (16, 4), (18, 3), (19, 1)]) = false ∧
      s.dev.setNamed (num (entry 0x30 [(12, 5), (14, 7), (16, 4), (18, 3), (19, 1)]) 8 1) = 0 ∧ s.dev.findStream 0 5 7 = none
      ∧ (s.dev.stlSet 0).freeIn ((s.dev.stlSet 0).h0 5 7) = none ∧ (s.dev.stlSet 0).freeIn ((s.dev.stlSet 0).h1 5 7) = none ∧
      (s.dev.stlSet 0).search s.dev.stl.relocLimit 0 ((s.dev.stlSet 0).h0 5 7) [] = none ∧ (s.dev.stlSet 0).oldestUnlocked 5 7
      = none ∧ s.dev.activeSet = 0) := by
  refine ⟨?_, ?_, ?_, ?_, ?_, ?_, ?_, ?_, ?_, ?_, ?_, ?_, ?_⟩ <;> decide +kernel

/-- `Obligations.RegionCommands`. -/
theorem meets_region_commands :
    Meets (given serving 1 0x38 [(8, 9), (16, (0x10 + 0x20 * 2 ^ 32 + 3 * 2 ^ 80 + 2 ^ 96 + 2 ^ 127))] []) (fun s => Ready 1 0
      cRegionWrite (ready 0x38 [(8, 9), (16, (0x10 + 0x20 * 2 ^ 32 + 3 * 2 ^ 80 + 2 ^ 96 + 2 ^ 127))] []) s ∧ s.dev.rmp.swap =
      none ∧ s.dev.rmp.cmds = [] ∧ fragFlag (entry 0x38 [(8, 9), (16, (0x10 + 0x20 * 2 ^ 32 + 3 * 2 ^ 80 + 2 ^ 96 + 2 ^
      127))]) = false ∧ s.dev.regionWaits (entry 0x38 [(8, 9), (16, (0x10 + 0x20 * 2 ^ 32 + 3 * 2 ^ 80 + 2 ^ 96 + 2 ^ 127))])
      = false ∧ num (entry 0x38 [(8, 9), (16, (0x10 + 0x20 * 2 ^ 32 + 3 * 2 ^ 80 + 2 ^ 96 + 2 ^ 127))]) 8 2 = 9 ∧ num (entry
      0x38 [(8, 9), (16, (0x10 + 0x20 * 2 ^ 32 + 3 * 2 ^ 80 + 2 ^ 96 + 2 ^ 127))]) 16 16 = (0x10 + 0x20 * 2 ^ 32 + 3 * 2 ^ 80
      + 2 ^ 96 + 2 ^ 127) ∧ operandBad (entry 0x38 [(8, 9), (16, (0x10 + 0x20 * 2 ^ 32 + 3 * 2 ^ 80 + 2 ^ 96 + 2 ^ 127))])
      (s.dev.regionRules 9 (0x10 + 0x20 * 2 ^ 32 + 3 * 2 ^ 80 + 2 ^ 96 + 2 ^ 127) 16) = none ∧ entryValid (s.dev.rmpSet
      s.dev.shadowSet).fmt.toNat (0x10 + 0x20 * 2 ^ 32 + 3 * 2 ^ 80 + 2 ^ 96 + 2 ^ 127) = true) ∧
    Meets (given (on serving fun d => { d with
      rmp.setB := { tab := [(4, some ⟨0x20, 0x30, 0, 1, .mac, false, 0⟩)], stale := [], fmt := 2, clearing := false } }) 1
      0x38 [(8, 9), (16, (0x10 + 0x20 * 2 ^ 32 + 3 * 2 ^ 80 + 2 ^ 96 + 2 ^ 127))] []) (fun s => Ready 1 0 cRegionWrite (ready
      0x38 [(8, 9), (16, (0x10 + 0x20 * 2 ^ 32 + 3 * 2 ^ 80 + 2 ^ 96 + 2 ^ 127))] []) s ∧ s.dev.rmp.swap = none ∧
      s.dev.rmp.cmds = [] ∧ fragFlag (entry 0x38 [(8, 9), (16, (0x10 + 0x20 * 2 ^ 32 + 3 * 2 ^ 80 + 2 ^ 96 + 2 ^ 127))]) =
      false ∧ s.dev.regionWaits (entry 0x38 [(8, 9), (16, (0x10 + 0x20 * 2 ^ 32 + 3 * 2 ^ 80 + 2 ^ 96 + 2 ^ 127))]) = false ∧
      num (entry 0x38 [(8, 9), (16, (0x10 + 0x20 * 2 ^ 32 + 3 * 2 ^ 80 + 2 ^ 96 + 2 ^ 127))]) 8 2 = 9 ∧ num (entry 0x38 [(8,
      9), (16, (0x10 + 0x20 * 2 ^ 32 + 3 * 2 ^ 80 + 2 ^ 96 + 2 ^ 127))]) 16 16 = (0x10 + 0x20 * 2 ^ 32 + 3 * 2 ^ 80 + 2 ^ 96 +
      2 ^ 127) ∧ operandBad (entry 0x38 [(8, 9), (16, (0x10 + 0x20 * 2 ^ 32 + 3 * 2 ^ 80 + 2 ^ 96 + 2 ^ 127))])
      (s.dev.regionRules 9 (0x10 + 0x20 * 2 ^ 32 + 3 * 2 ^ 80 + 2 ^ 96 + 2 ^ 127) 16) = some 16 ∧ entryValid (s.dev.rmpSet
      s.dev.shadowSet).fmt.toNat (0x10 + 0x20 * 2 ^ 32 + 3 * 2 ^ 80 + 2 ^ 96 + 2 ^ 127) = true ∧ (s.dev.rmpSet
      s.dev.shadowSet).overlapped 9 (0x10 + 0x20 * 2 ^ 32 + 3 * 2 ^ 80 + 2 ^ 96 + 2 ^ 127) = some 4) ∧
    Meets (given serving 1 0x38 [(8, 9), (16, (0x10 + 0x20 * 2 ^ 32 + 3 * 2 ^ 64 + 2 * 2 ^ 80 + 2 ^ 96 + 2 ^ 127))] []) (fun s
      => Ready 1 0 cRegionWrite (ready 0x38 [(8, 9), (16, (0x10 + 0x20 * 2 ^ 32 + 3 * 2 ^ 64 + 2 * 2 ^ 80 + 2 ^ 96 + 2 ^
      127))] []) s ∧ s.dev.rmp.swap = none ∧ s.dev.rmp.cmds = [] ∧ fragFlag (entry 0x38 [(8, 9), (16, (0x10 + 0x20 * 2 ^ 32 +
      3 * 2 ^ 64 + 2 * 2 ^ 80 + 2 ^ 96 + 2 ^ 127))]) = false ∧ s.dev.regionWaits (entry 0x38 [(8, 9), (16, (0x10 + 0x20 * 2 ^
      32 + 3 * 2 ^ 64 + 2 * 2 ^ 80 + 2 ^ 96 + 2 ^ 127))]) = false ∧ num (entry 0x38 [(8, 9), (16, (0x10 + 0x20 * 2 ^ 32 + 3 *
      2 ^ 64 + 2 * 2 ^ 80 + 2 ^ 96 + 2 ^ 127))]) 8 2 = 9 ∧ num (entry 0x38 [(8, 9), (16, (0x10 + 0x20 * 2 ^ 32 + 3 * 2 ^ 64 +
      2 * 2 ^ 80 + 2 ^ 96 + 2 ^ 127))]) 16 16 = (0x10 + 0x20 * 2 ^ 32 + 3 * 2 ^ 64 + 2 * 2 ^ 80 + 2 ^ 96 + 2 ^ 127) ∧
      ((operandBad (entry 0x38 [(8, 9), (16, (0x10 + 0x20 * 2 ^ 32 + 3 * 2 ^ 64 + 2 * 2 ^ 80 + 2 ^ 96 + 2 ^ 127))])
      (s.dev.regionRules 9 (0x10 + 0x20 * 2 ^ 32 + 3 * 2 ^ 64 + 2 * 2 ^ 80 + 2 ^ 96 + 2 ^ 127) 16)).any fun b => b != 16) =
      true) ∧
    Meets (given (on serving fun d => { d with
      rmp.setB := { tab := [(4, some ⟨0x20, 0x30, 0, 1, .mac, false, 0⟩)], stale := [], fmt := 2, clearing := false } }) 1
      0x38 [(8, 4), (16, 7)] []) (fun s => Ready 1 0 cRegionWrite (ready 0x38 [(8, 4), (16, 7)] []) s ∧ s.dev.rmp.swap = none
      ∧ s.dev.rmp.cmds = [] ∧ fragFlag (entry 0x38 [(8, 4), (16, 7)]) = false ∧ s.dev.regionWaits (entry 0x38 [(8, 4), (16,
      7)]) = false ∧ num (entry 0x38 [(8, 4), (16, 7)]) 8 2 = 4 ∧ num (entry 0x38 [(8, 4), (16, 7)]) 16 16 = 7 ∧ operandBad
      (entry 0x38 [(8, 4), (16, 7)]) (s.dev.regionRules 4 7 16) = none ∧ entryValid (s.dev.rmpSet s.dev.shadowSet).fmt.toNat 7
      = false) ∧
    Meets (given serving 1 0x39 [(10, 1), (16, 0x5000)] []) (fun s => Runs 1 0 cRegionRead noRules (ready 0x39 [(10, 1), (16,
      0x5000)] []) s ∧ s.dev.rmp.swap = none ∧ s.dev.rmp.cmds = [] ∧ s.dev.regionWaits (entry 0x39 [(10, 1), (16, 0x5000)]) =
      false ∧ s.dev.setNamed (num (entry 0x39 [(10, 1), (16, 0x5000)]) 8 1) = 0 ∧ num (entry 0x39 [(10, 1), (16, 0x5000)]) 10
      2 = 1) ∧
    Meets (given serving 0 7 [] []) (fun s => Runs 0 0 cSwapConfig noRules (ready 7 [] []) s ∧ s.dev.rmp.swap = none) ∧
    Meets (having (on (given serving 0 7 [] []) fun d => { d.updExec 0 0 (fun x => { x with st := .running }) with
      rmp.swap := some (0, 0), stl.reject := [(1, 2)] }) { access 6 with stage := .parked, inFlight := false, place := none })
      (fun s => s.dev.stl.held = [] ∧ s.dev.rmp.held = [] ∧ InService s ∧ s.dev.rmp.swap = some (0, 0) ∧ s.dev.exec1 0 0 =
      some { ready 7 [] [] with st := .running } ∧ s.dev.swapReady = true ∧ s.dev.ckptHold = false ∧ s.dev.rekeysMatch = true)
      ∧
    Meets (on (on (given serving 0 7 [] []) fun d => { d.updExec 0 0 (fun x => { x with st := .running }) with
      rmp.swap := some (0, 0), stl.reject := [(1, 2)] }) fun d => { d with rmp.rekey := [(0, ⟨.active, 3, 4, 5⟩)] }) (fun s =>
      s.dev.stl.held = [] ∧ s.dev.rmp.held = [] ∧ InService s ∧ s.dev.rmp.swap = some (0, 0) ∧ s.dev.exec1 0 0 =
      some { ready 7 [] [] with st := .running } ∧ s.dev.swapReady = true ∧ s.dev.ckptHold = false ∧ s.dev.rekeysMatch =
      false) ∧
    Meets (on (given serving 1 0x39 [(10, 1), (16, 0x5000)] []) fun d => { d with rmp.swap := some (0, 3) }) (fun s => Runs 1
      0 cRegionRead noRules (ready 0x39 [(10, 1), (16, 0x5000)] []) s ∧ s.dev.rmp.swap.isSome = true ∧ s.dev.rmp.cmds = []) :=
      by
  refine ⟨?_, ?_, ?_, ?_, ?_, ?_, ?_, ?_, ?_⟩ <;> decide +kernel

/-- `Obligations.KeyInstallation`. -/
theorem meets_key_installation :
    Meets (given serving 1 0x20 [(8, 7), (16, 0x5000)] (leBytes 80
      1194918312878580816244785864027796356645626606623072510886634960009757344834807317841824555402706412141344188012054978158439211003233728297597432511719822460643832726358900126642940479677203340))
      (fun s => (s.dev.key.keks.get 0).key = 21 ∧ Runs 1 0 cKeyInstall noRules (ready 0x20 [(8, 7), (16, 0x5000)] (leBytes 80
      1194918312878580816244785864027796356645626606623072510886634960009757344834807317841824555402706412141344188012054978158439211003233728297597432511719822460643832726358900126642940479677203340))
      s ∧ (s.dev.keyArrives 1 0).key.cmds.head? = some (1, 0) ∧ fragFlag (entry 0x20 [(8, 7), (16, 0x5000)]) = false ∧ num
      (entry 0x20 [(8, 7), (16, 0x5000)]) 8 2 = 7 ∧ (s.dev.key.keks.get 0).loaded = true ∧ (s.dev.key.keks.get 0).transport =
      false ∧ (s.dev.key.slots.get 7).st = .empty ∧ unwrapBlob 21 1 68 (slice (leBytes 80
      1194918312878580816244785864027796356645626606623072510886634960009757344834807317841824555402706412141344188012054978158439211003233728297597432511719822460643832726358900126642940479677203340)
      0 80) = .ok ([1, 1, 9, 0] ++ leBytes 32 5 ++ leBytes 32 6) ∧ field ([1, 1, 9, 0] ++ leBytes 32 5 ++ leBytes 32 6) 3 1 =
      0) ∧
    Meets (given serving 1 0x20 [(8, 7), (16, 0x5000)] (leBytes 80 5)) (fun s => (s.dev.keyArrives 1 0).key.cmds.head? = some
      (1, 0) ∧ fragFlag (entry 0x20 [(8, 7), (16, 0x5000)]) = false ∧ num (entry 0x20 [(8, 7), (16, 0x5000)]) 8 2 = 7 ∧
      s.dev.key.keks.get 0 = ⟨true, 21, false, false, []⟩ ∧ (s.dev.key.slots.get 7).st = .empty ∧ Runs 1 0 cKeyInstall noRules
      (ready 0x20 [(8, 7), (16, 0x5000)] (leBytes 80 5)) s ∧ keyUnwrap 21 (slice (leBytes 80 5) 0 80) = none) ∧
    Meets (given serving 1 0x20 [(8, 7), (16, 0x5000)] (leBytes 80
      1194918312878580816244785864027796356645626606623072510886634960009757344834807317841824555402706412141344188012054978158439211003233728297597432511719822460643832726358900126642940479677203340))
      (fun s => Runs 1 0 cKeyInstall noRules (ready 0x20 [(8, 7), (16, 0x5000)] (leBytes 80
      1194918312878580816244785864027796356645626606623072510886634960009757344834807317841824555402706412141344188012054978158439211003233728297597432511719822460643832726358900126642940479677203340))
      s ∧ (s.dev.keyArrives 1 0).key.cmds.head? = some (1, 0) ∧ fragFlag (entry 0x20 [(8, 7), (16, 0x5000)]) = false ∧ num
      (entry 0x20 [(8, 7), (16, 0x5000)]) 10 1 = 0 ∧ s.dev.svc.cmds = []) ∧
    Meets (given serving 1 0x21 [(8, 7), (11, 9), (16, 0x5000)] []) (fun s => Runs 1 0 cKeyGenerate noRules (ready 0x21 [(8,
      7), (11, 9), (16, 0x5000)] []) s ∧ Draws s ∧ (s.dev.keyArrives 1 0).key.cmds.head? = some (1, 0) ∧ (s.dev.key.keks.get
      (num (entry 0x21 [(8, 7), (11, 9), (16, 0x5000)]) 10 1)).loaded = true ∧ (s.dev.key.keks.get 0).transport = false ∧
      (s.dev.key.slots.get (num (entry 0x21 [(8, 7), (11, 9), (16, 0x5000)]) 8 2)).st = .empty) ∧
    Meets (given serving 1 0x23 [(8, 5), (10, 1), (12, 77)] []) (fun s => Runs 1 0 cKekLoad noRules (ready 0x23 [(8, 5), (10,
      1), (12, 77)] []) s ∧ num (entry 0x23 [(8, 5), (10, 1), (12, 77)]) 9 1 = 0 ∧ num (entry 0x23 [(8, 5), (10, 1), (12,
      77)]) 8 1 = 5 ∧ (s.dev.key.keks.get 5).loaded = false ∧ (s.dev.keyArrives 1 0).key.cmds.head? = some (1, 0)) ∧
    Meets (given serving 1 0x23 [(8, 5), (9, 1), (11, 0), (16, 0x5000)] (leBytes 48
      18910809793483897988900832205673138841635158190952110485660190586694147002321641544426320666141954917332464018043740))
      (fun s => (s.dev.key.keks.get 0).key = 21 ∧ Runs 1 0 cKekLoad noRules (ready 0x23 [(8, 5), (9, 1), (11, 0), (16,
      0x5000)] (leBytes 48
      18910809793483897988900832205673138841635158190952110485660190586694147002321641544426320666141954917332464018043740)) s
      ∧ num (entry 0x23 [(8, 5), (9, 1), (11, 0), (16, 0x5000)]) 9 1 = 1 ∧ num (entry 0x23 [(8, 5), (9, 1), (11, 0), (16,
      0x5000)]) 8 1 = 5 ∧ (s.dev.key.keks.get 5).loaded = false ∧ (s.dev.keyArrives 1 0).key.cmds.head? = some (1, 0) ∧
      (s.dev.key.keks.get (num (entry 0x23 [(8, 5), (9, 1), (11, 0), (16, 0x5000)]) 11 1)).loaded = true ∧ (s.dev.key.keks.get
      0).transport = false ∧ unwrapBlob 21 3 36 (slice (leBytes 48
      18910809793483897988900832205673138841635158190952110485660190586694147002321641544426320666141954917332464018043740) 0
      48) = .ok ([3, 1, 1, 0] ++ leBytes 32 5) ∧ field ([3, 1, 1, 0] ++ leBytes 32 5) 2 1 ≤ 1 ∧ field ([3, 1, 1, 0] ++ leBytes
      32 5) 3 1 = 0) ∧
    Meets (given (on serving fun d => { d with fab.sessions := [(6, { (default : Session) with rxFailed := true })] }) 1 0x24
      [(8, 6), (10, 0), (11, 1), (16, 0x5000)] (leBytes 48
      18644334456419941931589541494400198222038346105977042404876586752596175594574610964184550797160828764986690469773599))
      (fun s => (s.dev.keyArrives 1 0).key.cmds.head? = some (1, 0) ∧ s.dev.key.keks.get 0 = ⟨true, 21, false, false, []⟩ ∧
      Runs 1 0 cSessionKey noRules (ready 0x24 [(8, 6), (10, 0), (11, 1), (16, 0x5000)] (leBytes 48
      18644334456419941931589541494400198222038346105977042404876586752596175594574610964184550797160828764986690469773599)) s
      ∧ num (entry 0x24 [(8, 6), (10, 0), (11, 1), (16, 0x5000)]) 8 2 = 6 ∧ num (entry 0x24 [(8, 6), (10, 0), (11, 1), (16,
      0x5000)]) 10 1 = 0 ∧ num (entry 0x24 [(8, 6), (10, 0), (11, 1), (16, 0x5000)]) 11 1 = 1 ∧ (s.dev.key.keks.get (num
      (entry 0x24 [(8, 6), (10, 0), (11, 1), (16, 0x5000)]) 12 1)).loaded = true ∧ (s.dev.key.keks.get 0).transport = false ∧
      s.dev.regNamed 6 0 1 = false ∧ unwrapBlob 21 2 36 (slice (leBytes 48
      18644334456419941931589541494400198222038346105977042404876586752596175594574610964184550797160828764986690469773599) 0
      48) = .ok ([2, 1, 6, 0] ++ leBytes 32 5) ∧ field ([2, 1, 6, 0] ++ leBytes 32 5) 2 1 = 6 ∧ field ([2, 1, 6, 0] ++ leBytes
      32 5) 3 1 = 0) ∧
    Meets (given serving 1 0x4A [(8, 77), (40, 0x503F)] []) (fun s => s.dev.rmp.held = [] ∧ s.dev.restoreRuns = false ∧ Runs 1
      0 cMeasure noRules (ready 0x4A [(8, 77), (40, 0x503F)] []) s ∧ (s.dev.keyArrives 1 0).key.cmds.head? = some (1, 0) ∧
      s.dev.rmp.swap = none ∧ s.dev.stl.cmds = [] ∧ s.dev.rmp.cmds = []) := by
  refine ⟨?_, ?_, ?_, ?_, ?_, ?_, ?_, ?_⟩ <;> decide +kernel

/-- `Obligations.KeyDestruction`. -/
theorem meets_key_destruction :
    Meets (given serving 1 0x22 [(8, 0), (10, 4)] []) (fun s => Runs 1 0 cKeyDestroy noRules (ready 0x22 [(8, 0), (10, 4)] [])
      s ∧ (s.dev.keyArrives 1 0).key.cmds.head? = some (1, 0) ∧ num (entry 0x22 [(8, 0), (10, 4)]) 8 1 = 0 ∧ num (entry 0x22
      [(8, 0), (10, 4)]) 10 2 = 4 ∧ s.dev.destroyBad (entry 0x22 [(8, 0), (10, 4)]) = none ∧ (s.dev.key.slots.get 4).st =
      .loaded) ∧
    Meets (on (given serving 1 0x22 [(8, 0), (10, 4)] []) fun d => { d with
      key.destroys := [⟨1, 0, .slot 4, false⟩], key.slots := d.key.slots.put 4 ⟨.draining, 13, 14, 6⟩ }) (fun s => InService s
      ∧ s.dev.destroy1 1 0 = some ⟨1, 0, .slot 4, false⟩ ∧ s.dev.slotUsed 4 = false) ∧
    Meets (on (given serving 1 0x22 [(8, 0), (10, 4)] []) fun d => { d with
      key.destroys := [⟨1, 0, .slot 4, true⟩], key.slots := d.key.slots.put 4 ⟨.draining, 0, 0, 0⟩ }) (fun s => InService s ∧
      s.dev.destroy1 1 0 = some ⟨1, 0, .slot 4, true⟩ ∧ s.dev.exec1 1 0 = some (ready 0x22 [(8, 0), (10, 4)] []) ∧ (ready 0x22
      [(8, 0), (10, 4)] []).discard = false) ∧
    Meets (on (given serving 1 0x22 [(8, 0), (10, 4)] []) fun d => { d with
      key.destroys := [⟨1, 0, .slot 4, true⟩], key.slots := d.key.slots.put 4 ⟨.draining, 0, 0, 0⟩ }) (fun s => InService s ∧
      s.dev.up domCore = true ∧ s.dev.destroy1 1 0 = some ⟨1, 0, .slot 4, true⟩ ∧ 14 ∉ (s.flt.banks.get bKey).live) := by
  refine ⟨?_, ?_, ?_, ?_⟩ <;> decide +kernel

/-- `Obligations.RandomBits`. -/
theorem meets_random_bits :
    Meets (on serving fun d => { d with key.ent := [(0, ⟨.startup, 0, 0⟩)] }) (fun s => s.safe.active = false ∧ s.dev.up
      (domEnt 0) = true ∧ s.dev.up domCore = true ∧ (s.dev.ent 0).st = .startup ∧ rctFails (sampleBits (List.replicate 128
      0x55)) = false ∧ aptFails (sampleBits (List.replicate 128 0x55)) = false) ∧
    Meets (on serving fun d => { d with key.ent := [(0, ⟨.startup, 0, 0⟩)] }) (fun s => s.safe.active = false ∧ s.dev.up
      (domEnt 0) = true ∧ s.dev.up domCore = true ∧ (s.dev.ent 0).st = .startup ∧ rctFails (sampleBits (List.replicate 128 0))
      = true) ∧
    Meets (on serving fun d => { d with key.ent := [(0, ⟨.ok, 0, 0⟩)] }) (fun s => s.safe.active = false ∧ s.dev.up (domEnt 0)
      = true ∧ s.dev.up domCore = true ∧ (s.dev.ent 0).st = .ok ∧ rctFails (sampleBits (List.replicate 128 0)) = true) ∧
    Meets (on serving fun d => { d with
      key.drbg := { (default : Drbg) with st := .instantiating }, mgt.phase := .drbg, mgt.ready := false }) (fun s =>
      s.safe.active = false ∧ s.dev.up domCore = true ∧ s.dev.key.drbg.st = .instantiating ∧ s.dev.sourceOk = true ∧
      (s.dev.collected (List.replicate 128 0x55)).2 = true ∧ s.dev.key.lfsrWait = false ∧ s.dev.per.armHeld = false ∧
      s.dev.per.restore = none ∧ s.dev.mgt.phase = .drbg) ∧
    Meets (on serving fun d => { d with key.reseedNow := true }) (fun s => InService s ∧ s.dev.sourceOk = true ∧
      (s.dev.collected (List.replicate 128 0x55)).2 = true ∧ s.dev.key.drbg.instantiated = true ∧ s.dev.key.lfsrWait = false ∧
      s.dev.key.drbg.st = .ready ∧ s.dev.reseedDue = true) ∧
    Meets (on serving fun d => { d with key.drbg.st := .error }) (fun s => s.dev.key.drbg.instantiated = true ∧
      s.dev.key.lfsrWait = false ∧ InService s ∧ s.dev.sourceOk = true ∧ (s.dev.collected (List.replicate 128 0x55)).2 = true
      ∧ s.dev.key.drbg.st = .error) ∧
    Meets (serving) (fun s => CoreServed s ∧ bit 1 0 = true) ∧
    Meets (serving) (fun s => CoreServed s ∧ bit 1 0 = true ∧ Draws s) ∧
    Meets (serving) (fun s => CoreServed s ∧ bit 0xFE 0 = false) ∧
    Meets (on serving fun d => { d with key.entEn := 0xFE }) (fun s => CoreServed s ∧ bit 0xFF 0 = true ∧
      s.dev.key.entEn.getLsbD 0 = false ∧ s.dev.up (domEnt 0) = true) := by
  refine ⟨?_, ?_, ?_, ?_, ?_, ?_, ?_, ?_, ?_, ?_⟩ <;> decide +kernel

/-- `Obligations.RekeyCommands`. -/
theorem meets_rekey_commands :
    Meets (given serving 1 0x40 [(8, 0), (10, 3), (12, 4), (14, 7)] []) (fun s => Runs 1 0 cRekeyStart noRules (ready 0x40
      [(8, 0), (10, 3), (12, 4), (14, 7)] []) s ∧ s.dev.ckptHold = false ∧ s.dev.measuring = false ∧ (s.dev.rmpSet
      s.dev.activeSet).tab.get 0 = some ⟨0, 4095, 0, 0xFFFF, .mac, false, 0⟩ ∧ s.dev.slotLoaded 4 = true ∧ (s.dev.rekey 0).st
      = .idle) ∧
    Meets (given (on serving fun d => { d with rmp.rekey := [(0, ⟨.done, 3, 4, 5⟩)] }) 1 0x40 [(8, 0), (10, 3), (12, 4), (14,
      7)] []) (fun s => (s.dev.rmpSet s.dev.activeSet).tab.get 0 = some ⟨0, 4095, 0, 0xFFFF, .mac, false, 0⟩ ∧
      s.dev.slotLoaded 4 = true ∧ Runs 1 0 cRekeyStart noRules (ready 0x40 [(8, 0), (10, 3), (12, 4), (14, 7)] []) s ∧
      s.dev.ckptHold = false ∧ s.dev.measuring = false ∧ (s.dev.rekey 0).st ≠ .idle) ∧
    Meets (given serving 1 0x40 [(8, 9), (10, 3), (12, 4), (14, 7)] []) (fun s => Runs 1 0 cRekeyStart noRules (ready 0x40
      [(8, 9), (10, 3), (12, 4), (14, 7)] []) s ∧ s.dev.ckptHold = false ∧ s.dev.measuring = false ∧ (s.dev.rmpSet
      s.dev.activeSet).tab.get 9 = none) ∧
    Meets (given (on serving fun d => { d with rmp.rekey := [(0, ⟨.active, 3, 4, 5⟩)] }) 1 0x41 [(8, 0)] []) (fun s => Runs 1
      0 cRekeyAbort noRules (ready 0x41 [(8, 0)] []) s ∧ s.dev.ckptHold = false ∧ s.dev.measuring = false ∧
      (s.dev.svc.fronts.get 0).busy = false ∧ ((s.dev.rmpSet s.dev.activeSet).tab.get 0).isSome = true ∧ (s.dev.rekey 0).st =
      .active ∧ s.dev.svc.cmds = []) ∧
    Meets (on (given (on serving fun d => { d with
      rmp.rekey := [(0, ⟨.active, 3, 4, 5⟩)], svc.cmds := [{
      q := 0, pos := 3, kind := .transcode, base := 2, units := 4, slotA := 3, slotB := 4, kek := 1, nodesOnly := false,
      running := true, next := 1, prog := 1, salt := [], ending := none, region := 0, slots := [], slotRegion := none, buf :=
      [], fetch := none : SCmd }] }) 1 0x41 [(8, 0)] []) fun d => d.updQueue 0 fun x =>
      { x with exec := [{ (default : Exec) with pos := 3, entry := entry 0x46 [], st := .running }] }) (fun s => Runs 1 0
      cRekeyAbort noRules (ready 0x41 [(8, 0)] []) s ∧ s.dev.ckptHold = false ∧ s.dev.measuring = false ∧
      (s.dev.svc.fronts.get 0).busy = false ∧ (s.dev.rmpSet s.dev.activeSet).tab.get 0 = some ⟨0, 4095, 0, 0xFFFF, .mac,
      false, 0⟩ ∧ (s.dev.rekey 0).st = .active ∧ s.dev.svc.cmds = [{
      q := 0, pos := 3, kind := .transcode, base := 2, units := 4, slotA := 3, slotB := 4, kek := 1, nodesOnly := false,
      running := true, next := 1, prog := 1, salt := [], ending := none, region := 0, slots := [], slotRegion := none, buf :=
      [], fetch := none : SCmd }] ∧ 2 < (⟨0, 4095, 0, 0xFFFF, .mac, false, 0⟩ : RegionCfg).hi ∧ (⟨0, 4095, 0, 0xFFFF, .mac,
      false, 0⟩ : RegionCfg).lo < 6 ∧ s.dev.cmdWhole {
      q := 0, pos := 3, kind := .transcode, base := 2, units := 4, slotA := 3, slotB := 4, kek := 1, nodesOnly := false,
      running := true, next := 1, prog := 1, salt := [], ending := none, region := 0, slots := [], slotRegion := none, buf :=
      [], fetch := none : SCmd } = [] ∧ s.dev.svc.steps = [] ∧ ((s.dev.exec1 0 3).any fun y => !y.discard) = true) := by
  refine ⟨?_, ?_, ?_, ?_, ?_⟩ <;> decide +kernel

/-- `Obligations.ServiceCommands`. -/
theorem meets_service_commands :
    Meets (given (serving) 1 0x42 [(8, 3), (16, 8192), (24, 8192)] []) (fun s => Runs 1 0 cSanitize svcRules (ready 0x42 [(8,
      3), (16, 8192), (24, 8192)] []) s ∧ s.dev.ckptHold = false ∧ s.dev.measuring = false ∧ s.dev.mgt.pfWarn = false ∧
      (s.dev.svcBad (entry 0x42 [(8, 3), (16, 8192), (24, 8192)]) ((s.dev.regionOf 2).any (fun r => r.2.mode == .full)) 2 2) =
      none ∧ ((s.dev.regionOf 2).any (fun r => r.2.mode == .full)) = false) ∧
    Meets (given (serving) 1 0x43 [(16, 8192), (24, 8192)] []) (fun s => Runs 1 0 cScrub svcRules (ready 0x43 [(16, 8192),
      (24, 8192)] []) s ∧ s.dev.ckptHold = false ∧ s.dev.measuring = false ∧ s.dev.mgt.pfWarn = false ∧ (s.dev.svcBad (entry
      0x43 [(16, 8192), (24, 8192)]) ((s.dev.regionOf 2).any (fun r => r.2.mode == .full)) 2 2) = none) ∧
    Meets (given (serving) 1 0x46 [(8, 3), (10, 4), (16, 8192), (24, 8192)] []) (fun s => Runs 1 0 cTranscode svcRules (ready
      0x46 [(8, 3), (10, 4), (16, 8192), (24, 8192)] []) s ∧ s.dev.ckptHold = false ∧ s.dev.measuring = false ∧
      s.dev.mgt.pfWarn = false ∧ (s.dev.svcBad (entry 0x46 [(8, 3), (10, 4), (16, 8192), (24, 8192)]) ((s.dev.regionOf 2).any
      (fun r => r.2.mode == .full)) 2 2) = none) ∧
    Meets (given (serving) 1 0x44 [(8, 3), (12, 1), (16, 8192), (24, 8192), (40, 0x5000)] []) (fun s => Runs 1 0 cSeal
      svcRules (ready 0x44 [(8, 3), (12, 1), (16, 8192), (24, 8192), (40, 0x5000)] []) s ∧ s.dev.ckptHold = false ∧
      s.dev.measuring = false ∧ s.dev.mgt.pfWarn = false ∧ (s.dev.svcBad (entry 0x44 [(8, 3), (12, 1), (16, 8192), (24, 8192),
      (40, 0x5000)]) ((s.dev.regionOf 2).any (fun r => r.2.mode == .full)) 2 2) = none ∧ Draws s) ∧
    Meets (given (serving) 1 0x45 [(8, 3), (12, 1), (16, 8192), (24, 8192), (40, 0x5000)] []) (fun s => Runs 1 0 cUnseal
      svcRules (ready 0x45 [(8, 3), (12, 1), (16, 8192), (24, 8192), (40, 0x5000)] []) s ∧ s.dev.ckptHold = false ∧
      s.dev.measuring = false ∧ s.dev.mgt.pfWarn = false ∧ (s.dev.svcBad (entry 0x45 [(8, 3), (12, 1), (16, 8192), (24, 8192),
      (40, 0x5000)]) ((s.dev.regionOf 2).any (fun r => r.2.mode == .full)) 2 2) = none ∧ s.dev.key.drbg.st = .ready) ∧
    Meets (given (serving) 1 0x42 [(8, 99), (16, 8192), (24, 8192)] []) (fun s => Runs 1 0 cSanitize svcRules (ready 0x42 [(8,
      99), (16, 8192), (24, 8192)] []) s ∧ s.dev.ckptHold = false ∧ s.dev.measuring = false ∧ s.dev.mgt.pfWarn = false ∧
      s.dev.svcBad (entry 0x42 [(8, 99), (16, 8192), (24, 8192)]) false 2 2 = some .notFound) ∧
    Meets (on serving fun d => { d with
      svc.cmds := [{
      q := 1, pos := 0, kind := .scrub, base := 2, units := 4, slotA := 3, slotB := 4, kek := 1, nodesOnly := false,
      running := false, next := 0, prog := 0, salt := [], ending := none, region := 0, slots := [], slotRegion := none, buf :=
      [], fetch := none : SCmd }] }) (fun s => (s.dev.svc.cmds.find? fun c => !c.running).all (fun c => (s.dev.startBad
      c).isNone) = true ∧ InService s ∧ s.dev.svc.cmds.find? (fun c => !c.running) = some {
      q := 1, pos := 0, kind := .scrub, base := 2, units := 4, slotA := 3, slotB := 4, kek := 1, nodesOnly := false,
      running := false, next := 0, prog := 0, salt := [], ending := none, region := 0, slots := [], slotRegion := none, buf :=
      [], fetch := none : SCmd } ∧ s.dev.runningCmds < 4) ∧
    Meets (on (given serving 1 0x44 [] []) fun d => { d.updExec 1 0 (fun x => { x with st := .running }) with
      svc.cmds := [{
      q := 1, pos := 0, kind := .seal, base := 2, units := 4, slotA := 3, slotB := 4, kek := 7, nodesOnly := false, running :=
      false, next := 0, prog := 0, salt := [], ending := none, region := 0, slots := [], slotRegion := none, buf := [],
      fetch := none : SCmd }] }) (fun s => InService s ∧ s.dev.svc.cmds.find? (fun c => !c.running) = some {
      q := 1, pos := 0, kind := .seal, base := 2, units := 4, slotA := 3, slotB := 4, kek := 7, nodesOnly := false, running :=
      false, next := 0, prog := 0, salt := [], ending := none, region := 0, slots := [], slotRegion := none, buf := [],
      fetch := none : SCmd } ∧ s.dev.runningCmds < 4 ∧ s.dev.startBad {
      q := 1, pos := 0, kind := .seal, base := 2, units := 4, slotA := 3, slotB := 4, kek := 7, nodesOnly := false, running :=
      false, next := 0, prog := 0, salt := [], ending := none, region := 0, slots := [], slotRegion := none, buf := [],
      fetch := none : SCmd } = some .notFound ∧ s.dev.scmd 1 0 = some {
      q := 1, pos := 0, kind := .seal, base := 2, units := 4, slotA := 3, slotB := 4, kek := 7, nodesOnly := false, running :=
      false, next := 0, prog := 0, salt := [], ending := none, region := 0, slots := [], slotRegion := none, buf := [],
      fetch := none : SCmd } ∧ s.dev.cmdWhole {
      q := 1, pos := 0, kind := .seal, base := 2, units := 4, slotA := 3, slotB := 4, kek := 7, nodesOnly := false, running :=
      false, next := 0, prog := 0, salt := [], ending := none, region := 0, slots := [], slotRegion := none, buf := [],
      fetch := none : SCmd } = [] ∧ s.dev.svc.steps = [] ∧ s.dev.exec1 1 0 = some { ready 0x44 [] [] with st := .running }) ∧
    Meets (on (given serving 1 0x44 [] []) fun d => { d.updExec 1 0 (fun x => { x with st := .running }) with
      svc.cmds := [{
      q := 1, pos := 0, kind := .unseal, base := 2, units := 4, slotA := 3, slotB := 4, kek := 7, nodesOnly := false,
      running := false, next := 0, prog := 0, salt := [], ending := none, region := 0, slots := [], slotRegion := none, buf :=
      [], fetch := none : SCmd }] }) (fun s => InService s ∧ s.dev.svc.cmds.find? (fun c => !c.running) = some {
      q := 1, pos := 0, kind := .unseal, base := 2, units := 4, slotA := 3, slotB := 4, kek := 7, nodesOnly := false,
      running := false, next := 0, prog := 0, salt := [], ending := none, region := 0, slots := [], slotRegion := none, buf :=
      [], fetch := none : SCmd } ∧ s.dev.runningCmds < 4 ∧ s.dev.startBad {
      q := 1, pos := 0, kind := .unseal, base := 2, units := 4, slotA := 3, slotB := 4, kek := 7, nodesOnly := false,
      running := false, next := 0, prog := 0, salt := [], ending := none, region := 0, slots := [], slotRegion := none, buf :=
      [], fetch := none : SCmd } = some .notFound ∧ s.dev.scmd 1 0 = some {
      q := 1, pos := 0, kind := .unseal, base := 2, units := 4, slotA := 3, slotB := 4, kek := 7, nodesOnly := false,
      running := false, next := 0, prog := 0, salt := [], ending := none, region := 0, slots := [], slotRegion := none, buf :=
      [], fetch := none : SCmd } ∧ s.dev.cmdWhole {
      q := 1, pos := 0, kind := .unseal, base := 2, units := 4, slotA := 3, slotB := 4, kek := 7, nodesOnly := false,
      running := false, next := 0, prog := 0, salt := [], ending := none, region := 0, slots := [], slotRegion := none, buf :=
      [], fetch := none : SCmd } = [] ∧ s.dev.svc.steps = [] ∧ s.dev.exec1 1 0 =
      some { ready 0x44 [] [] with st := .running }) ∧
    Meets (on (given serving 1 0x44 [] []) fun d => { d.updExec 1 0 (fun x => { x with st := .running }) with
      svc.cmds := [{
      q := 1, pos := 0, kind := .seal, base := 2, units := 4, slotA := 3, slotB := 4, kek := 0, nodesOnly := false, running :=
      false, next := 0, prog := 0, salt := [], ending := none, region := 0, slots := [], slotRegion := none, buf := [],
      fetch := none : SCmd }] }) (fun s => InService s ∧ s.dev.svc.cmds.find? (fun c => !c.running) = some {
      q := 1, pos := 0, kind := .seal, base := 2, units := 4, slotA := 3, slotB := 4, kek := 0, nodesOnly := false, running :=
      false, next := 0, prog := 0, salt := [], ending := none, region := 0, slots := [], slotRegion := none, buf := [],
      fetch := none : SCmd } ∧ s.dev.runningCmds < 4 ∧ s.dev.startBad {
      q := 1, pos := 0, kind := .seal, base := 2, units := 4, slotA := 3, slotB := 4, kek := 0, nodesOnly := false, running :=
      false, next := 0, prog := 0, salt := [], ending := none, region := 0, slots := [], slotRegion := none, buf := [],
      fetch := none : SCmd } = some (Cpl.invalid 0 12) ∧ s.dev.scmd 1 0 = some {
      q := 1, pos := 0, kind := .seal, base := 2, units := 4, slotA := 3, slotB := 4, kek := 0, nodesOnly := false, running :=
      false, next := 0, prog := 0, salt := [], ending := none, region := 0, slots := [], slotRegion := none, buf := [],
      fetch := none : SCmd } ∧ s.dev.cmdWhole {
      q := 1, pos := 0, kind := .seal, base := 2, units := 4, slotA := 3, slotB := 4, kek := 0, nodesOnly := false, running :=
      false, next := 0, prog := 0, salt := [], ending := none, region := 0, slots := [], slotRegion := none, buf := [],
      fetch := none : SCmd } = [] ∧ s.dev.svc.steps = [] ∧ s.dev.exec1 1 0 = some { ready 0x44 [] [] with st := .running }) ∧
    Meets (on (given serving 1 0x44 [] []) fun d => { d.updExec 1 0 (fun x => { x with st := .running }) with
      svc.cmds := [{
      q := 1, pos := 0, kind := .unseal, base := 2, units := 4, slotA := 3, slotB := 4, kek := 0, nodesOnly := false,
      running := false, next := 0, prog := 0, salt := [], ending := none, region := 0, slots := [], slotRegion := none, buf :=
      [], fetch := none : SCmd }] }) (fun s => InService s ∧ s.dev.svc.cmds.find? (fun c => !c.running) = some {
      q := 1, pos := 0, kind := .unseal, base := 2, units := 4, slotA := 3, slotB := 4, kek := 0, nodesOnly := false,
      running := false, next := 0, prog := 0, salt := [], ending := none, region := 0, slots := [], slotRegion := none, buf :=
      [], fetch := none : SCmd } ∧ s.dev.runningCmds < 4 ∧ s.dev.startBad {
      q := 1, pos := 0, kind := .unseal, base := 2, units := 4, slotA := 3, slotB := 4, kek := 0, nodesOnly := false,
      running := false, next := 0, prog := 0, salt := [], ending := none, region := 0, slots := [], slotRegion := none, buf :=
      [], fetch := none : SCmd } = some (Cpl.invalid 0 12) ∧ s.dev.scmd 1 0 = some {
      q := 1, pos := 0, kind := .unseal, base := 2, units := 4, slotA := 3, slotB := 4, kek := 0, nodesOnly := false,
      running := false, next := 0, prog := 0, salt := [], ending := none, region := 0, slots := [], slotRegion := none, buf :=
      [], fetch := none : SCmd } ∧ s.dev.cmdWhole {
      q := 1, pos := 0, kind := .unseal, base := 2, units := 4, slotA := 3, slotB := 4, kek := 0, nodesOnly := false,
      running := false, next := 0, prog := 0, salt := [], ending := none, region := 0, slots := [], slotRegion := none, buf :=
      [], fetch := none : SCmd } = [] ∧ s.dev.svc.steps = [] ∧ s.dev.exec1 1 0 =
      some { ready 0x44 [] [] with st := .running }) ∧
    Meets (on serving fun d => { d with
      svc.cmds := [{
      q := 1, pos := 0, kind := .seal, base := 2, units := 4, slotA := 3, slotB := 4, kek := 1, nodesOnly := false, running :=
      false, next := 0, prog := 0, salt := [], ending := none, region := 0, slots := [], slotRegion := none, buf := [],
      fetch := none : SCmd }] }) (fun s => InService s ∧ s.dev.svc.cmds.find? (fun c => !c.running) = some {
      q := 1, pos := 0, kind := .seal, base := 2, units := 4, slotA := 3, slotB := 4, kek := 1, nodesOnly := false, running :=
      false, next := 0, prog := 0, salt := [], ending := none, region := 0, slots := [], slotRegion := none, buf := [],
      fetch := none : SCmd } ∧ s.dev.startBad {
      q := 1, pos := 0, kind := .seal, base := 2, units := 4, slotA := 3, slotB := 4, kek := 1, nodesOnly := false, running :=
      false, next := 0, prog := 0, salt := [], ending := none, region := 0, slots := [], slotRegion := none, buf := [],
      fetch := none : SCmd } = none) := by
  refine ⟨?_, ?_, ?_, ?_, ?_, ?_, ?_, ?_, ?_, ?_, ?_, ?_⟩ <;> decide +kernel

/-- `Obligations.ServiceSteps`. -/
theorem meets_service_steps :
    Meets (on serving fun d => { d with rmp.rekey := [(0, ⟨.active, 3, 4, 5⟩)], svc.fronts := [(0, ⟨0, 64000, false⟩)] }) (fun
      s => InService s ∧ s.dev.accrue.frontTurn 0 = true ∧ s.dev.fab.holds.length < 8 ∧ s.dev.stepRoom true = true ∧
      s.dev.accrue.turnOfService 0 = true ∧ ((s.dev.rmpSet s.dev.activeSet).seen []).tab.get 0 = some ⟨0, 4095, 0, 0xFFFF,
      .mac, false, 0⟩) ∧
    Meets (on serving fun d => { d with svc.drizzleZone := 1 }) (fun s => s.dev.svc.drizzleLost = false ∧ InService s ∧
      s.dev.svc.drizzleEn = true ∧ s.dev.mgt.pfWarn = false ∧ 64000 ≤ s.dev.accrue.svc.drizzleCredit ∧ s.dev.svc.steps = [] ∧
      s.dev.fab.holds.length < 8 ∧ s.dev.stepRoom false = true ∧ s.dev.accrue.turnOfService 1 = true ∧ (s.dev.zone
      s.dev.svc.drizzleZone).st = .online ∧ s.dev.svc.drizzleUnit < zoneUnits) ∧
    Meets (on serving fun d => { d with
      svc.cmds := [{
      q := 1, pos := 0, kind := .transcode, base := 2, units := 4, slotA := 3, slotB := 4, kek := 1, nodesOnly := false,
      running := true, next := 1, prog := 1, salt := [], ending := none, region := 0, slots := [], slotRegion := none, buf :=
      [], fetch := none : SCmd }], svc.bulkCredit := 64000, svc.drizzleEn := false }) (fun s => InService s ∧ s.dev.scmd 1 0 =
      some {
      q := 1, pos := 0, kind := .transcode, base := 2, units := 4, slotA := 3, slotB := 4, kek := 1, nodesOnly := false,
      running := true, next := 1, prog := 1, salt := [], ending := none, region := 0, slots := [], slotRegion := none, buf :=
      [], fetch := none : SCmd } ∧ s.dev.accrue.cmdReady {
      q := 1, pos := 0, kind := .transcode, base := 2, units := 4, slotA := 3, slotB := 4, kek := 1, nodesOnly := false,
      running := true, next := 1, prog := 1, salt := [], ending := none, region := 0, slots := [], slotRegion := none, buf :=
      [], fetch := none : SCmd } = true ∧ s.dev.nextUnit {
      q := 1, pos := 0, kind := .transcode, base := 2, units := 4, slotA := 3, slotB := 4, kek := 1, nodesOnly := false,
      running := true, next := 1, prog := 1, salt := [], ending := none, region := 0, slots := [], slotRegion := none, buf :=
      [], fetch := none : SCmd } = 3 ∧ s.dev.stepCovered {
      q := 1, pos := 0, kind := .transcode, base := 2, units := 4, slotA := 3, slotB := 4, kek := 1, nodesOnly := false,
      running := true, next := 1, prog := 1, salt := [], ending := none, region := 0, slots := [], slotRegion := none, buf :=
      [], fetch := none : SCmd } 3 = true ∧ (s.dev.putRmpSet s.dev.activeSet ((s.dev.rmpSet s.dev.activeSet).seen
      [])).stepCovered {
      q := 1, pos := 0, kind := .transcode, base := 2, units := 4, slotA := 3, slotB := 4, kek := 1, nodesOnly := false,
      running := true, next := 1, prog := 1, salt := [], ending := none, region := 0, slots := [], slotRegion := none, buf :=
      [], fetch := none : SCmd } 3 = true ∧ s.dev.accrue.turnOfService 3 = true) ∧
    Meets (on serving fun d => { d with
      svc.cmds := [{
      q := 1, pos := 0, kind := .seal, base := 2, units := 4, slotA := 3, slotB := 4, kek := 1, nodesOnly := false, running :=
      true, next := 1, prog := 1, salt := [], ending := none, region := 0, slots := [], slotRegion := none, buf := [],
      fetch := none : SCmd }], svc.bulkCredit := 64000, svc.drizzleEn := false }) (fun s => InService s ∧ s.dev.scmd 1 0 =
      some {
      q := 1, pos := 0, kind := .seal, base := 2, units := 4, slotA := 3, slotB := 4, kek := 1, nodesOnly := false, running :=
      true, next := 1, prog := 1, salt := [], ending := none, region := 0, slots := [], slotRegion := none, buf := [],
      fetch := none : SCmd } ∧ s.dev.accrue.cmdReady {
      q := 1, pos := 0, kind := .seal, base := 2, units := 4, slotA := 3, slotB := 4, kek := 1, nodesOnly := false, running :=
      true, next := 1, prog := 1, salt := [], ending := none, region := 0, slots := [], slotRegion := none, buf := [],
      fetch := none : SCmd } = true ∧ s.dev.nextUnit {
      q := 1, pos := 0, kind := .seal, base := 2, units := 4, slotA := 3, slotB := 4, kek := 1, nodesOnly := false, running :=
      true, next := 1, prog := 1, salt := [], ending := none, region := 0, slots := [], slotRegion := none, buf := [],
      fetch := none : SCmd } = 3 ∧ s.dev.stepCovered {
      q := 1, pos := 0, kind := .seal, base := 2, units := 4, slotA := 3, slotB := 4, kek := 1, nodesOnly := false, running :=
      true, next := 1, prog := 1, salt := [], ending := none, region := 0, slots := [], slotRegion := none, buf := [],
      fetch := none : SCmd } 3 = true ∧ (s.dev.putRmpSet s.dev.activeSet ((s.dev.rmpSet s.dev.activeSet).seen [])).stepCovered
      {
      q := 1, pos := 0, kind := .seal, base := 2, units := 4, slotA := 3, slotB := 4, kek := 1, nodesOnly := false, running :=
      true, next := 1, prog := 1, salt := [], ending := none, region := 0, slots := [], slotRegion := none, buf := [],
      fetch := none : SCmd } 3 = true ∧ s.dev.accrue.turnOfService 4 = true) ∧
    Meets (on serving fun d => { d with
      svc.cmds := [{
      q := 1, pos := 0, kind := .scrub, base := 2, units := 4, slotA := 3, slotB := 4, kek := 1, nodesOnly := false,
      running := true, next := 1, prog := 1, salt := [], ending := none, region := 0, slots := [], slotRegion := none, buf :=
      [], fetch := none : SCmd }], svc.bulkCredit := 64000, svc.drizzleEn := false }) (fun s => InService s ∧ s.dev.scmd 1 0 =
      some {
      q := 1, pos := 0, kind := .scrub, base := 2, units := 4, slotA := 3, slotB := 4, kek := 1, nodesOnly := false,
      running := true, next := 1, prog := 1, salt := [], ending := none, region := 0, slots := [], slotRegion := none, buf :=
      [], fetch := none : SCmd } ∧ s.dev.accrue.cmdReady {
      q := 1, pos := 0, kind := .scrub, base := 2, units := 4, slotA := 3, slotB := 4, kek := 1, nodesOnly := false,
      running := true, next := 1, prog := 1, salt := [], ending := none, region := 0, slots := [], slotRegion := none, buf :=
      [], fetch := none : SCmd } = true ∧ s.dev.nextUnit {
      q := 1, pos := 0, kind := .scrub, base := 2, units := 4, slotA := 3, slotB := 4, kek := 1, nodesOnly := false,
      running := true, next := 1, prog := 1, salt := [], ending := none, region := 0, slots := [], slotRegion := none, buf :=
      [], fetch := none : SCmd } = 3 ∧ s.dev.stepCovered {
      q := 1, pos := 0, kind := .scrub, base := 2, units := 4, slotA := 3, slotB := 4, kek := 1, nodesOnly := false,
      running := true, next := 1, prog := 1, salt := [], ending := none, region := 0, slots := [], slotRegion := none, buf :=
      [], fetch := none : SCmd } 3 = true ∧ (s.dev.putRmpSet s.dev.activeSet ((s.dev.rmpSet s.dev.activeSet).seen
      [])).stepCovered {
      q := 1, pos := 0, kind := .scrub, base := 2, units := 4, slotA := 3, slotB := 4, kek := 1, nodesOnly := false,
      running := true, next := 1, prog := 1, salt := [], ending := none, region := 0, slots := [], slotRegion := none, buf :=
      [], fetch := none : SCmd } 3 = true ∧ s.dev.accrue.turnOfService 1 = true) ∧
    Meets (on serving fun d => { d with
      svc.cmds := [{
      q := 1, pos := 0, kind := .sanitize, base := 2, units := 4, slotA := 3, slotB := 4, kek := 1, nodesOnly := false,
      running := true, next := 1, prog := 1, salt := [], ending := none, region := 0, slots := [], slotRegion := none, buf :=
      [], fetch := none : SCmd }], svc.bulkCredit := 64000, svc.drizzleEn := false }) (fun s => InService s ∧ s.dev.scmd 1 0 =
      some {
      q := 1, pos := 0, kind := .sanitize, base := 2, units := 4, slotA := 3, slotB := 4, kek := 1, nodesOnly := false,
      running := true, next := 1, prog := 1, salt := [], ending := none, region := 0, slots := [], slotRegion := none, buf :=
      [], fetch := none : SCmd } ∧ s.dev.accrue.cmdReady {
      q := 1, pos := 0, kind := .sanitize, base := 2, units := 4, slotA := 3, slotB := 4, kek := 1, nodesOnly := false,
      running := true, next := 1, prog := 1, salt := [], ending := none, region := 0, slots := [], slotRegion := none, buf :=
      [], fetch := none : SCmd } = true ∧ s.dev.nextUnit {
      q := 1, pos := 0, kind := .sanitize, base := 2, units := 4, slotA := 3, slotB := 4, kek := 1, nodesOnly := false,
      running := true, next := 1, prog := 1, salt := [], ending := none, region := 0, slots := [], slotRegion := none, buf :=
      [], fetch := none : SCmd } = 3 ∧ s.dev.stepCovered {
      q := 1, pos := 0, kind := .sanitize, base := 2, units := 4, slotA := 3, slotB := 4, kek := 1, nodesOnly := false,
      running := true, next := 1, prog := 1, salt := [], ending := none, region := 0, slots := [], slotRegion := none, buf :=
      [], fetch := none : SCmd } 3 = true ∧ (s.dev.putRmpSet s.dev.activeSet ((s.dev.rmpSet s.dev.activeSet).seen
      [])).stepCovered {
      q := 1, pos := 0, kind := .sanitize, base := 2, units := 4, slotA := 3, slotB := 4, kek := 1, nodesOnly := false,
      running := true, next := 1, prog := 1, salt := [], ending := none, region := 0, slots := [], slotRegion := none, buf :=
      [], fetch := none : SCmd } 3 = true ∧ s.dev.accrue.turnOfService 2 = true) ∧
    Meets (on serving fun d => { d with
      svc.cmds := [{
      q := 1, pos := 0, kind := .sanitize, base := 2097152, units := 64, slotA := 3, slotB := 4, kek := 1, nodesOnly := false,
      running := true, next := 0, prog := 0, salt := [], ending := none, region := 1, slots := [], slotRegion := none, buf :=
      [], fetch := none : SCmd }], svc.bulkCredit := 64000, svc.drizzleEn := false }) (fun s => InService s ∧ s.dev.scmd 1 0 =
      some {
      q := 1, pos := 0, kind := .sanitize, base := 2097152, units := 64, slotA := 3, slotB := 4, kek := 1, nodesOnly := false,
      running := true, next := 0, prog := 0, salt := [], ending := none, region := 1, slots := [], slotRegion := none, buf :=
      [], fetch := none : SCmd } ∧ s.dev.accrue.cmdReady {
      q := 1, pos := 0, kind := .sanitize, base := 2097152, units := 64, slotA := 3, slotB := 4, kek := 1, nodesOnly := false,
      running := true, next := 0, prog := 0, salt := [], ending := none, region := 1, slots := [], slotRegion := none, buf :=
      [], fetch := none : SCmd } = true ∧ s.dev.nextUnit {
      q := 1, pos := 0, kind := .sanitize, base := 2097152, units := 64, slotA := 3, slotB := 4, kek := 1, nodesOnly := false,
      running := true, next := 0, prog := 0, salt := [], ending := none, region := 1, slots := [], slotRegion := none, buf :=
      [], fetch := none : SCmd } = 2097152 ∧ s.dev.stepCovered {
      q := 1, pos := 0, kind := .sanitize, base := 2097152, units := 64, slotA := 3, slotB := 4, kek := 1, nodesOnly := false,
      running := true, next := 0, prog := 0, salt := [], ending := none, region := 1, slots := [], slotRegion := none, buf :=
      [], fetch := none : SCmd } 2097152 = true ∧ (s.dev.putRmpSet s.dev.activeSet ((s.dev.rmpSet s.dev.activeSet).seen
      [])).stepCovered {
      q := 1, pos := 0, kind := .sanitize, base := 2097152, units := 64, slotA := 3, slotB := 4, kek := 1, nodesOnly := false,
      running := true, next := 0, prog := 0, salt := [], ending := none, region := 1, slots := [], slotRegion := none, buf :=
      [], fetch := none : SCmd } 2097152 = true ∧ s.dev.accrue.turnOfService 2 = true) ∧
    Meets (on serving fun d => { d with
      svc.cmds := [{
      q := 1, pos := 0, kind := .unseal, base := 2, units := 4, slotA := 3, slotB := 4, kek := 1, nodesOnly := false,
      running := true, next := 1, prog := 1, salt := [], ending := none, region := 0, slots := [], slotRegion := none, buf :=
      List.replicate 4144 7, fetch := none : SCmd }], svc.bulkCredit := 64000, svc.drizzleEn := false }) (fun s => InService s
      ∧ (∃ c ∈ s.dev.scmd 1 0, c.kind = .unseal ∧ c.buf.length = 4144 ∧ s.dev.accrue.cmdReady c = true ∧ s.dev.nextUnit c = 3
      ∧ s.dev.stepCovered c 3 = true ∧ (s.dev.putRmpSet s.dev.activeSet ((s.dev.rmpSet s.dev.activeSet).seen [])).stepCovered
      c 3 = true) ∧ s.dev.accrue.turnOfService 5 = true) ∧
    Meets (on serving fun d => { d with
      rmp.rekey := [(0, ⟨.active, 3, 4, 5⟩)], svc.fronts := [(0, ⟨0, 64000, true⟩)], svc.steps :=
      [{ (default : Step) with id := 4, who := .front 0, kind := .front, unit := 5, units := 1 }] }) (fun s => InService s ∧
      s.dev.step1 4 = some { (default : Step) with id := 4, who := .front 0, kind := .front, unit := 5, units := 1 } ∧
      (s.dev.rekey 0).st = .active ∧ ((s.dev.rekey 0).front + 1 ≤ (4095 + 1) * 512 - 1)) ∧
    Meets (on serving fun d => { d with
      rmp.rekey := [(0, ⟨.active, 3, 4, 2097151⟩)], svc.fronts := [(0, ⟨0, 64000, true⟩)], svc.steps :=
      [{ (default : Step) with id := 4, who := .front 0, kind := .front, unit := 5, units := 1 }] }) (fun s => InService s ∧
      s.dev.step1 4 = some { (default : Step) with id := 4, who := .front 0, kind := .front, unit := 5, units := 1 } ∧
      (s.dev.rekey 0).st = .active ∧ (¬(s.dev.rekey 0).front + 1 ≤ (4095 + 1) * 512 - 1)) ∧
    Meets (on serving fun d => { d with
      svc.steps := [{ (default : Step) with id := 4, who := .drizzle, kind := .drizzle, unit := 5, units := 1 }] }) (fun s =>
      InService s ∧ s.dev.step1 4 =
      some { (default : Step) with id := 4, who := .drizzle, kind := .drizzle, unit := 5, units := 1 }) ∧
    Meets (on serving fun d => { d with
      svc.cmds := [{
      q := 1, pos := 0, kind := .transcode, base := 2, units := 4, slotA := 3, slotB := 4, kek := 1, nodesOnly := false,
      running := true, next := 1, prog := 1, salt := [], ending := none, region := 0, slots := [], slotRegion := none, buf :=
      [], fetch := none : SCmd }], svc.steps := [{ (default : Step) with
      id := 4, who := .cmd 1 0, kind := .transcode, unit := 5, units := 1, posted := false }] }) (fun s => InService s ∧
      s.dev.step1 4 = some { (default : Step) with
      id := 4, who := .cmd 1 0, kind := .transcode, unit := 5, units := 1, posted := false } ∧ s.dev.scmd 1 0 = some {
      q := 1, pos := 0, kind := .transcode, base := 2, units := 4, slotA := 3, slotB := 4, kek := 1, nodesOnly := false,
      running := true, next := 1, prog := 1, salt := [], ending := none, region := 0, slots := [], slotRegion := none, buf :=
      [], fetch := none : SCmd }) ∧
    Meets (on serving fun d => { d with
      svc.cmds := [{
      q := 1, pos := 0, kind := .scrub, base := 2, units := 4, slotA := 3, slotB := 4, kek := 1, nodesOnly := false,
      running := true, next := 1, prog := 1, salt := [], ending := none, region := 0, slots := [], slotRegion := none, buf :=
      [], fetch := none : SCmd }], svc.steps := [{ (default : Step) with
      id := 4, who := .cmd 1 0, kind := .scrub, unit := 5, units := 1, posted := false }] }) (fun s => InService s ∧
      s.dev.step1 4 = some { (default : Step) with
      id := 4, who := .cmd 1 0, kind := .scrub, unit := 5, units := 1, posted := false } ∧ s.dev.scmd 1 0 = some {
      q := 1, pos := 0, kind := .scrub, base := 2, units := 4, slotA := 3, slotB := 4, kek := 1, nodesOnly := false,
      running := true, next := 1, prog := 1, salt := [], ending := none, region := 0, slots := [], slotRegion := none, buf :=
      [], fetch := none : SCmd }) ∧
    Meets (on serving fun d => { d with
      svc.cmds := [{
      q := 1, pos := 0, kind := .sanitize, base := 2, units := 4, slotA := 3, slotB := 4, kek := 1, nodesOnly := false,
      running := true, next := 1, prog := 1, salt := [], ending := none, region := 0, slots := [], slotRegion := none, buf :=
      [], fetch := none : SCmd }], svc.steps := [{ (default : Step) with
      id := 4, who := .cmd 1 0, kind := .sanitize, unit := 5, units := 1, posted := false }] }) (fun s => InService s ∧
      s.dev.step1 4 = some { (default : Step) with
      id := 4, who := .cmd 1 0, kind := .sanitize, unit := 5, units := 1, posted := false } ∧ s.dev.scmd 1 0 = some {
      q := 1, pos := 0, kind := .sanitize, base := 2, units := 4, slotA := 3, slotB := 4, kek := 1, nodesOnly := false,
      running := true, next := 1, prog := 1, salt := [], ending := none, region := 0, slots := [], slotRegion := none, buf :=
      [], fetch := none : SCmd }) ∧
    Meets (on serving fun d => { d with
      svc.cmds := [{
      q := 1, pos := 0, kind := .unseal, base := 2, units := 4, slotA := 3, slotB := 4, kek := 1, nodesOnly := false,
      running := true, next := 1, prog := 1, salt := [], ending := none, region := 0, slots := [], slotRegion := none, buf :=
      [], fetch := none : SCmd }], svc.steps := [{ (default : Step) with
      id := 4, who := .cmd 1 0, kind := .unseal, unit := 5, units := 1, posted := true }] }) (fun s => InService s ∧
      s.dev.step1 4 = some { (default : Step) with
      id := 4, who := .cmd 1 0, kind := .unseal, unit := 5, units := 1, posted := true } ∧ s.dev.scmd 1 0 = some {
      q := 1, pos := 0, kind := .unseal, base := 2, units := 4, slotA := 3, slotB := 4, kek := 1, nodesOnly := false,
      running := true, next := 1, prog := 1, salt := [], ending := none, region := 0, slots := [], slotRegion := none, buf :=
      [], fetch := none : SCmd }) ∧
    Meets (on serving fun d => { d with
      svc.cmds := [{
      q := 1, pos := 0, kind := .sanitize, base := 2097152, units := 512, slotA := 3, slotB := 4, kek := 1, nodesOnly :=
      false, running := true, next := 8, prog := 0, salt := [], ending := none, region := 1, slots := [], slotRegion := none,
      buf := [], fetch := none : SCmd }], svc.steps := [{ (default : Step) with
      id := 4, who := .cmd 1 0, kind := .sanitize, unit := 2097152, units := 8, reset := true }], fab.holds := [⟨134217728,
      134218239, 3, 4⟩], can.lines := [(9,
      { (default : CanLine) with st := .dirty, node := nodeOf 1 0 3, ctr := List.replicate 8 5 })], frs.zones := [(1,
      { (default : Zone) with st := .online, key := some 77, ceil := 0x700 })] }) (fun s => s.dev.find (nodeOf 1 0 3) = some 9
      ∧ (s.dev.can1 9).ctr.length = 8 ∧ (s.dev.can1 9).dirty = true ∧ InService s ∧ s.dev.ckptHold = false ∧ s.dev.step1 4 =
      some { (default : Step) with
      id := 4, who := .cmd 1 0, kind := .sanitize, unit := 2097152, units := 8, reset := true } ∧ s.dev.scmd 1 0 = some {
      q := 1, pos := 0, kind := .sanitize, base := 2097152, units := 512, slotA := 3, slotB := 4, kek := 1, nodesOnly :=
      false, running := true, next := 8, prog := 0, salt := [], ending := none, region := 1, slots := [], slotRegion := none,
      buf := [], fetch := none : SCmd } ∧ s.dev.fab.holds.find? (fun h => h.step = 4) = some ⟨134217728, 134218239, 3, 4⟩ ∧
      s.dev.earlierIn ⟨134217728, 134218239, 3, 4⟩ = false ∧ s.dev.frs.marks = [] ∧ s.dev.can.lines = [(9,
      { (default : CanLine) with st := .dirty, node := nodeOf 1 0 3, ctr := List.replicate 8 5 })] ∧ (s.dev.can1 9).valid =
      true ∧ coverLevel 8 = 3 ∧ 2097152 / zoneUnits = 1 ∧ 2097152 % zoneUnits = 0) ∧
    Meets (on serving fun d => { d with
      frs.zones := [(1, { (default : Zone) with st := .online, key := some 77 }), (3,
      { (default : Zone) with st := .online, key := some 78 })], svc.drizzleZone := 1, svc.drizzleUnit := zoneUnits }) (fun s
      => InService s ∧ zoneUnits ≤ s.dev.svc.drizzleUnit ∧ s.dev.svc.steps = [] ∧ (Tab.which s.dev.frs.zones fun z => z.st ==
      .online).find? (fun k => decide (s.dev.svc.drizzleZone < k)) = some 3) ∧
    Meets (on serving fun d => { d with
      frs.zones := [(1, { (default : Zone) with st := .online, key := some 77 }), (3,
      { (default : Zone) with st := .online, key := some 78 })], svc.drizzleZone := 3, svc.drizzleUnit := zoneUnits }) (fun s
      => zoneUnits ≤ s.dev.svc.drizzleUnit ∧ s.dev.svc.steps = [] ∧ InService s ∧ (Tab.which s.dev.frs.zones fun z => z.st ==
      .online) = [1, 3] ∧ ([1, 3].all fun z => decide (z ≤ s.dev.svc.drizzleZone)) = true) ∧
    Meets (on serving fun d => { d with
      svc.cmds := [{
      q := 1, pos := 0, kind := .sanitize, base := 2097152, units := 512, slotA := 0, slotB := 0, kek := 0, nodesOnly :=
      false, running := true, next := 8, prog := 0, salt := [], ending := none, region := 1, slots := [], slotRegion := none,
      buf := [], fetch := none : SCmd }], svc.steps := [{ (default : Step) with
      id := 4, who := .cmd 1 0, kind := .sanitize, unit := 2097152, units := 8, reset := true }], fab.holds := [⟨134217728,
      134218239, 3, 4⟩], can.lines := [(9,
      { (default : CanLine) with st := .clean, node := nodeOf 1 0 3, ctr := List.replicate 8 5 }), (30,
      { (default : CanLine) with st := .dirty, node := ⟨2, 1, 7⟩, ctr := List.replicate 8 5 })], frs.zones := [(1,
      { (default : Zone) with st := .online, key := some 77, ceil := 0x700 })] }) (fun s => InService s ∧ s.dev.ckptHold =
      false ∧ s.dev.step1 4 = some { (default : Step) with
      id := 4, who := .cmd 1 0, kind := .sanitize, unit := 2097152, units := 8, reset := true } ∧ s.dev.scmd 1 0 = some {
      q := 1, pos := 0, kind := .sanitize, base := 2097152, units := 512, slotA := 0, slotB := 0, kek := 0, nodesOnly :=
      false, running := true, next := 8, prog := 0, salt := [], ending := none, region := 1, slots := [], slotRegion := none,
      buf := [], fetch := none : SCmd } ∧ s.dev.fab.holds.find? (fun h => h.step = 4) = some ⟨134217728, 134218239, 3, 4⟩ ∧
      s.dev.earlierIn ⟨134217728, 134218239, 3, 4⟩ = false ∧ s.dev.frs.marks = [] ∧ coverLevel 8 = 3 ∧ 2097152 / zoneUnits = 1
      ∧ 64 * (2097152 % zoneUnits) = 0 ∧ s.dev.find (nodeOf 1 0 3) = some 9 ∧ (s.dev.can1 9).ctr.length = 8 ∧ s.dev.dirtyCount
      < s.dev.budget) := by
  refine ⟨?_, ?_, ?_, ?_, ?_, ?_, ?_, ?_, ?_, ?_, ?_, ?_, ?_, ?_, ?_, ?_, ?_, ?_, ?_⟩ <;> decide +kernel

/-- `Obligations.ZoneCommands`. -/
theorem meets_zone_commands :
    Meets (given (on serving fun d => { d with per.armed := true }) 0 0xA [(8, 1)] []) (fun s => Runs 0 0 cFormatZone (fun d x
      => [(8, decide (num x.entry 8 2 < d.frs.zoneLimit))]) (ready 0xA [(8, 1)] []) s ∧ s.dev.ckptHold = false ∧
      s.dev.measuring = false ∧ s.dev.per.armed = true ∧ (s.dev.zone 1).st ≠ .formatting ∧ (s.dev.zone 1).st ≠ .sanitizing ∧
      s.dev.adopting 1 = false ∧ Draws s) ∧
    Meets (on (given serving 0 0xA [(8, 1)] []) fun d => { d with
      frs.zones := [(1, { (default : Zone) with
      st := .formatting, root := 5, ceil := 6, drawn := some 99, cmd := some (0, 0) })] }) (fun s => s.dev.measuring = false ∧
      InService s ∧ s.dev.ckptHold = false ∧ (s.dev.zone 1).leaving = false ∧ (s.dev.zone 1).treeDone = false ∧ (s.dev.zone
      1).st = .formatting ∧ (s.dev.zone 1).cmd = some (0, 0) ∧ s.dev.exec1 0 0 = some (ready 0xA [(8, 1)] []) ∧
      s.dev.can.maint = []) ∧
    Meets (on serving fun d => { d with
      frs.zones := [(1, { (default : Zone) with
      st := .sanitizing, root := 5, ceil := 0x600, drawn := some 99, cmd := some (1, 0) })], svc.cmds := [{
      q := 1, pos := 0, kind := .sanitize, base := 2097152, units := 2097152, slotA := 0, slotB := 0, kek := 0, nodesOnly :=
      false, running := true, next := 0, prog := 0, salt := [], ending := none, region := 1, slots := [], slotRegion := none,
      buf := [], fetch := none : SCmd }] }) (fun s => s.dev.measuring = false ∧ (s.dev.zone 1).leaving = false ∧ (s.dev.zone
      1).treeDone = false ∧ InService s ∧ s.dev.ckptHold = false ∧ (s.dev.zone 1).st = .sanitizing ∧ (s.dev.zone 1).cmd = some
      (1, 0) ∧ s.dev.scmd 1 0 = some {
      q := 1, pos := 0, kind := .sanitize, base := 2097152, units := 2097152, slotA := 0, slotB := 0, kek := 0, nodesOnly :=
      false, running := true, next := 0, prog := 0, salt := [], ending := none, region := 1, slots := [], slotRegion := none,
      buf := [], fetch := none : SCmd } ∧ s.dev.can.maint = []) ∧
    Meets (on serving fun d => { d with frs.zones := [(1, { (default : Zone) with st := .formatting, leaving := true })] })
      (fun s => (s.dev.zone 1).treeDone = false ∧ (s.dev.zone 1).cmd = none ∧ InService s ∧ (s.dev.zone 1).leaving = true ∧
      s.dev.zoneBusy 1 = false ∧ s.dev.per.adopt = none) ∧
    Meets (given (on serving fun d => { d with
      per.armed := true, frs.zones := [(1, { (default : Zone) with st := .quarantined, root := 9, key := some 8 })], med.ch :=
      (List.range 16).map fun c => (c, { (default : Channel) with mcmd := 64, mwd := 64 }) }) 0 9 [(8, 1)] []) (fun s => Runs
      0 0 cAdoptZone (fun d x => [(8, decide (num x.entry 8 2 < d.frs.zoneLimit))]) (ready 9 [(8, 1)] []) s ∧ s.dev.measuring
      = false ∧ (s.dev.zone 1).st = .quarantined ∧ (s.dev.zone 1).leaving = false ∧ s.dev.adoptLines 1 = [] ∧ s.dev.retired
      (channelOf (s.dev.nodeAddr ⟨1, 8, 0⟩)) = false ∧ s.dev.adoptBad 1 = none ∧ s.dev.per.adopt = none ∧ s.dev.ckptHold =
      false ∧ Draws s) ∧
    Meets (on serving fun d => { d with
      per.armed := true, frs.zones := [(1, { (default : Zone) with st := .quarantined, root := 9, key := some 8 })],
      per.adoptWait := [{
      q := 0, pos := 0, zone := 1, started := false, stack := [], rewritten := 0, poisoned := 0, top := 0, root := 0,
      closing := false, prev := .quarantined, outcome := none : Adopt }], med.ch := (List.range 16).map fun c => (c,
      { (default : Channel) with mcmd := 64, mwd := 64 }) }) (fun s => InService s ∧ s.dev.per.adoptWait = [{
      q := 0, pos := 0, zone := 1, started := false, stack := [], rewritten := 0, poisoned := 0, top := 0, root := 0,
      closing := false, prev := .quarantined, outcome := none : Adopt }] ∧ s.dev.measuring = false ∧ 1 < s.dev.frs.zoneLimit ∧
      (s.dev.zone 1).st = .quarantined ∧ (s.dev.zone 1).leaving = false ∧ s.dev.adoptLines 1 = [] ∧ s.dev.retired (channelOf
      (s.dev.nodeAddr ⟨1, 8, 0⟩)) = false ∧ s.dev.adoptBad 1 = none ∧ s.dev.per.adopt = none ∧ s.dev.ckptHold = false) ∧
    Meets (on serving fun d => { d with
      frs.zones := [(1, { (default : Zone) with
      st := .sanitizing, prev := .online, leaving := true, drawn := some 99, cmd := some (1, 0) })], svc.cmds := [{
      q := 1, pos := 0, kind := .sanitize, base := 2097152, units := 2097152, slotA := 0, slotB := 0, kek := 0, nodesOnly :=
      false, running := true, next := 0, prog := 0, salt := [], ending := none, region := 1, slots := [], slotRegion := none,
      buf := [], fetch := none : SCmd }] }) (fun s => InService s ∧ (s.dev.zone 1).leaving = true ∧ s.dev.zoneBusy 1 = false ∧
      s.dev.per.adopt = none ∧ (s.dev.zone 1).treeDone = false ∧ (s.dev.zone 1).cmd = some (1, 0) ∧ s.dev.scmd 1 0 = some {
      q := 1, pos := 0, kind := .sanitize, base := 2097152, units := 2097152, slotA := 0, slotB := 0, kek := 0, nodesOnly :=
      false, running := true, next := 0, prog := 0, salt := [], ending := none, region := 1, slots := [], slotRegion := none,
      buf := [], fetch := none : SCmd }) ∧
    Meets (on (given serving 1 0x42 [] []) fun d => { d.updExec 1 0 (fun x => { x with st := .running }) with
      frs.zones := [(1, { (default : Zone) with
      st := .sanitizing, prev := .online, leaving := true, drawn := some 99, cmd := some (1, 0) })], svc.cmds := [{
      q := 1, pos := 0, kind := .sanitize, base := 2097152, units := 2097152, slotA := 0, slotB := 0, kek := 0, nodesOnly :=
      false, running := true, next := 0, prog := 0, salt := [], ending := some (Cpl.aborted 4), region := 1, slots := [],
      slotRegion := none, buf := [], fetch := none : SCmd }] }) (fun s => InService s ∧ (s.dev.zone 1).leaving = true ∧
      s.dev.zoneBusy 1 = false ∧ s.dev.per.adopt = none ∧ (s.dev.zone 1).treeDone = false ∧ (s.dev.zone 1).cmd = some (1, 0) ∧
      s.dev.scmd 1 0 = some {
      q := 1, pos := 0, kind := .sanitize, base := 2097152, units := 2097152, slotA := 0, slotB := 0, kek := 0, nodesOnly :=
      false, running := true, next := 0, prog := 0, salt := [], ending := some (Cpl.aborted 4), region := 1, slots := [],
      slotRegion := none, buf := [], fetch := none : SCmd } ∧ s.dev.measuring = false ∧ s.dev.svc.steps = [] ∧ s.dev.cmdWhole
      {
      q := 1, pos := 0, kind := .sanitize, base := 2097152, units := 2097152, slotA := 0, slotB := 0, kek := 0, nodesOnly :=
      false, running := true, next := 0, prog := 0, salt := [], ending := some (Cpl.aborted 4), region := 1, slots := [],
      slotRegion := none, buf := [], fetch := none : SCmd } = [1] ∧ s.dev.exec1 1 0 =
      some { ready 0x42 [] [] with st := .running }) := by
  refine ⟨?_, ?_, ?_, ?_, ?_, ?_, ?_, ?_⟩ <;> decide +kernel

/-- `Obligations.CanopyMaintenance`. -/
theorem meets_canopy_maintenance :
    Meets (given (serving) 1 0x49 [(8, 0), (9, 0), (16, 64 * serving.dev.nodeAddr ⟨1, 8, 0⟩)] []) (fun s => Runs 1 0
      cCanopyMaint maintRules (ready 0x49 [(8, 0), (9, 0), (16, 64 * serving.dev.nodeAddr ⟨1, 8, 0⟩)] []) s ∧ s.dev.can.maint
      = [] ∧ s.dev.nodeAt (num (entry 0x49 [(8, 0), (9, 0), (16, 64 * serving.dev.nodeAddr ⟨1, 8, 0⟩)]) 16 8 / 64) = some ⟨1,
      8, 0⟩ ∧ s.dev.filling ⟨1, 8, 0⟩ = false ∧ s.dev.cached ⟨1, 8, 0⟩ = none) ∧
    Meets (given (on serving fun d => { d with
      can.pinWays := 2, can.lines := [((16 * canSet (serving.dev.nodeAddr ⟨1, 8, 0⟩)) + 2, { (default : CanLine) with
      st := .clean, node := ⟨1, 8, 0⟩, ctr := List.replicate 8 1, mac := 5, pinned := false, written := true })] }) 1 0x49
      [(8, 0), (9, 0), (16, 64 * serving.dev.nodeAddr ⟨1, 8, 0⟩)] []) (fun s => Runs 1 0 cCanopyMaint maintRules (ready 0x49
      [(8, 0), (9, 0), (16, 64 * serving.dev.nodeAddr ⟨1, 8, 0⟩)] []) s ∧ s.dev.can.maint = [] ∧ s.dev.nodeAt (num (entry 0x49
      [(8, 0), (9, 0), (16, 64 * serving.dev.nodeAddr ⟨1, 8, 0⟩)]) 16 8 / 64) = some ⟨1, 8, 0⟩ ∧ s.dev.filling ⟨1, 8, 0⟩ =
      false ∧ s.dev.cached ⟨1, 8, 0⟩ = some ((16 * canSet (serving.dev.nodeAddr ⟨1, 8, 0⟩)) + 2) ∧ (s.dev.can1 ((16 * canSet
      (serving.dev.nodeAddr ⟨1, 8, 0⟩)) + 2)).dirty = false ∧ (s.dev.can1 ((16 * canSet (serving.dev.nodeAddr ⟨1, 8, 0⟩)) +
      2)).pinned = false) ∧
    Meets (given (on serving fun d => { d with
      can.pinWays := 2, can.lines := [((16 * canSet (serving.dev.nodeAddr ⟨1, 8, 0⟩)) + 2, { (default : CanLine) with
      st := .clean, node := ⟨1, 8, 0⟩, ctr := List.replicate 8 1, mac := 5, pinned := false, written := true })] }) 1 0x49
      [(8, 1), (9, 0), (16, 64 * serving.dev.nodeAddr ⟨1, 8, 0⟩)] []) (fun s => Runs 1 0 cCanopyMaint maintRules (ready 0x49
      [(8, 1), (9, 0), (16, 64 * serving.dev.nodeAddr ⟨1, 8, 0⟩)] []) s ∧ s.dev.can.maint = [] ∧ s.dev.nodeAt (num (entry 0x49
      [(8, 1), (9, 0), (16, 64 * serving.dev.nodeAddr ⟨1, 8, 0⟩)]) 16 8 / 64) = some ⟨1, 8, 0⟩ ∧ s.dev.filling ⟨1, 8, 0⟩ =
      false ∧ s.dev.cached ⟨1, 8, 0⟩ = some ((16 * canSet (serving.dev.nodeAddr ⟨1, 8, 0⟩)) + 2) ∧ (s.dev.can1 ((16 * canSet
      (serving.dev.nodeAddr ⟨1, 8, 0⟩)) + 2)).dirty = false ∧ (s.dev.can1 ((16 * canSet (serving.dev.nodeAddr ⟨1, 8, 0⟩)) +
      2)).pinned = false) ∧
    Meets (given (on serving fun d => { d with
      can.pinWays := 2, can.lines := [((16 * canSet (serving.dev.nodeAddr ⟨1, 8, 0⟩)) + 2, { (default : CanLine) with
      st := .dirty, node := ⟨1, 8, 0⟩, ctr := List.replicate 8 1, mac := 5, pinned := false, written := true })] }) 1 0x49
      [(8, 1), (9, 0), (16, 64 * serving.dev.nodeAddr ⟨1, 8, 0⟩)] []) (fun s => Runs 1 0 cCanopyMaint maintRules (ready 0x49
      [(8, 1), (9, 0), (16, 64 * serving.dev.nodeAddr ⟨1, 8, 0⟩)] []) s ∧ s.dev.can.maint = [] ∧ s.dev.nodeAt (num (entry 0x49
      [(8, 1), (9, 0), (16, 64 * serving.dev.nodeAddr ⟨1, 8, 0⟩)]) 16 8 / 64) = some ⟨1, 8, 0⟩ ∧ s.dev.filling ⟨1, 8, 0⟩ =
      false ∧ s.dev.cached ⟨1, 8, 0⟩ = some ((16 * canSet (serving.dev.nodeAddr ⟨1, 8, 0⟩)) + 2) ∧ (s.dev.can1 ((16 * canSet
      (serving.dev.nodeAddr ⟨1, 8, 0⟩)) + 2)).dirty = true ∧ (s.dev.can1 ((16 * canSet (serving.dev.nodeAddr ⟨1, 8, 0⟩)) +
      2)).pinned = false) ∧
    Meets (given (on serving fun d => { d with
      can.pinWays := 2, can.lines := [((16 * canSet (serving.dev.nodeAddr ⟨1, 8, 0⟩)) + 2, { (default : CanLine) with
      st := .clean, node := ⟨1, 8, 0⟩, ctr := List.replicate 8 1, mac := 5, pinned := false, written := true })] }) 1 0x49
      [(8, 2), (9, 0), (16, 64 * serving.dev.nodeAddr ⟨1, 8, 0⟩)] []) (fun s => Runs 1 0 cCanopyMaint maintRules (ready 0x49
      [(8, 2), (9, 0), (16, 64 * serving.dev.nodeAddr ⟨1, 8, 0⟩)] []) s ∧ s.dev.can.maint = [] ∧ s.dev.nodeAt (num (entry 0x49
      [(8, 2), (9, 0), (16, 64 * serving.dev.nodeAddr ⟨1, 8, 0⟩)]) 16 8 / 64) = some ⟨1, 8, 0⟩ ∧ s.dev.filling ⟨1, 8, 0⟩ =
      false ∧ s.dev.cached ⟨1, 8, 0⟩ = some ((16 * canSet (serving.dev.nodeAddr ⟨1, 8, 0⟩)) + 2) ∧ (s.dev.can1 ((16 * canSet
      (serving.dev.nodeAddr ⟨1, 8, 0⟩)) + 2)).dirty = false ∧ (s.dev.can1 ((16 * canSet (serving.dev.nodeAddr ⟨1, 8, 0⟩)) +
      2)).pinned = false) ∧
    Meets (given (on serving fun d => { d with
      can.pinWays := 2, can.lines := [((16 * canSet (serving.dev.nodeAddr ⟨1, 8, 0⟩)) + 2, { (default : CanLine) with
      st := .clean, node := ⟨1, 8, 0⟩, ctr := List.replicate 8 1, mac := 5, pinned := false, written := true })] }) 1 0x49
      [(8, 3), (9, 0), (16, 64 * serving.dev.nodeAddr ⟨1, 8, 0⟩)] []) (fun s => Runs 1 0 cCanopyMaint maintRules (ready 0x49
      [(8, 3), (9, 0), (16, 64 * serving.dev.nodeAddr ⟨1, 8, 0⟩)] []) s ∧ s.dev.can.maint = [] ∧ s.dev.nodeAt (num (entry 0x49
      [(8, 3), (9, 0), (16, 64 * serving.dev.nodeAddr ⟨1, 8, 0⟩)]) 16 8 / 64) = some ⟨1, 8, 0⟩ ∧ s.dev.filling ⟨1, 8, 0⟩ =
      false ∧ s.dev.cached ⟨1, 8, 0⟩ = some ((16 * canSet (serving.dev.nodeAddr ⟨1, 8, 0⟩)) + 2) ∧ (s.dev.can1 ((16 * canSet
      (serving.dev.nodeAddr ⟨1, 8, 0⟩)) + 2)).dirty = false ∧ (s.dev.can1 ((16 * canSet (serving.dev.nodeAddr ⟨1, 8, 0⟩)) +
      2)).pinned = false ∧ (s.dev.zone 1).st = .online ∧ s.dev.can.en = true ∧ s.dev.freePin (canSet (s.dev.nodeAddr ⟨1, 8,
      0⟩)) = some ((16 * canSet (serving.dev.nodeAddr ⟨1, 8, 0⟩)) + 14)) ∧
    Meets (given (on serving fun d => { d with
      can.pinWays := 2, can.lines := [((16 * canSet (serving.dev.nodeAddr ⟨1, 8, 0⟩)) + 14, { (default : CanLine) with
      st := .clean, node := ⟨1, 8, 0⟩, ctr := List.replicate 8 1, mac := 5, pinned := true, written := true })] }) 1 0x49 [(8,
      4), (9, 0), (16, 64 * serving.dev.nodeAddr ⟨1, 8, 0⟩)] []) (fun s => Runs 1 0 cCanopyMaint maintRules (ready 0x49 [(8,
      4), (9, 0), (16, 64 * serving.dev.nodeAddr ⟨1, 8, 0⟩)] []) s ∧ s.dev.can.maint = [] ∧ s.dev.nodeAt (num (entry 0x49 [(8,
      4), (9, 0), (16, 64 * serving.dev.nodeAddr ⟨1, 8, 0⟩)]) 16 8 / 64) = some ⟨1, 8, 0⟩ ∧ s.dev.filling ⟨1, 8, 0⟩ = false ∧
      s.dev.cached ⟨1, 8, 0⟩ = some ((16 * canSet (serving.dev.nodeAddr ⟨1, 8, 0⟩)) + 14) ∧ (s.dev.can1 ((16 * canSet
      (serving.dev.nodeAddr ⟨1, 8, 0⟩)) + 14)).dirty = false ∧ (s.dev.can1 ((16 * canSet (serving.dev.nodeAddr ⟨1, 8, 0⟩)) +
      14)).pinned = true) ∧
    Meets (given (on serving fun d => { d with
      can.pinWays := 2, can.lines := [((16 * canSet (serving.dev.nodeAddr ⟨1, 8, 0⟩)) + 2, { (default : CanLine) with
      st := .clean, node := ⟨1, 8, 0⟩, ctr := List.replicate 8 1, mac := 5, pinned := false, written := true })] }) 1 0x49
      [(8, 5), (9, 1), (40, 0x5000), (24, (16 * canSet (serving.dev.nodeAddr ⟨1, 8, 0⟩)) / 16 % 32), (26, (16 * canSet
      (serving.dev.nodeAddr ⟨1, 8, 0⟩)) / 512), (28, 2)] []) (fun s => Runs 1 0 cCanopyMaint maintRules (ready 0x49 [(8, 5),
      (9, 1), (40, 0x5000), (24, (16 * canSet (serving.dev.nodeAddr ⟨1, 8, 0⟩)) / 16 % 32), (26, (16 * canSet
      (serving.dev.nodeAddr ⟨1, 8, 0⟩)) / 512), (28, 2)] []) s ∧ s.dev.can.maint = [] ∧ s.dev.lineState (lineNamed (entry 0x49
      [(8, 5), (9, 1), (40, 0x5000), (24, (16 * canSet (serving.dev.nodeAddr ⟨1, 8, 0⟩)) / 16 % 32), (26, (16 * canSet
      (serving.dev.nodeAddr ⟨1, 8, 0⟩)) / 512), (28, 2)])) ≠ .unwritten ∧ lineNamed (entry 0x49 [(8, 5), (9, 1), (40, 0x5000),
      (24, (16 * canSet (serving.dev.nodeAddr ⟨1, 8, 0⟩)) / 16 % 32), (26, (16 * canSet (serving.dev.nodeAddr ⟨1, 8, 0⟩)) /
      512), (28, 2)]) = (16 * canSet (serving.dev.nodeAddr ⟨1, 8, 0⟩)) + 2) ∧
    Meets (given (on serving fun d => { d with
      can.lines := [((16 * canSet (serving.dev.nodeAddr ⟨1, 8, 0⟩)) + 2, { (default : CanLine) with written := true })] }) 1
      0x49 [(8, 5), (9, 1), (40, 0x5000), (24, (16 * canSet (serving.dev.nodeAddr ⟨1, 8, 0⟩)) / 16 % 32), (26, (16 * canSet
      (serving.dev.nodeAddr ⟨1, 8, 0⟩)) / 512), (28, 2)] []) (fun s => Runs 1 0 cCanopyMaint maintRules (ready 0x49 [(8, 5),
      (9, 1), (40, 0x5000), (24, (16 * canSet (serving.dev.nodeAddr ⟨1, 8, 0⟩)) / 16 % 32), (26, (16 * canSet
      (serving.dev.nodeAddr ⟨1, 8, 0⟩)) / 512), (28, 2)] []) s ∧ s.dev.can.maint = [] ∧ s.dev.lineState (lineNamed (entry 0x49
      [(8, 5), (9, 1), (40, 0x5000), (24, (16 * canSet (serving.dev.nodeAddr ⟨1, 8, 0⟩)) / 16 % 32), (26, (16 * canSet
      (serving.dev.nodeAddr ⟨1, 8, 0⟩)) / 512), (28, 2)])) ≠ .unwritten ∧ (s.dev.can1 (lineNamed (entry 0x49 [(8, 5), (9, 1),
      (40, 0x5000), (24, (16 * canSet (serving.dev.nodeAddr ⟨1, 8, 0⟩)) / 16 % 32), (26, (16 * canSet (serving.dev.nodeAddr
      ⟨1, 8, 0⟩)) / 512), (28, 2)]))).valid = false) ∧
    Meets (given (on serving fun d => { d with
      can.pinWays := 2, can.lines := [((16 * canSet (serving.dev.nodeAddr ⟨1, 8, 0⟩)) + 2, { (default : CanLine) with
      st := .clean, node := ⟨1, 8, 0⟩, ctr := List.replicate 8 1, mac := 5, pinned := false, written := true })] }) 1 0x49
      [(8, 6), (9, 1), (24, (16 * canSet (serving.dev.nodeAddr ⟨1, 8, 0⟩)) / 16 % 32), (26, (16 * canSet (serving.dev.nodeAddr
      ⟨1, 8, 0⟩)) / 512), (28, 14)] []) (fun s => Runs 1 0 cCanopyMaint maintRules (ready 0x49 [(8, 6), (9, 1), (24, (16 *
      canSet (serving.dev.nodeAddr ⟨1, 8, 0⟩)) / 16 % 32), (26, (16 * canSet (serving.dev.nodeAddr ⟨1, 8, 0⟩)) / 512), (28,
      14)] []) s ∧ s.dev.can.maint = [] ∧ s.dev.pinnedWay (lineNamed (entry 0x49 [(8, 6), (9, 1), (24, (16 * canSet
      (serving.dev.nodeAddr ⟨1, 8, 0⟩)) / 16 % 32), (26, (16 * canSet (serving.dev.nodeAddr ⟨1, 8, 0⟩)) / 512), (28, 14)]) %
      16) = true ∧ (s.dev.can1 (lineNamed (entry 0x49 [(8, 6), (9, 1), (24, (16 * canSet (serving.dev.nodeAddr ⟨1, 8, 0⟩)) /
      16 % 32), (26, (16 * canSet (serving.dev.nodeAddr ⟨1, 8, 0⟩)) / 512), (28, 14)]))).valid = false) ∧
    Meets (on (on serving fun d => { d with
      can.pinWays := 2, can.lines := [((16 * canSet (serving.dev.nodeAddr ⟨1, 8, 0⟩)) + 2, { (default : CanLine) with
      st := .dirty, node := ⟨1, 8, 0⟩, ctr := List.replicate 8 1, mac := 5, pinned := false, written := true })] }) fun d =>
      { d with
      per.opened := [1], med.ch := (List.range 16).map fun c => (c, { (default : Channel) with mcmd := 64, mwd := 64 }),
      can.lines := d.can.lines.mapAll fun _ (c : CanLine) => { c with want := true } }) (fun s => InService s ∧
      s.dev.pickWriteBack = some ((16 * canSet (serving.dev.nodeAddr ⟨1, 8, 0⟩)) + 2) ∧ (s.dev.can1 ((16 * canSet
      (serving.dev.nodeAddr ⟨1, 8, 0⟩)) + 2)).node = ⟨1, 8, 0⟩ ∧ s.dev.poisonAbove ⟨1, 8, 0⟩ = false ∧ s.dev.retired
      (channelOf (s.dev.nodeAddr ⟨1, 8, 0⟩)) = false ∧ 1 ∈ s.dev.per.opened ∧ (s.dev.zone 1).key = some 77 ∧ nextCtr
      (s.dev.zone 1).root ≤ Config.maxCount ∧ s.dev.can.maint = [] ∧ s.dev.per.adopt = none) := by
  refine ⟨?_, ?_, ?_, ?_, ?_, ?_, ?_, ?_, ?_, ?_, ?_⟩
  · decide +kernel
  · decide +kernel
  · decide +kernel
  · decide +kernel
  · decide +kernel
  · exact ⟨by decide +kernel, by and_intros <;> decide +kernel⟩
  · decide +kernel
  · decide +kernel
  · decide +kernel
  · decide +kernel
  · decide +kernel

/-- `Obligations.CheckpointPhases`. -/
theorem meets_checkpoint_phases :
    Meets (given (on serving fun d => { d with per.armed := true }) 1 0x48 [] []) (fun s => Runs 1 0 cCheckpoint noRules
      (ready 0x48 [] []) s ∧ s.dev.per.armed = true ∧ s.dev.ckptFree = true ∧ s.dev.poolWhole = false ∧ s.dev.del.prepared =
      none ∧ s.dev.del.reconReq = false) ∧
    Meets (given serving 1 0x48 [] []) (fun s => Runs 1 0 cCheckpoint noRules (ready 0x48 [] []) s ∧ s.dev.per.armed = false)
      ∧
    Meets (on (given (on serving fun d => { d with per.armed := true }) 1 0x48 [] []) fun d => { d with mgt.pfWarn := true })
      (fun s => Runs 1 0 cCheckpoint noRules (ready 0x48 [] []) s ∧ s.dev.per.armed = true ∧ s.dev.mgt.pfWarn = true) ∧
    Meets (on (on serving fun d => { d with per.armed := true }) fun d =>
      { d with mgt.tref := 240 * 60000000 * Config.trefPerUs }) (fun s => InService s ∧ s.dev.per.armed = true ∧
      s.dev.ckptFree = true ∧ s.dev.poolWhole = false ∧ s.dev.passed s.dev.per.timerAt (s.dev.per.periodMin * 60000000) =
      true) ∧
    Meets (on (on serving fun d => { d with per.armed := true }) fun d => { d with
      per.ckpt := some { (default : Ckpt) with
      phase := .preFlush, cmds := [(1, 0)], want := [17], seq := 4, copy := 1, cutTime := 77 }, per.epoch := 5 }) (fun s =>
      InService s ∧ s.dev.per.ckpt = some { (default : Ckpt) with
      phase := .preFlush, cmds := [(1, 0)], want := [17], seq := 4, copy := 1, cutTime := 77 } ∧ (s.dev.can1 17).dirty =
      false) ∧
    Meets (on (on serving fun d => { d with per.armed := true }) fun d => { d with
      per.ckpt := some { (default : Ckpt) with
      phase := .hold, cmds := [(1, 0)], want := [], seq := 4, copy := 1, cutTime := 77 }, per.epoch := 5 }) (fun s =>
      InService s ∧ s.dev.per.ckpt = some { (default : Ckpt) with
      phase := .hold, cmds := [(1, 0)], want := [], seq := 4, copy := 1, cutTime := 77 } ∧ s.dev.cutReady = true ∧ Draws s ∧
      ((List.range 8194).all fun r => !s.dev.retired (channelOf (s.dev.imageLine 1 r))) = true) ∧
    Meets (on (on serving fun d => { d with per.armed := true }) fun d => { d with
      per.ckpt := some { (default : Ckpt) with
      phase := .image, cmds := [(1, 0)], want := [], seq := 4, copy := 1, cutTime := 77 }, per.epoch := 5 }) (fun s =>
      InService s ∧ s.dev.per.ckpt = some { (default : Ckpt) with
      phase := .image, cmds := [(1, 0)], want := [], seq := 4, copy := 1, cutTime := 77 } ∧ s.dev.up domAnv = true ∧
      s.dev.per.anvil = none ∧ s.dev.per.restore = none) ∧
    Meets (on (on serving fun d => { d with per.armed := true }) fun d => { d with
      per.ckpt := some { (default : Ckpt) with
      phase := .anvil, cmds := [(1, 0)], want := [], seq := 4, copy := 1, cutTime := 77, word := 16 }, per.epoch := 5 }) (fun
      s => InService s ∧ s.dev.per.ckpt = some { (default : Ckpt) with
      phase := .anvil, cmds := [(1, 0)], want := [], seq := 4, copy := 1, cutTime := 77, word := 16 } ∧ s.dev.per.anvil =
      none) := by
  refine ⟨?_, ?_, ?_, ?_, ?_, ?_, ?_, ?_⟩ <;> decide +kernel

/-- `Obligations.AnvilAndRestore`. -/
theorem meets_anvil_and_restore :
    Meets (given (on serving fun d => { d with frs.zones := [], fab.portEn := 0 }) 0 8 [] []) (fun s => Runs 0 0
      cAnchorRestore noRules (ready 8 [] []) s ∧ s.dev.measuring = false ∧ s.dev.per.armed = false ∧ s.dev.restoring = false ∧
      s.dev.frs.zones = [] ∧ s.dev.fab.portEn = 0 ∧ s.dev.key.drbg.instantiated = true ∧ s.dev.up domAnv = true ∧
      s.dev.per.anvil = none) ∧
    Meets (given (on serving fun d => { d with per.armed := true }) 0 8 [] []) (fun s => Runs 0 0 cAnchorRestore noRules
      (ready 8 [] []) s ∧ s.dev.measuring = false ∧ s.dev.per.armed = true) ∧
    Meets (on serving fun d => { d with
      per.restore := some { (default : Restore) with stage := .records, words := [some 1] }, per.anvil := some ⟨false, 3, 0,
      5, false⟩ }) (fun s => InService s ∧ s.dev.per.anvil = some ⟨false, 3, 0, 5, false⟩ ∧ s.dev.up domAnv = true ∧
      s.dev.per.restore = some { (default : Restore) with stage := .records, words := [some 1] }) ∧
    Meets (on serving fun d => { d with
      per.armed := true, per.ckpt :=
      some { (default : Ckpt) with phase := .anvil, seq := 4, copy := 1, cutTime := 77, word := 3 }, per.anvil := some ⟨true,
      3, 0, 5, false⟩, mgt.tref := 60000 * Config.trefPerUs }) (fun s => InService s ∧ s.dev.per.anvil = some ⟨true, 3, 0, 5,
      false⟩ ∧ s.dev.up domAnv = true ∧ s.dev.per.restore = none ∧ s.dev.per.ckpt =
      some { (default : Ckpt) with phase := .anvil, seq := 4, copy := 1, cutTime := 77, word := 3 }) ∧
    Meets (on serving fun d => { d with
      per.armed := true, per.ckpt :=
      some { (default : Ckpt) with phase := .anvil, seq := 4, copy := 1, cutTime := 77, word := 3 }, per.anvil := some ⟨true,
      3, 0, 5, false⟩, mgt.tref := 60000 * Config.trefPerUs }) (fun s => InService s ∧ s.dev.per.anvil = some ⟨true, 3, 0, 5,
      false⟩ ∧ s.dev.up domAnv = true ∧ s.dev.per.restore = none ∧ s.dev.per.ckpt =
      some { (default : Ckpt) with phase := .anvil, seq := 4, copy := 1, cutTime := 77, word := 3 } ∧ s.dev.passed 5 50000 =
      true) ∧
    Meets (on serving fun d => { d with per.arming := some 0 }) (fun s => InService s ∧ s.dev.per.arming = some 0 ∧
      s.dev.per.armBad = false) ∧
    Meets (on serving fun d => { d with per.arming := some 9, per.armBad := true }) (fun s => InService s ∧ s.dev.per.arming =
      some 9 ∧ s.dev.per.armBad = true) ∧
    Meets (on serving fun d => { d with per.anvil := some ⟨true, 3, 7, 9, true⟩ }) (fun s => s.dev.up domAnv = true ∧ s.dev.up
      domCore = true ∧ s.flt.banks.wf = true ∧ 1 ∉ (s.flt.banks.get bPer).mask ∧ 1 ∉ (s.flt.banks.get bPer).live ∧
      s.dev.per.anvil = some ⟨true, 3, 7, 9, true⟩) ∧
    Meets ({ (on serving fun d => { d with per.anvil := some ⟨true, 3, 7, 9, false⟩ }) with
      safe := { Safe.reset with active := true, cls := 1 } }) (fun s => s.dev.up domAnv = true ∧ s.dev.up domCore = true ∧
      s.flt.banks.wf = true ∧ 1 ∉ (s.flt.banks.get bPer).mask ∧ 1 ∉ (s.flt.banks.get bPer).live ∧ s.dev.per.anvil = some
      ⟨true, 3, 7, 9, false⟩ ∧ s.safe.active = true) ∧
    Meets (on serving fun d => { d with per.anvil := some ⟨false, 3, 7, 9, true⟩ }) (fun s => s.dev.up domAnv = true ∧
      s.dev.up domCore = true ∧ s.flt.banks.wf = true ∧ 1 ∉ (s.flt.banks.get bPer).mask ∧ 1 ∉ (s.flt.banks.get bPer).live ∧
      s.dev.per.anvil = some ⟨false, 3, 7, 9, true⟩) ∧
    Meets ({ (on serving fun d => { d with per.anvil := some ⟨false, 3, 7, 9, false⟩ }) with
      safe := { Safe.reset with active := true, cls := 1 } }) (fun s => s.dev.up domAnv = true ∧ s.dev.up domCore = true ∧
      s.flt.banks.wf = true ∧ 1 ∉ (s.flt.banks.get bPer).mask ∧ 1 ∉ (s.flt.banks.get bPer).live ∧ s.dev.per.anvil = some
      ⟨false, 3, 7, 9, false⟩ ∧ s.safe.active = true) := by
  refine ⟨?_, ?_, ?_, ?_, ?_, ?_, ?_, ?_, ?_, ?_, ?_⟩ <;> decide +kernel

/-- `Obligations.LaneRows`. -/
theorem meets_lane_rows :
    Meets (on (on serving fun d => { d with lan.lanes := d.lan.lanes.put 0 { (default : Lane) with st := .active } }) fun d =>
      { d with mgt.tref := 1000 * Config.trefPerUs }) (fun s => InService s ∧ (s.dev.lane 0).st.tested = true ∧ s.dev.passed
      (s.dev.lane 0).katAt (s.dev.lan.katPeriod - 2) = true) ∧
    Meets (on serving fun d =>
      { d with lan.lanes := d.lan.lanes.put 0 { (default : Lane) with st := .active, katRun := true } }) (fun s => InService s
      ∧ s.dev.up (clusterOf 0) = true ∧ (s.dev.lane 0).st = .active) ∧
    Meets (on serving fun d => { d with
      lan.lanes := d.lan.lanes.put 0 { (default : Lane) with
      st := .active, katRun := true, slots := [(3, keySet ⟨.loaded, 11, 12, 5⟩)], regs := [(1, 9)] } }) (fun s => InService s
      ∧ s.dev.up (clusterOf 0) = true ∧ (s.dev.lane 0).st = .active ∧ [] ≠ katExpected katVec) ∧
    Meets (on serving fun d => { d with
      lan.lanes := d.lan.lanes.put 0 { (default : Lane) with st := .quarantined, katRun := true } }) (fun s => InService s ∧
      s.dev.up (clusterOf 0) = true ∧ (s.dev.lane 0).st = .quarantined ∧ (s.dev.lane 0).wasStandby = false) ∧
    Meets (on serving fun d => { d with lan.lanes := d.lan.lanes.put 0 { (default : Lane) with st := .probation } }) (fun s =>
      InService s ∧ (s.dev.lane 0).st = .probation ∧ s.dev.recentFailure 0 = false) ∧
    Meets (on (on serving fun d => { d with
      lan.lanes := d.lan.lanes.put 0 { (default : Lane) with st := .standby, failedAt := some 9 } }) fun d =>
      { d with mgt.tref := 200 * Config.trefPerUs }) (fun s => InService s ∧ (s.dev.lane 0).st = .standby ∧
      s.dev.recentFailure 0 = true ∧ s.dev.passed (s.dev.lane 0).katAt 100 = true) ∧
    Meets (on serving fun d => { d with
      mgt.clusterGate := 2, lan.lanes := [(4, { (default : Lane) with st := .active }), (5,
      { (default : Lane) with st := .standby }), (6, { (default : Lane) with st := .retired }), (7,
      { (default : Lane) with st := .disabled })] }) (fun s => s.dev.mgt.clusterGate.getLsbD 1 = true ∧ s.dev.up 1 = true ∧
      s.dev.clusterHolds 1 = false ∧ ∀ j ∈ List.range 4, (s.dev.lane (4 * 1 + j)).katRun = false ∧ (s.dev.lane (4 * 1 + j)).st
      ≠ .auditor ∧ (s.dev.lane (4 * 1 + j)).st ≠ .off) ∧
    Meets (on serving fun d => { d with
      mgt.clusterGate := 2, mgt.ready := false, lan.lanes := [(4, { (default : Lane) with st := .active }), (5,
      { (default : Lane) with st := .standby }), (6, { (default : Lane) with st := .retired }), (7,
      { (default : Lane) with st := .disabled })] }) (fun s => s.dev.mgt.clusterGate.getLsbD 1 = true ∧ s.dev.up 1 = true ∧
      s.dev.clusterHolds 1 = false ∧ ∀ j ∈ List.range 4, (s.dev.lane (4 * 1 + j)).katRun = false ∧ (s.dev.lane (4 * 1 + j)).st
      ≠ .auditor ∧ (s.dev.lane (4 * 1 + j)).st ≠ .off) ∧
    Meets (on serving fun d => { d with
      mgt.ready := false, mgt.phase := .drbg, tap := { Tap.reset with
      trstN := true, ir := 0x10, sibReg := true, sibKat := true, kBusy := true, kLane := 1 }, lan.lanes := [(1,
      { (default : Lane) with st := .active, katRun := true, katHold := true })] }) (fun s => (s.dev.mgt.ready = false ∨
      s.safe.active = true) ∧ s.dev.up (clusterOf 1) = true ∧ (s.dev.lane 1).st = .active ∧ (s.dev.lane 1).katRun = true ∧
      s.dev.tap.kBusy = true ∧ s.dev.tap.kLane.toNat = 1) ∧
    Meets
      ({ (on serving fun d => { d with tap := { Tap.reset with trstN := true, ir := 0x10, sibReg := true, sibKat := true, kBusy := true, kLane := 1 }, lan.lanes := [(1, { (default : Lane) with st := .active, katRun := true, katHold := true })] }) with
      safe := { Safe.reset with active := true, cls := 1 } }) (fun s => (s.dev.mgt.ready = false ∨ s.safe.active = true) ∧
      s.dev.up (clusterOf 1) = true ∧ (s.dev.lane 1).st = .active ∧ (s.dev.lane 1).katRun = true ∧ s.dev.tap.kBusy = true ∧
      s.dev.tap.kLane.toNat = 1) := by
  refine ⟨?_, ?_, ?_, ?_, ?_, ?_, ?_, ?_, ?_, ?_⟩ <;> decide +kernel

/-- `Obligations.PowerAndReset`. -/
theorem meets_power_and_reset :
    Meets ({ serving with safe := { Safe.reset with active := true, cls := 1 } }) (fun s => s.dev.mgt.pwrGood = true ∧
      s.safe.active = true) ∧
    Meets ({ (on serving fun d => { d with mgt.pwrGood := false }) with
      safe := { Safe.reset with active := true, cls := 1 } }) (fun s => s.dev.mgt.pwrGood = false) ∧
    Meets
      ({ (on (having serving (access 6)) fun d => { d with mgt.tref := 55555, mgt.loHeld := [(9, 4)], mgt.hiHeld := [(8, 5)], mgt.clusterGate := 3, del.inPool := true, del.poolId := 5, del.group := some 2, del.links := [(1, { (default : Link) with up := true, st := .up, version := 2, errs := 4 })], del.members := [(9, { (default : Member) with st := .member })], qmg.wrOut := [(3, some ⟨0x20030, [], 1, .completion 1 0 true, 0, 0⟩)], qmg.vecs := [(9, { (default : Vec) with n := 1, loaded := true, addr := 0x88, data := 5 })], qmg.vecBase := 64, qmg.cfgIgn := true }) with
      flt.banks := [(7, { (default : Bank) with first := some ⟨true, false, 1, 0, 5⟩, mask := [3] }), (11,
      { (default : Bank) with mask := [0] })] }) (fun s => s.dev.mgt.sysRstN = true ∧ s.defers = false) ∧
    Meets
      ({ (on (having serving (access 6)) fun d => { d with mgt.tref := 55555, mgt.loHeld := [(9, 4)], mgt.hiHeld := [(8, 5)], mgt.clusterGate := 3, del.inPool := true, del.poolId := 5, del.group := some 2, del.links := [(1, { (default : Link) with up := true, st := .up, version := 2, errs := 4 })], del.members := [(9, { (default : Member) with st := .member })], qmg.wrOut := [(3, some ⟨0x20030, [], 1, .completion 1 0 true, 0, 0⟩)], qmg.vecs := [(9, { (default : Vec) with n := 1, loaded := true, addr := 0x88, data := 5 })], qmg.vecBase := 64, qmg.cfgIgn := true }) with
      flt.banks := [(7, { (default : Bank) with first := some ⟨true, false, 1, 0, 5⟩, mask := [3] }), (11,
      { (default : Bank) with mask := [0] })] }) (fun s => s.dev.mgt.pwrGood = true) ∧
    Meets (serving) (fun s => s.dev.mgt.sysRstN = true ∧ s.defers = false) ∧
    Meets (on serving fun d => { d with mgt.pfWarn := true, mgt.pfw := .flushing }) (fun s => s.dev.mgt.sysRstN = true ∧
      s.defers = true) ∧
    Meets (on State.reset fun d => { d with mgt.sysRstN := false }) (fun s => s.dev.mgt.sysRstN = false ∧
      s.dev.mgt.rstDeferred = false ∧ s.dev.tap.ir ≠ 0 ∧ s.dev.tap.ir ≠ 3 ∧ s.dev.mgt.pwrGood = true ∧ s.dev.mgt.phase = .fuse
      ∧ s.dev.inReset domTref = true) := by
  refine ⟨?_, ?_, ?_, ?_, ?_, ?_, ?_⟩ <;> decide +kernel

/-- `Obligations.DomainResets`. -/
theorem meets_domain_resets :
    Meets (serving) (fun s => s.dev.up (domFrx 0) = true) ∧
    Meets (on serving fun d =>
      { d with mgt.fpRst := 1, mgt.domReset := domBit (domFrx 0) ||| domBit (domFtx 0), fab.ports := [] }) (fun s =>
      s.dev.mgt.fpRst.getLsbD 0 = true ∧ s.dev.stepFive = true ∧ s.dev.clocked (domFrx 0) = true ∧ s.dev.clocked (domFtx 0) =
      true ∧ s.safe.active = false ∧ s.dev.portOpen 0 = true ∧ s.dev.port 0 = default ∧ s.dev.fab.holding = false ∧
      (s.dev.mgt.clkMeas.get (domFrx 0)).lost = false ∧ (s.dev.mgt.clkMeas.get (domFtx 0)).lost = false) ∧
    Meets (serving) (fun s => s.dev.mgt.mcRst.getLsbD 5 = false ∧ s.dev.mgt.sysRstN = true ∧ (s.dev.chan 5).retired = false) ∧
    Meets (on serving fun d => { d with
      mgt.mcRst := 32, mgt.domReset := domBit (domMch 5), med.ch := [(5,
      { (default : Channel) with retired := true, cause := 2 })] }) (fun s => s.dev.stepFive = true ∧ s.dev.inReset (domMch 5)
      = true) ∧
    Meets (on serving fun d => { d with qmg.wrOut := [(3, some ⟨0x20030, [], 1, .completion 1 0 true, 0, 0⟩)] }) (fun s =>
      s.dev.inReset domHdma = false) ∧
    Meets (on serving fun d => { d with mgt.hdmaRst := true, mgt.domReset := domBit domHdma }) (fun s => s.dev.mgt.hdmaRst =
      true ∧ s.dev.stepFive = true ∧ s.dev.clocked domHdma = true) ∧
    Meets (on serving fun d => { d with
      del.inPool := true, del.poolId := 5, del.group := some 2, del.gstate := .whole, del.ident := 0x900000007,
      del.linksUse := 15, del.links := [(1, { (default : Link) with up := true, st := .up, version := 3, errs := 4 })] }) (fun
      s => (s.dev.link 1).st = .up) ∧
    Meets (on (on serving fun d => { d with
      del.inPool := true, del.poolId := 5, del.group := some 2, del.gstate := .whole, del.ident := 0x900000007,
      del.linksUse := 15, del.links := [(1, { (default : Link) with up := true, st := .down, version := 3 })] }) fun d =>
      { d with mgt.pelRst := 2, mgt.domReset := domBit (domPel 1) }) (fun s => s.dev.stepFive = true ∧ s.dev.inReset (domPel
      1) = true ∧ s.dev.del.inPool = true ∧ s.dev.del.linksUse.getLsbD 1 = true ∧ (s.dev.link 1).up = true ∧
      (s.dev.mgt.clkMeas.get (domPel 1)).lost = false) ∧
    Meets (on serving fun d => { d with mgt.sysRstN := false, mgt.rstDeferred := true }) (fun s => s.dev.mgt.mcRst.getLsbD 5 =
      false ∧ s.dev.mgt.rstDeferred = true ∧ (s.dev.chan 5).retired = false) := by
  refine ⟨?_, ?_, ?_, ?_, ?_, ?_, ?_, ?_, ?_⟩ <;> decide +kernel

/-- `Obligations.ClocksAndFuses`. -/
theorem meets_clocks_and_fuses :
    Meets (serving) (fun s => s.dev.up 3 = true ∧ s.dev.up domCore = true) ∧
    Meets (serving) (fun s => s.dev.inReset 3 = false ∧ s.dev.inReset domTref = false ∧ (500 : BitVec 16).toNat ≤ freqLimit 3)
      ∧
    Meets (serving) (fun s => s.dev.inReset 3 = false ∧ s.dev.inReset domTref = false ∧ freqLimit 3 < (30000 : BitVec
      16).toNat ∧ s.dev.clockLostAt 3 = false) ∧
    Meets (on State.reset fun d => { d with
      mgt.domReset := 0x3FFFFFFFFFFFFFF#60, mgt.clkOk := 0x600000000000000#60 ||| domBit domTref, mgt.fuseIdx := 2,
      mgt.fuseReq := true, mgt.fuseFirst := [7, 8], mgt.tref := 1000 }) (fun s => s.dev.mgt.phase = .fuse ∧ s.dev.up domTref =
      true ∧ s.dev.mgt.fuseReq = true ∧ s.dev.mgt.fuseIdx < 11) ∧
    Meets (on State.reset fun d => { d with
      mgt.domReset := 0x3FFFFFFFFFFFFFF#60, mgt.clkOk := 0x600000000000000#60 ||| domBit domTref, mgt.fuseIdx := 2,
      mgt.fuseReq := false, mgt.fuseFirst := [7, 8, 9], mgt.tref := 1000 }) (fun s => s.dev.mgt.phase = .fuse ∧ s.dev.up
      domTref = true ∧ s.dev.mgt.fuseReq = false ∧ s.dev.mgt.fuseIdx < 21) ∧
    Meets (on State.reset fun d => { d with
      mgt.domReset := 0x3FFFFFFFFFFFFFF#60, mgt.clkOk := 0x600000000000000#60 ||| domBit domTref, mgt.fuseIdx := 11,
      mgt.fuseReq := true, mgt.fuseFirst := [7, 8], mgt.tref := 1000 }) (fun s => s.dev.mgt.phase = .fuse ∧ s.dev.up domTref =
      true ∧ s.dev.mgt.fuseReq = true ∧ 11 ≤ s.dev.mgt.fuseIdx ∧ s.dev.mgt.fuseIdx < 22 ∧ s.dev.mgt.fuseFirst.getD
      (s.dev.mgt.fuseIdx - 11) 0 ≠ 9 ∧ s.dev.inReset domCore = true ∧ s.safe.active = false) ∧
    Meets (on State.reset fun d => { d with
      mgt.domReset := 0x3FFFFFFFFFFFFFF#60, mgt.clkOk := 0x600000000000000#60 ||| domBit domTref, mgt.fuseIdx := 4,
      mgt.fuseReq := true, mgt.fuseFirst := [7, 8], mgt.tref := 1000 }) (fun s => s.dev.mgt.phase = .fuse ∧ s.dev.up domTref =
      true ∧ s.dev.mgt.fuseIdx < 22 ∧ s.dev.passed s.dev.mgt.fuseAt 2 = true ∧ s.dev.inReset domCore = true ∧ s.safe.active =
      false) := by
  refine ⟨?_, ?_, ?_, ?_, ?_, ?_, ?_⟩ <;> decide +kernel

/-- `Obligations.PowerUpPhases`. -/
theorem meets_power_up_phases :
    Meets (on State.reset fun d => { d with
      mgt.domReset := 0x3FFFFFFFFFFFFFF#60, mgt.clkOk := 0x600000000000000#60 ||| domBit domTref, mgt.fuseIdx := 22,
      mgt.fuseReq := false, mgt.fuseFirst := [0, 0, 0, 0, 0, 0, 0, 0, 10, 0, 0], mgt.tref := 1000 }) (fun s => s.dev.mgt.phase
      = .fuse ∧ s.dev.inReset domTref = false ∧ s.dev.mgt.pfWarn = false ∧ s.dev.mgt.fuseIdx = 22 ∧ laneFused
      s.dev.mgt.fuseFirst 0 = false) ∧
    Meets (on serving fun d => { d with
      mgt.phase := .sramInit, mgt.ready := false, key.drbg := default, mgt.domReset := domBit (domFrx 0) ||| domBit (domFtx 0)
      ||| domBit (domMch 3) ||| domBit (domPel 1) ||| domBit domHdma ||| domBit domAnv }) (fun s => s.dev.mgt.phase =
      .sramInit ∧ s.dev.inReset domTref = false ∧ s.dev.mgt.pfWarn = false ∧ s.dev.mgt.fpRst.getLsbD 0 = false ∧
      s.dev.mgt.mcRst.getLsbD 3 = false ∧ s.dev.mgt.pelRst.getLsbD 1 = false ∧ s.dev.mgt.hdmaRst = false) ∧
    Meets (on serving fun d => { d with
      mgt.phase := .selftest, mgt.ready := false, key.drbg := { (default : Drbg) with st := .testing }, key.derived := none,
      lan.lanes := [] }) (fun s => (∀ i ∈ List.range 36, (s.dev.lane i).st = .off) ∧ s.dev.mgt.phase = .selftest ∧
      s.dev.inReset domTref = false ∧ s.dev.mgt.pfWarn = false ∧ s.safe.active = false ∧ (s.dev.key.ent.all fun p => p.2.st !=
      .startup) = true ∧ (s.dev.lane 0).st = .off ∧ s.dev.sourceOk = true) ∧
    Meets (on serving fun d => { d with
      mgt.phase := .selftest, mgt.ready := false, key.drbg := { (default : Drbg) with st := .testing }, key.derived := none,
      lan.lanes := [], key.ent := [(0, ⟨.failed, 0, 0⟩)] }) (fun s => (∀ i ∈ List.range 36, (s.dev.lane i).st = .off) ∧
      s.dev.mgt.phase = .selftest ∧ s.dev.inReset domTref = false ∧ s.dev.mgt.pfWarn = false ∧ s.safe.active = false ∧
      (s.dev.key.ent.all fun p => p.2.st != .startup) = true ∧ (s.dev.lane 0).st = .off ∧ s.dev.sourceOk = false) ∧
    Meets (on serving fun d => { d with mgt.phase := .drbg, mgt.ready := false }) (fun s => s.dev.mgt.phase = .drbg ∧
      s.dev.inReset domTref = false ∧ s.dev.mgt.pfWarn = false ∧ s.safe.active = false ∧ s.dev.key.drbg.st = .ready ∧
      s.dev.key.derived.isSome = true ∧ s.dev.activeLanes ≠ 0) ∧
    Meets (on serving fun d => { d with mgt.phase := .fuse, mgt.ready := false, mgt.pfWarn := true, mgt.fuseIdx := 22 }) (fun
      s => s.dev.inReset domTref = false ∧ s.dev.mgt.pfWarn = true ∧ s.dev.mgt.phase = .fuse ∧ s.dev.mgt.fuseIdx = 22) ∧
    Meets (on serving fun d => { d with mgt.phase := .sramInit, mgt.ready := false, mgt.pfWarn := true }) (fun s =>
      s.dev.inReset domTref = false ∧ s.dev.mgt.pfWarn = true ∧ s.dev.mgt.phase = .sramInit) ∧
    Meets (on serving fun d => { d with mgt.phase := .selftest, mgt.ready := false, mgt.pfWarn := true }) (fun s =>
      s.dev.inReset domTref = false ∧ s.dev.mgt.pfWarn = true ∧ s.dev.mgt.phase = .selftest ∧ (s.dev.key.ent.all fun p =>
      p.2.st != .startup) = true) ∧
    Meets (on serving fun d => { d with mgt.phase := .drbg, mgt.ready := false, mgt.pfWarn := true }) (fun s => s.dev.inReset
      domTref = false ∧ s.dev.mgt.pfWarn = true ∧ s.dev.mgt.phase = .drbg ∧ s.safe.active = false ∧ s.dev.key.drbg.st = .ready
      ∧ s.dev.key.derived.isSome = true ∧ s.dev.activeLanes ≠ 0) := by
  refine ⟨?_, ?_, ?_, ?_, ?_, ?_, ?_, ?_, ?_⟩ <;> decide +kernel

/-- `Obligations.PowerFailRows`. -/
theorem meets_power_fail_rows :
    Meets (having serving { access 6 with stage := .parked, inFlight := false, place := none }) (fun s => s.safe.active =
      false ∧ s.dev.mgt.pfWarn = false ∧ s.dev.up domTref = true ∧ s.dev.mgt.ready = true ∧ (s.dev.acc 6).isSome = true) ∧
    Meets (on serving fun d => { d with mgt.ready := false }) (fun s => s.safe.active = false ∧ s.dev.mgt.pfWarn = false ∧
      s.dev.up domTref = true ∧ s.dev.mgt.ready = false) ∧
    Meets (on serving fun d => { d with mgt.pfWarn := true, mgt.pfw := .flushing }) (fun s => s.safe.active = false ∧
      s.dev.flushEnded = true ∧ s.dev.mgt.rstDeferred = false) ∧
    Meets (on serving fun d =>
      { d with mgt.pfWarn := true, mgt.pfw := .flushing, mgt.sysRstN := false, mgt.rstDeferred := true }) (fun s =>
      s.dev.mgt.rstDeferred = true ∧ s.dev.mgt.sysRstN = false ∧ s.dev.flushEnded = true) ∧
    Meets ({ (on serving fun d => { d with mgt.sysRstN := false, mgt.rstDeferred := true }) with
      safe := { Safe.reset with active := true, cls := 1 } }) (fun s => s.dev.mgt.rstDeferred = true ∧ s.dev.mgt.sysRstN =
      false ∧ s.safe.active = true) ∧
    Meets (on serving fun d => { d with mgt.pfWarn := true, mgt.pfw := .done, per.pfwDone := true }) (fun s => s.safe.active =
      false ∧ s.dev.mgt.pfWarn = true ∧ s.dev.mgt.pfw = .done) := by
  refine ⟨?_, ?_, ?_, ?_, ?_, ?_⟩ <;> decide +kernel

/-- `Obligations.TestAccessPort`. -/
theorem meets_test_access_port :
    Meets (on serving fun d => { d with tap := { Tap.reset with trstN := true, ir := 0x10, sibReg := true, sibKat := true } })
      (fun s => s.dev.tap.trstN = true) ∧
    Meets (on serving fun d => { d with tap := Tap.reset, mgt.domReset := domBit domDbg }) (fun s => s.dev.tap.trstN = false)
      ∧
    Meets (on serving fun d => { d with
      tap := { Tap.reset with trstN := true, ir := 0x10, sibReg := true, sibKat := true }, mgt.sysRstN := false }) (fun s =>
      s.dev.tapOn = true ∧ s.dev.mgt.sysRstN = false) ∧
    Meets (on serving fun d => { d with tap := { Tap.reset with trstN := true, ir := 0x10, sibReg := true, sibKat := true } })
      (fun s => s.dev.tapOn = true) ∧
    Meets (on serving fun d => { d with tap := { Tap.reset with trstN := true, ir := 0x10, sibReg := true, sibKat := true } })
      (fun s => s.dev.tapOn = true ∧ (0xFF : BitVec 8) ∉ [0#8, 1#8, 2#8, 3#8, 0x10#8]) ∧
    Meets (on serving fun d => { d with tap := { Tap.reset with trstN := true, ir := 0x10, sibReg := true, sibKat := true } })
      (fun s => s.dev.tapOn = true ∧ (0x04 : BitVec 8) ∉ [0#8, 1#8, 2#8, 3#8, 0x10#8]) ∧
    Meets (on serving fun d => { d with tap := { Tap.reset with trstN := true, ir := 0x10, sibReg := true, sibKat := true } })
      (fun s => s.dev.tapOn = true ∧ (0x11 : BitVec 8) ∉ [0#8, 1#8, 2#8, 3#8, 0x10#8]) ∧
    Meets (on serving fun d => { d with tap := { Tap.reset with trstN := true, ir := 0x10, sibReg := true, sibKat := true } })
      (fun s => s.dev.tapOn = true ∧ s.dev.dbgDisabled = false) ∧
    Meets (on serving fun d => { d with
      tap := { Tap.reset with trstN := true, ir := 0x10, sibReg := true, sibKat := true }, mgt.fuse := [0, 0, 0, 0, 0, 0, 0,
      0, 11, 0x12345678, 0] }) (fun s => s.dev.tapOn = true ∧ s.dev.dbgDisabled = true) ∧
    Meets (on serving fun d => { d with tap := { Tap.reset with trstN := true, ir := 0x10, sibReg := true, sibKat := true } })
      (fun s => s.dev.tapOn = true ∧ s.dev.tap.ir = 0x10 ∧ s.dev.dbgDisabled = false ∧ s.dev.tap.sibReg = true ∧
      s.dev.tap.sibKat = true ∧ s.dev.lifecycle ≠ 3 ∧ s.dev.up domReg = true ∧ (∀ k ∈ regDoms 0xA0000, s.dev.up k = true) ∧
      s.dev.tap.rHeld = []) ∧
    Meets (on serving fun d => { d with
      tap := { Tap.reset with trstN := true, ir := 0x10, sibReg := true, sibKat := true }, mgt.domReset := domBit domCore })
      (fun s => s.dev.tapOn = true ∧ s.dev.tap.ir = 0x10 ∧ s.dev.dbgDisabled = false ∧ s.dev.tap.sibReg = true ∧
      s.dev.tap.sibKat = true ∧ s.dev.lifecycle ≠ 3 ∧ (s.regAt 0xA0000).isSome = true ∧ (∃ k ∈ regDoms 0xA0000, s.dev.up k =
      false)) ∧
    Meets (on serving fun d => { d with
      tap := { Tap.reset with trstN := true, ir := 0x10, sibReg := true, sibKat := true }, mgt.domReset := domBit domReg })
      (fun s => s.dev.tapOn = true ∧ s.dev.tap.ir = 0x10 ∧ s.dev.dbgDisabled = false ∧ s.dev.tap.sibReg = true ∧
      s.dev.tap.sibKat = true ∧ s.dev.lifecycle ≠ 3 ∧ (s.regAt 0x10020).isSome = true ∧ regDoms 0x10020 = [] ∧ s.dev.up domReg
      = false) ∧
    Meets (on serving fun d => { d with
      tap := { Tap.reset with trstN := true, ir := 0x10, sibReg := true, sibKat := true }, mgt.fuse := [0, 0, 0, 0, 0, 0, 0,
      0, 4, 0x12345678, 0] }) (fun s => s.dev.tapOn = true ∧ s.dev.tap.ir = 0x10 ∧ s.dev.dbgDisabled = false ∧
      s.dev.tap.sibReg = true ∧ s.dev.tap.sibKat = true ∧ s.dev.lifecycle = 3 ∧ tapRefused 0x100000 = true) ∧
    Meets (on serving fun d => { d with tap := { Tap.reset with trstN := true, ir := 0x10, sibReg := true, sibKat := true } })
      (fun s => s.dev.tapOn = true ∧ s.dev.tap.ir = 0x10 ∧ s.dev.dbgDisabled = false ∧ s.dev.tap.sibReg = true ∧
      s.dev.tap.sibKat = true ∧ (s.dev.lane 1).st.startable = true) ∧
    Meets (on (on serving fun d =>
      { d with tap := { Tap.reset with trstN := true, ir := 0x10, sibReg := true, sibKat := true } }) fun d =>
      { d with tap.kBusy := true, tap.kLane := 0 }) (fun s => s.dev.tapOn = true ∧ s.dev.tap.ir = 0x10 ∧ s.dev.dbgDisabled =
      false ∧ s.dev.tap.sibReg = true ∧ s.dev.tap.sibKat = true ∧ (s.dev.lane 1).st.startable = true) ∧
    Meets (on serving fun d => { d with tap := { Tap.reset with trstN := true, ir := 0x10, sibReg := true, sibKat := true } })
      (fun s => s.dev.tapOn = true ∧ s.dev.tap.ir = 0x10 ∧ s.dev.dbgDisabled = false ∧ s.dev.tap.sibReg = true ∧
      s.dev.tap.sibKat = true) ∧
    Meets (on serving fun d => { d with tap := { Tap.reset with trstN := true, ir := 0x10, sibReg := true, sibKat := true } })
      (fun s => s.dev.tapOn = true ∧ s.dev.tap.ir = 0x10 ∧ s.dev.dbgDisabled = false ∧ s.dev.tap.sibReg = true ∧
      s.dev.tap.sibKat = true ∧ (s.dev.lane 9).st.startable = false) := by
  refine ⟨?_, ?_, ?_, ?_, ?_, ?_, ?_, ?_, ?_, ?_, ?_, ?_, ?_, ?_, ?_, ?_, ?_⟩ <;> decide +kernel

/-- `Obligations.PoolCommands`. -/
theorem meets_pool_commands :
    Meets (given serving 0 0xB [(8, 5), (9, 0xFF), (10, 3), (16, 0x900000007)] []) (fun s => Runs 0 0 cPoolJoin noRules (ready
      0xB [(8, 5), (9, 0xFF), (10, 3), (16, 0x900000007)] []) s ∧ (s.dev.mgt.fuse.getD 8 0).getLsbD 3 = true ∧
      s.dev.del.inPool = false) ∧
    Meets (given serving 0 0xB [(8, 5), (9, 2), (10, 3), (16, 0x900000007)] []) (fun s => Runs 0 0 cPoolJoin noRules (ready
      0xB [(8, 5), (9, 2), (10, 3), (16, 0x900000007)] []) s ∧ (s.dev.mgt.fuse.getD 8 0).getLsbD 3 = true ∧ s.dev.del.inPool =
      false) ∧
    Meets (given (on serving fun d => { d with
      del.inPool := true, del.poolId := 5, del.group := some 2, del.gstate := .whole, del.ident := 0x900000007,
      del.linksUse := 15, del.links := [(1, { (default : Link) with up := true, st := .up, version := 3 })] }) 0 0xB [(8, 5),
      (9, 2), (10, 3), (16, 0x900000007)] []) (fun s => Runs 0 0 cPoolJoin noRules (ready 0xB [(8, 5), (9, 2), (10, 3), (16,
      0x900000007)] []) s ∧ s.dev.del.inPool = true) ∧
    Meets (given (on serving fun d => { d with
      del.inPool := true, del.poolId := 5, del.group := some 2, del.gstate := .whole, del.ident := 0x900000007,
      del.linksUse := 15, del.links := [(1, { (default : Link) with up := true, st := .up, version := 3 })], del.members :=
      [(9, { (default : Member) with st := .member, group := some 2 })] }) 0 0xC [] []) (fun s => Runs 0 0 cPoolLeave noRules
      (ready 0xC [] []) s ∧ s.dev.del.inPool = true ∧ s.dev.poolCkpt = false ∧ s.dev.stripedRekey = false ∧ s.dev.del.recon =
      none) ∧
    Meets (given serving 0 0xC [] []) (fun s => Runs 0 0 cPoolLeave noRules (ready 0xC [] []) s ∧ s.dev.del.inPool = false) ∧
    Meets (given (on serving fun d => { d with
      del.inPool := true, del.poolId := 5, del.group := some 2, del.gstate := .whole, del.ident := 0x900000007,
      del.linksUse := 15, del.links := [(1, { (default : Link) with up := true, st := .up, version := 3 })] }) 0 0xD [(8, 2)]
      []) (fun s => Runs 0 0 cPoolReconcile noRules (ready 0xD [(8, 2)] []) s ∧ s.dev.del.recon = none ∧ s.dev.del.inPool =
      true ∧ s.dev.del.group = some (BitVec.ofNat 4 (num (entry 0xD [(8, 2)]) 8 1)) ∧ s.dev.del.gstate ≠ .split) ∧
    Meets (given (on (on serving fun d => { d with
      del.inPool := true, del.poolId := 5, del.group := some 2, del.gstate := .whole, del.ident := 0x900000007,
      del.linksUse := 15, del.links := [(1, { (default : Link) with up := true, st := .up, version := 3 })] }) fun d =>
      { d with del.gstate := .split }) 0 0xD [(8, 2)] []) (fun s => Runs 0 0 cPoolReconcile noRules (ready 0xD [(8, 2)] []) s
      ∧ s.dev.del.gstate = .split ∧ s.dev.del.recon = none) := by
  refine ⟨?_, ?_, ?_, ?_, ?_, ?_, ?_⟩ <;> decide +kernel

/-- `Obligations.PoolCheckpointFrames`. -/
theorem meets_pool_checkpoint_frames :
    Meets (pooled) (fun s => steadyB s = true ∧ Acts 1 ⟨true, 9, 0, 3, 77, [2, 0x1234, 0x5]⟩ s ∧ s.dev.ofGroup ⟨true, 9, 0, 3,
      77, [2, 0x1234, 0x5]⟩ = true ∧ s.dev.poolAdmits = true ∧ s.dev.per.armed = true ∧ s.dev.ckptFree = true) ∧
    Meets (on pooled fun d => { d with per.ckpt := some { (default : Ckpt) with phase := .preFlush } }) (fun s => steadyB s =
      true ∧ Acts 1 ⟨true, 9, 0, 3, 77, [2, 0x1234, 0x5]⟩ s ∧ s.dev.ofGroup ⟨true, 9, 0, 3, 77, [2, 0x1234, 0x5]⟩ = true ∧
      s.dev.poolAdmits = true ∧ s.dev.per.armed = true ∧ s.dev.ckptFree = false) ∧
    Meets (on pooled fun d => { d with
      can.lines := [(17, { (default : CanLine) with
      st := .dirty, node := ⟨1, 8, 0⟩, ctr := List.replicate 8 1, written := true })], del.txn :=
      some { (default : Txn) with pck := 0x500001234, held := [], done := [], cut := false } }) (fun s => steadyB s = true ∧
      Acts 1 ⟨true, 9, 0, 3, 77, [2, 0x1234, 0x5]⟩ s ∧ s.dev.ofGroup ⟨true, 9, 0, 3, 77, [2, 0x1234, 0x5]⟩ = true ∧
      s.dev.cutReady = false ∧ s.dev.del.txn =
      some { (default : Txn) with pck := 0x500001234, held := [], done := [], cut := false } ∧ 5 ∈ s.dev.groupMembers ∧ 5 ∉
      insSorted 9 []) ∧
    Meets (on pooled fun d => { d with
      can.lines := [(17, { (default : CanLine) with
      st := .dirty, node := ⟨1, 8, 0⟩, ctr := List.replicate 8 1, written := true })], del.txn :=
      some { (default : Txn) with pck := 0x500001234, held := [5], done := [], cut := false }, per.ckpt :=
      some { (default : Ckpt) with phase := .preFlush, pck := some 0x500001234 } }) (fun s => steadyB s = true ∧ Acts 1 ⟨true,
      9, 0, 3, 77, [2, 0x1234, 0x5]⟩ s ∧ s.dev.ofGroup ⟨true, 9, 0, 3, 77, [2, 0x1234, 0x5]⟩ = true ∧ s.dev.cutReady = false ∧
      s.dev.del.txn = some { (default : Txn) with pck := 0x500001234, held := [5], done := [], cut := false } ∧ s.dev.per.ckpt
      = some { (default : Ckpt) with phase := .preFlush, pck := some 0x500001234 } ∧ (∀ m ∈ s.dev.groupMembers, m ∈ insSorted
      9 [5])) ∧
    Meets (on pooled fun d => { d with
      can.lines := [(17, { (default : CanLine) with
      st := .dirty, node := ⟨1, 8, 0⟩, ctr := List.replicate 8 1, written := true })], per.ckpt :=
      some { (default : Ckpt) with phase := .preFlush, pck := some 0x500001234 } }) (fun s => steadyB s = true ∧ Acts 1 ⟨true,
      9, 0, 3, 77, [2, 0x1234, 0x5]⟩ s ∧ s.dev.ofGroup ⟨true, 9, 0, 3, 77, [2, 0x1234, 0x5]⟩ = true ∧ s.dev.per.ckpt =
      some { (default : Ckpt) with phase := .preFlush, pck := some 0x500001234 } ∧
      ({ (default : Ckpt) with phase := .preFlush, pck := some 0x500001234 } : Ckpt).pool = some 0x500001234 ∧ s.dev.cutReady
      = false) ∧
    Meets (on pooled fun d => { d with
      del.txn := some { (default : Txn) with pck := 0x500001234, held := [5, 9], done := [], cut := true } }) (fun s =>
      steadyB s = true ∧ Acts 1 ⟨true, 9, 0, 3, 77, [0x102, 0x1234, 0x5]⟩ s ∧ s.dev.ofGroup ⟨true, 9, 0, 3, 77, [0x102,
      0x1234, 0x5]⟩ = true ∧ s.dev.del.txn =
      some { (default : Txn) with pck := 0x500001234, held := [5, 9], done := [], cut := true } ∧ 5 ∈ s.dev.groupMembers ∧ 5 ∉
      insSorted 9 []) ∧
    Meets (on pooled fun d => { d with
      del.txn := some { (default : Txn) with pck := 0x500001234, held := [5, 9], done := [5], cut := true } }) (fun s =>
      steadyB s = true ∧ Acts 1 ⟨true, 9, 0, 3, 77, [2, 0x1234, 0x5]⟩ s ∧ s.dev.ofGroup ⟨true, 9, 0, 3, 77, [2, 0x1234, 0x5]⟩
      = true ∧ s.dev.del.txn = some { (default : Txn) with pck := 0x500001234, held := [5, 9], done := [5], cut := true } ∧ (∀
      m ∈ s.dev.groupMembers, m ∈ insSorted 9 [5])) ∧
    Meets (on pooled fun d => { d with
      del.ckreq := true, del.txn := some { (default : Txn) with pck := 0x500001234, held := [5, 9], done := [5], cut := true }
      }) (fun s => steadyB s = true ∧ Acts 1 ⟨true, 9, 0, 3, 77, [2, 0x1234, 0x5]⟩ s ∧ s.dev.ofGroup ⟨true, 9, 0, 3, 77, [2,
      0x1234, 0x5]⟩ = true ∧ s.dev.del.txn =
      some { (default : Txn) with pck := 0x500001234, held := [5, 9], done := [5], cut := true } ∧ (∀ m ∈ s.dev.groupMembers,
      m ∈ insSorted 9 [5]) ∧ s.dev.ckptFree = true ∧ s.dev.isCoord = true ∧ s.dev.poolWhole = true ∧ (s.dev.del.ckreq = true ∨
      s.dev.per.waiting ≠ [])) ∧
    Meets (pooled) (fun s => steadyB s = true ∧ Acts 1 ⟨true, 9, 0, 3, 77, [2]⟩ s ∧ s.dev.ofGroup ⟨true, 9, 0, 3, 77, [2]⟩ =
      true ∧ s.dev.isCoord = true ∧ s.dev.poolWhole = true ∧ s.dev.poolAdmits = true ∧ s.dev.per.armed = true ∧ s.dev.ckptFree
      = true ∧ s.dev.del.prepared = none ∧ s.dev.del.reconReq = false) ∧
    Meets (on pooled fun d => { d with
      del.txn := some { (default : Txn) with pck := 0x500001234, held := [], done := [], cut := false }, mgt.tref := 2000 *
      Config.trefPerUs, del.txnTimeout := 1000 }) (fun s => InService s ∧ s.dev.del.txn =
      some { (default : Txn) with pck := 0x500001234, held := [], done := [], cut := false } ∧ s.dev.passed 0
      s.dev.del.txnTimeout = true ∧ s.dev.per.ckpt = none ∧ s.dev.del.inPool = true ∧ s.dev.del.ckreq = false ∧
      s.dev.del.reconReq = false ∧ s.dev.per.waiting = []) ∧
    Meets (given (on pooled fun d => { d with
      del.recon := some (0, 0), del.gstate := .reunited, mgt.tref := 2000 * Config.trefPerUs, del.txnTimeout := 1000,
      del.reconAt := some 5 }) 0 0xD [(8, 2)] []) (fun s => InService s ∧ s.dev.del.recon = some (0, 0) ∧ s.dev.del.txn = none
      ∧ s.dev.del.reconReq = false ∧ s.dev.del.prepared = none ∧ s.dev.per.ckpt = none ∧ s.dev.per.adopt = none ∧
      s.dev.del.reconAt = some 5 ∧ s.dev.passed 5 s.dev.del.txnTimeout = true ∧ s.dev.exec1 0 0 = some (ready 0xD [(8, 2)]
      [])) := by
  refine ⟨?_, ?_, ?_, ?_, ?_, ?_, ?_, ?_, ?_, ?_, ?_⟩
  · decide +kernel
  · decide +kernel
  · exact ⟨by decide +kernel, by and_intros <;> decide +kernel⟩
  · exact ⟨by decide +kernel, by and_intros <;> decide +kernel⟩
  · exact ⟨by decide +kernel, by and_intros <;> decide +kernel⟩
  · exact ⟨by decide +kernel, by and_intros <;> decide +kernel⟩
  · exact ⟨by decide +kernel, by and_intros <;> decide +kernel⟩
  · decide +kernel
  · exact ⟨by decide +kernel, by and_intros <;> decide +kernel⟩
  · decide +kernel
  · decide +kernel

/-- `Obligations.PoolRetirementFrames`. -/
theorem meets_pool_retirement_frames :
    Meets (pooled) (fun s => steadyB s = true ∧ Acts 1 ⟨true, 9, 0, 3, 77, [0x40002, 0x70003]⟩ s ∧ s.dev.ofGroup ⟨true, 9, 0,
      3, 77, [0x40002, 0x70003]⟩ = true ∧ s.dev.isCoord = true ∧ s.dev.del.gstate = .whole ∧ (∃ m ∈ s.dev.groupMembers, m ≠ 9
      ∧ s.dev.reported 4 3 m = false)) ∧
    Meets (on pooled fun d => { d with del.reports := [(4, 3, 7, 5)], svc.retire := [(4, 3, 7), (4, 2, 7), (6, 3, 7)] }) (fun
      s => steadyB s = true ∧ Acts 1 ⟨true, 9, 0, 3, 77, [0x40002, 0x70003]⟩ s ∧ s.dev.ofGroup ⟨true, 9, 0, 3, 77, [0x40002,
      0x70003]⟩ = true ∧ s.dev.isCoord = true ∧ s.dev.del.gstate = .whole ∧ (∀ m ∈ s.dev.groupMembers, m = 9 ∨ s.dev.reported
      4 3 m = true)) ∧
    Meets (on pooled fun d => { d with svc.retire := [(4, 3, 7), (4, 2, 7), (6, 3, 7)] }) (fun s => steadyB s = true ∧ Acts 1
      ⟨true, 9, 0, 3, 77, [0x40002, 0x70003]⟩ s ∧ s.dev.ofGroup ⟨true, 9, 0, 3, 77, [0x40002, 0x70003]⟩ = true) ∧
    Meets (pooled) (fun s => steadyB s = true ∧ Acts 1 ⟨true, 9, 0, 3, 77, [2]⟩ s ∧ s.dev.ofGroup ⟨true, 9, 0, 3, 77, [2]⟩ =
      true ∧ s.dev.isCoord = true ∧ s.dev.poolWhole = true ∧ s.dev.poolAdmits = true ∧ s.dev.per.armed = true ∧ s.dev.ckptFree
      = true ∧ s.dev.del.prepared = none) ∧
    Meets (given (on pooled fun d => { d with del.recon := some (0, 0), del.gstate := .reunited }) 0 0xD [(8, 2)] []) (fun s
      => steadyB s = true ∧ Acts 1 ⟨true, 9, 0, 3, 77, [2, 0x1234, 0x5]⟩ s ∧ s.dev.ofGroup ⟨true, 9, 0, 3, 77, [2, 0x1234,
      0x5]⟩ = true ∧ s.dev.poolAdmits = true ∧ s.dev.del.recon = some (0, 0) ∧ s.dev.exec1 0 0 = some (ready 0xD [(8, 2)]
      [])) := by
  refine ⟨?_, ?_, ?_, ?_, ?_⟩
  · exact ⟨by decide +kernel, by and_intros <;> decide +kernel⟩
  · decide +kernel
  · decide +kernel
  · exact ⟨by decide +kernel, by and_intros <;> decide +kernel⟩
  · exact ⟨by decide +kernel, by and_intros <;> decide +kernel⟩

/-- `Obligations.LinkFrames`. -/
theorem meets_link_frames :
    Meets (on pooled fun d => { d with del.links := [(1, { (default : Link) with up := true, st := .hello })] }) (fun s =>
      InService s ∧ s.dev.linkNamed 1 = true ∧ fWord ⟨false, 9, 0, 0, 1, [0x90E, 7, 9]⟩ 2 ++ fWord ⟨false, 9, 0, 0, 1, [0x90E,
      7, 9]⟩ 1 = s.dev.del.ident ∧ (s.dev.link 1).st = .hello ∧ bit (fWord ⟨false, 9, 0, 0, 1, [0x90E, 7, 9]⟩ 0) 3 = true ∧
      bits (fWord ⟨false, 9, 0, 0, 1, [0x90E, 7, 9]⟩ 0) 2 0 = 6) ∧
    Meets (on pooled fun d => { d with del.links := [(1, { (default : Link) with up := true, st := .hello })] }) (fun s =>
      InService s ∧ s.dev.linkNamed 1 = true ∧ fWord ⟨false, 9, 0, 0, 1, [0x908, 7, 9]⟩ 2 ++ fWord ⟨false, 9, 0, 0, 1, [0x908,
      7, 9]⟩ 1 = s.dev.del.ident ∧ (s.dev.link 1).st = .hello ∧ bits (fWord ⟨false, 9, 0, 0, 1, [0x908, 7, 9]⟩ 0) 2 0 = 0) ∧
    Meets (pooled) (fun s => Acts 1 ⟨true, 9, 0, 3, 77, [0x12, 0x1234, 0x5]⟩ s) ∧
    Meets (pooled) (fun s => Acts 1 ⟨true, 9, 0, 3, 77, [0x13]⟩ s ∧ fLeave ⟨true, 9, 0, 3, 77, [0x13]⟩ = false) ∧
    Meets (pooled) (fun s => Acts 1 ⟨true, 9, 0, 3, 77, [0x112]⟩ s ∧ fLeave ⟨true, 9, 0, 3, 77, [0x112]⟩ = true) ∧
    Meets (pooled) (fun s => Acts 1 ⟨true, 9, 0, 3, 77, []⟩ s) ∧
    Meets (on pooled fun d => { d with
      del.links := [(1, { (default : Link) with
      up := true, st := .up, version := 3, unacked := [⟨8, ⟨true, 5, 0, 63, 3, []⟩, 0, 0⟩, ⟨8, ⟨true, 5, 0, 63, 4, []⟩, 0, 0⟩]
      })] }) (fun s => InService s ∧ s.dev.linkNamed 1 = true ∧ (s.dev.link 1).st = .up) ∧
    Meets (pooled) (fun s => InService s ∧ s.dev.linkNamed 1 = true ∧ parseFrame (s.dev.link 1).version [1, 2, 3] = none ∧
      (s.dev.link 1).st = .up) ∧
    Meets (pooled) (fun s => InService s ∧ s.dev.linkNamed 1 = true ∧ parseFrame (s.dev.link 1).version (frameWords 2 tHb
      ⟨true, 9, 0, 3, 77, [0x12, 0x1234, 0x5]⟩) = some (tHb, ⟨true, 9, 0, 3, 77, [0x12, 0x1234, 0x5]⟩)) ∧
    Meets (pooled) (fun s => InService s ∧ s.dev.linkNamed 1 = true ∧ parseFrame (s.dev.link 1).version (frameWords 2 0x1F
      ⟨true, 9, 0, 3, 77, [0x12, 0x1234, 0x5]⟩) = some (0x1F, ⟨true, 9, 0, 3, 77, [0x12, 0x1234, 0x5]⟩) ∧ 0x1F ∉ frameTypes) ∧
    Meets (pooled) (fun s => InService s ∧ s.dev.linkNamed 1 = true ∧ parseFrame (s.dev.link 1).version (frameWords 2 tHb
      ⟨true, 9, 0, 3, 77, [0x12, 1, 2, 3, 4, 5, 6, 7, 8]⟩) = some (tHb, ⟨true, 9, 0, 3, 77, [0x12, 1, 2, 3, 4, 5, 6, 7, 8]⟩) ∧
      maxLen (s.dev.link 1).version < 9) ∧
    Meets (on pooled fun d => { d with del.links := [(1, { (default : Link) with up := true, st := .hello })] }) (fun s =>
      InService s ∧ s.dev.linkNamed 1 = true ∧ parseFrame (s.dev.link 1).version (frameWords 0 tHello ⟨false, 9, 0, 0, 1,
      [0x90E, 8, 9]⟩) = some (tHello, ⟨false, 9, 0, 0, 1, [0x90E, 8, 9]⟩) ∧ fWord ⟨false, 9, 0, 0, 1, [0x90E, 8, 9]⟩ 2 ++
      fWord ⟨false, 9, 0, 0, 1, [0x90E, 8, 9]⟩ 1 ≠ s.dev.del.ident) ∧
    Meets (pooled) (fun s => InService s ∧ s.dev.linkNamed 1 = true ∧ parseFrame (s.dev.link 1).version (frameWords 2 tMember
      ⟨true, 9, 0, 3, 77, [2, 0x1234, 0x5]⟩) = some (tMember, ⟨true, 9, 0, 3, 77, [2, 0x1234, 0x5]⟩)) ∧
    Meets (pooled) (fun s => InService s ∧ s.dev.linkNamed 1 = true ∧ parseFrame (s.dev.link 1).version (frameWords 2 tSafe
      ⟨true, 9, 0, 3, 77, [2, 0x1234, 0x5]⟩) = some (tSafe, ⟨true, 9, 0, 3, 77, [2, 0x1234, 0x5]⟩)) ∧
    Meets (pooled) (fun s => InService s ∧ s.dev.linkNamed 1 = true ∧ parseFrame (s.dev.link 1).version (frameWords 2 tAck
      ⟨true, 9, 0, 3, 77, [2, 0x1234, 0x5]⟩) = some (tAck, ⟨true, 9, 0, 3, 77, [2, 0x1234, 0x5]⟩)) ∧
    Meets (pooled) (fun s => InService s ∧ s.dev.linkNamed 1 = true ∧ parseFrame (s.dev.link 1).version (frameWords 2 tPrepare
      ⟨true, 9, 0, 3, 77, [2, 0x1234, 0x5]⟩) = some (tPrepare, ⟨true, 9, 0, 3, 77, [2, 0x1234, 0x5]⟩)) ∧
    Meets (pooled) (fun s => InService s ∧ s.dev.linkNamed 1 = true ∧ parseFrame (s.dev.link 1).version (frameWords 2 tHeld
      ⟨true, 9, 0, 3, 77, [2, 0x1234, 0x5]⟩) = some (tHeld, ⟨true, 9, 0, 3, 77, [2, 0x1234, 0x5]⟩)) ∧
    Meets (pooled) (fun s => InService s ∧ s.dev.linkNamed 1 = true ∧ parseFrame (s.dev.link 1).version (frameWords 2 tCut
      ⟨true, 9, 0, 3, 77, [2, 0x1234, 0x5]⟩) = some (tCut, ⟨true, 9, 0, 3, 77, [2, 0x1234, 0x5]⟩)) ∧
    Meets (pooled) (fun s => InService s ∧ s.dev.linkNamed 1 = true ∧ parseFrame (s.dev.link 1).version (frameWords 2 tDone
      ⟨true, 9, 0, 3, 77, [2, 0x1234, 0x5]⟩) = some (tDone, ⟨true, 9, 0, 3, 77, [2, 0x1234, 0x5]⟩)) ∧
    Meets (pooled) (fun s => InService s ∧ s.dev.linkNamed 1 = true ∧ parseFrame (s.dev.link 1).version (frameWords 2 tAbort
      ⟨true, 9, 0, 3, 77, [2, 0x1234, 0x5]⟩) = some (tAbort, ⟨true, 9, 0, 3, 77, [2, 0x1234, 0x5]⟩)) ∧
    Meets (pooled) (fun s => InService s ∧ s.dev.linkNamed 1 = true ∧ parseFrame (s.dev.link 1).version (frameWords 2 tCkreq
      ⟨true, 9, 0, 3, 77, [2, 0x1234, 0x5]⟩) = some (tCkreq, ⟨true, 9, 0, 3, 77, [2, 0x1234, 0x5]⟩)) ∧
    Meets (pooled) (fun s => InService s ∧ s.dev.linkNamed 1 = true ∧ parseFrame (s.dev.link 1).version (frameWords 2 tReport
      ⟨true, 9, 0, 3, 77, [2, 0x1234, 0x5]⟩) = some (tReport, ⟨true, 9, 0, 3, 77, [2, 0x1234, 0x5]⟩)) ∧
    Meets (pooled) (fun s => InService s ∧ s.dev.linkNamed 1 = true ∧ parseFrame (s.dev.link 1).version (frameWords 2 tRetire
      ⟨true, 9, 0, 3, 77, [2, 0x1234, 0x5]⟩) = some (tRetire, ⟨true, 9, 0, 3, 77, [2, 0x1234, 0x5]⟩)) ∧
    Meets (pooled) (fun s => InService s ∧ s.dev.linkNamed 1 = true ∧ parseFrame (s.dev.link 1).version (frameWords 2 tRecon
      ⟨true, 9, 0, 3, 77, [2, 0x1234, 0x5]⟩) = some (tRecon, ⟨true, 9, 0, 3, 77, [2, 0x1234, 0x5]⟩)) ∧
    Meets (pooled) (fun s => InService s ∧ s.dev.linkNamed 1 = true ∧ parseFrame (s.dev.link 1).version (frameWords 2
      tReconDone ⟨true, 9, 0, 3, 77, [2, 0x1234, 0x5]⟩) = some (tReconDone, ⟨true, 9, 0, 3, 77, [2, 0x1234, 0x5]⟩)) ∧
    Meets (on pooled fun d => { d with del.links := [(1, { (default : Link) with up := true, st := .hello })] }) (fun s =>
      InService s ∧ s.dev.linkNamed 1 = true ∧ parseFrame (s.dev.link 1).version (frameWords 0 tHello ⟨false, 9, 0, 0, 1,
      [0x90E, 7, 9]⟩) = some (tHello, ⟨false, 9, 0, 0, 1, [0x90E, 7, 9]⟩)) ∧
    Meets (on pooled fun d => { d with del.links := [(1, { (default : Link) with up := true, st := .noVersion })] }) (fun s =>
      InService s ∧ s.dev.linkNamed 1 = true ∧ (s.dev.link 1).st = .noVersion) ∧
    Meets (on pooled fun d => { d with del.links := [(1, { (default : Link) with up := true, st := .hello })] }) (fun s =>
      InService s ∧ s.dev.linkNamed 1 = true ∧ fWord ⟨false, 9, 0, 0, 1, [0x906, 7, 9]⟩ 2 ++ fWord ⟨false, 9, 0, 0, 1, [0x906,
      7, 9]⟩ 1 = s.dev.del.ident ∧ (s.dev.link 1).st = .hello ∧ bit (fWord ⟨false, 9, 0, 0, 1, [0x906, 7, 9]⟩ 0) 3 = false ∧
      bits (fWord ⟨false, 9, 0, 0, 1, [0x906, 7, 9]⟩ 0) 2 0 = 6) := by
  refine ⟨?_, ?_, ?_, ?_, ?_, ?_, ?_, ?_, ?_, ?_, ?_, ?_, ?_, ?_, ?_, ?_, ?_, ?_, ?_, ?_, ?_, ?_, ?_, ?_, ?_, ?_, ?_, ?_⟩ <;> decide +kernel

/-- `Obligations.LinkTimers`. -/
theorem meets_link_timers :
    Meets (on pooled fun d => { d with del.links := [] }) (fun s => (s.dev.link 1).up = false ∧ s.dev.del.inPool = true ∧
      s.dev.del.linksUse.getLsbD 1 = true ∧ s.dev.up (domPel 1) = true) ∧
    Meets (pooled) (fun s => (s.dev.link 1).up = true) ∧
    Meets (on pooled fun d => { d with mgt.tref := 100 * Config.trefPerUs }) (fun s => InService s ∧ s.dev.linkNamed 1 = true
      ∧ (s.dev.link 1).st = .up ∧ s.dev.passed (s.dev.link 1).lastAt s.dev.del.hbTimeout = true) ∧
    Meets (on (on pooled fun d => { d with del.links := [(1, { (default : Link) with up := true, st := .hello })] }) fun d =>
      { d with mgt.tref := 100 * Config.trefPerUs }) (fun s => InService s ∧ s.dev.linkNamed 1 = true ∧ s.dev.passed
      (s.dev.link 1).lastAt s.dev.del.hbTimeout = true) ∧
    Meets (on (on pooled fun d => { d with del.links := [(1, { (default : Link) with up := true, st := .hello })] }) fun d =>
      { d with mgt.tref := 100 * Config.trefPerUs }) (fun s => InService s ∧ s.dev.linkNamed 1 = true ∧ (s.dev.link 1).st =
      .hello ∧ s.dev.passed (s.dev.link 1).helloAt 10 = true) ∧
    Meets (on (on pooled fun d => { d with
      del.links := [(1, { (default : Link) with
      up := true, st := .up, version := 3, unacked := [⟨8, ⟨true, 5, 0, 63, 3, []⟩, 0, 2⟩] })] }) fun d =>
      { d with mgt.tref := 100 * Config.trefPerUs }) (fun s => InService s ∧ s.dev.linkNamed 1 = true ∧ ⟨8, ⟨true, 5, 0, 63,
      3, []⟩, 0, 2⟩ ∈ (s.dev.link 1).unacked ∧ s.dev.passed 0 20 = true) ∧
    Meets (on pooled fun d => { d with mgt.tref := 100 * Config.trefPerUs }) (fun s => InService s ∧ (s.dev.memberOf 9).st =
      .member ∧ s.dev.passed (s.dev.memberOf 9).lastAt s.dev.del.hbTimeout = true ∧ (9 : BitVec 6) ≠ s.dev.del.poolId ∧
      (s.dev.memberOf 9).group = s.dev.del.group ∧ s.dev.del.group.isSome = true) ∧
    Meets (on pooled fun d => { d with mgt.tref := 100 * Config.trefPerUs }) (fun s => s.dev.del.inPool = true ∧ s.dev.passed
      s.dev.del.hbAt s.dev.del.hbPeriod = true ∧ (s.dev.link 1).st = .up ∧ s.dev.linkUsable 1 = true ∧ s.safe.active = false)
      ∧
    Meets ({ (on pooled fun d => { d with mgt.tref := 100 * Config.trefPerUs }) with
      safe := { Safe.reset with active := true, cls := 1 } }) (fun s => s.dev.del.inPool = true ∧ s.dev.passed s.dev.del.hbAt
      s.dev.del.hbPeriod = true ∧ (s.dev.link 1).st = .up ∧ s.dev.linkUsable 1 = true ∧ s.safe.active = true) := by
  refine ⟨?_, ?_, ?_, ?_, ?_, ?_, ?_, ?_, ?_⟩ <;> decide +kernel

/-- `Obligations.BatchesRunInOrder`. -/
theorem meets_batches_run_in_order :
    Meets (on (given serving 1 0x38 [(1, 1)] (leBytes 16 9 ++ leBytes 16 (0x10 + 0x20 * 2 ^ 32 + 3 * 2 ^ 80 + 2 ^ 96 + 2 ^
      127) ++ leBytes 16 8 ++ leBytes 16 (0x30 + 0x40 * 2 ^ 32 + 3 * 2 ^ 80 + 2 ^ 96 + 2 ^ 127))) fun d => d.updExec 1 0 fun x
      => { x with frags := [⟨0x5000, 64⟩] }) (fun s => Runs 1 0 cRegionWrite noRules
      { ready 0x38 [(1, 1)] (leBytes 16 9 ++ leBytes 16 (0x10 + 0x20 * 2 ^ 32 + 3 * 2 ^ 80 + 2 ^ 96 + 2 ^ 127) ++ leBytes 16 8 ++ leBytes 16 (0x30 + 0x40 * 2 ^ 32 + 3 * 2 ^ 80 + 2 ^ 96 + 2 ^ 127)) with
      frags := [⟨0x5000, 64⟩] } s ∧ fragFlag (entry 0x38 [(1, 1)]) = true ∧ s.dev.rmp.swap = none ∧ s.dev.rmp.cmds = [] ∧
      s.dev.regionWaits (entry 0x38 [(1, 1)]) = false) ∧
    Meets (on (given serving 1 0x38 [(1, 1)] (leBytes 16 9 ++ leBytes 16 (0x10 + 0x20 * 2 ^ 32 + 3 * 2 ^ 80 + 2 ^ 96 + 2 ^
      127) ++ leBytes 16 (8 + 2 ^ 24) ++ leBytes 16 7)) fun d => d.updExec 1 0 fun x => { x with frags := [⟨0x5000, 64⟩] })
      (fun s => Runs 1 0 cRegionWrite noRules
      { ready 0x38 [(1, 1)] (leBytes 16 9 ++ leBytes 16 (0x10 + 0x20 * 2 ^ 32 + 3 * 2 ^ 80 + 2 ^ 96 + 2 ^ 127) ++ leBytes 16 (8 + 2 ^ 24) ++ leBytes 16 7) with
      frags := [⟨0x5000, 64⟩] } s ∧ fragFlag (entry 0x38 [(1, 1)]) = true ∧ s.dev.rmp.swap = none ∧ s.dev.rmp.cmds = [] ∧
      s.dev.regionWaits (entry 0x38 [(1, 1)]) = false) ∧
    Meets (on (given serving 1 0x20 [(1, 1)] (leBytes 16 7 ++ keyWrap 21 ([1, 1, 7, 0] ++ leBytes 32 5 ++ leBytes 32 6) ++
      leBytes 16 8 ++ keyWrap 21 ([1, 1, 8, 0] ++ leBytes 32 5 ++ leBytes 32 6))) fun d => d.updExec 1 0 fun x =>
      { x with frags := [⟨0x5000, 192⟩] }) (fun s => Runs 1 0 cKeyInstall noRules
      { ready 0x20 [(1, 1)] (leBytes 16 7 ++ keyWrap 21 ([1, 1, 7, 0] ++ leBytes 32 5 ++ leBytes 32 6) ++ leBytes 16 8 ++ keyWrap 21 ([1, 1, 8, 0] ++ leBytes 32 5 ++ leBytes 32 6)) with
      frags := [⟨0x5000, 192⟩] } s ∧ fragFlag (entry 0x20 [(1, 1)]) = true ∧ (s.dev.keyArrives 1 0).key.cmds.head? = some (1,
      0)) ∧
    Meets (on (given serving 1 0x20 [(1, 1)] (leBytes 16 7 ++ keyWrap 21 ([1, 1, 7, 0] ++ leBytes 32 5 ++ leBytes 32 6) ++
      leBytes 16 9 ++ leBytes 80 5)) fun d => d.updExec 1 0 fun x => { x with frags := [⟨0x5000, 192⟩] }) (fun s => Runs 1 0
      cKeyInstall noRules
      { ready 0x20 [(1, 1)] (leBytes 16 7 ++ keyWrap 21 ([1, 1, 7, 0] ++ leBytes 32 5 ++ leBytes 32 6) ++ leBytes 16 9 ++ leBytes 80 5) with
      frags := [⟨0x5000, 192⟩] } s ∧ fragFlag (entry 0x20 [(1, 1)]) = true ∧ (s.dev.keyArrives 1 0).key.cmds.head? = some (1,
      0)) ∧
    Meets (on (given serving 1 0x30 [(1, 1)] (leBytes 16 (5 + 7 * 2 ^ 16 + 4 * 2 ^ 32 + 3 * 2 ^ 48) ++ leBytes 16 (6 + 7 * 2 ^
      16 + 4 * 2 ^ 32 + 3 * 2 ^ 48))) fun d => d.updExec 1 0 fun x => { x with frags := [⟨0x5000, 32⟩] }) (fun s => Runs 1 0
      cStreamInsert noRules
      { ready 0x30 [(1, 1)] (leBytes 16 (5 + 7 * 2 ^ 16 + 4 * 2 ^ 32 + 3 * 2 ^ 48) ++ leBytes 16 (6 + 7 * 2 ^ 16 + 4 * 2 ^ 32 + 3 * 2 ^ 48)) with
      frags := [⟨0x5000, 32⟩] } s ∧ fragFlag (entry 0x30 [(1, 1)]) = true ∧ s.dev.rmp.swap = none ∧ s.dev.stl.cmds = [] ∧
      s.dev.streamWaits (entry 0x30 [(1, 1)]) = false ∧ s.dev.setNamed (num (entry 0x30 [(1, 1)]) 8 1) = 0) ∧
    Meets (on (given serving 1 0x30 [(1, 1)] (leBytes 16 (5 + 7 * 2 ^ 16 + 4 * 2 ^ 32 + 3 * 2 ^ 48) ++ leBytes 16 (9 + 7 * 2 ^
      64))) fun d => d.updExec 1 0 fun x => { x with frags := [⟨0x5000, 32⟩] }) (fun s => Runs 1 0 cStreamInsert noRules
      { ready 0x30 [(1, 1)] (leBytes 16 (5 + 7 * 2 ^ 16 + 4 * 2 ^ 32 + 3 * 2 ^ 48) ++ leBytes 16 (9 + 7 * 2 ^ 64)) with
      frags := [⟨0x5000, 32⟩] } s ∧ fragFlag (entry 0x30 [(1, 1)]) = true ∧ s.dev.rmp.swap = none ∧ s.dev.stl.cmds = [] ∧
      s.dev.streamWaits (entry 0x30 [(1, 1)]) = false ∧ s.dev.setNamed (num (entry 0x30 [(1, 1)]) 8 1) = 0) ∧
    Meets (on (given serving 1 0x30 [(1, 1)] (leBytes 16 (5 + 7 * 2 ^ 16 + 4 * 2 ^ 32 + 3 * 2 ^ 48) ++ leBytes 16 (5 + 7 * 2 ^
      16 + 4 * 2 ^ 32 + 3 * 2 ^ 48))) fun d => d.updExec 1 0 fun x => { x with frags := [⟨0x5000, 32⟩] }) (fun s => Runs 1 0
      cStreamInsert noRules
      { ready 0x30 [(1, 1)] (leBytes 16 (5 + 7 * 2 ^ 16 + 4 * 2 ^ 32 + 3 * 2 ^ 48) ++ leBytes 16 (5 + 7 * 2 ^ 16 + 4 * 2 ^ 32 + 3 * 2 ^ 48)) with
      frags := [⟨0x5000, 32⟩] } s ∧ fragFlag (entry 0x30 [(1, 1)]) = true ∧ s.dev.rmp.swap = none ∧ s.dev.stl.cmds = [] ∧
      s.dev.streamWaits (entry 0x30 [(1, 1)]) = false ∧ s.dev.setNamed (num (entry 0x30 [(1, 1)]) 8 1) = 0) ∧
    Meets (on (given withStream 1 0x31 [(1, 1)] (leBytes 16 (5 + 7 * 2 ^ 16) ++ leBytes 16 (6 + 7 * 2 ^ 16))) fun d =>
      d.updExec 1 0 fun x => { x with frags := [⟨0x5000, 32⟩] }) (fun s => Runs 1 0 cStreamRemove noRules
      { ready 0x31 [(1, 1)] (leBytes 16 (5 + 7 * 2 ^ 16) ++ leBytes 16 (6 + 7 * 2 ^ 16)) with
      frags := [⟨0x5000, 32⟩] } s ∧ fragFlag (entry 0x31 [(1, 1)]) = true ∧ s.dev.rmp.swap = none ∧ s.dev.stl.cmds = [] ∧
      s.dev.streamWaits (entry 0x31 [(1, 1)]) = false ∧ s.dev.setNamed (num (entry 0x31 [(1, 1)]) 8 1) = 0) ∧
    Meets (on (given withStream 1 0x31 [(1, 1)] (leBytes 16 (5 + 7 * 2 ^ 16))) fun d => d.updExec 1 0 fun x =>
      { x with frags := [⟨0x5000, 16⟩] }) (fun s => Runs 1 0 cStreamRemove noRules
      { ready 0x31 [(1, 1)] (leBytes 16 (5 + 7 * 2 ^ 16)) with frags := [⟨0x5000, 16⟩] } s ∧ fragFlag (entry 0x31 [(1, 1)]) =
      true ∧ s.dev.rmp.swap = none ∧ s.dev.stl.cmds = [] ∧ s.dev.streamWaits (entry 0x31 [(1, 1)]) = false ∧ s.dev.setNamed
      (num (entry 0x31 [(1, 1)]) 8 1) = 0) := by
  refine ⟨?_, ?_, ?_, ?_, ?_, ?_, ?_, ?_, ?_⟩ <;> decide +kernel

/-- A command answers a next state. -/
def goes (s : State) (c : Instr) : Bool :=
  match exec c s with
  | .next _ => true
  | _ => false

theorem of_goes {s : State} {c : Instr} (h : goes s c = true) : ∃ t, exec c s = .next t := by
  unfold goes at h
  split at h
  · exact ⟨_, ‹_›⟩
  · cases h

/-- `Obligations.RequestPathFrames`. -/
theorem meets_request_path_frames :
    ([.fabricRequest 0 0 0x55 5 7 9 0 [], .responseTransfer 6 false, .parkingTimeout 6 false, .parkedRelease [], .writePayload
      0 7 1, .wlpcOpen 0 0, .wlpcAad 0 0x700000000, .wlpcClose 0 0x700000000, .wlpcReservedType 0 3 0, .windowResult 0,
      .writeWindowTimeout 0, .rlpcOpen 0 0, .rlpcAad 0 0x700000000, .rlpcFormatError 0 2 0, .rtag 0, .readWindowWaitTimeout 0
      (some 6), .accessGrant 6 none, .ladderVerifyDone 8 none none, .mediaReadBeat 0 7 ⟨0x99, 5, 3⟩ 1 false none,
      .lanePassDone 6 0 .agree none none, .mediaWriteCompletion 0 7 0 false, .creditReturn (.rsp 0), .mcnFail 5,
      .transientBucketLeak 0, .ageingTick] : List Instr).all (goes serving) = true ∧ serving.dev.per.adopt = none := by
  exact ⟨by decide, by decide +kernel⟩

/-- `Obligations.HostAndRegisterFrames`. -/
theorem meets_host_and_register_frames :
    ([.hdmaWriteAck 3 false, .hdmaReadData 3 5 false true, .hostHoldoffRise, .regReadPairLo (0xC0028 / 4) false,
      .clusterIdleGate 1, .hostHoldoffFall, .tail 1 3 15, .scan 1 0 15, .invalidate 1 0 15, .drain 1 0 15, .entryFetch 1,
      .scanPoll 1, .vectorDue 9, .adminReset 0, .qmgVecLoad 7, .entryConsumption 1 none, .eventRecordWrite .stl, .fabPortEn 1,
      .fabCntClr 1, .stlClear 3, .stlRejectClr 1, .stlCntClr 1, .stlGeomSeedWrite .geom 1 1, .stlClearDone, .rmpClear 3,
      .rmpSetCfg 1 1, .rmpClearDone, .lanKatRun 1, .katPeriodExpiry 0, .standbyKatRepeat 0, .katSetDone 0 (katExpected
      katVec), .probationEnd 0, .canCtrlEn 0, .canPinCfg 1, .canCntClr 1, .canLfsrReseed 1 none, .keyDrbgReseed 1, .writeBack
      none none, .frsMetaBaseWrite true 1, .frsCntClr 1, .perArm 1, .armingDone, .perAnchorBaseWrite 1, .perCntClr 1,
      .drbgReseedDone (List.replicate 128 0x55) none, .keyEntEn 1, .entropyStartupDone 0 (List.replicate 128 0x55),
      .entropyHealthFail 0 (List.replicate 128 0), .keyCntClr 1, .drbgInstantiate (List.replicate 128 0x55) [5, 6], .enable 1,
      .disable 1, .queueIdle 1, .fltFirstHiClear 3, .fltForce 3 0 1, .notificationClear 3 0 1, .fltClassWrite 3 0 3,
      .medCntClr 1, .svcCntClr 1] : List Instr).all (goes serving) = true ∧ ([0x10000, 0x10020, 0x20004, 0x40000, 0x40004,
      0x40008, 0x4000C, 0x40010, 0x68004, 0x80004, 0x80008, 0x80010, 0xA0000, 0xA000C, 0xA0010, 0xA0020, 0xC0004, 0xC000C,
      0xE0000, 0xE0004, 0x100004, 0x120004, 0x12000C, 0x120010, 0x120018, 0x120020, 0x120024, 0x140000, 0x140004, 0x140008,
      0x14000C, 0x140010, 0x160000, 0x160004, 0x160008, 0x160010, 0x18000C, 0x180010, 0x180014, 0x1A0000, 0x1A0004, 0x1A0008,
      0x1A000C] : List Nat).all (fun a => goes serving (.regWrite (BitVec.ofNat 22 (a / 4)) 0)) = true ∧ serving.dev.per.adopt
      = none ∧ serving.dev.measuring = false := by
  exact ⟨by decide, by decide +kernel⟩

/-- `Obligations.QueueCommandFrames`. -/
theorem meets_queue_command_frames :
    ([.anvilResponse 77 false, .anvilTimeout, .anchorRestore 0 0 false, .poolLeave 0 0, .poolReconcile 0 0, .checkpoint 1 0,
      .release, .commit false, .zeroisationConfirm 1 0, .kekLoadDerive 1 0, .keyZeroiseTimeout 1 0, .createQueue 0 0,
      .deleteQueue 0 0, .resetQueue 0 0, .getFeature 0 0, .identify 0 0, .swapConfig 0 0, .regionWrite 1 0, .regionRead 1 0,
      .swapCycle, .shadowRelease, .adoptZone 0 0 false none, .adoptionStart false, .zoneDeparture 1, .formatZone 0 0 false
      none, .sanitize 1 0 false none, .scrub 1 0 false, .seal 1 0 false none, .unseal 1 0 false, .transcode 1 0 false,
      .treeReset 1 false, .serviceStepDone 4 false, .poolJoin 0 0, .keyInstall 1 0 none, .keyGenerate 1 0 none, .kekLoadUnwrap
      1 0 none, .sessionKeyInstall 1 0 none, .keyDestroy 1 0, .keyDrained 1 0, .streamInsert 1 0 [], .streamRemove 1 0 [],
      .streamQuery 1 0 [], .rekeyStart 1 0, .rekeyAbort 1 0, .serviceCommandStart 1 0, .canopyMaintFlush 1 0,
      .canopyMaintInvalidate 1 0, .flushInv 1 0, .pin 1 0 none, .unpin 1 0, .canopyMaintRead 1 0 none, .zero 1 0, .measure 1 0
      none false, .periodicCheckpoint, .hold, .cut none none, .serviceStepStart (.front 0) [], .frontStepDone 4, .scrubDone] :
      List Instr).all (goes serving) = true ∧ serving.dev.per.adopt = none ∧ (∀ k ∈ (List.range 11).drop 1, let f := [(8, k),
      (12, 1)]; Runs 0 0 cSetFeature noRules (ready cSetFeature f []) (given serving 0 cSetFeature f []) ∧ num (entry
      cSetFeature f) 8 2 = k ∧ goes (given serving 0 cSetFeature f []) (.setFeature 0 0) = true) := by
  exact ⟨by decide, by decide +kernel⟩

/-- `Obligations.PowerAndPoolFrames`. -/
theorem meets_power_and_pool_frames :
    ([.pfWarn, .pfWarnClear, .sysRstNRelease, .fpnRstN 0, .mcnRstN 5, .hdmaRstN, .hdmaResetRelease, .pelnRstN 1,
      .pelnResetRelease 1, .clockMeasurement 3 500, .fuseAck true 9, .fuseLoadFailure, .mcnResetRelease 5, .fusePhaseDone,
      .sramInitDone, .selftestDone ([] :: List.replicate 35 (katExpected katVec)) true, .ready, .squallEntry 7 13,
      .zeroisationDone, .linkUpChange 1 true, .helloTimer 1, .heartbeatTimer, .retransmitTimer 1, .linkTimeout 1,
      .frameReceived 1 [1, 2, 3], .hello 1 ⟨false, 9, 0, 0, 1, [0x90E, 7, 9]⟩, .hb 1 ⟨true, 9, 0, 3, 77, [0x12, 0x1234, 0x5]⟩,
      .member 1 ⟨true, 9, 0, 3, 77, [0x13]⟩, .safe 1 ⟨true, 9, 0, 3, 77, []⟩, .ack 1 ⟨false, 9, 0, 0, 1, [5, 4]⟩,
      .memberTimeout 9, .prepare 1 ⟨true, 9, 0, 3, 77, [2, 0x1234, 0x5]⟩, .held 1 ⟨true, 9, 0, 3, 77, [2, 0x1234, 0x5]⟩,
      .cutFrame 1 ⟨true, 9, 0, 3, 77, [2, 0x1234, 0x5]⟩, .done 1 ⟨true, 9, 0, 3, 77, [0x102, 0x1234, 0x5]⟩, .abort 1 ⟨true, 9,
      0, 3, 77, [2, 0x1234, 0x5]⟩, .ckreq 1 ⟨true, 9, 0, 3, 77, [2]⟩, .txnTimeout, .report 1 ⟨true, 9, 0, 3, 77, [0x40002,
      0x70003]⟩, .retire 1 ⟨true, 9, 0, 3, 77, [0x40002, 0x70003]⟩, .recon 1 ⟨true, 9, 0, 3, 77, [2]⟩, .reconDone 1 ⟨true, 9,
      0, 3, 77, [2, 0x1234, 0x5]⟩, .trstN false, .extest (BitVec.ofNat Config.chainBits 1) (BitVec.ofNat Config.chainBits 0),
      .idcode false, .samplePreload (BitVec.ofNat Config.chainBits 1) (BitVec.ofNat Config.chainBits 0), .clamp, .network true
      false, .bypass 0xFF, .tapRegRead (0xA0000 / 4) false, .tapKat 1, .fpnResetRelease 0] : List Instr).all (goes (on serving
      fun d => { d with mgt.sysRstN := false })) = true ∧ (on serving fun d => { d with mgt.sysRstN := false }).dev.per.adopt
      = none := by
  exact ⟨by decide, by decide +kernel⟩

/-! ### Well-formedness -/

/-- Each check refuses a term that breaks it. -/
theorem test_wf_refuses :
    ([.wlpcOpen 0 0x80, .wlpcAad 0 0x20, .wlpcClose 0 0x80000000, .wlpcReservedType 0 0 0, .wlpcReservedType 0 1 0,
      .rlpcOpen 0 0x800000, .rlpcAad 0 0x20, .rlpcFormatError 0 0 0, .rlpcFormatError 0 1 0,
      .accessGrant 6 (some (.data (staging + 1) true)), .writeBack (some (.data (staging + 1) true)) none,
      .ladderVerifyDone 8 (some (.data (staging + 1) true)) none, .entropyStartupDone 0 [], .entropyHealthFail 0 [0x55],
      .lanePassDone 6 0 .agree (some (.data (staging + 1) true)) none, .cut (some (.data (staging + 1) true)) none,
      .pin 1 0 (some (.data (staging + 1) true)),
      .drbgReseedDone (leBytes 127 0) none, .drbgInstantiate (leBytes 127 0) (List.replicate 36 1),
      .drbgInstantiate (leBytes 128 0) (List.replicate 35 1), .fltForce 0 63 1, .fltClassWrite 0 63 1,
      .notificationClear 0 63 1, .squallEntry 8 11, .serviceStepStart (.front 4096) [], .serviceStepStart (.cmd 16384 0) [],
      .serviceStepStart (.cmd 0 65536) []] : List Instr).all (fun c => !c.wf) = true := by decide +kernel

/-- A frame carries at most eight payload words (spec/16). -/
theorem test_wf_refuses_long_frames :
    (let f : Frame := ⟨true, 9, 0, 0, 1, [1, 2, 3, 4, 5, 6, 7, 8, 9]⟩
     ([.hello 0 f, .hb 0 f, .member 0 f, .safe 0 f, .ack 0 f, .prepare 0 f, .held 0 f, .cutFrame 0 f, .done 0 f, .abort 0 f,
      .ckreq 0 f, .report 0 f, .retire 0 f, .recon 0 f, .reconDone 0 f] : List Instr).all (fun c => !c.wf)) = true := by
  decide

/-- Terms at the edge of each check that it admits. -/
theorem test_wf_admits :
    ([.wlpcOpen 0 0x10120, .wlpcAad 0 0x100000007, .wlpcReservedType 0 3 0, .wlpcReservedType 0 0 0x80, .rlpcFormatError 0 2 0,
      .accessGrant 6 (some (.data staging true)), .drbgReseedDone (leBytes 128 0) none,
      .drbgInstantiate (leBytes 128 0) (List.replicate 36 1), .fltForce 0 0 1, .squallEntry 8 10,
      .serviceStepStart (.front 4095) [], .serviceStepStart (.cmd 16383 65535) [],
      .entropyStartupDone 0 (List.replicate 128 0x55), .entropyHealthFail 0 (List.replicate 8 0),
      .hello 0 ⟨true, 9, 0, 0, 1, [1, 2, 3, 4, 5, 6, 7, 8]⟩] : List Instr).all Instr.wf = true := by decide +kernel

/-! ### Standards: the published vectors -/

/-- FIPS-197, appendix C.3: AES-256 on 00112233…ff with the key 000102…1f, and back. -/
theorem test_aes256 :
    (let k : BitVec 256 := 0x000102030405060708090a0b0c0d0e0f101112131415161718191a1b1c1d1e1f#256
     let p := beBytes 16 0x00112233445566778899aabbccddeeff
     let c := beBytes 16 0x8ea2b7ca516745bfeafc49904b496089
     aesEnc k p == c && aesDec k c == p) = true := by decide +kernel

/-- The check value of CRC-32: the digits 1 to 9. -/
theorem test_crc32 : crc32 (asciiBytes "123456789") = 0xCBF43926#32 := by decide +kernel

/-- FIPS-180: SHA-384 of "abc". -/
theorem test_sha384 : beNat (sha384 (asciiBytes "abc")) =
    0xcb00753f45a35e8bb5a03d699ac65007272c32ab0eded1631a8b605a43ff5bed8086072ba1e7cc2358baeca134c825a7 := by decide +kernel

/-- GCM test case 13: AES-256 with a zero key and IV, no data. -/
theorem test_gcm_tag : gcmTag 0 (List.replicate 12 0) [] [] = 0x530f8afbc74536b9a963b4f1c4cb738b#128 := by decide +kernel

/-! ### Single commands -/

/-- Run one command and check the state it answers. -/
def gives (c : Instr) (s : State) (p : State → Bool) : Bool :=
  match exec c s with
  | .next t => p t
  | _ => false

/-- The entry at a position has been answered with a completion. -/
def ans (q : BitVec 14) (pos : BitVec 16) (c : Cpl) (t : State) : Bool :=
  (t.dev.exec1 q.toNat pos).any fun x => x.cpl == some c && x.st == .completing

/-- On an empty queue one TREF cycle passes (log 1). -/
theorem test_idle : step serving = .next (on serving fun d => { d with mgt.tref := 1000001 }) := by rfl

/-- EXTEST with SYS_RST_N at 1 stops (spec/17 R459). -/
theorem test_extest_stops : exec (.extest 1 0) (on serving fun d => { d with mgt.sysRstN := true }) =
    .fault .boundaryScanWithoutReset := by rfl

/-- A read passes every check and awaits its grant . -/
theorem test_admit : (let s := withStream; gives (.fabricRequest 0 0 0x55 5 7 9 0 []) s (fun t => (t.dev.acc 0).any fun a =>
    a.stage == .gated && !a.isWrite && a.inFlight && a.tag == 0x55 && a.gen == 1 && a.kslot == 3 && a.region == 0 && a.mode ==
    .mac && (t.dev.stlSet 0).tab.any fun p => p.2 == some { stream with age := 0 })) = true := by decide +kernel

/-- With no stream entry the request parks and its stream is learned . -/
theorem test_unknown_stream : (let s := serving; gives (.fabricRequest 0 0 0x55 5 7 9 0 []) s (fun t => ((t.dev.acc 0).any fun
    a => a.stage == .parked && !a.inFlight && a.parkedAt == 1000000) && t.dev.stl.filter.any fun f => f.sid == 5 &&
    f.ports.getLsbD 0)) = true := by decide +kernel

/-- An OPEN entry of WLPC opens a window of COUNT 2 (spec/02 R43). -/
theorem test_open_entry : (let s := on serving fun d => { d with key.regs := [(1, some 0x1234)] }; gives (.wlpcOpen 0 0x10120)
    s (fun t => (t.dev.session 0).wwin.any fun w => w.count == 2 && w.aadn == 1 && w.k == 1 && w.openedAt == 1000000 && !w.skid
    && w.iv == 0 && w.members == [] && w.aad == [] && w.tag == none && (t.dev.session 0).rxK == 1 && w.usable && w.tk == tagKey
    0x1234 w.iv)) = true := by decide +kernel

/-- A malformed OPEN entry fails the receive side of its session. -/
theorem test_malformed_open : (let s := serving; gives (.wlpcReservedType 0 0 0x80) s (fun t => (t.dev.session 0).rxFailed)) =
    true := by decide +kernel

/-- A read is answered on RDAT with its tag and data. -/
theorem test_read_response : (let s := having serving { access 6 with stage := .done, status := .ok, rdata := 3 }; gives
    (.responseTransfer 6 false) s (fun t => t.dev.acc 6 == none && t.dev.drive.contains (.rdat 0 0x55 .ok 3))) = true := by
    decide +kernel

/-- The safe state answers POISONED with zero data (spec/15 R423). -/
theorem test_safe_response : (let s :=
    { having serving (access 6) with safe := { Safe.reset with active := true, cls := 1 } }; gives (.responseTransfer 6 false) s
    (fun t => t.dev.acc 6 == none && t.dev.drive.contains (.rdat 0 0x55 .poisoned 0))) = true := by decide +kernel

/-- A credit of HDMA comes back. -/
theorem test_credit_hdmawr : (let s := serving; gives (.creditReturn (.hdmaWr)) s (fun t => decide (t.dev.qmg.wrCredit = 9)))
    = true := by decide +kernel

/-- A granted read of a MAC region reads its media line. -/
theorem test_read_grant : (let s := on (having serving { access 6 with line := 0 }) fun d => d; gives (.accessGrant 6 none) s
    (fun t => ((t.dev.acc 6).any fun b => b.stage == .reading && b.slot == 3) && decide ((t.dev.chan 0).out.get 0 = some ⟨0, 0,
    default, .data 6⟩))) = true := by decide +kernel

/-- The beat of a read goes to a lane. -/
theorem test_read_beat : (let s := on (having serving { access 6 with stage := .reading }) fun d => { d with
    med.ch := [(0, { (default : Channel) with mcmd := 64, mwd := 64, out := [(7, some ⟨0, 0, default, .data 6⟩)] })] }; gives
    (.mediaReadBeat 0 7 ⟨0x99, 5, 3⟩ 1 false none) s (fun t => (t.dev.acc 6).any fun b => b.stage == .lane && b.beat == ⟨0x99,
    5, 3⟩)) = true := by decide +kernel

/-- A beat with a tag that is not outstanding raises PROTO (spec/02). -/
theorem test_unknown_tag : (let s := serving; gives (.mediaReadBeat 0 7 default 0 false none) s (fun t => (t.flt.banks.get
    bMed).first.isSome)) = true := by decide +kernel

/-- MCn_FAIL retires the channel. -/
theorem test_channel_fails : (let s := serving; gives (.mcnFail 5) s (fun t => (t.dev.chan 5).retired && (t.dev.chan 5).cause
    == 1 && (t.flt.banks.get bMed).live.contains 69)) = true := by decide +kernel

/-- A failed completion write stops the queue with cause 8 . -/
theorem test_write_err : (let s := on (given serving 1 0x4A [] []) fun d =>
    { d with qmg.wrOut := [(3, some ⟨0x20030, [], 1, .completion 1 0 true, 0, 0⟩)] }; gives (.hdmaWriteAck 3 true) s (fun t =>
    (t.dev.queue 1).st == .error && (t.dev.queue 1).cause == 8 && (t.dev.queue 1).pos == 0)) = true := by decide +kernel

/-- An entry whose owner bit is wrong stops the queue with cause 5. -/
theorem test_read_unowned : (let s := on serving fun d =>
    { d with qmg.rdOut := [(3, some ⟨0x20000, 64, .entries 1 0 1 false, leBytes 32 0x4A, false⟩)] }; gives (.hdmaReadData 3 0
    true false) s (fun t => (t.dev.queue 1).st == .error && (t.dev.queue 1).cause == 5)) = true := by decide +kernel

/-- A TAIL doorbell moves the tail. -/
theorem test_tail_moves : (let s := serving; gives (.tail 1 3 15) s (fun t => decide (t.dev.queue 1 =
    { s.dev.queue 1 with tail := 3 }) && t.dev.drive.contains .dbCredit)) = true := by decide +kernel

/-- A TAIL beyond the queue stops it with cause 6. -/
theorem test_tail_wrong : (let s := serving; gives (.tail 1 16 15) s (fun t => (t.dev.queue 1).st == .error && (t.dev.queue
    1).cause == 6 && (t.dev.queue 1).pos == 16 && t.dev.drive.contains .dbCredit)) = true := by decide +kernel

/-- A doorbell without all four byte enables has no effect but its credit. -/
theorem test_bell_bad_be : (let s := serving; gives (.tail 1 3 14) s (fun t => decide (t.dev.qmg.queues = s.dev.qmg.queues ∧
    t.dev.fab = s.dev.fab) && t.dev.drive.contains .dbCredit)) = true := by decide +kernel

/-- Three entries of 64 bytes are fetched in one read. -/
theorem test_entry_fetch : (let s := on serving fun d => d.updQueue 1 fun x => { x with tail := 3 }; gives (.entryFetch 1) s
    (fun t => (s.dev.queue 1).wants && decide (t.dev.queue 1 = s.dev.queue 1) && t.dev.qmg.lastFetch == 1 && t.dev.qmg.rdOut.any
    fun p => p.2.any fun r => r.addr == 0x20000 && r.len == 192 && r.why == .entries 1 0 3 false)) = true := by decide +kernel

/-- CREATE_QUEUE makes an ACTIVE queue of 16 entries. -/
theorem test_queue_made : (let s := given serving 0 1 [(8, 7), (10, 1), (11, 4), (12, 2), (16, 0x40000)] []; gives
    (.createQueue 0 0) s (fun t => ans 0 0 (Cpl.ok 0) t && decide (t.dev.queue 7 = { (default : Queue) with
    st := .active, ty := .io, fmt := 2, log2 := 4, base := 0x40000, polledAt := 1000000 }))) = true := by decide +kernel

/-- DELETE_QUEUE of an ACTIVE queue answers BUSY. -/
theorem test_delete_busy : (let s := given serving 0 2 [(8, 1)] []; gives (.deleteQueue 0 0) s (fun t => ans 0 0 .busy t)) =
    true := by decide +kernel

/-- FAB_WIN_TIMEOUT is clamped to 1000. -/
theorem test_feature_1 : (let s := given serving 0 4 [(8, 1), (12, 0xFFFFFFFF)] []; gives (.setFeature 0 0) s (fun t =>
    t.dev.fab.winTimeout == 1000 && ans 0 0 (Cpl.ok (t.live 0x20004)) t)) = true := by decide +kernel

/-- CAN_DIRTY_BUDGET is clamped to 8. -/
theorem test_feature_7 : (let s := given serving 0 4 [(8, 7), (12, 0xFFFFFFFF)] []; gives (.setFeature 0 0) s (fun t =>
    t.dev.can.budgetMib == 8 && ans 0 0 (Cpl.ok (t.live 0xC000C)) t)) = true := by decide +kernel

/-- A read of the low half of a pair holds the high half (spec/00 R9). -/
theorem test_read_lo : (let s := on serving fun d => { d with can.hit := 0x500000003 }; gives (.regReadPairLo (0xC0028 / 4)
    false) s (fun t => t.dev.drive == [.regRsp 3 false] && t.dev.mgt.hiHeld == [(0xC002C, 5)])) = true := by decide +kernel

/-- The held high half is read once. -/
theorem test_read_hi : (let s := on serving fun d => { d with mgt.hiHeld := [(0xC002C, 9)] }; gives (.regReadPairLo (0xC002C /
    4) false) s (fun t => t.dev.drive == [.regRsp 9 false] && t.dev.mgt.hiHeld == [])) = true := by decide +kernel

/-- Before READY a read outside MGT answers err 1 (spec/17 R453). -/
theorem test_early_read : (let s := on serving fun d => { d with mgt.ready := false }; gives (.regReadPairLo (0x20000 / 4)
    false) s (fun t => t.dev.drive == [.regRsp 0 true])) = true := by decide +kernel

/-- A forced FT source with drills enabled is a drill (spec/15). -/
theorem test_forced_drill : (let s := { serving with safe.drillEn := true }; gives (.fltForce 7 0 0x2000) s (fun t =>
    !t.safe.active && t.safe.drillCnt == 1)) = true := by decide +kernel

/-- A forced FT source without drills is the real thing. -/
theorem test_forced_real : (let s := serving; gives (.fltForce 7 0 0x2000) s (fun t => t.safe.active && t.safe.bank == 7 &&
    t.safe.src == 13)) = true := by decide +kernel

/-- The safe state records bank, source, class and time. -/
theorem test_squall : (let s := serving; gives (.squallEntry 7 13) s (fun t => t.safe.active && t.safe.bank == 7 && t.safe.src
    == 13 && t.safe.time == 1000000 && t.safe.cls == 1)) = true := by decide +kernel

/-- Zeroisation leaves no key. -/
theorem test_zeroised : (let s := { serving with safe := { Safe.reset with active := true, cls := 1 } }; gives
    (.zeroisationDone) s (fun t => t.safe.zeroised && t.dev.key.slots == [] && t.dev.key.keks == [] && t.dev.key.derived == none
    && t.dev.key.drbg.key == 0 && t.dev.frs.zones.all fun p => p.2.key == none && p.2.drawn == none)) = true := by
    decide +kernel

/-- STL_CLEAR of the shadow set starts. -/
theorem test_stl_clear : (let s := serving; gives (.stlClear 2) s (fun t => t.dev.drive.contains (.regRsp 0 false) &&
    (t.dev.stlSet 1).clearing)) = true := by decide +kernel

/-- The geometry of the set in use cannot be written: CFG_IGN. -/
theorem test_geom_used : (let s := withStream; gives (.stlGeomSeedWrite .seed1 0 6) s (fun t => t.dev.drive.contains (.regRsp
    0 false) && decide (t.dev.stl = { s.dev.stl with cfgIgn := true }))) = true := by decide +kernel

/-- STREAM_INSERT of a stream that has an entry answers EXISTS. -/
theorem test_insert_again : (let s := given withStream 1 0x30 [(12, 5), (14, 7), (16, 4), (18, 3), (19, 1)] []; gives
    (.streamInsert 1 0 []) s (fun t => ans 1 0 .exists t && decide (t.dev.stl = s.dev.stl))) = true := by decide +kernel

/-- STREAM_REMOVE empties the bucket. -/
theorem test_remove : (let s := given withStream 1 0x31 [(12, 5), (14, 7)] []; gives (.streamRemove 1 0 []) s (fun t => ans 1
    0 (Cpl.ok 0) t && (t.dev.stlSet 0).tab == [])) = true := by decide +kernel

/-- REKEY_START makes a Front with the rate named. -/
theorem test_rekey : (let s := given serving 1 0x40 [(8, 0), (10, 3), (12, 4), (14, 7)] []; gives (.rekeyStart 1 0) s (fun t
    => ans 1 0 (Cpl.ok 0) t && t.dev.rekey 0 == ⟨.active, 3, 4, 0⟩ && t.dev.svc.fronts.get 0 == ⟨7, 64000, false⟩)) = true := by
    decide +kernel

/-- A parked write that times out waits for its window (spec/05 R140). -/
theorem test_parked_write : (let s := on (having serving { access 6 with
    stage := .parked, parkedAt := 10, inFlight := false, place := none, isWrite := true }) fun d => d; gives (.parkingTimeout 6
    false) s (fun t => (t.dev.acc 6 == (s.dev.acc 6).map fun a => { a with stage := .expired }) && t.dev.stl.timeoutCnt.get 0 ==
    1)) = true := by decide +kernel

/-- A slot with an uncorrectable error is empty for the insert. -/
theorem test_insert_lost : (let s := given withStream 1 0x30 [(12, 5), (14, 7), (16, 4), (18, 3), (19, 1)] []; gives
    (.streamInsert 1 0 [(0, .slot (BitVec.ofNat 17 (4 * (serving.dev.stlSet 0).h0 5 7)) true)]) s (fun t => ans 1 0 (Cpl.ok 0) t
    && (t.dev.stlSet 0).tab.get (((s.dev.stlSet 0).h0 5 7) * 4) == some ⟨true, 0, 3, 4, 7, 5⟩)) = true := by decide +kernel

/-- A SCAN during a scan read asks for another (spec/12 R325). -/
theorem test_scan_again : (let s := on serving fun d =>
    { d.updQueue 1 fun x => { x with scanning := true, stopped := true } with
    qmg.rdOut := [(3, some ⟨0x20000, 64, .entries 1 0 1 true, [], false⟩)] }; gives (.scan 1 0 15) s (fun t => decide
    (t.dev.queue 1 = { s.dev.queue 1 with again := true, stopped := false }) && t.dev.drive.contains .dbCredit)) = true := by
    decide +kernel

/-- A vector table at an odd multiple of 16 is read in whole units. -/
theorem test_vector_all_odd : (let s := on serving fun d => { d with qmg.vecBase := 0x50010 }; gives (.qmgVecLoad 0x80000000)
    s (fun t => t.dev.qmg.vecLoading == (vecReads s.dev.qmg.vecBase 65 0).length && (vecReads s.dev.qmg.vecBase 65 0).foldl (fun
    a r => a + r.2) 0 == 2048 && (vecReads s.dev.qmg.vecBase 65 0).all fun k => ((s.dev.qmg.vecBase + 16 * k.1) % 32 + 16 * k.2
    ≤ 512) && ((t.dev.qmg.rdOut.any fun p => p.2.any fun r => r.addr == s.dev.qmg.vecBase + 16 * k.1 && r.len == 16 * k.2 &&
    r.why == .vectors k.1 k.2) || t.dev.qmg.rdWait.any fun r => r.addr == s.dev.qmg.vecBase + 16 * k.1 && r.len == 16 * k.2 &&
    r.why == .vectors k.1 k.2))) = true := by decide +kernel

/-- A write whose counter update was discarded ends POISONED. -/
theorem test_write_lost : (let s := on (having serving { access 6 with stage := .writing, isWrite := true, lost := true }) fun
    d => { d with
    med.ch := [(0, { (default : Channel) with mcmd := 64, mwd := 64, out := [(7, some ⟨1, 0, default, .data 6⟩)] })] }; gives
    (.mediaWriteCompletion 0 7 0 false) s (fun t => (t.dev.acc 6).any fun b => b.stage == .done && b.status == .poisoned)) =
    true := by decide +kernel

/-- A KEK lost to an uncorrectable error is EMPTY. -/
theorem test_install_kek_lost : (let s := given serving 1 0x20 [(8, 7), (16, 0x5000)] (keyWrap 21 ([1, 1, 9, 0] ++ leBytes 32
    5 ++ leBytes 32 6)); gives (.keyInstall 1 0 (some (.kek 0, true))) s (fun t => ans 1 0 .notFound t && !(t.dev.key.keks.get
    0).loaded)) = true := by decide +kernel

/-- A clock measured too fast is lost (spec/03 R88). -/
theorem test_too_fast : (let s := serving; gives (.clockMeasurement 3 30000) s (fun t => decide (t.dev.mgt.clkMeas.get 3 =
    { valid := true, lost := true, freq := 30000 }) && !t.dev.clocked 3)) = true := by decide +kernel

/-- A deferred SYS_RST_N takes effect in the safe state. -/
theorem test_pf_deferred_safe : (let s :=
    { (on serving fun d => { d with mgt.sysRstN := false, mgt.rstDeferred := true }) with
    safe := { Safe.reset with active := true, cls := 1 } }; gives (.pfwDone) s (fun t => t.dev.fab == Fab.reset && t.dev.stl ==
    Stl.reset && t.dev.rmp == Rmp.reset && t.dev.lan == Lan.reset && t.dev.frs == Frs.reset && t.dev.can == Can.reset &&
    t.dev.med == Med.reset && t.dev.key == Key.reset && t.dev.svc == Svc.reset && t.dev.per == Per.reset && decide
    ({ t.dev.qmg with vecs := [] } = Qmg.reset) && (t.dev.qmg.vecs.all fun p => decide (p.2.settings = (default :
    Vec).settings)) && decide ({ t.dev.del with links := [] } = Del.reset) && ((List.range 4).all fun n => decide (t.dev.link n
    = { (default : Link) with up := (t.dev.link n).up })) && !t.dev.mgt.ready && t.dev.mgt.phase == .fuse && t.dev.mgt.pfw ==
    .none && !t.dev.mgt.suspended && t.dev.mgt.tref == 0 && t.dev.mgt.clusterGate == 0 && t.dev.mgt.clusterIdle == 0 &&
    t.dev.mgt.loHeld == [] && t.dev.mgt.hiHeld == [] && (List.range 14).all (fun b => b == bFlt || decide (t.flt.banks.get b =
    default)) && t.safe.resetCause == s.safe.resetCause ||| 2)) = true := by decide +kernel

/-- REKEY_ABORT ends a service command of its range CANCELLED. -/
theorem test_rekey_abort_cmd : (let s := on (given (on serving fun d => { d with
    rmp.rekey := [(0, ⟨.active, 3, 4, 5⟩)], svc.cmds := [{
    q := 0, pos := 3, kind := .transcode, base := 2, units := 4, slotA := 3, slotB := 4, kek := 1, nodesOnly := false,
    running := true, next := 1, prog := 1, salt := [], ending := none, region := 0, slots := [], slotRegion := none, buf := [],
    fetch := none : SCmd }] }) 1 0x41 [(8, 0)] []) fun d => d.updQueue 0 fun x =>
    { x with exec := [{ (default : Exec) with pos := 3, entry := entry 0x46 [], st := .running }] }; gives (.rekeyAbort 1 0) s
    (fun t => ans 0 3 (({
    q := 0, pos := 3, kind := .transcode, base := 2, units := 4, slotA := 3, slotB := 4, kek := 1, nodesOnly := false,
    running := true, next := 1, prog := 1, salt := [], ending := none, region := 0, slots := [], slotRegion := none, buf := [],
    fetch := none : SCmd }).report (Cpl.aborted 4)) t)) = true := by decide +kernel

/-- TRST_N resets the port and holds it. -/
theorem test_trst : (let s := on serving fun d =>
    { d with tap := { Tap.reset with trstN := true, ir := 0x10, sibReg := true, sibKat := true } }; gives (.trstN false) s (fun
    t => t.dev.tap == Tap.reset && t.dev.inReset domDbg)) = true := by decide +kernel

/-- CLAMP with SYS_RST_N asserted. -/
theorem test_clamp : (let s := on serving fun d => { d with
    tap := { Tap.reset with trstN := true, ir := 0x10, sibReg := true, sibKat := true }, mgt.sysRstN := false }; gives (.clamp)
    s (fun t => decide (t.dev.tap = { s.dev.tap with ir := 3 }) && t.dev.drive.contains (pinsDriven s.dev.tap.cells) &&
    t.dev.drive.contains (.tdo 8 1) && t.dev.drive.contains (.tdo 1 0))) = true := by decide +kernel

/-- NETWORK is denied with DBG_DISABLE. -/
theorem test_network_denied : (let s := on serving fun d => { d with
    tap := { Tap.reset with trstN := true, ir := 0x10, sibReg := true, sibKat := true }, mgt.fuse := [0, 0, 0, 0, 0, 0, 0, 0,
    11, 0x12345678, 0] }; gives (.network true false) s (fun t => decide (t.dev.tap =
    { s.dev.tap with ir := 0x10, sibReg := false, sibKat := false, denied := 1 }) && t.dev.drive.contains (.tdo 8 1) &&
    t.dev.drive.contains (.tdo 1 0))) = true := by decide +kernel

/-- A TAP read of a register. -/
theorem test_tap_read : (let s := on serving fun d =>
    { d with tap := { Tap.reset with trstN := true, ir := 0x10, sibReg := true, sibKat := true } }; gives (.tapRegRead (0xA0000
    / 4) false) s (fun t => t.dev.tap.rDone && !t.dev.tap.rErr && !t.dev.tap.rDenied && t.dev.tap.rData == (s.regAt
    0xA0000).getD 0)) = true := by decide +kernel

/-- READY ends power-up. -/
theorem test_ready_up : (let s := on serving fun d => { d with mgt.phase := .drbg, mgt.ready := false }; gives (.ready) s (fun
    t => t.dev.mgt.ready && t.dev.mgt.phase == .done)) = true := by decide +kernel

/-- PF_WARN ends parked accesses with ACCESS_ERROR and starts the flush. -/
theorem test_pf : (let s := having serving { access 6 with stage := .parked, inFlight := false, place := none }; gives
    (.pfWarn) s (fun t => t.dev.mgt.pfWarn && t.dev.mgt.pfw == .flushing && (t.dev.acc 6).any fun b => b.stage == .done &&
    b.status == .accessError)) = true := by decide +kernel

/-- POOL_JOIN makes the engine a member. -/
theorem test_join_2 : (let s := given serving 0 0xB [(8, 5), (9, 2), (10, 3), (16, 0x900000007)] []; gives (.poolJoin 0 0) s
    (fun t => ans 0 0 (Cpl.ok 0) t && t.dev.del.inPool && t.dev.del.poolId == 5 && t.dev.del.linksUse == 3 && t.dev.del.ident ==
    0x900000007 && t.dev.del.group == some 2 && t.dev.del.gstate == .whole)) = true := by decide +kernel

/-- POOL_LEAVE outside a pool answers NOT_FOUND. -/
theorem test_leave_none : (let s := given serving 0 0xC [] []; gives (.poolLeave 0 0) s (fun t => ans 0 0 .notFound t)) =
    true := by decide +kernel

/-- No common version with a peer that has VMIN 8. -/
theorem test_hello_none : (let s := on pooled fun d =>
    { d with del.links := [(1, { (default : Link) with up := true, st := .hello })] }; gives (.hello 1 ⟨false, 9, 0, 0, 1,
    [0x908, 7, 9]⟩) s (fun t => (t.dev.link 1).st == .noVersion)) = true := by decide +kernel

/-- SAFE of a member makes it ABSENT. -/
theorem test_peer_safe : (let s := pooled; gives (.safe 1 ⟨true, 9, 0, 3, 77, []⟩) s (fun t => (t.dev.memberOf 9).st ==
    .absent)) = true := by decide +kernel

/-- A HELLO without ECHO leaves the link in HELLO. -/
theorem test_hello_no_echo : (let s := on pooled fun d =>
    { d with del.links := [(1, { (default : Link) with up := true, st := .hello })] }; gives (.hello 1 ⟨false, 9, 0, 0, 1,
    [0x906, 7, 9]⟩) s (fun t => (t.dev.link 1).st == .hello && (t.dev.link 1).heard && (t.dev.link 1).peer == 9 && (t.dev.link
    1).version == (s.dev.link 1).version)) = true := by decide +kernel

/-- A write of a stream that no event queue can learn is refused. -/
theorem test_unlearnt_write : (let s := on serving fun d => { d with stl.learnEvq := ⟨false, 0⟩ }; gives (.fabricRequest 0 1
    0x55 5 7 9 0 []) s (fun t => (t.dev.acc 0).any fun a => a.stage == .refused && a.isWrite && !a.inFlight)) = true := by
    decide +kernel

/-- A stopped SANITIZE ends when its zone has no request left (spec/04 R106). -/
theorem test_departs_stopped : (let s := on (given serving 1 0x42 [] []) fun d =>
    { d.updExec 1 0 (fun x => { x with st := .running }) with
    frs.zones := [(1, { (default : Zone) with
    st := .sanitizing, prev := .online, leaving := true, drawn := some 99, cmd := some (1, 0) })], svc.cmds := [{
    q := 1, pos := 0, kind := .sanitize, base := 2097152, units := 2097152, slotA := 0, slotB := 0, kek := 0, nodesOnly :=
    false, running := true, next := 0, prog := 0, salt := [], ending := some (Cpl.aborted 4), region := 1, slots := [],
    slotRegion := none, buf := [], fetch := none : SCmd }] }; gives (.zoneDeparture 1) s (fun t => ans 1 0 (({
    q := 1, pos := 0, kind := .sanitize, base := 2097152, units := 2097152, slotA := 0, slotB := 0, kek := 0, nodesOnly :=
    false, running := true, next := 0, prog := 0, salt := [], ending := some (Cpl.aborted 4), region := 1, slots := [],
    slotRegion := none, buf := [], fetch := none : SCmd }).report (Cpl.aborted 4)) t && (t.dev.zone 1).st == .online)) = true :=
    by decide +kernel

/-- In the safe state an Anvil access that fails raises PER_ANVIL_FAIL (spec/15 R423). -/
theorem test_anvil_squall_true : (let s := { (on serving fun d => { d with per.anvil := some ⟨true, 3, 7, 9, false⟩ }) with
    safe := { Safe.reset with active := true, cls := 1 } }; gives (.anvilResponse 5 true) s (fun t => (t.flt.banks.get
    bPer).first.isSome && decide (t.dev.per = { s.dev.per with anvil := none }))) = true := by decide +kernel

/-- POOL_RECONCILE without RECON_DONE answers SPLIT_GROUP. -/
theorem test_recon_late : (let s := given (on pooled fun d => { d with
    del.recon := some (0, 0), del.gstate := .reunited, mgt.tref := 2000 * Config.trefPerUs, del.txnTimeout := 1000,
    del.reconAt := some 5 }) 0 0xD [(8, 2)] []; gives (.txnTimeout) s (fun t => ans 0 0 .split t)) = true := by decide +kernel

/-- A SEAL whose KEK turned INSTALL ends INVALID_FIELD. -/
theorem test_svc_start_seal_use : (let s := on (given serving 1 0x44 [] []) fun d =>
    { d.updExec 1 0 (fun x => { x with st := .running }) with
    svc.cmds := [{
    q := 1, pos := 0, kind := .seal, base := 2, units := 4, slotA := 3, slotB := 4, kek := 0, nodesOnly := false, running :=
    false, next := 0, prog := 0, salt := [], ending := none, region := 0, slots := [], slotRegion := none, buf := [], fetch :=
    none : SCmd }] }; gives (.serviceCommandStart 1 0) s (fun t => ans 1 0 (({
    q := 1, pos := 0, kind := .seal, base := 2, units := 4, slotA := 3, slotB := 4, kek := 0, nodesOnly := false, running :=
    false, next := 0, prog := 0, salt := [], ending := none, region := 0, slots := [], slotRegion := none, buf := [], fetch :=
    none : SCmd }).report (Cpl.invalid 0 12)) t && t.dev.svc.cmds == [])) = true := by decide +kernel

/-- Words with a bad CRC count as an error of the link. -/
theorem test_frame_bad : (let s := pooled; gives (.frameReceived 1 [1, 2, 3]) s (fun t => decide (t.dev.link 1 =
    { s.dev.link 1 with errs := 1 }))) = true := by decide +kernel

/-- A member not heard makes the group SPLIT (spec/16). -/
theorem test_member_late : (let s := on pooled fun d => { d with mgt.tref := 100 * Config.trefPerUs }; gives (.memberTimeout
    9) s (fun t => (t.dev.memberOf 9).st == .silent && t.dev.del.gstate == .split)) = true := by decide +kernel

end Tests
end Sys2Proof
end

/-! O27 fails. While CORE is in reset, SAFE's own monitor turns a lost TREF clock into the safe state at every step (spec/15
R415), whatever FLT_LIVE of the MGT bank holds; so the premise that no bank has anything to register does not keep SAFE. -/

namespace Sys2Proof
namespace Machine

/-! ### Registering does not leave the safe state -/

theorem enterSquall_active (b k : Nat) (fuse : Bool) (s : State) : (enterSquall b k fuse s).safe.active = true := by
  unfold enterSquall
  split
  · assumption
  · rfl

theorem settleBank_keeps_active (b : Nat) {s : State} (h : s.safe.active = true) : (settleBank b s).safe.active = true := by
  unfold settleBank
  split
  · split
    · exact h
    · split
      · exact enterSquall_active ..
      · split
        · exact enterSquall_active ..
        · exact h
  · dsimp only
    split
    · exact enterSquall_active ..
    · split <;> exact h

theorem forAll_settleBank_keeps_active (bs : List Nat) {s : State} (h : s.safe.active = true) :
    (forAll bs settleBank s).safe.active = true := by
  unfold forAll
  induction bs generalizing s with
  | nil => exact h
  | cons b r ih => exact ih (settleBank_keeps_active b h)

/-! ### The loss of TREF's clock while CORE is in reset -/

/-- The MGT bank is in CORE and cannot register: the loss reaches Squall from SAFE directly. -/
theorem settleBank_mgt_active_of_tref_lost {s : State} (hc : s.dev.mgt.domReset.getLsbD domCore = true)
    (hl : s.dev.clockLostAt domTref = true) : (settleBank bMgt s).safe.active = true := by
  have hb : (bMgt != bFlt) = true := rfl
  simp only [settleBank, hb, hc, hl, Bool.and_self, if_true, bne_self_eq_false, Bool.false_eq_true, if_false]
  split <;> exact enterSquall_active ..

theorem settle_active_of_tref_lost {s : State} (hc : s.dev.mgt.domReset.getLsbD domCore = true)
    (hl : s.dev.clockLostAt domTref = true) : (settle s).safe.active = true := by
  have hsplit : settle s = forAll [11, 11] settleBank
      (settleBank bMgt (forAll [0, 1, 2, 3, 4, 5, 6, 7, 8, 9, 10, 12] settleBank s)) := rfl
  have hmgt := forAll_keeps (fun t : State => t.dev.mgt) settleBank (fun b t => (settleBank_settled b t).dev.mgt)
    [0, 1, 2, 3, 4, 5, 6, 7, 8, 9, 10, 12] s
  rw [hsplit]
  refine forAll_settleBank_keeps_active _ (settleBank_mgt_active_of_tref_lost ?_ ?_)
  · rwa [hmgt]
  · rwa [Dev.clockLostAt, hmgt]

/-- A row whose effect keeps CORE in reset and TREF's clock lost ends in the safe state. -/
theorem act_active_of_tref_lost {f : Dev → Dev} {s t : State} (h : s.act f = .next t)
    (hc : (f { s.dev with drive := [] }).mgt.domReset.getLsbD domCore = true)
    (hl : (f { s.dev with drive := [] }).clockLostAt domTref = true) : t.safe.active = true := by
  obtain rfl : settle { s with dev := f { s.dev with drive := [] } } = t := Host.Outcome.next.inj h
  exact settle_active_of_tref_lost hc hl

/-- So does a REG read, which changes of MGT the holding registers only. -/
theorem regReadPairLo_active_of_tref_lost {woff : BitVec 22} {zen : Bool} {s t : State}
    (h : exec (.regReadPairLo woff zen) s = .next t) (hc : s.dev.mgt.domReset.getLsbD domCore = true)
    (hl : s.dev.clockLostAt domTref = true) : t.safe.active = true := by
  have hz : ∀ (d : Dev) (c : Bool), (d.zenithRead c).mgt = d.mgt := fun d c => (Registers.zenithRead d c).mgt
  rw [exec_regReadPairLo, execRegReadPairLo] at h
  refine act_active_of_tref_lost h ?_ ?_
  · dsimp only
    split_ifs <;> simp only [Dev.emit_mgt, hz, hc]
  · dsimp only [Dev.clockLostAt]
    split_ifs <;> simp only [Dev.emit_mgt, hz] <;> exact hl

/-! ### The counterexample -/

/-- Only CORE in reset; TREF's clock lost, its condition (source 58 of the MGT bank) already in FLT_LIVE; the safe state not
entered. -/
def trefLost : State :=
  { State.reset with
    dev := { Dev.reset with mgt := { Mgt.reset with domReset := 0x200#60, clkMeas := [(domTref, ⟨false, true, 0⟩)] } }
    flt := ⟨[(bMgt, { (default : Bank) with live := [58] })]⟩ }

theorem holding_trefLost (b : Nat) : trefLost.dev.holding b = if b = 13 then [58] else [] := by
  unfold Dev.holding
  split
  any_goals rfl
  rename_i hne
  exact (if_neg hne).symm

theorem quiet_trefLost (b : Nat) : Quiet b trefLost := by
  refine ⟨rfl, fun k hk => ?_⟩
  rw [holding_trefLost] at hk
  split at hk
  · subst b
    exact hk
  · exact absurd hk List.not_mem_nil

/-- Refutes O27: in `trefLost` a read of offset 0xC, which no register occupies, ends in the safe state. Every bank is quiet
there, but SAFE's monitor, which acts for the MGT bank while CORE is in reset, does not ask FLT_LIVE. A reset of CORE empties
that bank (`State.sysReset`), and the statement has no premise that says so. -/
theorem not_unoccupiedOffsets : ¬ Obligations.UnoccupiedOffsets := by
  unfold Obligations.UnoccupiedOffsets
  intro h
  have hup : trefLost.dev.up domReg = true := rfl
  have hfree : trefLost.regAt (4 * (3#22).toNat) = none := rfl
  have hheld : ∀ p ∈ trefLost.dev.mgt.hiHeld, p.1 ≠ 4 * (3#22).toNat := fun _ hp => absurd hp List.not_mem_nil
  obtain ⟨⟨t, hexec, -, -, hquiet⟩, -⟩ := h 3#22 false 0 trefLost hup hfree hheld (by decide)
  obtain ⟨-, hsafe, -⟩ := hquiet quiet_trefLost
  have hactive : t.safe.active = true := regReadPairLo_active_of_tref_lost hexec rfl rfl
  have hidle : t.safe.active = false := congrArg Safe.active hsafe
  exact Bool.false_ne_true (hidle.symm.trans hactive)

end Machine
end Sys2Proof

/-! O17. The grant of a write whose byte mask is empty goes no further than the outcome: of the block it changes that access,
and clears the clean lines of the staging buffer that nothing needs, as every grant does first (spec/04 R115). -/

namespace Sys2Proof
namespace Machine

open Laws

/-! ### Accesses after a change -/

/-- An access that keeps its id is found where it was, changed. -/
theorem Dev.acc_updAcc {d : Dev} {id : Nat} {a : Access} {f : Access → Access} (hf : ∀ x, (f x).id = x.id)
    (h : d.acc id = some a) : (d.updAcc id f).acc id = some (f a) := by
  have hid : a.id = id := by simpa using List.find?_some h
  have hkeeps : ((fun b : Access => b.id == id) ∘ fun b => if b.id = id then f b else b) = fun b => b.id == id := by
    funext b
    by_cases hb : b.id = id <;> simp [hb, hf]
  have h : d.fab.accs.find? (fun b => b.id == id) = some a := h
  show (d.fab.accs.map _).find? _ = _
  rw [List.find?_map, hkeeps, h, Option.map_some, if_pos hid]

/-- An access that has no outcome yet ends with the one decided. -/
theorem Dev.acc_outcome {d : Dev} {id : Nat} {a : Access} (st : Status) (h : d.acc id = some a) (hs : a.stage ≠ .done) :
    (d.outcome id st).acc id = some { a with stage := .done, status := st, linkKey := none, winKey := none } := by
  refine (Dev.acc_updAcc (fun x => ?_) h).trans (by rw [if_neg hs])
  split <;> rfl

/-- The mark that the first grant of an access leaves: its stage and the slot chosen for it (spec/06 R155). -/
def Dev.markGranted (d : Dev) (id : Nat) (a : Access) : Dev :=
  if a.stage = .gated then d.updAcc id fun x => { x with stage := .granted, slot := d.grantSlot a } else d

theorem Dev.acc_markGranted {d : Dev} {id : Nat} {a : Access} (h : d.acc id = some a) (hs : a.stage ≠ .done) :
    ∃ b, (d.markGranted id a).acc id = some b ∧ b.stage ≠ .done := by
  unfold Dev.markGranted
  split
  · exact ⟨_, Dev.acc_updAcc (f := fun x => { x with stage := .granted, slot := d.grantSlot a }) (fun _ => rfl) h, nofun⟩
  · exact ⟨a, h, hs⟩

theorem Dev.stage_of_grantable {d : Dev} {a : Access} (h : d.grantable a = true) : a.stage = .gated ∨ a.stage = .granted := by
  unfold Dev.grantable at h
  split at h
  · cases h
  · simp only [Bool.and_eq_true, Bool.or_eq_true, beq_iff_eq] at h
    obtain ⟨⟨hstage, -⟩, -⟩ := h
    exact hstage

theorem Dev.not_done_of_grantable {d : Dev} {a : Access} (h : d.grantable a = true) : a.stage ≠ .done := by
  rcases Dev.stage_of_grantable h with hs | hs <;> simp [hs]

/-! ### Clearing Canopy lines -/

/-- A table whose keys rise reads at the index of an entry what the entry holds. -/
theorem get_of_mem {α : Type} [Inhabited α] {t : Tab α} {p : Nat × α} (h : Tab.rising t) (hp : p ∈ t) : t.get p.1 = p.2 := by
  induction t with
  | nil => cases hp
  | cons q r ih =>
    obtain ⟨hq, hr⟩ := List.pairwise_cons.mp h
    rcases List.mem_cons.mp hp with rfl | hp
    · exact if_pos rfl
    · exact (if_neg (Nat.ne_of_lt (hq p hp))).trans (ih hr hp)

/-- Some lines are emptied. -/
def Dev.clearLines (d : Dev) (ks : List Nat) : Dev := forAll ks (fun k e => e.setLine k default) d

/-- Only the lines of the Canopy change. -/
theorem Dev.clearLines_only (d : Dev) (ks : List Nat) :
    d.clearLines ks = { d with can.lines := (d.clearLines ks).can.lines } := by
  induction ks generalizing d with
  | nil => rfl
  | cons k r ih => exact ih (d.setLine k default)

theorem Dev.clearLines_can1_other (d : Dev) {ks : List Nat} {k : Nat} (h : k ∉ ks) :
    (d.clearLines ks).can1 k = d.can1 k := by
  induction ks generalizing d with
  | nil => rfl
  | cons j r ih =>
    obtain ⟨hj, hr⟩ := not_or.mp (mt List.mem_cons.mpr h)
    exact (ih (d.setLine j default) hr).trans (Tab.get_put_other default hj)

/-- A trim of the staging buffer empties clean lines of it (spec/09 R252). -/
theorem Dev.trimStaging_clears (d : Dev) :
    ∃ ks, d.trimStaging = d.clearLines ks ∧ ∀ k ∈ ks, ∃ c, (k, c) ∈ d.can.lines ∧ staging ≤ k ∧ c.st = .clean := by
  refine ⟨_, rfl, fun k hk => ?_⟩
  obtain ⟨⟨j, c⟩, hmem, rfl⟩ := List.mem_map.mp hk
  obtain ⟨hline, hclean⟩ := List.mem_filter.mp hmem
  simp only [Bool.and_eq_true, decide_eq_true_eq, beq_iff_eq] at hclean
  obtain ⟨⟨hstaging, hst⟩, -⟩ := hclean
  exact ⟨c, hline, hstaging, hst⟩

theorem Dev.trimStaging_only (d : Dev) : d.trimStaging = { d with can.lines := d.trimStaging.can.lines } := by
  obtain ⟨ks, hks, -⟩ := d.trimStaging_clears
  rw [hks]
  exact d.clearLines_only ks

@[simp] theorem Dev.trimStaging_fab (d : Dev) : d.trimStaging.fab = d.fab := by rw [Dev.trimStaging_only]

/-- Every line outlives a trim, but for clean ones of the staging buffer. -/
theorem Dev.trimStaging_can1 {d : Dev} (h : Tab.rising d.can.lines) (k : Nat) :
    d.trimStaging.can1 k = d.can1 k ∨ staging ≤ k ∧ (d.can1 k).st = .clean := by
  obtain ⟨ks, hks, hclean⟩ := d.trimStaging_clears
  by_cases hk : k ∈ ks
  · obtain ⟨c, hline, hstaging, hst⟩ := hclean k hk
    have hget : d.can1 k = c := get_of_mem h hline
    exact .inr ⟨hstaging, hget ▸ hst⟩
  · exact .inl (hks ▸ d.clearLines_can1_other hk)

/-! ### The grant of a write with no byte enabled -/

/-- What the grant of such a write does to the block. -/
def Dev.grantEmptyWrite (d : Dev) (id : Nat) (a : Access) : Dev := (d.trimStaging.markGranted id a).outcome id .ok

theorem exec_accessGrant_of_emptyWrite {id : Nat} {s : State} {a : Access} (hs : InService s) (ha : s.dev.acc id = some a)
    (hg : s.dev.grantable a = true) (hw : Dev.passedWindow a = true) (he : Dev.emptyWrite a = true) :
    exec (.accessGrant id none) s = s.act fun d => d.grantEmptyWrite id a := by
  have ha' : ({ s.dev with drive := [] } : Dev).acc id = some a := ha
  have hg' : ({ s.dev with drive := [] } : Dev).grantable a = true := hg
  rw [exec_accessGrant, execAccessGrant, serve_acts hs]
  simp only [State.act, ha', hg', hw, he, Dev.canopyError, Bool.not_true, Bool.false_eq_true, if_false, if_true]
  rfl

theorem Dev.grantEmptyWrite_acc {d : Dev} {id : Nat} {a : Access} (ha : d.acc id = some a) (hs : a.stage ≠ .done) :
    ∃ b, (d.grantEmptyWrite id a).acc id = some b ∧ b.stage = .done ∧ b.status = .ok := by
  have ha' : d.trimStaging.acc id = some a := by rwa [Dev.acc, Dev.trimStaging_fab]
  obtain ⟨b, hb, hstage⟩ := Dev.acc_markGranted ha' hs
  exact ⟨_, Dev.acc_outcome .ok hb hstage, rfl, rfl⟩

/-- Beside the trim, it changes only accesses. -/
theorem Dev.grantEmptyWrite_only (d : Dev) (id : Nat) (a : Access) :
    d.grantEmptyWrite id a = { d.trimStaging with fab := (d.grantEmptyWrite id a).fab } := by
  unfold Dev.grantEmptyWrite Dev.markGranted
  split <;> rfl

theorem onlyChanges_grantEmptyWrite (s : State) (id : Nat) (a : Access) :
    OnlyChanges [.fab, .can] s { s with dev := ({ s.dev with drive := [] } : Dev).grantEmptyWrite id a } := by
  rw [Dev.grantEmptyWrite_only, Dev.trimStaging_only]
  intro p hp
  cases p
  case fab | can => simp at hp
  case banks => exact fun hw => ⟨hw, fun _ => ⟨rfl, rfl, rfl, rfl⟩⟩
  all_goals simp [Same]

/-- Settles O17: the write is done at its grant, so nothing that follows a grant happens. -/
theorem emptyWriteCompletesOk : Obligations.EmptyWriteCompletesOk := by
  unfold Obligations.EmptyWriteCompletesOk
  intro id s a p hs hcanon hacc horigin hgrant hwrite hmask hwin
  have hpassed : Dev.passedWindow a = true := by simp [Dev.passedWindow, horigin, hwin]
  have hempty : Dev.emptyWrite a = true := by simp [Dev.emptyWrite, horigin, hwrite, hmask]
  rw [Completes, exec_accessGrant_of_emptyWrite hs hacc hgrant hpassed hempty]
  refine act_completes ⟨?_, fun k => ?_, onlyChanges_settle (onlyChanges_grantEmptyWrite s id a)⟩
  · have hdone := Dev.grantEmptyWrite_acc (d := { s.dev with drive := [] }) hacc (Dev.not_done_of_grantable hgrant)
    simpa only [Dev.acc, settle_fab] using hdone
  · have hline := Dev.trimStaging_can1 (d := { s.dev with drive := [] }) hcanon.lines k
    rw [Dev.can1, settle_can, Dev.grantEmptyWrite_only]
    exact hline

end Machine
end Sys2Proof

/-! O26. Before READY a REG access outside the offsets that R453 names is turned away: a plain access because its offset is
late, a row of CORE because CORE is not READY. At the offsets named no register has a row of its own (spec/17 R453). -/

namespace Sys2Proof
namespace Machine

open Laws

/-! ### The answer of an access that is turned away -/

/-- The access was answered with the error and data 0, and had no effect. -/
abbrev TurnedAway (s t : State) : Prop := Transfer.regRsp 0 true ∈ t.dev.drive ∧ OnlyChanges [] s t

/-- What a step drives belongs to no part of the block. -/
theorem onlyChanges_drive (s : State) (ts : List Transfer) : OnlyChanges [] s { s with dev.drive := ts } := by
  intro p _
  cases p
  case banks => exact fun hw => ⟨hw, fun _ => ⟨rfl, rfl, rfl, rfl⟩⟩
  all_goals simp [Same]

theorem error_turns_away (s : State) :
    ∃ t, (s.act fun d => d.emit (.regRsp 0 true)) = .next t ∧ TurnedAway s t :=
  act_completes ⟨settle_drive (List.mem_singleton_self _), onlyChanges_settle (onlyChanges_drive s [.regRsp 0 true])⟩

section BeforeReady

variable {s : State} (hup : s.dev.up domReg = true) (hready : s.dev.mgt.ready = false)
include hup hready

/-- A row of CORE is turned away. -/
theorem core_turned_away (f : Dev → Dev) : ∃ t, s.core f = .next t ∧ TurnedAway s t := by
  rw [core_turns_away hup hready]
  exact error_turns_away s

/-- So is any other write to an offset that R453 does not name. -/
theorem regPort_turned_away {a : Nat} (ha : regEarly a = false) (f : State → State) :
    ∃ t, s.regPort a f = .next t ∧ TurnedAway s t := by
  have herr : s.regErr a = true := by simp [State.regErr, hready, ha]
  rw [regPort_turns_away hup herr]
  exact error_turns_away s

end BeforeReady

/-! ### The offsets served before READY -/

theorem regEarly_iff (a : Nat) :
    regEarly a = true ↔ a < 0x20000 ∨ 0x1C0000 ≤ a ∧ a < 0x200000 ∨ 0x180000 ≤ a ∧ a ≤ 0x18000C := by
  simp [regEarly, or_assoc]

theorem regErr_of_early {s : State} {a : Nat} (ha : regEarly a = true) (hdoms : ∀ k ∈ regDoms a, s.dev.up k = true) :
    s.regErr a = false := by
  have hnone : ((regDoms a).any fun k => !s.dev.up k) = false := by simpa using hdoms
  simp [State.regErr, ha, hnone]

/-- The registers of the fault banks are not among them, those of the MGT bank apart. -/
theorem regEarly_bank {b : Fin 14} (hb : b.val ≠ 13) {a : Nat} (ha : bankBase b ≤ a ∧ a < bankBase b + 0x1000) :
    regEarly a = false := by
  rw [bankBase, if_neg hb] at ha
  rw [← Bool.not_eq_true, regEarly_iff]
  omega

theorem geomAt_of_early {a : Nat} (ha : regEarly a = true) : geomAt a = none := by
  rw [regEarly_iff] at ha
  have hne (n : Nat) (hn : 0x20000 ≤ n ∧ n < 0x180000) : a ≠ n := by omega
  simp [geomAt, hne]

/-- No register there has a row of its own. -/
theorem ownRow_of_early {a : Nat} (ha : regEarly a = true) (v : Word32) : ownRow a v = none := by
  unfold ownRow
  split
  case h_27 => rw [geomAt_of_early ha]; rfl
  all_goals cases ha

/-! ### Writes to the registers of CORE -/

theorem execQctl_core (v : Word32) (s : State) : ∃ f, execQctl v s = s.core f := by
  unfold execQctl
  dsimp only
  split <;> exact ⟨_, rfl⟩

/-- Every row that a REG write acts as is a row of CORE. -/
theorem ownRow_core {a : Nat} {v : Word32} {f : State → Host.Outcome State Fault Refusal} (h : ownRow a v = some f) (s : State) :
    ∃ g, f s = s.core g := by
  unfold ownRow at h
  split at h
  case h_21 =>
    cases h
    exact execQctl_core v s
  case h_27 =>
    obtain ⟨p, -, rfl⟩ := Option.map_eq_some_iff.mp h
    exact ⟨_, rfl⟩
  all_goals
    cases h
    exact ⟨_, rfl⟩

/-- The rows that write a register of CORE outside the fault banks. -/
def coreWrites (v : Word32) (g : GeomReg) (k : Fin 2) (drbg : Option Bool) (b : Bool) (q : BitVec 14) : List Instr :=
  [.fabPortEn v, .fabCntClr v, .stlClear v, .stlRejectClr v, .stlCntClr v, .stlGeomSeedWrite g k v, .rmpClear v,
    .rmpSetCfg k v, .lanKatRun v, .canCtrlEn v, .canPinCfg v, .canLfsrReseed v drbg, .canCntClr v, .frsMetaBaseWrite b v,
    .frsCntClr v, .perArm v, .perAnchorBaseWrite v, .perCntClr v, .keyDrbgReseed v, .keyEntEn v, .keyCntClr v, .enable q,
    .disable q, .adminReset q, .qmgVecLoad v, .medCntClr v, .svcCntClr v]

theorem coreWrites_core (v : Word32) (g : GeomReg) (k : Fin 2) (drbg : Option Bool) (b : Bool) (q : BitVec 14) (s : State) :
    ∀ c ∈ coreWrites v g k drbg b q, ∃ f, exec c s = s.core f := by
  simp only [coreWrites, List.forall_mem_cons, List.not_mem_nil, false_imp_iff, implies_true, and_true]
  exact ⟨⟨_, exec_fabPortEn ..⟩, ⟨_, exec_fabCntClr ..⟩, ⟨_, exec_stlClear ..⟩, ⟨_, exec_stlRejectClr ..⟩,
    ⟨_, exec_stlCntClr ..⟩, ⟨_, exec_stlGeomSeedWrite ..⟩, ⟨_, exec_rmpClear ..⟩, ⟨_, exec_rmpSetCfg ..⟩,
    ⟨_, exec_lanKatRun ..⟩, ⟨_, exec_canCtrlEn ..⟩, ⟨_, exec_canPinCfg ..⟩, ⟨_, exec_canLfsrReseed ..⟩,
    ⟨_, exec_canCntClr ..⟩, ⟨_, exec_frsMetaBaseWrite ..⟩, ⟨_, exec_frsCntClr ..⟩, ⟨_, exec_perArm ..⟩,
    ⟨_, exec_perAnchorBaseWrite ..⟩, ⟨_, exec_perCntClr ..⟩, ⟨_, exec_keyDrbgReseed ..⟩, ⟨_, exec_keyEntEn ..⟩,
    ⟨_, exec_keyCntClr ..⟩, ⟨_, exec_enable ..⟩, ⟨_, exec_disable ..⟩, ⟨_, exec_adminReset ..⟩, ⟨_, exec_qmgVecLoad ..⟩,
    ⟨_, exec_medCntClr ..⟩, ⟨_, exec_svcCntClr ..⟩⟩

/-- The rows that write a register of a fault bank. -/
def bankWrites (bank : Fin 14) (w : BitVec 6) (v : Word32) : List Instr :=
  [.fltFirstHiClear bank, .fltForce bank w v, .fltClassWrite bank w v, .notificationClear bank w v]

theorem bankWrites_regPort {bank : Fin 14} (hbank : bank.val ≠ 13) (w : BitVec 6) (v : Word32) (s : State) :
    ∀ c ∈ bankWrites bank w v, ∃ a f, regEarly a = false ∧ exec c s = s.regPort a f := by
  have hw := w.isLt
  simp only [bankWrites, List.forall_mem_cons, List.not_mem_nil, false_imp_iff, implies_true, and_true]
  exact ⟨⟨_, _, regEarly_bank hbank (by omega), exec_fltFirstHiClear ..⟩,
    ⟨_, _, regEarly_bank hbank (by omega), exec_fltForce ..⟩, ⟨_, _, regEarly_bank hbank (by omega), exec_fltClassWrite ..⟩,
    ⟨_, _, regEarly_bank hbank (by omega), exec_notificationClear ..⟩⟩

/-! ### REG accesses before READY -/

section BeforeReady

variable {s : State} (hup : s.dev.up domReg = true) (hready : s.dev.mgt.ready = false)
include hup hready

theorem regRead_turned_away {woff : BitVec 22} (ha : regEarly (4 * woff.toNat) = false) (zen : Bool) :
    Completes (.regReadPairLo woff zen) s (TurnedAway s) := by
  have herr : s.regErr (4 * woff.toNat) = true := by simp [State.regErr, hready, ha]
  have hup' : ({ s.dev with drive := [] } : Dev).up domReg = true := hup
  have hact : execRegReadPairLo woff zen s = s.act fun d => d.emit (.regRsp 0 true) := by
    simp [execRegReadPairLo, State.act, herr, hup']
  rw [Completes, exec_regReadPairLo, hact]
  exact error_turns_away s

theorem regWrite_turned_away {woff : BitVec 22} (ha : regEarly (4 * woff.toNat) = false) (v : Word32) :
    Completes (.regWrite woff v) s (TurnedAway s) := by
  rw [Completes, exec_regWrite, execRegWrite]
  split
  next f hrow =>
    obtain ⟨g, hg⟩ := ownRow_core hrow s
    rw [hg]
    exact core_turned_away hup hready g
  next => exact regPort_turned_away hup hready ha _

theorem coreWrites_turned_away {v : Word32} {g : GeomReg} {k : Fin 2} {drbg : Option Bool} {b : Bool} {q : BitVec 14} {c : Instr}
    (hc : c ∈ coreWrites v g k drbg b q) : Completes c s (TurnedAway s) := by
  obtain ⟨f, hf⟩ := coreWrites_core v g k drbg b q s c hc
  rw [Completes, hf]
  exact core_turned_away hup hready f

theorem bankWrites_turned_away {bank : Fin 14} (hbank : bank.val ≠ 13) {w : BitVec 6} {v : Word32} {c : Instr}
    (hc : c ∈ bankWrites bank w v) : Completes c s (TurnedAway s) := by
  obtain ⟨a, f, ha, hf⟩ := bankWrites_regPort hbank w v s c hc
  rw [Completes, hf]
  exact regPort_turned_away hup hready ha f

end BeforeReady

section Served

variable {s : State} (hup : s.dev.up domReg = true)
include hup

theorem regRead_served {woff : BitVec 22} (herr : s.regErr (4 * woff.toNat) = false) (zen : Bool) :
    Completes (.regReadPairLo woff zen) s fun t => ∃ x, .regRsp x false ∈ t.dev.drive := by
  have hup' : ({ s.dev with drive := [] } : Dev).up domReg = true := hup
  rw [Completes, exec_regReadPairLo, execRegReadPairLo]
  refine act_completes ⟨(s.readHeld s.dev.mgt.hiHeld (4 * woff.toNat)).1, settle_drive ?_⟩
  simp only [hup', herr, Bool.not_true, Bool.false_eq_true, if_false, Dev.emit_drive]
  exact List.mem_append_right _ (List.mem_singleton_self _)

theorem regPort_served {a : Nat} (herr : s.regErr a = false) (hsafe : s.safe.active = false) (f : State → State) :
    ∃ t, s.regPort a f = .next t ∧ AnswersReg t := by
  rw [regPort_acts hup herr hsafe]
  exact ⟨_, rfl, settle_drive (List.mem_append_right _ (List.mem_singleton_self _))⟩

end Served

/-- Settles O26: every row named either writes a register of CORE, which is not READY, or a late offset; and at an early
offset a write is a plain one, served where the domains of its register run. -/
theorem regAccessBeforeReady : Obligations.RegAccessBeforeReady := by
  unfold Obligations.RegAccessBeforeReady
  rintro woff zen v s hup hready hsafe _ rfl
  simp only [← regEarly_iff, Bool.not_eq_true]
  refine ⟨fun hlate => ⟨regRead_turned_away hup hready hlate zen, regWrite_turned_away hup hready hlate v⟩,
    fun hearly hdoms => ?_, fun q g k b bank w drbg hbank c hc => ?_⟩
  · have herr := regErr_of_early hearly hdoms
    refine ⟨regRead_served hup herr zen, ?_⟩
    rw [Completes, exec_regWrite, execRegWrite, ownRow_of_early hearly]
    exact regPort_served hup herr hsafe _
  · have hsplit : c ∈ coreWrites v g k drbg b q ++ bankWrites bank w v := hc
    rcases List.mem_append.mp hsplit with hcore | hbk
    · exact coreWrites_turned_away hup hready hcore
    · exact bankWrites_turned_away hup hready hbank hbk

end Machine
end Sys2Proof

/-! ### What a function of the block leaves alone

Every function of the model that changes the block touches few parts of it: the aspects that it may change. The tables stay
canonical, the ids of accesses stay given, and what a step has driven stays driven. -/

namespace Sys2Proof
namespace Machine

open Laws

-- each proof is small and there are many: elaborated one after the other they need one thread
set_option Elab.async false

/-- What a frame names. Of FAB the ports, the windows of the sessions, the accesses, and the rest; the fuse words held; and
whether an adoption is in progress where none was. What changes channels keeps `retired`, which says that a retired channel
stays so, and what leaves HDMA in reset keeps `host`, which says that nothing is issued to the host then. `mgtRest` is MGT but
for the clusters gated for idleness; what changes accesses keeps `decided`, which says that an outcome once decided stands,
and what changes PER keeps `record`, what it tells of arming and of the checkpoints. -/
inductive Aspect where
  | mgt | fuse | tap | ports | sessions | accs | fabRest | stl | rmp | lan | frs | can | med | key | svc | per | adopt | del
  | queues | hdma | qmg | retired | host | mgtRest | decided | record | peers | parted
  deriving DecidableEq

/-- HDMA is in reset: nothing is outstanding there, and no credit is left. -/
def HostIdle (resets : BitVec 60) (wrOut : Tab (Option HWr)) (rdOut : Tab (Option HRd)) (wrCredit rdCredit : Nat) : Prop :=
  resets.getLsbD domHdma = true ∧ wrOut = [] ∧ rdOut = [] ∧ wrCredit = 0 ∧ rdCredit = 0

/-- The access with an id has been decided, with this status. -/
def Decided (l : List Access) (id : Nat) (st : Status) : Prop :=
  ∃ a, (l.find? fun a => a.id == id) = some a ∧ a.stage = .done ∧ a.status = st

/-- What PER tells of arming, of the power-fail flush and of the checkpoints that have ended. -/
def Per.record (x : Per) : (Bool × Bool × Bool × Option Nat) × BitVec 64 × Stamp × Nat × Nat × Option Nat × Nat :=
  ((x.armed, x.pfwDone, x.armFail, x.arming), x.seq, x.ckptTime, x.ckptCnt, x.failCnt, x.committed, x.timerAt)

/-- What the engine knows of its pool and its peers: identity, timers, members, links but for the frames not acknowledged. -/
def Del.peers (x : Del) : (Bool × BitVec 6 × Option (BitVec 4) × BitVec 4 × BitVec 64) × (Nat × Nat × Nat × Nat) × Tab Member ×
    (Nat → Link) :=
  ((x.inPool, x.poolId, x.group, x.linksUse, x.ident), (x.hbPeriod, x.hbTimeout, x.txnTimeout, x.hbAt), x.members,
    fun n => { x.links.get n with unacked := [] })

/-- The group is split; no pool checkpoint is under way or asked for. -/
def Del.parted (x : Del) : Prop := x.gstate = .split ∧ x.txn = none ∧ x.reconReq = false

/-- An aspect is the same in two blocks. -/
def Kept (d e : Dev) : Aspect → Prop
  | .mgt => e.mgt = d.mgt
  | .fuse => e.mgt.fuse = d.mgt.fuse
  | .tap => e.tap = d.tap
  | .ports => e.fab.ports = d.fab.ports
  | .sessions => e.fab.sessions = d.fab.sessions
  | .accs => e.fab.accs = d.fab.accs
  | .fabRest => { e.fab with ports := [], sessions := [], accs := [] } = { d.fab with ports := [], sessions := [], accs := [] }
  | .stl => e.stl = d.stl
  | .rmp => e.rmp = d.rmp
  | .lan => e.lan = d.lan
  | .frs => { e.frs with evtLost := false } = { d.frs with evtLost := false }
  | .can => e.can = d.can
  | .med => e.med = d.med
  | .key => e.key = d.key
  | .svc => { e.svc with evtLost := false } = { d.svc with evtLost := false }
  | .per => { e.per with evtLost := false } = { d.per with evtLost := false }
  | .record => e.per.record = d.per.record
  | .peers => e.del.peers = d.del.peers
  | .parted => d.del.parted → e.del.parted
  | .adopt => d.per.adopt = none → e.per.adopt = none
  | .retired => ∀ n, (d.med.ch.get n).retired = true → (e.med.ch.get n).retired = true ∧ (e.med.ch.get n).cause = (d.med.ch.get
    n).cause
  | .del => { e.del with evtLost := false, oseq := 0 } = { d.del with evtLost := false, oseq := 0 }
  | .queues => e.qmg.queues = d.qmg.queues
  | .hdma => e.qmg.wrCredit = d.qmg.wrCredit ∧ e.qmg.rdCredit = d.qmg.rdCredit ∧ e.qmg.wrWait = d.qmg.wrWait ∧
      e.qmg.wrOut = d.qmg.wrOut ∧ e.qmg.rdWait = d.qmg.rdWait ∧ e.qmg.rdOut = d.qmg.rdOut ∧ e.qmg.lastFetch = d.qmg.lastFetch
  | .qmg => e.qmg.cfgIgn = d.qmg.cfgIgn ∧ e.qmg.vecLoading = d.qmg.vecLoading ∧ e.qmg.admqBase = d.qmg.admqBase ∧
      e.qmg.admqCfg = d.qmg.admqCfg ∧ e.qmg.scanPeriod = d.qmg.scanPeriod ∧ e.qmg.vecBase = d.qmg.vecBase ∧
      e.qmg.drains = d.qmg.drains ∧ e.qmg.drainVecs = d.qmg.drainVecs ∧ e.qmg.drainDue = d.qmg.drainDue ∧
      e.qmg.fltEvq = d.qmg.fltEvq ∧ ∀ v, (e.qmg.vecs.get v).settings = (d.qmg.vecs.get v).settings
  | .mgtRest => { e.mgt with clusterIdle := 0 } = { d.mgt with clusterIdle := 0 }
  | .decided => ∀ id st, Decided d.fab.accs id st → Decided e.fab.accs id st
  | .host => HostIdle d.mgt.domReset d.qmg.wrOut d.qmg.rdOut d.qmg.wrCredit d.qmg.rdCredit →
      HostIdle e.mgt.domReset e.qmg.wrOut e.qmg.rdOut e.qmg.wrCredit e.qmg.rdCredit

theorem Kept.refl (d : Dev) (a : Aspect) : Kept d d a := by
  cases a <;> simp [Kept]

theorem Kept.trans {d e f : Dev} {a : Aspect} (h : Kept d e a) (k : Kept e f a) : Kept d f a := by
  cases a
  case adopt => exact fun hd => k (h hd)
  case host => exact fun hd => k (h hd)
  case decided => exact fun id st hd => k id st (h id st hd)
  case parted => exact fun hd => k (h hd)
  case retired => exact fun n hn => ⟨(k n (h n hn).1).1, (k n (h n hn).1).2.trans (h n hn).2⟩
  case hdma =>
    obtain ⟨h1, h2, h3, h4, h5, h6, h7⟩ := h
    obtain ⟨k1, k2, k3, k4, k5, k6, k7⟩ := k
    exact ⟨k1.trans h1, k2.trans h2, k3.trans h3, k4.trans h4, k5.trans h5, k6.trans h6, k7.trans h7⟩
  case qmg =>
    obtain ⟨h1, h2, h3, h4, h5, h6, h7, h8, h9, h10, hv⟩ := h
    obtain ⟨k1, k2, k3, k4, k5, k6, k7, k8, k9, k10, kv⟩ := k
    exact ⟨k1.trans h1, k2.trans h2, k3.trans h3, k4.trans h4, k5.trans h5, k6.trans h6, k7.trans h7, k8.trans h8,
      k9.trans h9, k10.trans h10, fun v => (kv v).trans (hv v)⟩
  all_goals exact Eq.trans k h

/-- A change of the block that reaches no aspect but those of the first list, and those of the second only while an adoption
is in progress. -/
structure Touches (as : List Aspect) (d e : Dev) (bs : List Aspect := []) : Prop where
  kept : ∀ a, a ∉ as → a ∉ bs → Kept d e a
  quiet : d.per.adopt = none → .adopt ∉ as → ∀ a, a ∉ as → Kept d e a
  tables : Canonical d → Canonical e
  seq : d.seq ≤ e.seq
  ids : FreshIds d → FreshIds e
  drive : d.drive <+: e.drive

namespace Touches

variable {as bs cs ds : List Aspect} {d e f : Dev}

theorem refl (d : Dev) : Touches as d d bs :=
  ⟨fun a _ _ => .refl d a, fun _ _ a _ => .refl d a, id, Nat.le_refl _, id, List.prefix_refl _⟩

/-- All aspects of the first list are in the second. -/
def sub (as bs : List Aspect) : Bool := as.all fun a => bs.contains a

theorem mem_of_sub (h : sub as bs = true) {a : Aspect} (ha : a ∈ as) : a ∈ bs := by
  simpa using List.all_eq_true.mp h a ha

theorem mono (h : Touches cs d e ds) (hs : (sub cs as && sub ds (as ++ bs)) = true := by rfl) : Touches as d e bs := by
  obtain ⟨hc, hd⟩ := Bool.and_eq_true .. ▸ hs
  constructor
  case kept =>
    intro a ha hb
    exact h.kept a (fun k => ha (mem_of_sub hc k)) fun k => (List.mem_append.mp (mem_of_sub hd k)).elim ha hb
  case quiet => exact fun hq hn a ha => h.quiet hq (fun k => hn (mem_of_sub hc k)) a fun k => ha (mem_of_sub hc k)
  all_goals first | exact h.tables | exact h.seq | exact h.ids | exact h.drive

theorem trans (h : Touches as d e bs) (k : Touches as e f bs) : Touches as d f bs where
  kept a ha hb := (h.kept a ha hb).trans (k.kept a ha hb)
  quiet hq hn a ha := (h.quiet hq hn a ha).trans (k.quiet (h.quiet hq hn .adopt hn hq) hn a ha)
  tables := k.tables ∘ h.tables
  seq := Nat.le_trans h.seq k.seq
  ids := k.ids ∘ h.ids
  drive := h.drive.trans k.drive

/-- A change after another. -/
theorem after (k : Touches cs e f ds) (h : Touches as d e bs) (hs : (sub cs as && sub ds (as ++ bs)) = true := by rfl) :
    Touches as d f bs :=
  h.trans (k.mono hs)

theorem ite {c : Prop} [Decidable c] (h : Touches as d e bs) (k : Touches as d f bs) :
    Touches as d (if c then e else f) bs := by
  split <;> assumption

theorem ite1 {α : Type} {c : Prop} [Decidable c] {p q : Dev × α} (h : Touches as d p.1 bs) (k : Touches as d q.1 bs) :
    Touches as d (if c then p else q).1 bs := by
  split <;> assumption

theorem of_fst {α : Type} {p : Dev × α} {x : α} (hp : p = (e, x)) (h : Touches as d p.1 bs) : Touches as d e bs := by
  rwa [hp] at h

theorem getD {o : Option Dev} (h : ∀ x, o = some x → Touches as d x bs) (k : Touches as d e bs) :
    Touches as d (o.getD e) bs := by
  cases o with
  | none => exact k
  | some x => exact h x rfl

/-- A loop whose every round touches no more. -/
theorem forAllAfter {α : Type} {g : α → Dev → Dev} {xs : List α} (h : ∀ x e, Touches as e (g x e) bs)
    (k : Touches as d e bs) : Touches as d (forAll xs g e) bs := by
  unfold Machine.forAll
  induction xs generalizing e with
  | nil => exact k
  | cons x r ih => exact ih (k.trans (h x e))

/-- What a walk changes that does nothing unless an adoption is in progress. -/
theorem whileAdopting (h : d.per.adopt ≠ none → Touches as d e) (hn : d.per.adopt = none → e = d)
    : Touches [] d e as := by
  by_cases hd : d.per.adopt = none
  · rw [hn hd]; exact refl d
  · have k := h hd
    exact ⟨fun a _ ha => k.kept a ha (by simp), fun hq => absurd hq hd, k.tables, k.seq, k.ids, k.drive⟩

end Touches

/-! ### Changes of one aspect -/

namespace Touches

variable {as bs : List Aspect} {d e : Dev}

/-- The allocator of ids, places and ages only goes up. -/
theorem bump (d : Dev) (n : Nat) : Touches [] d { d with seq := d.seq + n } where
  kept a _ _ := by cases a <;> simp [Kept]
  quiet _ _ a _ := by cases a <;> simp [Kept]
  tables h := { h with }
  seq := Nat.le_add_right ..
  ids h a ha := Nat.lt_of_lt_of_le (h a ha) (Nat.le_add_right ..)
  drive := List.prefix_refl _

/-- A change of what no aspect names: outputs driven, occurrences, the counter of free values. -/
theorem outputs (d : Dev) (ts : List Transfer) (rs : List Raise) (n : Nat) :
    Touches [] d { d with drive := d.drive ++ ts, raised := rs, free := n } where
  kept a _ _ := by cases a <;> simp [Kept]
  quiet _ _ a _ := by cases a <;> simp [Kept]
  tables h := { h with }
  seq := Nat.le_refl _
  ids := id
  drive := List.prefix_append ..

/-- A change of what occurs and of the counter of free values. -/
theorem raises (d : Dev) (rs : List Raise) (n : Nat) : Touches [] d { d with raised := rs, free := n } where
  kept a _ _ := by cases a <;> simp [Kept]
  quiet _ _ a _ := by cases a <;> simp [Kept]
  tables h := { h with }
  seq := Nat.le_refl _
  ids := id
  drive := List.prefix_refl _

/-- A change of the components that leaves allocator and outputs. -/
theorem of_kept (hk : ∀ a, a ∉ as → Kept d e a) (ht : Canonical d → Canonical e) (hi : FreshIds d → FreshIds e)
    (hs : e.seq = d.seq := by rfl) (hd : e.drive = d.drive := by rfl) : Touches as d e :=
  ⟨fun a ha _ => hk a ha, fun _ _ => hk, ht, Nat.le_of_eq hs.symm, hi, hd ▸ List.prefix_refl _⟩

theorem setMgt {x : Mgt}
    (clkMeas : Tab.rising d.mgt.clkMeas → Tab.rising x.clkMeas := by exact fun h => h)
    (loHeld : Tab.rising d.mgt.loHeld → Tab.rising x.loHeld := by exact fun h => h)
    (hf : x.fuse = d.mgt.fuse := by rfl) (hh : Kept d { d with mgt := x } .host := by exact fun h => h) :
    Touches [.mgt, .mgtRest] d { d with mgt := x } :=
  .of_kept (fun a ha => by
    cases a
    case host => exact hh
    all_goals simp_all [Kept]) (fun h => { h with clkMeas := clkMeas h.clkMeas, loHeld := loHeld h.loHeld }) id

/-- A change of the clusters gated for idleness. -/
theorem setIdle {x : BitVec 9} : Touches [.mgt] d { d with mgt.clusterIdle := x } :=
  .of_kept (fun a ha => by cases a <;> simp_all [Kept]) (fun h => { h with }) id

/-- A change of MGT that may take HDMA out of reset. -/
theorem setResets {x : Mgt}
    (clkMeas : Tab.rising d.mgt.clkMeas → Tab.rising x.clkMeas := by exact fun h => h)
    (loHeld : Tab.rising d.mgt.loHeld → Tab.rising x.loHeld := by exact fun h => h)
    (hf : x.fuse = d.mgt.fuse := by rfl) : Touches [.mgt, .mgtRest, .host] d { d with mgt := x } :=
  .of_kept (fun a ha => by cases a <;> simp_all [Kept]) (fun h =>
    { h with clkMeas := clkMeas h.clkMeas, loHeld := loHeld h.loHeld }) id

theorem setTap {x : Tap} : Touches [.tap] d { d with tap := x } :=
  .of_kept (fun a ha => by cases a <;> simp_all [Kept]) (fun h => { h with }) id

theorem setStl {x : Stl}
    (stlA : Tab.rising d.stl.setA.tab → Tab.rising x.setA.tab := by exact fun h => h)
    (stlB : Tab.rising d.stl.setB.tab → Tab.rising x.setB.tab := by exact fun h => h)
    (rejects : Tab.rising d.stl.rejectCnt → Tab.rising x.rejectCnt := by exact fun h => h)
    (timeouts : Tab.rising d.stl.timeoutCnt → Tab.rising x.timeoutCnt := by exact fun h => h)
    (parkFulls : Tab.rising d.stl.parkfullCnt → Tab.rising x.parkfullCnt := by exact fun h => h) : Touches [.stl] d
      { d with stl := x } :=
  .of_kept (fun a ha => by cases a <;> simp_all [Kept]) (fun h =>
    { h with stlA := stlA h.stlA, stlB := stlB h.stlB, rejects := rejects h.rejects, timeouts := timeouts h.timeouts, parkFulls := parkFulls h.parkFulls }) id

theorem setRmp {x : Rmp}
    (rmpA : Tab.rising d.rmp.setA.tab → Tab.rising x.setA.tab := by exact fun h => h)
    (rmpB : Tab.rising d.rmp.setB.tab → Tab.rising x.setB.tab := by exact fun h => h)
    (staleA : Tab.rising d.rmp.setA.stale → Tab.rising x.setA.stale := by exact fun h => h)
    (staleB : Tab.rising d.rmp.setB.stale → Tab.rising x.setB.stale := by exact fun h => h)
    (rekey : Tab.rising d.rmp.rekey → Tab.rising x.rekey := by exact fun h => h) : Touches [.rmp] d { d with rmp := x } :=
  .of_kept (fun a ha => by cases a <;> simp_all [Kept]) (fun h =>
    { h with rmpA := rmpA h.rmpA, rmpB := rmpB h.rmpB, staleA := staleA h.staleA, staleB := staleB h.staleB, rekey := rekey h.rekey }) id

theorem setLan {x : Lan}
    (lanes : Tab.rising d.lan.lanes → Tab.rising x.lanes := by exact fun h => h) : Touches [.lan] d { d with lan := x } :=
  .of_kept (fun a ha => by cases a <;> simp_all [Kept]) (fun h => { h with lanes := lanes h.lanes }) id

theorem setFrs {x : Frs}
    (zones : Tab.rising d.frs.zones → Tab.rising x.zones := by exact fun h => h) : Touches [.frs] d { d with frs := x } :=
  .of_kept (fun a ha => by cases a <;> simp_all [Kept]) (fun h => { h with zones := zones h.zones }) id

theorem setCan {x : Can}
    (lines : Tab.rising d.can.lines → Tab.rising x.lines := by exact fun h => h)
    (lfsr : Tab.rising d.can.lfsr → Tab.rising x.lfsr := by exact fun h => h)
    (ways : Tab.rising d.can.ways → Tab.rising x.ways := by exact fun h => h) : Touches [.can] d { d with can := x } :=
  .of_kept (fun a ha => by cases a <;> simp_all [Kept]) (fun h =>
    { h with lines := lines h.lines, lfsr := lfsr h.lfsr, ways := ways h.ways }) id

theorem setMed {x : Med} (ht : Canonical d → Canonical { d with med := x } := by exact fun h => { h with })
    (hr : Kept d { d with med := x } .retired := by exact fun _ h => ⟨h, rfl⟩) : Touches [.med] d { d with med := x } :=
  .of_kept (fun a ha => by
    cases a
    case retired => exact hr
    all_goals simp_all [Kept]) ht id

theorem setKey {x : Key}
    (slots : Tab.rising d.key.slots → Tab.rising x.slots := by exact fun h => h)
    (regs : Tab.rising d.key.regs → Tab.rising x.regs := by exact fun h => h)
    (keks : Tab.rising d.key.keks → Tab.rising x.keks := by exact fun h => h)
    (ents : Tab.rising d.key.ent → Tab.rising x.ent := by exact fun h => h) : Touches [.key] d { d with key := x } :=
  .of_kept (fun a ha => by cases a <;> simp_all [Kept]) (fun h =>
    { h with slots := slots h.slots, regs := regs h.regs, keks := keks h.keks, ents := ents h.ents }) id

theorem setSvc {x : Svc}
    (fronts : Tab.rising d.svc.fronts → Tab.rising x.fronts := by exact fun h => h) : Touches [.svc] d { d with svc := x } :=
  .of_kept (fun a ha => by cases a <;> simp_all [Kept]) (fun h => { h with fronts := fronts h.fronts }) id

/-- A change of DEL, of the peers and of a split too. -/
theorem setDel_any {x : Del}
    (links : Tab.rising d.del.links → Tab.rising x.links := by exact fun h => h)
    (members : Tab.rising d.del.members → Tab.rising x.members := by exact fun h => h) :
    Touches [.del, .peers, .parted] d { d with del := x } :=
  .of_kept (fun a ha => by cases a <;> simp_all [Kept]) (fun h =>
    { h with links := links h.links, members := members h.members }) id

theorem setDel_peers {x : Del}
    (links : Tab.rising d.del.links → Tab.rising x.links := by exact fun h => h)
    (members : Tab.rising d.del.members → Tab.rising x.members := by exact fun h => h)
    (hq : d.del.parted → x.parted := by exact fun h => h) : Touches [.del, .peers] d { d with del := x } :=
  .of_kept (fun a ha => by
    cases a
    case parted => exact hq
    all_goals simp_all [Kept]) (fun h => { h with links := links h.links, members := members h.members }) id

theorem setDel_pool {x : Del}
    (links : Tab.rising d.del.links → Tab.rising x.links := by exact fun h => h)
    (members : Tab.rising d.del.members → Tab.rising x.members := by exact fun h => h)
    (hp : x.peers = d.del.peers := by rfl) : Touches [.del, .parted] d { d with del := x } :=
  .of_kept (fun a ha => by
    cases a
    case peers => exact hp
    all_goals simp_all [Kept]) (fun h => { h with links := links h.links, members := members h.members }) id

theorem setDel {x : Del}
    (links : Tab.rising d.del.links → Tab.rising x.links := by exact fun h => h)
    (members : Tab.rising d.del.members → Tab.rising x.members := by exact fun h => h)
    (hp : x.peers = d.del.peers := by rfl) (hq : d.del.parted → x.parted := by exact fun h => h) :
    Touches [.del] d { d with del := x } :=
  .of_kept (fun a ha => by
    cases a
    case peers => exact hp
    case parted => exact hq
    all_goals simp_all [Kept]) (fun h => { h with links := links h.links, members := members h.members }) id

/-- What leaves a split as it is. -/
theorem of_parted (hk : Kept d e .parted) (h : Touches (.parted :: as) d e bs) : Touches as d e bs where
  kept a ha hb := by
    by_cases hp : a = .parted
    · exact hp ▸ hk
    · exact h.kept a (by simp [hp, ha]) hb
  quiet hq hd a ha := by
    by_cases hp : a = .parted
    · exact hp ▸ hk
    · exact h.quiet hq (by simp [hd]) a (by simp [hp, ha])
  tables := h.tables
  seq := h.seq
  ids := h.ids
  drive := h.drive

/-- A block that is not split has no split to keep. -/
theorem of_whole (hn : ¬ d.del.parted) (h : Touches (.parted :: as) d e bs) : Touches as d e bs :=
  of_parted (fun k => absurd k hn) h

theorem setPer {x : Per}
    (openMap : Tab.rising d.per.openMap → Tab.rising x.openMap := by exact fun h => h)
    (ha : d.per.adopt = none → x.adopt = none := by exact fun h => h) (hr : x.record = d.per.record := by rfl) :
    Touches [.per] d { d with per := x } :=
  .of_kept (fun a ha => by cases a <;> simp_all [Kept]) (fun h => { h with openMap := openMap h.openMap }) id

/-- A change of PER, of its record too. -/
theorem setPer_any {x : Per}
    (openMap : Tab.rising d.per.openMap → Tab.rising x.openMap := by exact fun h => h)
    (ha : d.per.adopt = none → x.adopt = none := by exact fun h => h) : Touches [.per, .record] d { d with per := x } :=
  .of_kept (fun a ha => by cases a <;> simp_all [Kept]) (fun h => { h with openMap := openMap h.openMap }) id

theorem setPorts {t : Tab Port} (ht : Tab.rising d.fab.ports → Tab.rising t) : Touches [.ports] d { d with fab.ports := t } :=
  .of_kept (fun a ha => by cases a <;> simp_all [Kept]) (fun h => { h with ports := ht h.ports }) id

theorem setSessions {t : Tab Session} (ht : Tab.rising d.fab.sessions → Tab.rising t) :
    Touches [.sessions] d { d with fab.sessions := t } :=
  .of_kept (fun a ha => by cases a <;> simp_all [Kept]) (fun h => { h with sessions := ht h.sessions }) id

/-- An update of the accesses, whatever becomes of them. -/
theorem setAccs {l : List Access} (hi : FreshIds d → FreshIds { d with fab.accs := l }) :
    Touches [.accs, .decided] d { d with fab.accs := l } :=
  .of_kept (fun a ha => by cases a <;> simp_all [Kept]) (fun h => { h with }) hi

theorem freshIds_map {f : Access → Access} (hf : ∀ a, (f a).id = a.id) (h : FreshIds d) :
    FreshIds { d with fab.accs := d.fab.accs.map f } := fun b hb => by
  obtain ⟨a, ha, rfl⟩ := List.mem_map.mp hb
  rw [hf a]
  exact h a ha

/-- A change of accesses that keeps their ids. -/
theorem mapAccs_any {f : Access → Access} (hf : ∀ a, (f a).id = a.id := by intro a; (try dsimp only); (repeat' split) <;> rfl) :
    Touches [.accs, .decided] d { d with fab.accs := d.fab.accs.map f } :=
  setAccs (freshIds_map hf)

/-- A change of accesses that keeps their ids and what has been decided of them. -/
theorem mapAccs {f : Access → Access} (hf : ∀ a, (f a).id = a.id := by intro a; (try dsimp only); (repeat' split) <;> rfl)
    (hk : ∀ a, a.stage = .done → (f a).stage = .done ∧ (f a).status = a.status := by
      intro a h; (try dsimp only); (repeat' split) <;> first | exact ⟨h, rfl⟩ | simp_all) :
    Touches [.accs] d { d with fab.accs := d.fab.accs.map f } :=
  .of_kept (fun a ha => by
    cases a
    case decided =>
      rintro id st ⟨a, hacc, hd, hs⟩
      refine ⟨f a, ?_, (hk a hd).1, (hk a hd).2.trans hs⟩
      have hp : ((fun b : Access => b.id == id) ∘ f) = fun b => b.id == id := funext fun b => by simp [hf]
      rw [List.find?_map, hp, hacc]
      rfl
    all_goals simp_all [Kept]) (fun h => { h with }) (freshIds_map hf)

/-- What leaves decided outcomes as they are. -/
theorem of_decided (h : Touches [.accs, .decided] d e) (k : Kept d e .decided) : Touches [.accs] d e where
  kept a ha _ := by
    by_cases hd : a = .decided
    · exact hd ▸ k
    · exact h.kept a (by simp_all) (by simp)
  quiet _ _ a ha := by
    by_cases hd : a = .decided
    · exact hd ▸ k
    · exact h.kept a (by simp_all) (by simp)
  tables := h.tables
  seq := h.seq
  ids := h.ids
  drive := h.drive

theorem filterAccs {f : Access → Bool} : Touches [.accs, .decided] d { d with fab.accs := d.fab.accs.filter f } :=
  setAccs fun h a ha => h a (List.mem_of_mem_filter ha)

theorem setFabRest {x : Fab} (hp : x.ports = d.fab.ports := by rfl) (hs : x.sessions = d.fab.sessions := by rfl)
    (ha : x.accs = d.fab.accs := by rfl) : Touches [.fabRest] d { d with fab := x } :=
  .of_kept (fun a ha => by cases a <;> simp_all [Kept]) (fun h => { h with ports := hp ▸ h.ports, sessions := hs ▸ h.sessions })
    fun h a h' => h a (ha ▸ h')

theorem setQueues {t : Tab Queue} (ht : Tab.rising d.qmg.queues → Tab.rising t) : Touches [.queues] d { d with qmg.queues := t }
    :=
  .of_kept (fun a ha => by cases a <;> simp_all [Kept]) (fun h => { h with queues := ht h.queues }) id

theorem setHdma {x : Qmg} (wrOut : Tab.rising d.qmg.wrOut → Tab.rising x.wrOut := by exact fun h => h)
    (rdOut : Tab.rising d.qmg.rdOut → Tab.rising x.rdOut := by exact fun h => h)
    (hq : x.queues = d.qmg.queues ∧ x.vecs = d.qmg.vecs ∧ x.held = d.qmg.held := by exact ⟨rfl, rfl, rfl⟩)
    (hk : Kept d { d with qmg := x } .queues ∧ Kept d { d with qmg := x } .qmg := by
      exact ⟨rfl, rfl, rfl, rfl, rfl, rfl, rfl, rfl, rfl, rfl, rfl, fun _ => rfl⟩)
    (hh : Kept d { d with qmg := x } .host := by exact fun h => h) : Touches [.hdma] d { d with qmg := x } :=
  .of_kept (fun a ha => by
    cases a
    case host => exact hh
    all_goals simp_all [Kept])
    (fun h => { h with queues := hq.1 ▸ h.queues, vecs := hq.2.1 ▸ h.vecs, held := hq.2.2 ▸ h.held, wrOut := wrOut h.wrOut,
                       rdOut := rdOut h.rdOut }) id

/-- A change of what is outstanding at the host. -/
theorem setHost {w : Tab (Option HWr)} {r : Tab (Option HRd)} (hw : Tab.rising d.qmg.wrOut → Tab.rising w)
    (hr : Tab.rising d.qmg.rdOut → Tab.rising r) : Touches [.hdma, .host] d { d with qmg.wrOut := w, qmg.rdOut := r } :=
  .of_kept (fun a ha => by cases a <;> simp_all [Kept]) (fun h => { h with wrOut := hw h.wrOut, rdOut := hr h.rdOut }) id

theorem setQmgRegs {x : Qmg} (vecs : Tab.rising d.qmg.vecs → Tab.rising x.vecs := by exact fun h => h)
    (hq : x.queues = d.qmg.queues ∧ x.wrOut = d.qmg.wrOut ∧ x.rdOut = d.qmg.rdOut ∧ x.held = d.qmg.held := by
      exact ⟨rfl, rfl, rfl, rfl⟩)
    (hk : Kept d { d with qmg := x } .queues ∧ Kept d { d with qmg := x } .hdma := by
      exact ⟨rfl, rfl, rfl, rfl, rfl, rfl, rfl, rfl⟩) : Touches [.qmg] d { d with qmg := x } :=
  .of_kept (fun a ha => by
    cases a
    case host =>
      obtain ⟨-, h1, h2, -, h3, -, h4, -⟩ := hk
      exact fun ⟨h, o1, o2, c1, c2⟩ => ⟨h, h3.trans o1, h4.trans o2, h1.trans c1, h2.trans c2⟩
    all_goals simp_all [Kept])
    (fun h => { h with queues := hq.1 ▸ h.queues, wrOut := hq.2.1 ▸ h.wrOut, rdOut := hq.2.2.1 ▸ h.rdOut,
                       held := hq.2.2.2 ▸ h.held, vecs := vecs h.vecs }) id

/-- A registration of occurrences reaches no aspect. -/
theorem of_registers (h : Registers d e) (ht : Canonical d → Canonical e) : Touches as d e bs := by
  have hk (a : Aspect) : Kept d e a := by
    cases a
    case mgt => exact h.mgt
    case fuse => exact congrArg Mgt.fuse h.mgt
    case mgtRest => simp only [Kept, h.mgt]
    case tap => exact h.tap
    case ports => exact congrArg Fab.ports h.fab
    case sessions => exact congrArg Fab.sessions h.fab
    case accs => exact congrArg Fab.accs h.fab
    case fabRest => simp only [Kept, h.fab]
    case stl => exact h.stl
    case rmp => exact h.rmp
    case lan => exact h.lan
    case frs => simp only [Kept, h.frs]
    case can => exact h.can
    case med => exact h.med
    case host =>
      obtain ⟨h1, h2, -, h3, -, h4, -⟩ := h.hdma
      simp only [Kept, h.mgt, h1, h2, h3, h4]
      exact id
    case retired => exact fun n hn => by rw [h.med]; exact ⟨hn, rfl⟩
    case decided => exact fun id st hd => by rw [h.fab]; exact hd
    case record => exact congrArg Per.record h.per
    case peers => exact (congrArg Del.peers h.del : ({ e.del with evtLost := false, oseq := 0 } : Del).peers = _)
    case parted => exact (congrArg Del.parted h.del : ({ e.del with evtLost := false, oseq := 0 } : Del).parted = _).mpr
    case key => exact h.key
    case svc => simp only [Kept, h.svc]
    case per => simp only [Kept, h.per]
    case adopt => simp only [Kept, h.per]; exact id
    case del => exact h.del
    case queues => exact h.queues
    case hdma => exact h.hdma
    case qmg =>
      obtain ⟨h1, h2, h3, h4, h5, h6, h7, h8, h9, h10⟩ := h.qmg
      exact ⟨h1, h2, h3, h4, h5, h6, h7, h8, h9, h10, h.vecs⟩
  exact ⟨fun a _ _ => hk a, fun _ _ a _ => hk a, ht, Nat.le_of_eq h.seq.symm,
    fun hf a ha => by rw [h.seq]; exact hf a (h.fab ▸ ha), h.drive⟩

end Touches

/-! ### Tables whose keys rise -/

section Tables

variable {α : Type} [Inhabited α] [DecidableEq α] {t : Tab α}

omit [Inhabited α] [DecidableEq α] in
/-- A change of values alone. -/
theorem map_rising {β : Type} (f : Nat × α → β) (h : Tab.rising t) : Tab.rising (t.map fun p => (p.1, f p)) :=
  List.Pairwise.map _ (fun _ _ => id) h

theorem mapAll_rising (f : Nat → α → α) (h : Tab.rising t) : Tab.rising (t.mapAll f) :=
  List.Pairwise.filter _ (map_rising (fun p => f p.1 p.2) h)

theorem upd_rising (i : Nat) (f : α → α) (h : Tab.rising t) : Tab.rising (t.upd i f) := put_rising _ _ h

omit [Inhabited α] [DecidableEq α] in
/-- A change of entries under their keys. -/
theorem mapKeys_rising {f : Nat × α → Nat × α} (hf : ∀ p, (f p).1 = p.1) (h : Tab.rising t) : Tab.rising (t.map f) :=
  List.Pairwise.map _ (fun p q hpq => by rwa [hf, hf]) h

omit [Inhabited α] [DecidableEq α] in
/-- A loop that changes a table entry by entry. -/
theorem foldl_rising {β : Type} {g : Tab α → β → Tab α} {xs : List β} (hg : ∀ x t, Tab.rising t → Tab.rising (g t x))
    (h : Tab.rising t) : Tab.rising (xs.foldl g t) := by
  induction xs generalizing t with
  | nil => exact h
  | cons x r ih => exact ih (hg x t h)

end Tables

/-! ### Tables inside a canonical block -/

theorem Canonical.out {d : Dev} (h : Canonical d) (n : Nat) : Tab.rising (d.chan n).out := by
  have key : ∀ t : Tab Channel, (∀ p ∈ t, Tab.rising p.2.out) → Tab.rising (t.get n).out := by
    intro t
    induction t with
    | nil => exact fun _ => .nil
    | cons p r ih =>
      intro hp
      simp only [Tab.get]
      split
      · exact hp p (by simp)
      · exact ih fun q hq => hp q (by simp [hq])
  exact key _ h.media

theorem Canonical.stlTab {d : Dev} (h : Canonical d) (s : Nat) : Tab.rising (d.stlSet s).tab := by
  unfold Dev.stlSet
  split
  exacts [h.stlA, h.stlB]

theorem Canonical.rmpTab {d : Dev} (h : Canonical d) (s : Nat) : Tab.rising (d.rmpSet s).tab := by
  unfold Dev.rmpSet
  split
  exacts [h.rmpA, h.rmpB]

theorem Canonical.rmpStale {d : Dev} (h : Canonical d) (s : Nat) : Tab.rising (d.rmpSet s).stale := by
  unfold Dev.rmpSet
  split
  exacts [h.staleA, h.staleB]

/-- A channel that is retired in a table stays so when every channel is mapped and its retirement kept. -/
theorem retired_map {t : Tab Channel} {f : Nat → Channel → Channel} (hf : ∀ k c, (f k c).retired = c.retired ∧ (f k c).cause =
    c.cause)
    {n : Nat} (h : (t.get n).retired = true) :
    (Tab.get (t.map fun p => (p.1, f p.1 p.2)) n).retired = true ∧
      (Tab.get (t.map fun p => (p.1, f p.1 p.2)) n).cause = (t.get n).cause := by
  induction t with
  | nil => exact Bool.noConfusion h
  | cons p r ih =>
    simp only [List.map_cons, Tab.get] at h ⊢
    split
    · rename_i hp
      rw [if_pos hp] at h
      exact ⟨(hf _ _).1.trans h, (hf _ _).2⟩
    · rename_i hp
      rw [if_neg hp] at h
      exact ih h

/-- The same where the channels that became the default are left out. -/
theorem retired_mapAll {t : Tab Channel} {f : Nat → Channel → Channel} (hf : ∀ k c, (f k c).retired = c.retired ∧ (f k c).cause
    = c.cause)
    {n : Nat} (h : (t.get n).retired = true) : ((t.mapAll f).get n).retired = true ∧ ((t.mapAll f).get n).cause = (t.get
      n).cause := by
  obtain ⟨h1, h2⟩ := retired_map hf h
  rw [← h2]
  unfold Tab.mapAll
  generalize t.map (fun p => (p.1, f p.1 p.2)) = u at h1 ⊢
  induction u with
  | nil => exact Bool.noConfusion h1
  | cons p r ih =>
    simp only [Tab.get] at h1 ⊢
    split at h1
    case isTrue hp =>
      have hne : p.2 ≠ default := fun h => by rw [h] at h1; exact Bool.noConfusion h1
      rw [List.filter_cons_of_pos (by simpa using hne)]
      simp only [Tab.get, if_pos hp]
      exact ⟨h1, trivial⟩
    case isFalse hp =>
      rw [if_neg hp, List.filter_cons]
      split
      · simp only [Tab.get, if_neg hp]
        exact ih h1
      · exact ih h1

/-- A change of channels that keeps their commands outstanding in order. -/
theorem Touches.setChans {d : Dev} {t : Tab Channel} (ht : Tab.rising d.med.ch → Tab.rising t)
    (ho : Canonical d → ∀ p ∈ t, Tab.rising p.2.out) (hr : Kept d { d with med.ch := t } .retired) :
    Touches [.med] d { d with med.ch := t } :=
  setMed (fun h => { h with channels := ht h.channels, media := ho h }) hr

end Machine
end Sys2Proof

/-! What every function of the block touches. Each follows its definition: a branch for each branch, the frame of each
function that it calls, in the order of the definitions. -/

namespace Sys2Proof
namespace Machine

open Laws

-- each proof is small and there are many: elaborated one after the other they need one thread
set_option Elab.async false

theorem Dev.raise_touches (d : Dev) (bank : Nat) (src : Nat) : Touches [] d (Dev.raise d bank src) := by
  unfold Dev.raise
  exact .mono (Touches.raises ..)

theorem Dev.emit_touches (d : Dev) (t : Transfer) : Touches [] d (Dev.emit d t) := by
  unfold Dev.emit
  exact .mono (Touches.outputs ..)

theorem Dev.bump_touches (d : Dev) : Touches [] d (Dev.bump d) := by
  unfold Dev.bump
  exact .mono (Touches.bump ..)

theorem Dev.setQueue_touches (d : Dev) (q : Nat) (x : Queue) : Touches [.queues] d (Dev.setQueue d q x) := by
  unfold Dev.setQueue
  exact .mono (Touches.setQueues fun h => put_rising _ _ h)

theorem Dev.updQueue_touches (d : Dev) (q : Nat) (f : Queue → Queue) : Touches [.queues] d (Dev.updQueue d q f) := by
  unfold Dev.updQueue
  exact .mono (Dev.setQueue_touches ..)

theorem Dev.markLost_touches (d : Dev) (x : EvSrc) : Touches [] d (Dev.markLost d x) := by
  unfold Dev.markLost
  split
  · exact .refl _
  · exact .mono (Touches.of_kept (as := []) (fun a _ => by cases a <;> simp [Kept, Per.record, Del.peers, Del.parted]) (fun h =>
      { h with }) id)
  · exact .mono (Touches.of_kept (as := []) (fun a _ => by cases a <;> simp [Kept, Per.record, Del.peers, Del.parted]) (fun h =>
      { h with }) id)
  · exact .mono (Touches.of_kept (as := []) (fun a _ => by cases a <;> simp [Kept, Per.record, Del.peers, Del.parted]) (fun h =>
      { h with }) id)
  · exact .mono (Touches.of_kept (as := []) (fun a ha => by cases a <;> simp_all [Kept, Per.record, Del.peers, Del.parted]) (fun
      h => { h with }) id)
  · exact .mono (Touches.of_kept (as := []) (fun a _ => by cases a <;> simp [Kept, Per.record, Del.peers, Del.parted]) (fun h =>
      { h with }) id)

theorem Dev.post_touches (d : Dev) (src : EvSrc) (r : Rec) : Touches [] d (Dev.post d src r) := by
  unfold Dev.post
  exact .ite (.refl _) (by
    dsimp only
    split
    · exact .mono (Touches.of_kept (as := []) (fun a ha => by cases a <;> simp_all [Kept, Per.record, Del.peers, Del.parted])
        (fun h => { h with held := put_rising _ _ h.held }) id)
    · exact .ite (.mono (Dev.markLost_touches ..)) (.mono (Touches.of_kept (as := []) (fun a ha
        => by cases a <;> simp_all [Kept, Per.record, Del.peers, Del.parted]) (fun h =>
        { h with held := put_rising _ _ h.held }) id)))

theorem Dev.unpost_touches (d : Dev) (src : EvSrc) (f : RecKind → Bool) : Touches [] d (Dev.unpost d src f) := by
  unfold Dev.unpost
  exact .mono (Touches.of_kept (as := []) (fun a ha => by cases a <;> simp_all [Kept, Per.record, Del.peers, Del.parted]) (fun h
    => { h with held := put_rising _ _ h.held }) id)

theorem Dev.event_touches (d : Dev) (src : EvSrc) (typ : Nat) (source : Nat) (kind : RecKind) (fs : List (Nat × Nat × Nat)) :
    Touches [] d (Dev.event d src typ source kind fs) := by
  unfold Dev.event
  exact .mono (Dev.post_touches ..)

theorem Dev.recordIssued_touches (d : Dev) (x : WrWhy) : Touches [.queues] d (Dev.recordIssued d x) := by
  unfold Dev.recordIssued
  split
  · exact .mono (Dev.updQueue_touches ..)
  · exact .refl _

theorem Dev.driveWr_touches (d : Dev) (t : Nat) (w : HWr) (hc : d.qmg.wrCredit ≠ 0) : Touches [.queues, .hdma] d (Dev.driveWr d
    t w) := by
  unfold Dev.driveWr
  exact .after (Dev.recordIssued_touches ..) (.after (Dev.emit_touches ..) (.after (Dev.bump_touches ..)
    (.mono (Touches.setHdma (wrOut := fun h => put_rising _ _ h) (hh := fun ⟨_, _, _, h, _⟩ => absurd h hc)))))

theorem pumpWr_touches (ws : List HWr) (d : Dev) : Touches [.queues, .hdma] d (pumpWr ws d) := by
  induction ws generalizing d with
  | nil => exact (.mono (Touches.setHdma))
  | cons w r ih =>
    unfold pumpWr
    split
    · split
      · exact .mono Touches.setHdma
      · exact .after (ih _) (.mono (Dev.driveWr_touches _ _ _ ‹_›))
    · exact (.mono (Touches.setHdma))

theorem pumpRd_touches (ws : List HRd) (d : Dev) : Touches [.hdma] d (pumpRd ws d) := by
  induction ws generalizing d with
  | nil => exact Touches.setHdma
  | cons w r ih =>
    unfold pumpRd
    split
    · split
      · exact Touches.setHdma
      · rename_i hc
        exact .after (ih _) (.after (Dev.emit_touches ..)
          (Touches.setHdma (rdOut := fun h => put_rising _ _ h) (hh := fun ⟨_, _, _, _, h⟩ => absurd h hc)))
    · exact Touches.setHdma

theorem Dev.pumpHdma_touches (d : Dev) : Touches [.hdma, .queues] d (Dev.pumpHdma d) := by
  unfold Dev.pumpHdma
  exact .ite (.after (pumpRd_touches ..) (.mono (pumpWr_touches ..))) (.refl _)

theorem Dev.hostWrite_touches (d : Dev) (addr : Nat) (bytes : Bytes) (qid : Nat) (why : WrWhy) : Touches [.hdma, .queues] d
    (Dev.hostWrite d addr bytes qid why) := by
  unfold Dev.hostWrite
  exact .after (Dev.pumpHdma_touches ..) (.after (Dev.bump_touches ..) (.mono (Touches.setHdma)))

theorem Dev.hostRead_touches (d : Dev) (addr : Nat) (len : Nat) (why : RdWhy) : Touches [.hdma, .queues] d (Dev.hostRead d addr
    len why) := by
  unfold Dev.hostRead
  exact .after (Dev.pumpHdma_touches ..) (.mono (Touches.setHdma))

/-- A channel may be set as long as its commands outstanding stay in order. -/
theorem Dev.setChan_touches (d : Dev) (n : Nat) (c : Channel) (hc : Canonical d → Tab.rising c.out := by
      first | exact fun h => h.out _ | exact fun h => put_rising _ _ (h.out _) | exact fun _ => .nil)
    (hr : (d.chan n).retired = true → c.retired = true ∧ c.cause = (d.chan n).cause := by exact fun h => ⟨h, rfl⟩) :
    Touches [.med] d (d.setChan n c) :=
  .setChans (put_rising _ _) (fun h p hp => (Tab.mem_put hp).elim (h.media p) (fun e => e ▸ hc h)) fun m hm => by
    by_cases hmn : m = n
    · subst hmn
      obtain ⟨h1, h2⟩ := hr hm
      have hne : c ≠ default := fun h => by rw [h] at h1; exact Bool.noConfusion h1
      rw [Tab.get_put_listed m hne]
      exact ⟨h1, h2⟩
    · rw [Tab.get_put_other _ hmn]
      exact ⟨hm, rfl⟩

theorem Dev.issueMedia_touches (d : Dev) (n : Nat) (t : Nat) (m : MCmd) : Touches [.med] d (Dev.issueMedia d n t m) := by
  unfold Dev.issueMedia
  exact .ite (.after (Dev.emit_touches ..) (.after (Dev.emit_touches ..) (.mono (Dev.setChan_touches ..)))) (.after
    (Dev.emit_touches ..) (.mono (Dev.setChan_touches ..)))

theorem pumpChan_touches (ms : List MCmd) (n : Nat) (d : Dev) : Touches [.med] d (pumpChan ms n d) := by
  induction ms generalizing d with
  | nil => exact Dev.setChan_touches ..
  | cons m r ih =>
    unfold pumpChan
    split
    · exact (.after (ih _) (.mono (Dev.issueMedia_touches ..)))
    · exact Dev.setChan_touches ..

theorem Dev.pumpMedia_touches (d : Dev) (n : Nat) : Touches [.med] d (Dev.pumpMedia d n) := by
  unfold Dev.pumpMedia
  exact .mono (pumpChan_touches ..)

theorem Dev.media_touches (d : Dev) (op : Nat) (addr : Nat) (beat : Beat) (why : MedWhy) : Touches [.med] d (Dev.media d op addr
    beat why) := by
  unfold Dev.media
  exact .after (Dev.pumpMedia_touches ..) (.mono (Dev.setChan_touches ..))

theorem Dev.mediaDone_touches (d : Dev) (n : Nat) (tag : Nat) : Touches [.med] d (Dev.mediaDone d n tag) := by
  unfold Dev.mediaDone
  exact .mono (Dev.setChan_touches ..)

theorem Dev.setPort_touches (d : Dev) (p : Nat) (x : Port) : Touches [.ports] d (Dev.setPort d p x) := by
  unfold Dev.setPort
  exact .mono (Touches.setPorts fun h => put_rising _ _ h)

theorem Dev.giveCredits_touches (d : Dev) (p : Nat) (req : Nat) (wdat : Nat) (wlpc : Nat) (rlpc : Nat) : Touches [.ports] d
    (Dev.giveCredits d p req wdat wlpc rlpc) := by
  unfold Dev.giveCredits
  exact .ite (.mono (Dev.setPort_touches ..)) (.ite (.mono (Dev.setPort_touches ..)) (.after (Dev.emit_touches ..) (.mono
    (Dev.setPort_touches ..))))

theorem Dev.setLink_touches (d : Dev) (n : Nat) (l : Link) : Touches [.del, .peers] d (Dev.setLink d n l) := by
  unfold Dev.setLink
  exact .mono (Touches.setDel_peers (links := fun h => put_rising _ _ h))

/-- A frame kept until it is acknowledged. -/
theorem Dev.setLink_unacked {d : Dev} {n : Nat} (hu : (d.link n).up = true) (us : List Unacked) :
    Touches [.del] d (d.setLink n { d.link n with unacked := us }) := by
  have hne : ({ d.link n with unacked := us } : Link) ≠ default := fun h =>
    Bool.noConfusion (hu.symm.trans (congrArg Link.up h : ({ d.link n with unacked := us } : Link).up = _))
  refine .mono (Touches.setDel (x := { d.del with links := d.del.links.put n { d.link n with unacked := us } })
    (links := fun h => put_rising _ _ h) (hp := ?_))
  refine congrArg (fun g : Nat → Link => (_, _, _, g)) (funext fun k => ?_)
  by_cases hk : k = n
  · subst hk
    dsimp only
    rw [Tab.get_put_listed k hne]
    rfl
  · dsimp only
    rw [Tab.get_put_other _ hk]

theorem Dev.transmit_touches (d : Dev) (n : Nat) (typ : Nat) (f : Frame) : Touches [.del] d (Dev.transmit d n typ f) := by
  unfold Dev.transmit
  by_cases hu : d.linkUsable n = true
  · have hup : (d.link n).up = true := (Bool.and_eq_true_iff.mp hu).1
    exact .ite (.refl _) (.ite (.after (Dev.setLink_unacked (d := d.emit _) hup _) (.mono (Dev.emit_touches ..)))
      (.mono (Dev.emit_touches ..)))
  · rw [if_pos (by simpa using hu)]
    exact .refl _

theorem Dev.flood_touches (d : Dev) (but : Option Nat) (typ : Nat) (f : Frame) : Touches [.del] d (Dev.flood d but typ f) := by
  unfold Dev.flood
  exact .forAllAfter (fun _ _ => .ite (.mono (Dev.transmit_touches ..)) (.refl _)) (.refl _)

theorem Dev.nextOseq_touches (d : Dev) : Touches [] d (Dev.nextOseq d) := by
  unfold Dev.nextOseq
  exact .mono (Touches.of_kept (as := []) (fun a _ => by cases a <;> simp [Kept, Del.peers, Del.parted]) (fun h => { h with })
    id)

theorem Dev.broadcast_touches (d : Dev) (typ : Nat) (pl : List Word32) : Touches [.del] d (Dev.broadcast d typ pl) := by
  unfold Dev.broadcast
  exact .ite (.refl _) (.after (Dev.nextOseq_touches ..) (.mono (Dev.flood_touches ..)))

theorem Dev.sendTo_touches (d : Dev) (dest : BitVec 6) (typ : Nat) (pl : List Word32) : Touches [.del] d (Dev.sendTo d dest typ
    pl) := by
  unfold Dev.sendTo
  exact .ite (.refl _) (.after (Dev.nextOseq_touches ..) (.mono (Dev.flood_touches ..)))

theorem Dev.sendLink_touches (d : Dev) (n : Nat) (typ : Nat) (pl : List Word32) : Touches [.del] d (Dev.sendLink d n typ
    pl) := by
  unfold Dev.sendLink
  exact .after (Dev.nextOseq_touches ..) (.mono (Dev.transmit_touches ..))

theorem Dev.sendSafe_touches (d : Dev) : Touches [] d d.sendSafe :=
  .of_registers (.sendSafe d) fun h => by
    obtain ⟨ts, o, hd⟩ := d.sendSafe_eq
    exact hd ▸ { h with }

theorem Dev.sendHello_touches (d : Dev) (n : Nat) : Touches [.del] d (Dev.sendHello d n) := by
  unfold Dev.sendHello
  exact .mono (Dev.sendLink_touches ..)

theorem Dev.zenithRead_touches (d : Dev) (corrected : Bool) : Touches [] d (Dev.zenithRead d corrected) := by
  unfold Dev.zenithRead
  exact .ite (.mono (Dev.raise_touches ..)) (.refl _)

theorem Dev.drbgRead_touches (d : Dev) (x : Option Bool) : Touches [] d (Dev.drbgRead d x) := by
  unfold Dev.drbgRead
  split
  · exact .refl _
  · exact .mono (Dev.raise_touches ..)

/-- Counting items changes no setting of a vector. -/
theorem Dev.countItem_touches (d : Dev) (v n : Nat) : Touches [] d (d.countItem v n) :=
  .of_registers (.countItem d v n) fun h => by
    unfold Dev.countItem
    split
    · exact h
    · exact { h with vecs := put_rising _ _ h.vecs }

theorem Dev.setZone_touches (d : Dev) (z : Nat) (x : Zone) : Touches [.frs] d (Dev.setZone d z x) := by
  unfold Dev.setZone
  exact .mono (Touches.setFrs (zones := fun h => put_rising _ _ h))

theorem Dev.updZone_touches (d : Dev) (z : Nat) (f : Zone → Zone) : Touches [.frs] d (Dev.updZone d z f) := by
  unfold Dev.updZone
  exact .mono (Dev.setZone_touches ..)

theorem Dev.raiseCeil_touches (d : Dev) (z : Nat) (v : Ctr) : Touches [.frs] d (Dev.raiseCeil d z v) := by
  unfold Dev.raiseCeil
  exact .ite (.mono (Dev.updZone_touches ..)) (.refl _)

theorem Dev.zoneTo_touches (d : Dev) (z : Nat) (st : ZoneSt) (opcode : Nat) : Touches [.frs, .svc] d (Dev.zoneTo d z st
    opcode) := by
  unfold Dev.zoneTo
  exact .ite (.refl _) (.after (Dev.raise_touches ..) (.after (Dev.event_touches ..) (.after (Dev.updZone_touches ..) (.mono
    (Touches.setSvc)))))

theorem Dev.setLine_touches (d : Dev) (k : Nat) (c : CanLine) : Touches [.can] d (Dev.setLine d k c) := by
  unfold Dev.setLine
  exact .mono (Touches.setCan (lines := fun h => put_rising _ _ h))

theorem Dev.updLine_touches (d : Dev) (k : Nat) (f : CanLine → CanLine) : Touches [.can] d (Dev.updLine d k f) := by
  unfold Dev.updLine
  exact .mono (Dev.setLine_touches ..)

theorem Dev.dropLine_touches (d : Dev) (k : Nat) : Touches [.can] d (Dev.dropLine d k) := by
  unfold Dev.dropLine
  exact .mono (Dev.setLine_touches ..)

theorem Dev.dropFills_touches (d : Dev) (gone : Nat → CanLine → Bool) : Touches [.can] d (Dev.dropFills d gone) := by
  unfold Dev.dropFills
  exact .mono (Touches.setCan (lines := fun h => (map_rising _ h).filter _))

theorem Dev.sweepWays_touches (d : Dev) : Touches [.can] d (Dev.sweepWays d) := by
  unfold Dev.sweepWays
  exact .forAllAfter (fun _ _ => .ite (.refl _) (.ite (.after (Dev.raise_touches ..) (.mono (Touches.setCan (ways := fun h =>
    put_rising _ _ h)))) (.mono (Touches.setCan (ways := fun h => put_rising _ _ h))))) (.refl _)

theorem Dev.drainEnd_touches (d : Dev) : Touches [.can] d (Dev.drainEnd d) := by
  unfold Dev.drainEnd
  exact .ite (.after (Dev.raise_touches ..) (.after (Dev.raise_touches ..) (.mono (Touches.setCan)))) (.refl _)

theorem Dev.afterClean_touches (d : Dev) (k : Nat) : Touches [.can] d (Dev.afterClean d k) := by
  unfold Dev.afterClean
  exact .after (Dev.drainEnd_touches ..) (.after (Dev.sweepWays_touches ..) (.ite (.mono (Dev.dropLine_touches ..)) (.refl _)))

theorem Dev.noteDirty_touches (d : Dev) : Touches [.can] d (Dev.noteDirty d) := by
  unfold Dev.noteDirty
  exact .ite (.after (Dev.raise_touches ..) (.mono (Touches.setCan))) (.mono (Touches.setCan))

theorem Dev.countWay_touches (d : Dev) (k : Nat) : Touches [.can] d (Dev.countWay d k) := by
  unfold Dev.countWay
  exact .ite (.refl _) (.mono (Touches.setCan (ways := fun h => put_rising _ _ h)))

theorem Dev.changeLine_touches (d : Dev) (k : Nat) (f : List Ctr → List Ctr) : Touches [.can] d (Dev.changeLine d k f) := by
  unfold Dev.changeLine
  exact .after (Dev.noteDirty_touches ..) (.after (Dev.bump_touches ..) (.after (Dev.setLine_touches ..) (.mono
    (Dev.countWay_touches ..))))

theorem Dev.takeWay_touches {d : Dev} {x : NodeId} {line : CanLine} {e : Dev} (h : d.takeWay x line = some e) : Touches [.can] d
    e := by
  obtain ⟨w, _, rfl⟩ := Option.map_eq_some_iff.mp h
  exact (.after (Dev.setLine_touches ..) (.ite (.after (Touches.setCan (d := { d with free := d.free + 1 }) (lfsr := fun h =>
    put_rising _ _ h)) (.mono (Touches.raises ..))) (.after (Dev.countWay_touches ..) (.after (Touches.setCan (d :=
    { d with free := d.free + 1 }) (lfsr := fun h => put_rising _ _ h)) (.mono (Touches.raises ..))))))

theorem Dev.fillNode_touches {d : Dev} {x : NodeId} {ctr : List Ctr} {mac : BitVec 64} {e : Dev} (h : d.fillNode x ctr mac =
    some e) :
    Touches [.can] d e := by
  unfold Dev.fillNode at h
  split at h
  · exact Option.some_inj.mp h ▸ .refl _
  · split at h
    · exact Option.some_inj.mp h ▸ (.after (Dev.setLine_touches ..) (Dev.countWay_touches ..))
    · split at h
      · exact Dev.takeWay_touches h
      · exact Option.some_inj.mp h ▸ (.after (Dev.bump_touches ..) (Dev.setLine_touches ..))

theorem Dev.beginFill_touches (d : Dev) (x : NodeId) : Touches [.can] d (Dev.beginFill d x) := by
  unfold Dev.beginFill
  exact .ite (.refl _) (.getD (fun _ h => .mono (Dev.takeWay_touches h)) (.refl _))

theorem Dev.beginFills_touches (d : Dev) (z : Nat) (n : Nat) (levels : List Nat) : Touches [.can] d (Dev.beginFills d z n
    levels) := by
  unfold Dev.beginFills
  exact .forAllAfter (fun _ _ => .mono (Dev.beginFill_touches ..)) (.refl _)

theorem Dev.wantSet_touches (d : Dev) (x : NodeId) : Touches [.can] d (Dev.wantSet d x) := by
  unfold Dev.wantSet
  dsimp only
  split
  · exact .mono (Dev.updLine_touches ..)
  · exact .refl _

/-- Commands of the channels may change, under their tags. -/
theorem Touches.mapChans {d : Dev} (f : MCmd → MCmd) : Touches [.med] d { d with med.ch := d.med.ch.map fun p =>
    (p.1, { p.2 with waiting := p.2.waiting.map f, out := p.2.out.map fun o => (o.1, o.2.map f) }) } :=
  .setChans (map_rising _) (fun h p hp => by
    obtain ⟨q, hq, rfl⟩ := List.mem_map.mp hp
    exact map_rising _ (h.media q hq)) fun _ hn => by
    refine retired_map (f := fun _ c => { c with waiting := c.waiting.map f, out := c.out.map fun o => (o.1, o.2.map f) }) ?_ hn
    exact fun _ _ => ⟨rfl, rfl⟩

theorem Dev.orphan_touches (d : Dev) (x : NodeId) : Touches [.med] d (d.orphan x) := Touches.mapChans _

theorem Dev.loseWrites_touches (d : Dev) (x : NodeId) : Touches [.accs] d (Dev.loseWrites d x) := by
  unfold Dev.loseWrites
  exact .mono (Touches.mapAccs)

theorem Dev.dropSubtree_touches (d : Dev) (x : NodeId) : Touches [.can, .accs, .med] d (Dev.dropSubtree d x) := by
  unfold Dev.dropSubtree
  exact .after (Dev.drainEnd_touches ..) (.after (Dev.sweepWays_touches ..) (.forAllAfter (fun _ _ => .mono
    (Dev.dropLine_touches ..)) (.after (Dev.loseWrites_touches ..) (.mono (Dev.orphan_touches ..)))))

theorem Dev.walking_touches {as bs : List Aspect} {d e : Dev} {walkers : List Nat} {f : Dev → Dev} (hf : ∀ x, Touches as x (f x)
    bs)
    (k : Touches as d e bs) (hs : Touches.sub [.can] as = true := by rfl) : Touches as d (e.walking walkers f) bs := by
  have hs' : (Touches.sub [.can] as && Touches.sub [] (as ++ bs)) = true := by simp_all [Touches.sub]
  unfold Dev.walking
  refine .ite (k.trans (hf _)) (.forAllAfter (fun p e => ?_) (.trans (.after (Touches.setCan (lines := fun h => h.filter _)) k
    hs') (hf _)))
  split
  · exact .refl _
  · exact .mono (Dev.setLine_touches ..) hs'

theorem Dev.walkedBy_touches (d : Dev) (x : NodeId) (walkers : List Nat) : Touches [.can] d (Dev.walkedBy d x walkers) := by
  unfold Dev.walkedBy
  split
  · exact .ite (.mono (Dev.updLine_touches ..)) (.refl _)
  · exact .refl _

theorem Dev.trimStaging_touches (d : Dev) : Touches [.can] d (Dev.trimStaging d) := by
  unfold Dev.trimStaging
  exact .forAllAfter (fun _ _ => .mono (Dev.setLine_touches ..)) (.refl _)

theorem Dev.countAnchor_touches (d : Dev) (z : Nat) (n : Nat) (low : Nat) : Touches [.can] d (Dev.countAnchor d z n low) := by
  unfold Dev.countAnchor
  split
  · exact .mono (Dev.countWay_touches ..)
  · exact .refl _

theorem Dev.countPath_touches (d : Dev) (z : Nat) (n : Nat) (low : Nat) : Touches [.can] d (Dev.countPath d z n low) := by
  unfold Dev.countPath
  exact .forAllAfter (fun _ _ => by
    split
    · exact .mono (Dev.countWay_touches ..)
    · exact .refl _) (.refl _)

theorem Dev.readNode_touches (d : Dev) (x : NodeId) : Touches [.med] d (Dev.readNode d x).1 := by
  unfold Dev.readNode
  exact .ite1 (.refl _) (.ite1 (.refl _) (.mono (Dev.media_touches ..)))

theorem Dev.openRungs_touches (d : Dev) (z n : Nat) (levels : List Nat) : Touches [.med] d (d.openRungs z n levels).1 := by
  unfold Dev.openRungs
  suffices ∀ (r : Dev × List Rung), Touches [.med] d r.1 → Touches [.med] d (levels.foldl (fun (r : Dev × List Rung) l =>
      let q := r.1.readNode (nodeOf z n l)
      (q.1, r.2 ++ [⟨l, none, false, !q.2, 1, 0, false⟩])) r).1 from this _ (.refl _)
  induction levels with
  | nil => exact fun r h => h
  | cons l ls ih => exact fun r h => ih _ ((.after (Dev.readNode_touches ..) h))

theorem Dev.startLadder_touches (d : Dev) (z : Nat) (n : Nat) (low : Nat) (fromRoot : Bool) (check : Bool) (w : Waiter) :
    Touches [.frs, .med, .can] d (Dev.startLadder d z n low fromRoot check w).1 := by
  unfold Dev.startLadder
  split
  · exact .mono (Touches.setFrs)
  · exact .after (Touches.setFrs) (.after (Dev.bump_touches ..) (.after (Dev.openRungs_touches ..) (.ite (.refl _) (.mono
      (Dev.beginFills_touches ..)))))

theorem Dev.nodeBeat_touches (d : Dev) (x : NodeId) (b : Beat) (ecc : BitVec 2) : Touches [.frs] d (Dev.nodeBeat d x b
    ecc) := by
  unfold Dev.nodeBeat
  exact .mono (Touches.setFrs)

theorem Dev.releaseFills_touches (d : Dev) : Touches [.can] d (Dev.releaseFills d) := by
  unfold Dev.releaseFills
  exact .mono (Dev.dropFills_touches ..)

theorem Dev.setLadder_touches (d : Dev) (l : Ladder) : Touches [.frs] d (Dev.setLadder d l) := by
  unfold Dev.setLadder
  exact .mono (Touches.setFrs)

theorem Dev.dropLadder_touches (d : Dev) (id : Nat) : Touches [.can, .frs] d (Dev.dropLadder d id) := by
  unfold Dev.dropLadder
  exact .after (Dev.releaseFills_touches ..) (.mono (Touches.setFrs))

theorem Dev.placeRungs_touches {d : Dev} {l : Ladder} {rs : List Rung} {e : Dev} (h : d.placeRungs l rs = some e) : Touches
    [.can] d e := by
  induction rs generalizing d with
  | nil => exact Option.some_inj.mp h ▸ .refl _
  | cons r rs ih =>
    unfold Dev.placeRungs at h
    split at h
    · exact ih h
    · split at h
      · cases h
      · exact (.after (ih h) (Dev.fillNode_touches ‹_›))

theorem Dev.seenOf_touches (d : Dev) (l : Ladder) : Touches [.can] d (Dev.seenOf d l) := by
  unfold Dev.seenOf
  exact .ite (.refl _) (.mono (Touches.setCan (lines := fun h => h.filter _)))

theorem Dev.setSlot_touches (d : Dev) (z : Nat) (n : Nat) (l : Nat) (v : Ctr) : Touches [.frs, .can] d (Dev.setSlot d z n l
    v) := by
  unfold Dev.setSlot
  exact .ite (.after (Dev.raiseCeil_touches ..) (.mono (Dev.updZone_touches ..))) (by
    split
    · exact .after (Dev.raiseCeil_touches ..) (.mono (Dev.changeLine_touches ..))
    · exact .refl _)

theorem Dev.poisonLine_touches (d : Dev) (line : LineNo) : Touches [.frs, .can] d (Dev.poisonLine d line) := by
  unfold Dev.poisonLine
  exact .after (Touches.setFrs) (.after (Dev.setSlot_touches ..) (by
    split
    · exact .refl _
    · exact .getD (fun _ h => .mono (Dev.fillNode_touches h)) (.refl _)))

theorem Dev.dropStuckAbove_touches (d : Dev) (x : NodeId) : Touches [.can] d (Dev.dropStuckAbove d x) := by
  unfold Dev.dropStuckAbove
  exact .ite (.refl _) (.after (Dev.drainEnd_touches ..) (.after (Dev.sweepWays_touches ..) (.forAllAfter (fun _ _ => .mono
    (Dev.dropLine_touches ..)) (.refl _))))

theorem Dev.nodeErrorCore_touches (d : Dev) (x : NodeId) (cause : Nat) : Touches [.can, .accs, .med, .frs] d (Dev.nodeErrorCore
    d x cause) := by
  unfold Dev.nodeErrorCore
  exact .after (Dev.dropStuckAbove_touches ..) (.after (Dev.dropSubtree_touches ..) (.after (Dev.event_touches ..) (.after
    (Dev.raise_touches ..) (.mono (Touches.setFrs)))))

theorem Dev.nodeError_touches (d : Dev) (x : NodeId) (cause : Nat) : Touches [.frs, .can, .accs, .med] d (Dev.nodeError d x
    cause) := by
  unfold Dev.nodeError
  exact .ite (.after (Dev.setSlot_touches ..) (.mono (Dev.nodeErrorCore_touches ..))) (.ite (.after (Dev.setSlot_touches ..)
    (.mono (Dev.nodeErrorCore_touches ..))) (.after (Touches.setFrs) (.after (Dev.startLadder_touches ..) (.mono
    (Dev.nodeErrorCore_touches ..)))))

theorem Dev.placeMark_touches (d : Dev) (x : NodeId) : Touches [.frs, .can] d (Dev.placeMark d x) := by
  unfold Dev.placeMark
  exact .ite (.refl _) (.ite (.after (Dev.setSlot_touches ..) (.mono (Touches.setFrs))) (.mono (Touches.setFrs)))

theorem Dev.disableWay_touches (d : Dev) (i : Nat) : Touches [.can] d (Dev.disableWay d i) := by
  unfold Dev.disableWay
  exact .ite (.refl _) (.after (Dev.sweepWays_touches ..) (.forAllAfter (fun _ _ => .ite (.mono (Dev.updLine_touches ..)) (.mono
    (Dev.dropLine_touches ..))) (.after (Dev.dropFills_touches ..) (.after (Dev.raise_touches ..) (.mono (Touches.setCan (ways
    := fun h => put_rising _ _ h)))))))

theorem Dev.dataError_touches (d : Dev) (k : Nat) (uncorrectable : Bool) : Touches [.can, .frs, .accs, .med] d (Dev.dataError d
    k uncorrectable) := by
  unfold Dev.dataError
  exact .ite (.refl _) (.ite (.ite (.after (Dev.disableWay_touches ..) (.mono (Dev.raise_touches ..))) (.ite (.after
    (Dev.nodeError_touches ..) (.after (Dev.disableWay_touches ..) (.mono (Dev.raise_touches ..)))) (.after
    (Dev.drainEnd_touches ..) (.after (Dev.sweepWays_touches ..) (.after (Dev.dropLine_touches ..) (.after
    (Dev.disableWay_touches ..) (.mono (Dev.raise_touches ..)))))))) (.ite (.after (Dev.disableWay_touches ..) (.after
    (Dev.raise_touches ..) (.mono (Touches.setCan (ways := fun h => put_rising _ _ h))))) (.after (Dev.raise_touches ..) (.mono
    (Touches.setCan (ways := fun h => put_rising _ _ h))))))

theorem Dev.canopyError_touches (d : Dev) (x : Option CanErr) : Touches [.can, .frs, .accs, .med] d (Dev.canopyError d x) := by
  unfold Dev.canopyError
  split
  · exact .refl _
  · exact .mono (Dev.dataError_touches ..)
  · exact .mono (Dev.raise_touches ..)
  · exact .mono (Dev.zenithRead_touches ..)

theorem Dev.openZone_touches (d : Dev) (z : Nat) : Touches [.per, .med] d (Dev.openZone d z) := by
  unfold Dev.openZone
  exact .ite (.after (Touches.setPer) (.mono (Dev.raise_touches ..))) (.after (Dev.media_touches ..) (.mono (Touches.setPer
    (openMap := fun h => put_rising _ _ h))))

theorem Dev.stick_touches (d : Dev) (k : Nat) : Touches [.can] d (Dev.stick d k) := by
  unfold Dev.stick
  exact .ite (.after (Dev.raise_touches ..) (.after (Touches.setCan) (.after (Dev.raise_touches ..) (.mono (Dev.updLine_touches
    ..))))) (.after (Dev.raise_touches ..) (.mono (Dev.updLine_touches ..)))

theorem Dev.forgetReads_touches (d : Dev) (x : NodeId) : Touches [.med] d (d.forgetReads x) := Touches.mapChans _

theorem Dev.staleReads_touches (d : Dev) (x : NodeId) : Touches [.frs, .med] d (Dev.staleReads d x) := by
  unfold Dev.staleReads
  exact .after (Touches.setFrs) (.mono (Dev.forgetReads_touches ..))

theorem Dev.leafIssued_touches (d : Dev) (x : NodeId) : Touches [.accs] d (Dev.leafIssued d x) := by
  unfold Dev.leafIssued
  exact .mono (Touches.mapAccs)

theorem Dev.issueWriteBack_touches (d : Dev) (k : Nat) : Touches [.med, .accs, .frs, .can] d (Dev.issueWriteBack d k) := by
  unfold Dev.issueWriteBack
  exact .ite (.mono (Dev.raise_touches ..)) (.after (Dev.media_touches ..) (.after (Dev.leafIssued_touches ..) (.after
    (Dev.staleReads_touches ..) (.after (Dev.countWay_touches ..) (.after (Dev.updLine_touches ..) (.mono (Dev.setSlot_touches
    ..)))))))

theorem Dev.writeBackLine_touches (d : Dev) (k : Nat) : Touches [.can, .accs, .med, .frs, .per] d (Dev.writeBackLine d k) := by
  unfold Dev.writeBackLine
  exact .ite (.after (Dev.dropSubtree_touches ..) (.mono (Dev.countPath_touches ..))) (.ite (.after (Dev.stick_touches ..)
    (.mono (Dev.countPath_touches ..))) (.ite (.after (Dev.startLadder_touches ..) (.mono (Dev.countPath_touches ..))) (.ite
    (.after (Dev.issueWriteBack_touches ..) (.after (Touches.setPer) (.mono (Dev.countPath_touches ..)))) (.ite (.refl _) (.ite
    (.after (Dev.issueWriteBack_touches ..) (.after (Touches.setPer) (.after (Dev.openZone_touches ..) (.mono
    (Dev.countPath_touches ..))))) (.after (Dev.openZone_touches ..) (.mono (Dev.countPath_touches ..))))))))

theorem Dev.updExec_touches (d : Dev) (q : Nat) (pos : QPos) (f : Exec → Exec) : Touches [.queues] d (Dev.updExec d q pos
    f) := by
  unfold Dev.updExec
  exact .mono (Dev.updQueue_touches ..)

theorem Dev.dropExec_touches (d : Dev) (q : Nat) (pos : QPos) : Touches [.queues] d (Dev.dropExec d q pos) := by
  unfold Dev.dropExec
  exact .mono (Dev.updQueue_touches ..)

theorem Dev.dropReads_touches (d : Dev) (q : Nat) : Touches [.hdma] d (Dev.dropReads d q) := by
  unfold Dev.dropReads
  exact .mono (Touches.setHdma (rdOut := fun h => map_rising _ h) (hh := fun ⟨h1, h2, h3, h⟩ => ⟨h1, h2, List.map_eq_nil_iff.mpr
    h3, h⟩))

theorem Dev.dropWrites_touches (d : Dev) (q : Nat) (pos : Option QPos) : Touches [.hdma, .queues] d (Dev.dropWrites d q
    pos) := by
  unfold Dev.dropWrites
  exact .after (Touches.setHdma) (.mono (Dev.updQueue_touches ..))

theorem Dev.leaveRing_touches (d : Dev) (q : Nat) : Touches [.hdma, .queues] d (Dev.leaveRing d q) := by
  unfold Dev.leaveRing
  exact .after (Dev.dropWrites_touches ..) (.mono (Dev.dropReads_touches ..))

theorem Dev.detach_touches (d : Dev) (q : Nat) : Touches [.hdma] d (Dev.detach d q) := by
  unfold Dev.detach
  exact .mono (Touches.setHdma (wrOut := fun h => map_rising _ h) (rdOut := fun h => map_rising _ h)
    (hh := fun ⟨h1, h2, h3, h⟩ => ⟨h1, List.map_eq_nil_iff.mpr h2, List.map_eq_nil_iff.mpr h3, h⟩))

theorem Dev.removeQueue_touches (d : Dev) (q : Nat) : Touches [.queues, .hdma] d (Dev.removeQueue d q) := by
  unfold Dev.removeQueue
  exact .after (Dev.setQueue_touches ..) (.after (Dev.detach_touches ..) (.mono (Dev.leaveRing_touches ..)))

theorem Dev.issueCpl_touches (d : Dev) (q : Nat) (pos : QPos) : Touches [.hdma, .queues] d (Dev.issueCpl d q pos) := by
  unfold Dev.issueCpl
  split
  · exact .refl _
  · exact .after (Dev.hostWrite_touches ..) (.mono (Dev.updExec_touches ..))

theorem Dev.adminCheck_touches (d : Dev) : Touches [.queues, .hdma] d (Dev.adminCheck d) := by
  unfold Dev.adminCheck
  exact .ite (.mono (Dev.removeQueue_touches ..)) (.refl _)

theorem Dev.resetDone_touches (c : Nat × QPos) (d : Dev) : Touches [.queues, .hdma] d (Dev.resetDone c d) := by
  unfold Dev.resetDone
  dsimp only
  split
  · exact .mono (Dev.updExec_touches ..)
  · exact .ite (.after (Dev.adminCheck_touches ..) (.after (Dev.dropExec_touches ..) (.mono (Dev.updExec_touches ..)))) (.after
      (Dev.issueCpl_touches ..) (.mono (Dev.updExec_touches ..)))

theorem Dev.endReset_touches (d : Dev) (q : Nat) : Touches [.queues, .hdma] d (Dev.endReset d q) := by
  unfold Dev.endReset
  exact .ite (.refl _) (.ite (.mono (Dev.removeQueue_touches ..)) (.forAllAfter (fun _ _ => .mono (Dev.resetDone_touches ..))
    (.after (Dev.updQueue_touches ..) (.mono (Dev.leaveRing_touches ..)))))

theorem Dev.writeCpl_touches (d : Dev) (q : Nat) (pos : QPos) : Touches [.queues, .hdma] d (Dev.writeCpl d q pos) := by
  unfold Dev.writeCpl
  split
  · exact .refl _
  · exact .ite (.after (Dev.endReset_touches ..) (.mono (Dev.dropExec_touches ..))) (.mono (Dev.issueCpl_touches ..))

theorem Dev.noteBulk_touches (d : Dev) (q : Nat) (pos : QPos) : Touches [] d (Dev.noteBulk d q pos) := by
  unfold Dev.noteBulk
  exact .ite (.mono (Dev.raise_touches ..)) (.refl _)

theorem Dev.finishWith_touches (d : Dev) (q : Nat) (pos : QPos) (c : Cpl) (writes : List (Nat × Bytes)) : Touches [.queues,
    .hdma] d (Dev.finishWith d q pos c writes) := by
  unfold Dev.finishWith
  exact .ite (.after (Dev.writeCpl_touches ..) (.after (Dev.updExec_touches ..) (.mono (Dev.noteBulk_touches ..))))
    (.forAllAfter (fun _ _ => .mono (Dev.hostWrite_touches ..)) (.after (Dev.updExec_touches ..) (.mono (Dev.noteBulk_touches
    ..))))

theorem Dev.finish_touches (d : Dev) (q : Nat) (pos : QPos) (c : Cpl) : Touches [.queues, .hdma] d (Dev.finish d q pos c) := by
  unfold Dev.finish
  exact .mono (Dev.finishWith_touches ..)

theorem Dev.running_touches (d : Dev) (q : Nat) (pos : QPos) : Touches [.queues] d (Dev.running d q pos) := by
  unfold Dev.running
  exact .mono (Dev.updExec_touches ..)

theorem runBatch_touches {as bs : List Aspect} {d e : Dev} {f : Bytes → Dev → Dev × Cpl} {size n i : Nat} {b : Bytes}
    (hf : ∀ b x, Touches as x (f b x).1 bs) (k : Touches as d e bs) : Touches as d (runBatch f size n i b e).1 bs := by
  induction n generalizing i b e with
  | zero => exact k
  | succ n ih =>
    unfold runBatch
    exact .ite1 k (.ite1 (ih (k.trans (hf _ _))) (k.trans (hf _ _)))

theorem Dev.checked_touches {as bs : List Aspect} {d e : Dev} {q : Nat} {pos : QPos} {x : Exec} {more : List (Nat × Bool)}
    {act : Exec → Dev → Dev} (ha : ∀ y x, Touches as x (act y x) bs) (k : Touches as d e bs)
    (hs : (Touches.sub [.queues, .hdma] as && Touches.sub [] (as ++ bs)) = true := by rfl) : Touches as d (e.checked q pos x
      more act) bs := by
  unfold Dev.checked
  split
  · exact (.after (Dev.finish_touches ..) k hs)
  · exact .ite ((.after (Dev.finish_touches ..) k hs)) (k.trans (ha _ _))

theorem Dev.command_touches {as bs : List Aspect} {d e : Dev} {q : Nat} {pos : QPos} {op : Nat}
    {more : Dev → Exec → List (Nat × Bool)}
    {act : Exec → Dev → Dev} (ha : ∀ y x, Touches as x (act y x) bs) (k : Touches as d e bs)
    (hs : (Touches.sub [.queues, .hdma] as && Touches.sub [] (as ++ bs)) = true := by rfl) : Touches as d (e.command q pos op
      more act) bs := by
  unfold Dev.command
  split
  · exact k
  · exact Dev.checked_touches ha k hs

/-- What is changed of an access is not its id. -/
theorem Dev.updAcc_any (d : Dev) (id : Nat) (f : Access → Access)
    (hf : ∀ a, a.id = id → (f a).id = id := by
      first | exact fun _ h => h | exact fun _ _ => rfl | (intro a h; (try dsimp only); (repeat' split) <;> exact h)) :
    Touches [.accs, .decided] d (d.updAcc id f) := by
  unfold Dev.updAcc
  exact Touches.mapAccs_any fun a => by split <;> simp_all

/-- Nor is it what has been decided of it. -/
theorem Dev.updAcc_touches (d : Dev) (id : Nat) (f : Access → Access)
    (hf : ∀ a, a.id = id → (f a).id = id := by
      first | exact fun _ h => h | exact fun _ _ => rfl | (intro a h; (try dsimp only); (repeat' split) <;> exact h))
    (hk : ∀ a, a.stage = .done → (f a).stage = .done ∧ (f a).status = a.status := by
      first | exact fun _ h => ⟨h, rfl⟩ | (intro a h; (try dsimp only); (repeat' split) <;> first | exact ⟨h, rfl⟩ | simp_all))
        :
    Touches [.accs] d (d.updAcc id f) := by
  unfold Dev.updAcc
  exact Touches.mapAccs (fun a => by split <;> simp_all) fun a h => by
    split
    · exact hk a h
    · exact ⟨h, rfl⟩

/-- A change of an access that is not decided. -/
theorem Dev.updAcc_undecided {d : Dev} {id : Nat} {a : Access} (f : Access → Access) (h : d.acc id = some a) (hs : a.stage ≠
    .done)
    (hf : ∀ a, a.id = id → (f a).id = id := by exact fun _ h => h) : Touches [.accs] d (d.updAcc id f) :=
  (Dev.updAcc_any d id f hf).of_decided fun i st ⟨b, hb, hd, hst⟩ => by
    have hne : i ≠ id := fun hi => hs
        (by rw [hi, show d.fab.accs.find? (fun a => a.id == id) = some a from h] at hb; exact Option.some.inj hb ▸ hd)
    have hp : ((fun b : Access => b.id == i) ∘ fun a => if a.id = id then f a else a) = fun b => b.id == i := funext fun b => by
      by_cases hi : b.id = id <;> simp [hi, hf]
    refine ⟨b, ?_, hd, hst⟩
    have hid : b.id = i := by simpa using List.find?_some hb
    show List.find? _ (List.map _ _) = _
    rw [List.find?_map, hp, hb, Option.map_some, if_neg (hid ▸ hne)]

theorem Dev.dropAcc_touches (d : Dev) (id : Nat) : Touches [.accs, .decided] d (Dev.dropAcc d id) := by
  unfold Dev.dropAcc
  exact .mono (Touches.filterAccs)

theorem Dev.outcome_touches (d : Dev) (id : Nat) (st : Status) : Touches [.accs] d (Dev.outcome d id st) := by
  unfold Dev.outcome
  exact .mono (Dev.updAcc_touches ..)

theorem Dev.putStlSet_touches (d : Dev) (s : Nat) (x : StlSet) (hx : Canonical d → Tab.rising
    x.tab := by exact fun h => h.stlTab _) :
    Touches [.stl] d (d.putStlSet s x) := by
  unfold Dev.putStlSet
  exact .ite (.of_kept (fun a ha => by cases a <;> simp_all [Kept, Per.record, Del.peers, Del.parted]) (fun h =>
    { h with stlA := hx h }) id)
    (.of_kept (fun a ha => by cases a <;> simp_all [Kept, Per.record, Del.peers, Del.parted]) (fun h => { h with stlB := hx h })
      id)

theorem Dev.putRmpSet_touches (d : Dev) (s : Nat) (x : RmpSet) (hx : Canonical d → Tab.rising
    x.tab := by exact fun h => h.rmpTab _)
    (hy : Canonical d → Tab.rising x.stale := by exact fun h => h.rmpStale _) : Touches [.rmp] d (d.putRmpSet s x) := by
  unfold Dev.putRmpSet
  exact .ite (.of_kept (fun a ha => by cases a <;> simp_all [Kept, Per.record, Del.peers, Del.parted]) (fun h =>
    { h with rmpA := hx h, staleA := hy h }) id)
    (.of_kept (fun a ha => by cases a <;> simp_all [Kept, Per.record, Del.peers, Del.parted]) (fun h =>
      { h with rmpB := hx h, staleB := hy h }) id)

theorem Dev.putSlot_touches (d : Dev) (s i : Nat) (e : Option SEntry) : Touches [.stl] d (d.putSlot s i e) := by
  unfold Dev.putSlot
  exact Dev.putStlSet_touches _ _ _ fun h => put_rising _ _ (h.stlTab s)

theorem Dev.slotErrors_touches (d : Dev) (s : Nat) (reads : Nat → Bool) (chk : List Chk) : Touches [.stl] d (Dev.slotErrors d s
    reads chk) := by
  unfold Dev.slotErrors
  exact .forAllAfter (fun _ _ => by
    split
    · exact .ite (.refl _) (.ite (.after (Dev.raise_touches ..) (.mono (Dev.putSlot_touches ..))) (.mono (Dev.raise_touches
        ..)))
    · exact .refl _
    · exact .refl _) (.refl _)

theorem Dev.syncFilter_touches (d : Dev) (sid : BitVec 16) (kid : BitVec 16) : Touches [.stl] d (Dev.syncFilter d sid kid) := by
  unfold Dev.syncFilter
  exact .ite (.after (Dev.unpost_touches ..) (.mono (Touches.setStl))) (.mono (Touches.setStl))

theorem Dev.postLearn_touches (d : Dev) (f : Filter) : Touches [] d (Dev.postLearn d f) := by
  unfold Dev.postLearn
  exact .mono (Dev.post_touches ..)

theorem Dev.learn_touches (d : Dev) (p : Nat) (sid : BitVec 16) (kid : BitVec 16) (isPort : Bool) (hit : SEntry) : Touches
    [.stl] d (Dev.learn d p sid kid isPort hit) := by
  unfold Dev.learn
  dsimp only
  split
  · exact .after (Dev.postLearn_touches ..) (.mono (Touches.setStl))
  · exact .ite (.after (Dev.postLearn_touches ..) (.after (Touches.setStl) (.after (Touches.setStl) (.mono (Dev.unpost_touches
      ..))))) (.ite (.refl _) (.ite (.after (Dev.post_touches ..) (.mono (Touches.setStl))) (.mono (Touches.setStl))))

theorem Dev.learnWritten_touches (d : Dev) (r : Rec) : Touches [.stl] d (Dev.learnWritten d r) := by
  unfold Dev.learnWritten
  split
  · exact .mono (Touches.setStl)
  · exact .refl _

theorem Dev.countReject_touches (d : Dev) (p : Nat) : Touches [.stl] d (Dev.countReject d p) := by
  unfold Dev.countReject
  exact .mono (Touches.setStl (rejects := fun h => put_rising _ _ h))

theorem Dev.release_touches (d : Dev) (which : Access → Bool) : Touches [.accs] d (Dev.release d which) := by
  unfold Dev.release
  exact .mono (Touches.mapAccs)

theorem Dev.unreject_touches (d : Dev) (sid : BitVec 16) (kid : BitVec 16) : Touches [.stl] d (Dev.unreject d sid kid) := by
  unfold Dev.unreject
  exact .mono (Touches.setStl)

theorem Dev.rejectStream_touches (d : Dev) (sid : BitVec 16) (kid : BitVec 16) : Touches [.stl] d (Dev.rejectStream d sid
    kid) := by
  unfold Dev.rejectStream
  exact .ite (.after (Dev.raise_touches ..) (.mono (Touches.setStl))) (.mono (Touches.setStl))

theorem Dev.moveEntry_touches (d : Dev) (s : Nat) (src : Nat) (dst : Nat) : Touches [.stl] d (Dev.moveEntry d s src dst) := by
  unfold Dev.moveEntry
  split
  · exact .refl _
  · exact .after (Touches.setStl) (.after (Dev.putSlot_touches ..) (.after (Dev.putSlot_touches ..) (.mono (Touches.setStl))))

theorem Dev.movePath_touches (s : Nat) (vs : List (Nat × Nat)) (dst : Nat) (d : Dev) : Touches [.stl] d (Dev.movePath s vs dst
    d).1 := by
  induction vs generalizing dst d with
  | nil => exact .refl _
  | cons v r ih => exact (.after (ih ..) (Dev.moveEntry_touches ..))

theorem Dev.inserted_touches (d : Dev) (s : Nat) (e : SEntry) : Touches [.accs, .stl] d (Dev.inserted d s e) := by
  unfold Dev.inserted
  exact .ite (.after (Dev.release_touches ..) (.mono (Dev.unreject_touches ..))) (.refl _)

theorem Dev.insertFails_touches (d : Dev) (s : Nat) (e : SEntry) : Touches [.accs, .stl] d (Dev.insertFails d s e).1 := by
  unfold Dev.insertFails
  dsimp only
  split
  · exact .after (Dev.inserted_touches ..) (.after (Dev.event_touches ..) (.after (Touches.setStl) (.mono (Dev.putSlot_touches
      ..))))
  · exact .ite (.mono (Dev.rejectStream_touches ..)) (.refl _)

theorem Dev.insertStream_touches (d : Dev) (s : Nat) (e : SEntry) : Touches [.accs, .stl] d (Dev.insertStream d s e).1 := by
  unfold Dev.insertStream
  exact .ite1 (.refl _) (by
    split
    · exact .after (Dev.inserted_touches ..) (.mono (Dev.putSlot_touches ..))
    · exact by
        split
        · exact .mono (Dev.insertFails_touches ..)
        · exact .after (Dev.inserted_touches ..) (.after (Dev.putSlot_touches ..) (.mono (Dev.movePath_touches ..))))

theorem Dev.removeStream_touches (d : Dev) (s : Nat) (sid : BitVec 16) (kid : BitVec 16) : Touches [.stl] d (Dev.removeStream d
    s sid kid).1 := by
  unfold Dev.removeStream
  split
  · exact .refl _
  · exact .mono (Dev.putSlot_touches ..)

theorem insertElem_touches (set : Nat) (b : Bytes) (d : Dev) : Touches [.accs, .stl] d (insertElem set b d).1 := by
  unfold insertElem
  dsimp only
  split
  · exact .refl _
  · exact .mono (Dev.insertStream_touches ..)

theorem removeElem_touches (set : Nat) (b : Bytes) (d : Dev) : Touches [.stl] d (removeElem set b d).1 := by
  unfold removeElem
  split
  · exact .refl _
  · exact .mono (Dev.removeStream_touches ..)

theorem runStreams_touches {as bs : List Aspect} {d e : Dev} {f : Bytes → Dev → Dev × Cpl} {s n i : Nat}
    {chk : List (Nat × Chk)} {b : Bytes}
    (hf : ∀ b x, Touches as x (f b x).1 bs) (k : Touches as d e bs) (hs : (Touches.sub [.stl] as && Touches.sub [] (as ++ bs)) =
      true := by rfl) :
    Touches as d (runStreams f s chk n i b e).1 bs := by
  induction n generalizing i b e with
  | zero => exact k
  | succ n ih =>
    unfold runStreams
    have hr := (Touches.after (Dev.slotErrors_touches e s (fun _ => true) (elemChk chk i)) k hs).trans (hf (b.take 16) _)
    exact .ite1 k (.ite1 (ih hr) hr)

theorem Dev.doStream_touches (d : Dev) (q : Nat) (pos : QPos) (x : Exec) (chk : List (Nat × Chk)) : Touches [.queues, .hdma,
    .accs, .stl] d (d.doStream q pos x chk) := by
  unfold Dev.doStream
  refine .ite ((.after (Dev.finish_touches ..) (runStreams_touches (fun b e => ?_) (.refl _)))) ?_
  · split
    · exact (.mono (insertElem_touches ..))
    · exact (.mono (removeElem_touches ..))
  refine .ite ((.after (Dev.finish_touches ..) ((.after (Dev.insertStream_touches ..) (.mono (Dev.slotErrors_touches ..))))))
    (.ite ((.after (Dev.finish_touches ..) ((.after (Dev.removeStream_touches ..) (.mono (Dev.slotErrors_touches ..)))))) ?_)
  split
  · exact (.after (Dev.finish_touches ..) (.mono (Dev.slotErrors_touches ..)))
  · exact (.after (Dev.finishWith_touches ..) (.mono (Dev.slotErrors_touches ..)))

theorem Dev.pumpStream_touches (n : Nat) (d : Dev) : Touches [.queues, .hdma, .accs, .stl] d (Dev.pumpStream n d) := by
  induction n generalizing d with
  | zero => exact .refl _
  | succ n ih =>
    unfold Dev.pumpStream
    split
    · exact .refl _
    · split
      · exact (.after (ih _) (.mono (Touches.setStl)))
      · exact .refl _
      · exact .ite (.refl _) ((.after (ih _) (.mono (Dev.doStream_touches ..))))

theorem Dev.pumpStreams_touches (d : Dev) : Touches [.queues, .hdma, .accs, .stl] d (Dev.pumpStreams d) := by
  unfold Dev.pumpStreams
  exact .mono (Dev.pumpStream_touches ..)

theorem Dev.queueStl_touches (d : Dev) (c : Nat × QPos × List (Nat × Chk)) : Touches [.stl] d (Dev.queueStl d c) := by
  unfold Dev.queueStl
  exact .ite (.mono (Touches.setStl)) (.mono (Touches.setStl))

theorem Dev.streamCommand_touches (d : Dev) (q : Nat) (pos : QPos) (op : Nat) (chk : List (Nat × Chk)) : Touches [.queues,
    .hdma, .accs, .stl] d (Dev.streamCommand d q pos op chk) := by
  unfold Dev.streamCommand
  exact .after (Dev.pumpStreams_touches ..) (Dev.command_touches (fun _ _ => .after (Dev.queueStl_touches ..) (.mono
    (Dev.running_touches ..))) (.refl _))

theorem Dev.regionErrors_touches (d : Dev) (chk : List Chk) : Touches [] d (Dev.regionErrors d chk) := by
  unfold Dev.regionErrors
  exact .forAllAfter (fun _ _ => by
    split
    · exact .refl _
    · exact .mono (Dev.raise_touches ..)
    · exact .refl _) (.refl _)

theorem Dev.zoneRead_touches (d : Dev) (full : Bool) (chk : List Chk) : Touches [] d (Dev.zoneRead d full chk) := by
  unfold Dev.zoneRead
  exact .mono (Dev.zenithRead_touches ..)

theorem Dev.regionLookup_touches (d : Dev) (line : LineNo) (chk : List Chk) : Touches [] d (Dev.regionLookup d line chk).1 := by
  unfold Dev.regionLookup
  exact .mono (Dev.regionErrors_touches ..)

/-- A region set may be put back whose tables were in order at the start. -/
theorem Touches.putRmpSet {as bs : List Aspect} {d e : Dev} {s : Nat} {x : RmpSet} (h : Touches as d e bs)
    (hx : Canonical d → Tab.rising x.tab ∧ Tab.rising x.stale)
    (hs : (Touches.sub [.rmp] as && Touches.sub [] (as ++ bs)) = true) : Touches as d (e.putRmpSet s x) bs := by
  have hm : .rmp ∈ as := by simpa [Touches.sub] using hs
  have hp : ∀ a, a ∉ as → Kept e (e.putRmpSet s x) a := by
    unfold Dev.putRmpSet
    intro a ha
    split <;> cases a <;> simp_all [Kept, Per.record, Del.peers, Del.parted]
  have he : (e.putRmpSet s x).seq = e.seq ∧ (e.putRmpSet s x).drive = e.drive ∧ (e.putRmpSet s x).fab = e.fab := by
    unfold Dev.putRmpSet
    split <;> exact ⟨rfl, rfl, rfl⟩
  obtain ⟨hseq, hdrive, hfab⟩ := he
  refine ⟨fun a ha hb => (h.kept a ha hb).trans (hp a ha), fun hq hn a ha => (h.quiet hq hn a ha).trans (hp a ha), fun hd => ?_,
    hseq ▸ h.seq, fun hi a ha => ?_, hdrive ▸ h.drive⟩
  · obtain ⟨ht, hst⟩ := hx hd
    have hc := h.tables hd
    unfold Dev.putRmpSet
    split
    · exact { hc with rmpA := ht, staleA := hst }
    · exact { hc with rmpB := ht, staleB := hst }
  · rw [hseq]
    exact h.ids hi a (hfab ▸ ha)

/-- What a step sees of the region map while it looks is undone when it has looked. -/
theorem Dev.withRegions_touches {as bs : List Aspect} {d e : Dev} {chk : List Chk} {f : Dev → Dev} (hf : ∀ x, Touches as x (f x)
    bs)
    (k : Touches as d e bs) (hs : (Touches.sub [.rmp] as && Touches.sub [] (as ++ bs)) = true := by rfl) :
    Touches as d (e.withRegions chk f) bs := by
  unfold Dev.withRegions
  have hr := Touches.after (Dev.regionErrors_touches e chk) k (by simp [Touches.sub])
  have hp : Touches as d ((e.regionErrors chk).putRmpSet e.activeSet ((e.rmpSet e.activeSet).seen chk)) bs :=
    hr.putRmpSet (fun h => ⟨((k.tables h).rmpTab _).filter _, (k.tables h).rmpStale _⟩) hs
  exact (hp.trans (hf _)).putRmpSet (fun h => ⟨(k.tables h).rmpTab _, (k.tables h).rmpStale _⟩) hs

theorem Dev.setRekey_touches (d : Dev) (i : Nat) (r : Rekey) : Touches [.rmp] d (Dev.setRekey d i r) := by
  unfold Dev.setRekey
  exact .mono (Touches.setRmp (rekey := fun h => put_rising _ _ h))

theorem Dev.writeRegion_touches (d : Dev) (i v : Nat) : Touches [.rmp] d (d.writeRegion i v) :=
  Dev.putRmpSet_touches _ _ _ (fun h => put_rising _ _ (h.rmpTab _)) fun h => put_rising _ _ (h.rmpStale _)

theorem regionElem_touches (b : Bytes) (d : Dev) : Touches [.rmp] d (regionElem b d).1 := by
  unfold regionElem
  exact .ite1 (.refl _) (by
    split
    · exact .refl _
    · exact by
        dsimp only
        split
        · exact .refl _
        · exact .mono (Dev.writeRegion_touches ..))

theorem Dev.doRegion_touches (d : Dev) (q : Nat) (pos : QPos) (x : Exec) : Touches [.queues, .hdma, .rmp] d (Dev.doRegion d q
    pos x) := by
  unfold Dev.doRegion
  exact .ite (.ite (Dev.checked_touches (fun _ _ => .after (Dev.finish_touches ..) (runBatch_touches (fun _ _ => .mono
    (regionElem_touches ..)) (.refl _))) (.refl _)) (by
    split
    · exact .mono (Dev.finish_touches ..)
    · exact Dev.checked_touches (fun _ _ => .after (Dev.finish_touches ..) (.mono (Dev.writeRegion_touches ..))) (.refl _)))
        (.mono (Dev.finishWith_touches ..))

theorem Dev.pumpRegion_touches (n : Nat) (d : Dev) : Touches [.queues, .hdma, .rmp] d (Dev.pumpRegion n d) := by
  induction n generalizing d with
  | zero => exact .refl _
  | succ n ih =>
    unfold Dev.pumpRegion
    split
    · exact .refl _
    · split
      · exact (.after (ih _) (.mono (Touches.setRmp)))
      · exact .refl _
      · exact .ite (.refl _) ((.after (ih _) (.mono (Dev.doRegion_touches ..))))

theorem Dev.pumpRegions_touches (d : Dev) : Touches [.queues, .hdma, .rmp] d (Dev.pumpRegions d) := by
  unfold Dev.pumpRegions
  exact .mono (Dev.pumpRegion_touches ..)

theorem Dev.pumpTables_touches (d : Dev) : Touches [.queues, .hdma, .rmp, .accs, .stl] d (Dev.pumpTables d) := by
  unfold Dev.pumpTables
  exact .after (Dev.pumpRegions_touches ..) (.mono (Dev.pumpStreams_touches ..))

theorem Dev.queueRmp_touches (d : Dev) (c : Nat × QPos) : Touches [.rmp] d (Dev.queueRmp d c) := by
  unfold Dev.queueRmp
  exact .ite (.mono (Touches.setRmp)) (.mono (Touches.setRmp))

theorem Dev.atRmp_touches (d : Dev) (q : Nat) (pos : QPos) : Touches [.rmp, .queues] d (Dev.atRmp d q pos) := by
  unfold Dev.atRmp
  exact .after (Dev.queueRmp_touches ..) (.mono (Dev.running_touches ..))

theorem Dev.regionCommand_touches (d : Dev) (q : Nat) (pos : QPos) (op : Nat) : Touches [.queues, .hdma, .rmp] d
    (Dev.regionCommand d q pos op) := by
  unfold Dev.regionCommand
  exact .ite (.after (Dev.pumpRegions_touches ..) (.ite (.mono (Dev.atRmp_touches ..)) (.refl _))) (.after
    (Dev.pumpRegions_touches ..) (Dev.command_touches (fun _ _ => .mono (Dev.atRmp_touches ..)) (.refl _)))

theorem Dev.swapSets_touches (d : Dev) : Touches [.accs, .stl, .rmp] d (Dev.swapSets d) := by
  unfold Dev.swapSets
  exact .after (Dev.raise_touches ..) (.after (Dev.release_touches ..) (.mono (Touches.of_kept (as := [.stl, .rmp]) (fun a ha
    => by cases a <;> simp_all [Kept, Per.record, Del.peers, Del.parted]) (fun h =>
    { h with rekey := (map_rising _ h.rekey).filter _ }) id)))

theorem Dev.swapOver_touches (d : Dev) : Touches [.stl, .rmp] d (Dev.swapOver d) := by
  unfold Dev.swapOver
  exact .mono (Touches.of_kept (as := [.stl, .rmp]) (fun a ha
    => by cases a <;> simp_all [Kept, Per.record, Del.peers, Del.parted]) (fun h => { h with }) id)

theorem Dev.updSession_touches (d : Dev) (g : Nat) (f : Session → Session) : Touches [.sessions] d (Dev.updSession d g f) := by
  unfold Dev.updSession
  exact .mono (Touches.setSessions fun h => put_rising _ _ h)

theorem pumpWchk_touches (n p : Nat) (d : Dev) : Touches [.ports] d (pumpWchk n p d) := by
  induction n generalizing d with
  | zero => exact .refl _
  | succ n ih =>
    unfold pumpWchk
    dsimp only
    split
    · exact .refl _
    · exact .ite (.refl _) ((.after (ih _) ((.after (Dev.emit_touches ..) (Dev.setPort_touches ..)))))

theorem pumpRtag_touches (n p : Nat) (d : Dev) : Touches [.ports] d (pumpRtag n p d) := by
  induction n generalizing d with
  | zero => exact .refl _
  | succ n ih =>
    unfold pumpRtag
    dsimp only
    split
    · exact .refl _
    · exact .ite (.refl _) ((.after (ih _) ((.after (Dev.emit_touches ..) (Dev.setPort_touches ..)))))

theorem Dev.sendWchk_touches (d : Dev) (g : Nat) (r : WResult) : Touches [.ports] d (Dev.sendWchk d g r) := by
  unfold Dev.sendWchk
  exact .after (pumpWchk_touches ..) (.mono (Dev.setPort_touches ..))

theorem Dev.sendRtag_touches (d : Dev) (g : Nat) (t : BitVec 96) : Touches [.ports] d (Dev.sendRtag d g t) := by
  unfold Dev.sendRtag
  exact .after (pumpRtag_touches ..) (.mono (Dev.setPort_touches ..))

theorem Dev.arrive_touches (d : Dev) (id : Nat) : Touches [.accs, .decided] d (Dev.arrive d id) := by
  unfold Dev.arrive
  exact .after (Dev.bump_touches ..) (.mono (Dev.updAcc_any ..))

theorem Dev.arrive_undecided {d : Dev} {id : Nat} {a : Access} (h : d.acc id = some a) (hs : a.stage ≠ .done) :
    Touches [.accs] d (Dev.arrive d id) := by
  unfold Dev.arrive
  exact .after (Dev.bump_touches ..) (Dev.updAcc_undecided _ h hs)

theorem Dev.windowLost_touches (d : Dev) (a : Access) : Touches [.accs] d (Dev.windowLost d a) := by
  unfold Dev.windowLost
  split
  · exact .refl _
  · exact .refl _
  · exact .mono (Dev.outcome_touches ..)
  · exact .mono (Dev.outcome_touches ..)

theorem Dev.tryArrive_touches (d : Dev) (id : Nat) : Touches [.accs] d (Dev.tryArrive d id) := by
  unfold Dev.tryArrive
  split
  · exact .refl _
  next a ha =>
    by_cases hs : a.stage = .unbound
    · have harr : Touches [.accs] d (d.arrive id) := Dev.arrive_undecided ha (by simp [hs])
      exact .ite (.refl _) (by
        split
        · exact .refl _
        · exact .ite harr (.refl _)
        · exact harr
        · exact .mono (Dev.outcome_touches ..))
    · rw [if_pos (by simpa using hs)]
      exact .refl _

theorem Dev.refuse_touches (d : Dev) (id : Nat) : Touches [.accs, .decided] d (Dev.refuse d id) := by
  unfold Dev.refuse
  split
  · exact .refl _
  · exact .ite (.mono (Dev.outcome_touches ..)) (by
      split
      · exact .mono (Dev.outcome_touches ..)
      · exact .mono (Dev.outcome_touches ..)
      · exact .mono (Dev.updAcc_any ..))

theorem Dev.windowWrite_touches (r : WResult) (id : Nat) (d : Dev) : Touches [.accs] d (Dev.windowWrite r id d) := by
  unfold Dev.windowWrite
  split
  · exact .refl _
  · exact .ite (.ite (.after (Dev.outcome_touches ..) (.mono (Dev.updAcc_touches ..))) (.after (Dev.tryArrive_touches ..) (.mono
      (Dev.updAcc_touches ..)))) (.after (Dev.windowLost_touches ..) (.mono (Dev.updAcc_touches ..)))

theorem Dev.deliver_touches (d : Dev) (g : Nat) (w : WWin) (r : WResult) : Touches [.accs, .sessions, .ports] d (Dev.deliver d g
    w r) := by
  unfold Dev.deliver
  exact .forAllAfter (fun _ _ => .mono (Dev.windowWrite_touches ..)) (by
    split
    · exact .after (Dev.raise_touches ..) (.after (Dev.updSession_touches ..) (.mono (Dev.sendWchk_touches ..)))
    · exact .after (Dev.raise_touches ..) (.after (Dev.updSession_touches ..) (.mono (Dev.sendWchk_touches ..)))
    · exact .mono (Dev.sendWchk_touches ..))

theorem Dev.flushForced_touches (n g : Nat) (d : Dev) : Touches [.accs, .sessions, .ports] d (Dev.flushForced n g d) := by
  induction n generalizing d with
  | zero => exact .refl _
  | succ n ih =>
    unfold Dev.flushForced
    split
    · split
      · exact (.after (ih _) ((.after (Dev.deliver_touches ..) (.mono (Dev.updSession_touches ..)))))
      · exact .refl _
    · exact .refl _

theorem Dev.endWindow_touches (d : Dev) (g : Nat) (r : WResult) : Touches [.accs, .sessions, .ports] d (Dev.endWindow d g
    r) := by
  unfold Dev.endWindow
  split
  · exact .refl _
  · exact .after (Dev.flushForced_touches ..) (.mono (Dev.updSession_touches ..))

theorem Dev.formatWrite_touches (d : Dev) (g : Nat) : Touches [.accs, .sessions, .ports] d (Dev.formatWrite d g) := by
  unfold Dev.formatWrite
  exact .ite (.mono (Dev.endWindow_touches ..)) (.after (Dev.raise_touches ..) (.mono (Dev.updSession_touches ..)))

theorem Dev.checkComplete_touches (d : Dev) (g : Nat) : Touches [.sessions] d (Dev.checkComplete d g) := by
  unfold Dev.checkComplete
  split
  · exact .refl _
  · exact .ite (.mono (Dev.updSession_touches ..)) (.refl _)

theorem Dev.takePayload_touches (d : Dev) (id : Nat) (g : Nat) (data : Line) : Touches [.accs, .sessions, .ports, .decided] d
    (Dev.takePayload d id g data) := by
  unfold Dev.takePayload
  dsimp only
  split
  · exact by
      split
      · exact .after (Dev.windowLost_touches ..) (.after (Dev.formatWrite_touches ..) (.mono (Dev.updAcc_touches ..)))
      · exact .after (Dev.formatWrite_touches ..) (.mono (Dev.updAcc_touches ..))
  · exact .ite (by
      split
      · exact .after (Dev.windowLost_touches ..) (.after (Dev.formatWrite_touches ..) (.mono (Dev.updAcc_touches ..)))
      · exact .after (Dev.formatWrite_touches ..) (.mono (Dev.updAcc_touches ..))) (.after (Dev.checkComplete_touches ..)
          (.after (Dev.tryArrive_touches ..) (.after (Dev.updAcc_touches ..) (.mono (Dev.updSession_touches ..)))))

theorem pairPort_touches (n p : Nat) (d : Dev) : Touches [.accs, .sessions, .ports, .decided] d (pairPort n p d) := by
  induction n generalizing d with
  | zero => exact .refl _
  | succ n ih =>
    unfold pairPort
    dsimp only
    split
    · exact (.after (ih _) ((.after (Dev.giveCredits_touches ..) ((.after (Dev.takePayload_touches ..) ((.after
        (Dev.updAcc_touches ..) (.mono (Dev.setPort_touches ..)))))))))
    · exact .refl _

theorem Dev.pair_touches (d : Dev) (p : Nat) : Touches [.accs, .sessions, .ports, .decided] d (Dev.pair d p) := by
  unfold Dev.pair
  exact .mono (pairPort_touches ..)

theorem Dev.lookups_touches (d : Dev) (sid kid : BitVec 16) (line : LineNo) (chk : List Chk) : Touches [.stl] d (d.lookups sid
    kid line chk).1 := by
  unfold Dev.lookups
  refine .after (Dev.regionLookup_touches _ line chk) ?_
  dsimp only
  split
  · exact Dev.slotErrors_touches ..
  · exact .after (Dev.putSlot_touches ..) (Dev.slotErrors_touches ..)

theorem Dev.park_touches (d : Dev) (id : Nat) (p : Nat) (sid : BitVec 16) (kid : BitVec 16) (isPort : Bool) (hit : SEntry)
    (first : Nat) : Touches [.accs, .stl, .decided] d (Dev.park d id p sid kid isPort hit first) := by
  unfold Dev.park
  exact .ite (.after (Dev.refuse_touches ..) (.mono (Dev.countReject_touches ..))) (.ite (.after (Dev.refuse_touches ..) (.mono
    (Touches.setStl (parkFulls := fun h => put_rising _ _ h)))) (.after (Dev.syncFilter_touches ..) (.after (Dev.learn_touches
    ..) (.after (Dev.bump_touches ..) (.mono (Dev.updAcc_any ..))))))

theorem Dev.admission_touches (d : Dev) (id : Nat) (chk : List Chk) (first : Nat) : Touches [.accs, .stl, .decided] d
    (Dev.admission d id chk first) := by
  unfold Dev.admission
  split
  · exact .refl _
  · exact by
      dsimp only
      split
      · exact .after (Dev.refuse_touches ..) (.after (Dev.zoneRead_touches ..) (.mono (Dev.lookups_touches ..)))
      · exact .after (Dev.park_touches ..) (.after (Dev.zoneRead_touches ..) (.mono (Dev.lookups_touches ..)))
      · exact .after (Dev.park_touches ..) (.after (Dev.zoneRead_touches ..) (.mono (Dev.lookups_touches ..)))
      · exact .ite (.after (Dev.tryArrive_touches ..) (.after (Dev.updAcc_any ..) (.after (Dev.zoneRead_touches ..) (.mono
          (Dev.lookups_touches ..))))) (.after (Dev.arrive_touches ..) (.after (Dev.updAcc_any ..) (.after (Dev.zoneRead_touches
          ..) (.mono (Dev.lookups_touches ..)))))

theorem Dev.noteHold_touches (d : Dev) : Touches [.fabRest, .ports] d (Dev.noteHold d) := by
  unfold Dev.noteHold
  exact .ite (.after (Dev.raise_touches ..) (.mono (Touches.setFabRest))) (.ite (.forAllAfter (fun _ _ => .mono
    (Dev.giveCredits_touches ..)) (.mono (Touches.setFabRest))) (.refl _))

theorem Dev.process_touches (d : Dev) (id : Nat) : Touches [.ports, .accs, .fabRest, .stl, .decided] d (Dev.process d id) := by
  unfold Dev.process
  split
  · exact .refl _
  · exact .ite (.after (Dev.giveCredits_touches ..) (.mono (Dev.outcome_touches ..))) (.ite (.mono (Dev.noteHold_touches ..))
      (.after (Dev.giveCredits_touches ..) (.after (Dev.noteHold_touches ..) (.mono (Dev.admission_touches ..)))))

theorem Dev.retryReceived_touches (d : Dev) : Touches [.ports, .accs, .fabRest, .stl, .decided] d (Dev.retryReceived d) := by
  unfold Dev.retryReceived
  exact .forAllAfter (fun _ _ => .mono (Dev.process_touches ..)) (.refl _)

theorem Dev.placeIn_touches (d : Dev) (g : Nat) (w : RWin) (id : Nat) : Touches [.accs, .sessions, .decided] d (Dev.placeIn d g
    w id) := by
  unfold Dev.placeIn
  split
  · exact .after (Dev.updAcc_any ..) (.mono (Dev.updSession_touches ..))
  · exact .mono (Dev.outcome_touches ..)
  · exact .refl _

theorem Dev.windowEffects_touches (n g : Nat) (d : Dev) : Touches [.accs, .sessions, .decided] d (Dev.windowEffects n g d) := by
  induction n generalizing d with
  | zero => exact .refl _
  | succ n ih =>
    unfold Dev.windowEffects
    split
    · exact .refl _
    · refine .ite ?_ ?_
      · split
        · exact (.after (ih _) (.mono (Dev.updSession_touches ..)))
        · exact (.after (ih _) (.forAllAfter (fun _ _ => (.mono (Dev.outcome_touches ..))) (.mono (Dev.updSession_touches ..))))
      · split
        · exact .refl _
        · exact (.after (ih _) (Dev.placeIn_touches ..))

theorem Dev.effects_touches (d : Dev) (g : Nat) : Touches [.accs, .sessions, .decided] d (Dev.effects d g) := by
  unfold Dev.effects
  exact .mono (Dev.windowEffects_touches ..)

theorem Dev.placeRead_touches (d : Dev) (id : Nat) : Touches [.accs, .sessions, .decided] d (Dev.placeRead d id) := by
  unfold Dev.placeRead
  split
  · exact .refl _
  · exact .ite (.mono (Dev.outcome_touches ..)) (.ite (.mono (Dev.outcome_touches ..)) (by
      split
      · exact .after (Dev.effects_touches ..) (.mono (Dev.placeIn_touches ..))
      · exact .ite (.mono (Dev.outcome_touches ..)) (.mono (Dev.updAcc_any ..))))

theorem Dev.endReadWindow_touches (d : Dev) (g : Nat) (w : RWin) (error : Bool) : Touches [.accs, .ports, .sessions, .decided] d
    (Dev.endReadWindow d g w error) := by
  unfold Dev.endReadWindow
  exact .ite (.after (Touches.mapAccs_any) (.ite (.after (Dev.sendRtag_touches ..) (.mono (Dev.updSession_touches ..))) (.mono
    (Dev.updSession_touches ..)))) (.after (Touches.mapAccs_any) (.ite (.after (Dev.sendRtag_touches ..) (.mono
    (Dev.updSession_touches ..))) (.mono (Dev.updSession_touches ..))))

theorem Dev.formatRead_touches (d : Dev) (g : Nat) : Touches [.accs, .ports, .sessions, .decided] d (Dev.formatRead d g) := by
  unfold Dev.formatRead
  exact .forAllAfter (fun _ _ => .mono (Dev.outcome_touches ..)) (.forAllAfter (fun _ _ => .mono (Dev.endReadWindow_touches ..))
    (.after (Dev.raise_touches ..) (.mono (Dev.updSession_touches ..))))

theorem Dev.respond_touches (d : Dev) (a : Access) (p : Nat) (st : Status) : Touches [.accs, .ports, .sessions, .decided] d
    (Dev.respond d a p st) := by
  unfold Dev.respond
  exact .after (Dev.dropAcc_touches ..) (by
    split
    · exact .after (Dev.emit_touches ..) (.mono (Dev.setPort_touches ..))
    · exact .after (Dev.updSession_touches ..) (.after (Dev.emit_touches ..) (.mono (Dev.setPort_touches ..))))

theorem Dev.expire_touches (d : Dev) (a : Access) : Touches [.accs, .decided] d (Dev.expire d a) := by
  unfold Dev.expire
  exact .ite (.mono (Dev.updAcc_any ..)) (.mono (Dev.outcome_touches ..))

theorem Dev.recheck_touches (a : Access) (chk : List Chk) (d : Dev) : Touches [.fabRest, .ports, .stl, .accs, .decided] d
    (Dev.recheck a chk d) := by
  unfold Dev.recheck
  exact .after (Dev.noteHold_touches ..) (.after (Dev.syncFilter_touches ..) (.ite (.mono (Dev.outcome_touches ..)) (.mono
    (Dev.admission_touches ..))))

theorem Dev.releaseAll_touches (chk : List (Nat × Chk)) (l : List Access) (held : List (BitVec 16 × BitVec 16)) (d : Dev) :
    Touches [.fabRest, .ports, .stl, .accs, .decided] d (Dev.releaseAll chk l held d) := by
  induction l generalizing held d with
  | nil => exact .refl _
  | cons a r ih =>
    unfold Dev.releaseAll
    exact .ite (ih ..) (.ite (ih ..) ((.after (ih ..) (Dev.recheck_touches ..))))

theorem Dev.initialCredits_touches (d : Dev) (p : Nat) : Touches [.ports] d (Dev.initialCredits d p) := by
  unfold Dev.initialCredits
  exact .ite (.after (Dev.giveCredits_touches ..) (.mono (Dev.setPort_touches ..))) (.mono (Dev.giveCredits_touches ..))

theorem Dev.updStep_touches (d : Dev) (id : Nat) (f : Step → Step) : Touches [.svc] d (Dev.updStep d id f) := by
  unfold Dev.updStep
  exact .mono (Touches.setSvc)

theorem Dev.leave_touches (d : Dev) (a : Access) : Touches [.ports, .accs, .fabRest, .stl, .svc, .decided] d (Dev.leave d
    a) := by
  unfold Dev.leave
  split
  · exact .refl _
  · exact .after (Dev.retryReceived_touches ..) (.after (Dev.noteHold_touches ..) (.after (Dev.updStep_touches ..) (.mono
      (Dev.dropAcc_touches ..))))

theorem Dev.countSkip_touches (d : Dev) : Touches [.svc] d (Dev.countSkip d) := by
  unfold Dev.countSkip
  exact .mono (Touches.setSvc)

theorem Dev.voidLine_touches (d : Dev) (a : Access) : Touches [.svc] d (Dev.voidLine d a) := by
  unfold Dev.voidLine
  split
  · exact .mono (Dev.updStep_touches ..)
  · exact .refl _

theorem Dev.sealLine_touches (d : Dev) (a : Access) (pt : Line) : Touches [.svc] d (Dev.sealLine d a pt) := by
  unfold Dev.sealLine
  split
  · exact .refl _
  · exact by
      split
      · exact .refl _
      · exact .mono (Dev.updStep_touches ..)

theorem Dev.sealZeros_touches (d : Dev) (a : Access) : Touches [.accs, .decided] d (Dev.sealZeros d a) := by
  unfold Dev.sealZeros
  exact .mono (Dev.updAcc_any ..)

theorem Dev.endPoisoned_touches (d : Dev) (a : Access) : Touches [.accs, .svc, .ports, .fabRest, .stl, .decided] d
    (Dev.endPoisoned d a) := by
  unfold Dev.endPoisoned
  split
  · exact .mono (Dev.outcome_touches ..)
  · exact .mono (Dev.outcome_touches ..)
  · exact .mono (Dev.outcome_touches ..)
  · exact .after (Dev.sealZeros_touches ..) (.mono (Dev.voidLine_touches ..))
  · exact .mono (Dev.leave_touches ..)
  · exact .mono (Dev.leave_touches ..)
  · exact .after (Dev.leave_touches ..) (.mono (Dev.countSkip_touches ..))

theorem Dev.endMarked_touches (d : Dev) (a : Access) : Touches [.ports, .accs, .fabRest, .stl, .svc, .decided] d (Dev.endMarked
    d a) := by
  unfold Dev.endMarked
  split
  · exact .mono (Dev.leave_touches ..)
  · exact .mono (Dev.leave_touches ..)
  · exact .mono (Dev.leave_touches ..)
  · exact .mono (Dev.leave_touches ..)
  · exact .mono (Dev.endPoisoned_touches ..)

theorem Dev.endRetired_touches (d : Dev) (a : Access) : Touches [.accs, .svc, .ports, .fabRest, .stl, .decided] d
    (Dev.endRetired d a) := by
  unfold Dev.endRetired
  split
  · exact .mono (Dev.outcome_touches ..)
  · exact .mono (Dev.outcome_touches ..)
  · exact .mono (Dev.outcome_touches ..)
  · exact .after (Dev.sealZeros_touches ..) (.mono (Dev.voidLine_touches ..))
  · exact .mono (Dev.leave_touches ..)
  · exact .after (Dev.leave_touches ..) (.mono (Dev.countSkip_touches ..))

theorem Dev.endExhausted_touches (d : Dev) (a : Access) (level : Nat) : Touches [.accs, .frs, .ports, .fabRest, .stl, .svc,
    .decided] d (Dev.endExhausted d a level) := by
  unfold Dev.endExhausted
  dsimp only
  split
  · exact .after (Dev.outcome_touches ..) (.ite (.mono (Touches.setFrs)) (.after (Dev.event_touches ..) (.mono
      (Touches.setFrs))))
  · exact .after (Dev.outcome_touches ..) (.ite (.mono (Touches.setFrs)) (.after (Dev.event_touches ..) (.mono
      (Touches.setFrs))))
  · exact .after (Dev.leave_touches ..) (.after (Dev.countSkip_touches ..) (.ite (.mono (Touches.setFrs)) (.after
      (Dev.event_touches ..) (.mono (Touches.setFrs)))))

theorem Dev.countAncestors_touches (d : Dev) (line : LineNo) : Touches [.can] d (Dev.countAncestors d line) := by
  unfold Dev.countAncestors
  exact .mono (Dev.countPath_touches ..)

theorem Dev.synthPath_touches {z n : Nat} {v : Ctr} {ls : List Nat} {d e : Dev} (h : Dev.synthPath z n v ls d = some e) :
    Touches [.can] d e := by
  induction ls generalizing d with
  | nil => exact Option.some_inj.mp h ▸ .refl _
  | cons l ls ih =>
    unfold Dev.synthPath at h
    split at h
    · cases h
    · exact (.after (ih h) (Dev.fillNode_touches ‹_›))

theorem Dev.toLadder_touches (d : Dev) (a : Access) : Touches [.accs, .frs, .med, .can, .decided] d (Dev.toLadder d a) := by
  unfold Dev.toLadder
  exact .after (Dev.updAcc_any ..) (.mono (Dev.startLadder_touches ..))

theorem Dev.fetchAncestors_touches (d : Dev) (a : Access) : Touches [.accs, .frs, .med, .can, .decided] d (Dev.fetchAncestors d
    a) := by
  unfold Dev.fetchAncestors
  exact .after (Dev.updAcc_any ..) (.mono (Dev.startLadder_touches ..))

theorem Dev.waitFill_touches (d : Dev) (a : Access) (p : Nat × Ctr) : Touches [.can, .accs, .decided] d (Dev.waitFill d a
    p) := by
  unfold Dev.waitFill
  dsimp only
  split
  · exact .after (Dev.wantSet_touches ..) (.mono (Dev.updAcc_any ..))
  · exact .mono (Dev.updAcc_any ..)

theorem Dev.advance_touches (d : Dev) (a : Access) (v : Ctr) (pass : Pass) : Touches [.accs, .frs, .ports, .fabRest, .stl, .svc,
    .can, .med, .decided] d (Dev.advance d a v pass) := by
  unfold Dev.advance
  exact .ite (.mono (Dev.updAcc_any ..)) (.ite (.mono (Dev.endExhausted_touches ..)) (by
    dsimp only
    split
    · exact .after (Dev.endExhausted_touches ..) (.mono (Dev.countAncestors_touches ..))
    · exact .after (Dev.fetchAncestors_touches ..) (.mono (Dev.countAncestors_touches ..))
    · exact .ite (.mono (Dev.updAcc_any ..)) (by
        split
        · exact .after (Dev.waitFill_touches ..) (.mono (Dev.countAncestors_touches ..))
        · exact .after (Dev.updAcc_any ..) (.after (Dev.setSlot_touches ..) (.after (Dev.synthPath_touches ‹_›) (.mono
            (Dev.countAncestors_touches ..)))))))

theorem Dev.readData_touches (d : Dev) (a : Access) (c : Ctr) (pass : Pass) : Touches [.accs, .svc, .ports, .fabRest, .stl,
    .med, .decided] d (Dev.readData d a c pass) := by
  unfold Dev.readData
  exact .ite (.mono (Dev.endRetired_touches ..)) (.after (Dev.media_touches ..) (.mono (Dev.updAcc_any ..)))

theorem Dev.markLine_touches (d : Dev) (a : Access) (v : Ctr) : Touches [.ports, .accs, .fabRest, .stl, .svc, .frs, .can,
    .decided] d (Dev.markLine d a v) := by
  unfold Dev.markLine
  exact .after (Dev.endMarked_touches ..) (.after (Touches.setFrs) (.mono (Dev.setSlot_touches ..)))

theorem Dev.counted_touches (d : Dev) (a : Access) (v : Ctr) (fresh : Bool) : Touches [.accs, .ports, .fabRest, .stl, .svc,
    .frs, .can, .sessions, .med, .decided] d (Dev.counted d a v fresh) := by
  unfold Dev.counted
  exact .ite (.ite (.mono (Dev.updAcc_any ..)) (.mono (Dev.markLine_touches ..))) (by
    split
    · exact .ite (.after (Dev.placeRead_touches ..) (.mono (Dev.updAcc_any ..))) (.mono (Dev.readData_touches ..))
    · exact .ite (.mono (Dev.endRetired_touches ..)) (.mono (Dev.advance_touches ..))
    · exact .ite (.mono (Dev.endRetired_touches ..)) (.ite (.after (Dev.advance_touches ..) (.mono (Dev.updAcc_any ..))) (.ite
        (.mono (Dev.advance_touches ..)) (.ite (.mono (Dev.endExhausted_touches ..)) (by
        dsimp only
        split
        · exact .after (Dev.endExhausted_touches ..) (.mono (Dev.countAncestors_touches ..))
        · exact .after (Dev.fetchAncestors_touches ..) (.mono (Dev.countAncestors_touches ..))
        · exact .after (Dev.readData_touches ..) (.mono (Dev.countAncestors_touches ..))))))
    · exact .ite (.after (Dev.leave_touches ..) (.mono (Dev.countSkip_touches ..))) (.ite (.mono (Dev.advance_touches ..))
        (.mono (Dev.readData_touches ..)))
    · exact .ite (.mono (Dev.leave_touches ..)) (.mono (Dev.readData_touches ..))
    · exact .ite (.mono (Dev.sealZeros_touches ..)) (.mono (Dev.readData_touches ..))
    · exact .ite (.mono (Dev.endRetired_touches ..)) (.mono (Dev.advance_touches ..))
    · exact .ite (.mono (Dev.updAcc_any ..)) (by
        dsimp only
        split
        · exact .mono (Dev.waitFill_touches ..)
        · exact .after (Dev.markLine_touches ..) (.mono (Dev.synthPath_touches ‹_›)))
    · exact .after (Dev.leave_touches ..) (.mono (Dev.countSkip_touches ..)))

theorem Dev.linePoisoned_touches (d : Dev) (a : Access) (v : Ctr) : Touches [.accs, .svc, .ports, .fabRest, .stl, .frs, .can,
    .med, .decided] d (Dev.linePoisoned d a v) := by
  unfold Dev.linePoisoned
  exact .ite (.mono (Dev.endPoisoned_touches ..)) (by
    split
    · exact .ite (.mono (Dev.endRetired_touches ..)) (.mono (Dev.advance_touches ..))
    · exact .ite (.mono (Dev.endRetired_touches ..)) (.mono (Dev.advance_touches ..))
    · exact .mono (Dev.endPoisoned_touches ..))

theorem Dev.counterless_touches (d : Dev) (a : Access) : Touches [.ports, .accs, .fabRest, .stl, .svc, .med, .decided] d
    (Dev.counterless d a) := by
  unfold Dev.counterless
  exact .ite (.mono (Dev.endMarked_touches ..)) (.ite (.mono (Dev.endRetired_touches ..)) (by
    split
    · exact .mono (Dev.readData_touches ..)
    · exact .mono (Dev.updAcc_any ..)
    · exact .ite (.mono (Dev.updAcc_any ..)) (.mono (Dev.readData_touches ..))
    · exact .ite (.mono (Dev.updAcc_any ..)) (.mono (Dev.readData_touches ..))
    · exact .ite (.mono (Dev.readData_touches ..)) (.mono (Dev.leave_touches ..))
    · exact .mono (Dev.readData_touches ..)
    · exact .mono (Dev.updAcc_any ..)
    · exact .mono (Dev.updAcc_any ..)
    · exact .mono (Dev.leave_touches ..)))

theorem Dev.slotKnown_touches (d : Dev) (a : Access) (level : Nat) (v : Ctr) : Touches [.accs, .svc, .ports, .fabRest, .stl,
    .frs, .can, .med, .sessions, .decided] d (Dev.slotKnown d a level v) := by
  unfold Dev.slotKnown
  exact .ite (.ite (.mono (Dev.linePoisoned_touches ..)) (.mono (Dev.endPoisoned_touches ..))) (.mono (Dev.counted_touches ..))

theorem Dev.countProbe_touches (d : Dev) (a : Access) (c : CStep) : Touches [.can] d (Dev.countProbe d a c) := by
  unfold Dev.countProbe
  exact .ite (.refl _) (by
    split
    · exact .mono (Touches.setCan)
    · exact .mono (Touches.setCan)
    · exact .mono (Touches.setCan)
    · exact .refl _
    · exact .refl _)

theorem Dev.probed_touches (d : Dev) (a : Access) : Touches [.accs, .can, .frs, .med, .svc, .ports, .fabRest, .stl, .sessions,
    .decided] d (Dev.probed d a) := by
  unfold Dev.probed
  dsimp only
  split
  · exact .after (Dev.updAcc_any ..) (.after (Dev.countProbe_touches ..) (.mono (Dev.countAnchor_touches ..)))
  · exact .after (Dev.toLadder_touches ..) (.after (Dev.updAcc_any ..) (.after (Dev.countProbe_touches ..) (.mono
      (Dev.countAnchor_touches ..))))
  · exact .after (Dev.endPoisoned_touches ..) (.after (Dev.updAcc_any ..) (.after (Dev.countProbe_touches ..) (.mono
      (Dev.countAnchor_touches ..))))
  · exact .after (Dev.linePoisoned_touches ..) (.after (Dev.updAcc_any ..) (.after (Dev.countProbe_touches ..) (.mono
      (Dev.countAnchor_touches ..))))
  · exact .after (Dev.counted_touches ..) (.after (Dev.updAcc_any ..) (.after (Dev.countProbe_touches ..) (.mono
      (Dev.countAnchor_touches ..))))

theorem Dev.proceed_touches (d : Dev) (id : Nat) : Touches [.ports, .accs, .fabRest, .stl, .svc, .med, .can, .frs, .sessions,
    .decided] d (Dev.proceed d id) := by
  unfold Dev.proceed
  split
  · exact .refl _
  · exact .ite (.mono (Dev.counterless_touches ..)) (.ite (.mono (Dev.updAcc_any ..)) (Dev.walking_touches (fun _ => .mono
      (Dev.probed_touches ..)) (.refl _)))

theorem Dev.pinFill_touches (d : Dev) (x : NodeId) : Touches [.can] d (Dev.pinFill d x) := by
  unfold Dev.pinFill
  split
  · exact .mono (Dev.setLine_touches ..)
  · exact .refl _

theorem Dev.pinNode_touches {d : Dev} {x : NodeId} {ctr : List Ctr} {mac : BitVec 64} {e : Dev} (h : d.pinNode x ctr mac = some
    e) :
    Touches [.can] d e := by
  obtain ⟨k, _, rfl⟩ := Option.map_eq_some_iff.mp h
  split
  · exact (.after (Dev.sweepWays_touches ..) ((.after (Dev.dropLine_touches ..) ((.after (Dev.setLine_touches ..) ((.after
      (Dev.countWay_touches ..) (Dev.countWay_touches ..))))))))
  · exact (.after (Dev.setLine_touches ..) (Dev.countWay_touches ..))

theorem Dev.maintEnd_touches (d : Dev) (m : Maint) (c : Cpl) : Touches [.queues, .hdma, .can] d (Dev.maintEnd d m c) := by
  unfold Dev.maintEnd
  exact .after (Dev.finish_touches ..) (.mono (Touches.setCan))

theorem Dev.maintPhase_touches (d : Dev) (m : Maint) (p : Nat) : Touches [.can] d (Dev.maintPhase d m p) := by
  unfold Dev.maintPhase
  exact .mono (Touches.setCan)

theorem Dev.wantLine_touches (d : Dev) (k : Nat) : Touches [.can] d (Dev.wantLine d k) := by
  unfold Dev.wantLine
  exact .mono (Dev.updLine_touches ..)

theorem Dev.tryFlush_touches (d : Dev) (m : Maint) : Touches [.queues, .hdma, .can] d (Dev.tryFlush d m) := by
  unfold Dev.tryFlush
  split
  · exact .mono (Dev.maintEnd_touches ..)
  · exact .ite (.mono (Dev.maintEnd_touches ..)) (.ite (.mono (Dev.maintEnd_touches ..)) (.ite (.refl _) (.ite (.mono
      (Dev.maintPhase_touches ..)) (.after (Dev.wantLine_touches ..) (.mono (Dev.maintPhase_touches ..))))))

theorem Dev.tryInvalidate_touches (d : Dev) (m : Maint) : Touches [.queues, .hdma, .can] d (Dev.tryInvalidate d m) := by
  unfold Dev.tryInvalidate
  split
  · exact .mono (Dev.maintEnd_touches ..)
  · exact .ite (.mono (Dev.maintEnd_touches ..)) (.ite (.mono (Dev.maintEnd_touches ..)) (.after (Dev.maintEnd_touches ..)
      (.after (Dev.drainEnd_touches ..) (.after (Dev.sweepWays_touches ..) (.mono (Dev.dropLine_touches ..))))))

theorem Dev.tryFlushInv_touches (d : Dev) (m : Maint) (unpin : Bool) : Touches [.queues, .hdma, .can] d (Dev.tryFlushInv d m
    unpin) := by
  unfold Dev.tryFlushInv
  split
  · exact .mono (Dev.maintEnd_touches ..)
  · exact .ite (.mono (Dev.maintEnd_touches ..)) (.ite (.mono (Dev.maintEnd_touches ..)) (.ite (.mono (Dev.maintEnd_touches ..))
      (.ite (.after (Dev.wantLine_touches ..) (.mono (Dev.maintPhase_touches ..))) (.after (Dev.maintEnd_touches ..) (.after
      (Dev.drainEnd_touches ..) (.after (Dev.sweepWays_touches ..) (.mono (Dev.dropLine_touches ..))))))))

theorem Dev.pinHere_touches (d : Dev) (m : Maint) (ctr : List Ctr) (mac : BitVec 64) : Touches [.queues, .hdma, .can] d
    (Dev.pinHere d m ctr mac) := by
  unfold Dev.pinHere
  exact .ite (.mono (Dev.maintEnd_touches ..)) (by
    split
    · exact .ite (.mono (Dev.maintEnd_touches ..)) (by
        split
        · exact .after (Dev.maintEnd_touches ..) (.mono (Dev.pinNode_touches ‹_›))
        · exact .mono (Dev.maintEnd_touches ..))
    · exact by
        split
        · exact .after (Dev.maintEnd_touches ..) (.mono (Dev.pinNode_touches ‹_›))
        · exact .mono (Dev.maintEnd_touches ..))

theorem Dev.tryPin_touches (d : Dev) (m : Maint) : Touches [.queues, .hdma, .can, .frs, .med] d (Dev.tryPin d m) := by
  unfold Dev.tryPin
  exact .ite (.refl _) (.ite (.mono (Dev.maintEnd_touches ..)) (.ite (.mono (Dev.maintEnd_touches ..)) (.ite (.mono
    (Dev.maintEnd_touches ..)) (.ite (.mono (Dev.pinHere_touches ..)) (.ite (.mono (Dev.maintEnd_touches ..)) (.ite (.mono
    (Dev.maintEnd_touches ..)) (.ite (.after (Dev.maintEnd_touches ..) (.mono (Dev.countAnchor_touches ..))) (.ite (.after
    (Dev.pinHere_touches ..) (.mono (Dev.countAnchor_touches ..))) (.after (Dev.startLadder_touches ..) (.after
    (Dev.pinFill_touches ..) (.after (Dev.maintPhase_touches ..) (.mono (Dev.countAnchor_touches ..)))))))))))))

theorem Dev.readLine_touches (d : Dev) (k : Nat) : Touches [] d (Dev.readLine d k).1 := by
  unfold Dev.readLine
  exact .ite1 (.refl _) (.mono (Touches.raises ..))

theorem Dev.maintRead_touches (d : Dev) (m : Maint) (rbuf : Nat) : Touches [.queues, .hdma, .can, .frs, .accs, .med] d
    (d.maintRead m rbuf) := by
  unfold Dev.maintRead
  refine .ite (.after (Dev.maintEnd_touches ..) (.mono (Dev.raise_touches ..))) ?_
  extract_lets d' r e
  have h : Touches [.queues, .hdma, .can, .frs, .accs, .med] d e := by
    simp only [e]
    split
    · exact .after (Dev.dataError_touches ..) (.mono (Dev.countWay_touches ..))
    · exact .mono (Dev.countWay_touches ..)
  clear_value e
  exact .ite (.after (Dev.maintEnd_touches ..) h) (.after (Dev.finishWith_touches ..)
    (.after (Touches.setCan (d := { e with free := r.1.free })) (.after (Touches.raises e e.raised r.1.free) h)))

theorem Dev.maintZero_touches (d : Dev) (m : Maint) : Touches [.queues, .hdma, .can] d (Dev.maintZero d m) := by
  unfold Dev.maintZero
  exact .ite (.mono (Dev.maintEnd_touches ..)) (.after (Dev.maintEnd_touches ..) (.after (Dev.setLine_touches ..) (.mono
    (Dev.countWay_touches ..))))

theorem Dev.tryMaint_touches (d : Dev) (m : Maint) : Touches [.queues, .hdma, .can, .frs, .med, .accs] d (Dev.tryMaint d
    m) := by
  unfold Dev.tryMaint
  exact .ite (.refl _) (by
    split
    · exact .mono (Dev.tryFlush_touches ..)
    · exact .mono (Dev.tryInvalidate_touches ..)
    · exact .mono (Dev.tryFlushInv_touches ..)
    · exact .mono (Dev.tryPin_touches ..)
    · exact .mono (Dev.tryFlushInv_touches ..)
    · exact by
        split
        · exact .mono (Dev.maintRead_touches ..)
        · exact .refl _
    · exact .mono (Dev.maintZero_touches ..))

theorem pumpMaintList_touches (ms : List Maint) (busy : List NodeId) (d : Dev) : Touches [.queues, .hdma, .can, .frs, .accs,
    .med] d (pumpMaintList ms busy d) := by
  induction ms generalizing busy d with
  | nil => exact .refl _
  | cons m r ih =>
    unfold pumpMaintList
    exact .ite (ih ..) (.after (ih ..) (.mono (Dev.tryMaint_touches ..)))

theorem Dev.pumpMaint_touches (d : Dev) : Touches [.queues, .hdma, .can, .frs, .accs, .med] d (Dev.pumpMaint d) := by
  unfold Dev.pumpMaint
  exact .mono (pumpMaintList_touches ..)

theorem Dev.maintWritten_touches (d : Dev) (x : NodeId) : Touches [.queues, .hdma, .can, .frs, .accs, .med] d (Dev.maintWritten
    d x) := by
  unfold Dev.maintWritten
  exact .after (Dev.pumpMaint_touches ..) (.forAllAfter (fun _ _ => by
    split
    · exact .mono (Dev.maintEnd_touches ..)
    · exact .ite (.after (Dev.wantLine_touches ..) (.mono (Dev.maintPhase_touches ..))) (.mono (Dev.maintEnd_touches ..)))
        (.refl _))

theorem Dev.maintCommand_touches (d : Dev) (q : Nat) (pos : QPos) (op : Nat) (err : Option Bool) : Touches [.queues, .hdma,
    .can, .frs, .accs, .med] d (Dev.maintCommand d q pos op err) := by
  unfold Dev.maintCommand
  split
  · exact .refl _
  · exact .ite (.refl _) (Dev.command_touches (fun _ _ => .after (Dev.pumpMaint_touches ..) (.after (Touches.setCan) (.mono
      (Dev.running_touches ..)))) (.refl _))

theorem Dev.startDrain_touches (d : Dev) : Touches [.can] d (Dev.startDrain d) := by
  unfold Dev.startDrain
  exact .after (Dev.drainEnd_touches ..) (.after (Dev.sweepWays_touches ..) (.ite (.after (Dev.raise_touches ..) (.after
    (Touches.setCan) (.forAllAfter (fun _ _ => .ite (.ite (.refl _) (.mono (Dev.wantLine_touches ..))) (.mono
    (Dev.dropLine_touches ..))) (.after (Dev.dropFills_touches ..) (.mono (Touches.setCan)))))) (.forAllAfter (fun _ _ => .ite
    (.ite (.refl _) (.mono (Dev.wantLine_touches ..))) (.mono (Dev.dropLine_touches ..))) (.after (Dev.dropFills_touches ..)
    (.mono (Touches.setCan))))))

theorem Dev.endDrain_touches (d : Dev) : Touches [.can] d d.endDrain := by
  unfold Dev.endDrain
  exact Touches.setCan (lines := mapKeys_rising fun p => by split <;> rfl)

theorem Dev.updLane_touches (d : Dev) (i : Nat) (f : Lane → Lane) : Touches [.lan] d (Dev.updLane d i f) := by
  unfold Dev.updLane
  exact .mono (Touches.setLan (lanes := fun h => put_rising _ _ h))

theorem Dev.lanesChange_touches {as bs : List Aspect} {d e : Dev} {f : Dev → Dev} (hf : ∀ x, Touches as x (f x) bs)
    (k : Touches as d e bs) : Touches as d (e.lanesChange f) bs := by
  have hs : ∀ l : List Aspect, Touches.sub [] l = true := fun _ => rfl
  unfold Dev.lanesChange
  have hx := k.trans (hf e)
  have hy := Touches.ite (c := (decide (0 < e.activeLanes) && decide ((f e).activeLanes = 0)) = true)
    ((.after (Dev.raise_touches (f e) bLan 110) hx (by simp [hs]))) hx
  exact .ite ((.after (Dev.raise_touches ..) hy (by simp [hs]))) hy

theorem Dev.drawAudit_touches (d : Dev) (i : Nat) : Touches [.lan] d (Dev.drawAudit d i) := by
  unfold Dev.drawAudit
  exact .after (Touches.raises ..) (.mono (Dev.updLane_touches ..))

theorem Dev.activate_touches (d : Dev) (i : Nat) : Touches [.lan] d (Dev.activate d i) := by
  unfold Dev.activate
  exact .after (Dev.drawAudit_touches ..) (.mono (Dev.updLane_touches ..))

theorem Dev.wake_touches (d : Dev) (k : Nat) : Touches [.mgt] d (Dev.wake d k) := by
  unfold Dev.wake
  exact Touches.setIdle

theorem Dev.becomeAuditor_touches (d : Dev) (j : Nat) : Touches [.mgt, .lan] d (Dev.becomeAuditor d j) := by
  unfold Dev.becomeAuditor
  exact .after (Dev.wake_touches ..) (.mono (Dev.updLane_touches ..))

theorem Dev.newAuditor_touches (d : Dev) (i : Nat) : Touches [.mgt, .lan] d (Dev.newAuditor d i) := by
  unfold Dev.newAuditor
  split
  · exact .mono (Dev.becomeAuditor_touches ..)
  · exact .refl _

theorem Dev.formerState_touches (d : Dev) (j : Nat) (st : LaneSt) : Touches [.lan, .mgt] d (Dev.formerState d j st) := by
  unfold Dev.formerState
  exact .ite (.mono (Dev.updLane_touches ..)) (.ite (.mono (Dev.becomeAuditor_touches ..)) (.mono (Dev.updLane_touches ..)))

theorem Dev.standDown_touches (n : Nat) (p : Nat × LaneSt) (d : Dev) : Touches [.lan, .mgt] d (Dev.standDown n p d) := by
  induction n generalizing p d with
  | zero => exact .refl _
  | succ n ih =>
    obtain ⟨j, st⟩ := p
    unfold Dev.standDown
    split
    · exact Dev.formerState_touches ..
    · exact (.mono (Dev.updLane_touches ..))
    · dsimp only
      split
      · exact (.after (ih ..) (.mono (Dev.updLane_touches ..)))
      · exact (.mono (Dev.updLane_touches ..))
    · exact .refl _

theorem Dev.passOn_touches (d : Dev) (i : Nat) (p : Option (Nat × LaneSt)) : Touches [.lan] d (Dev.passOn d i p) := by
  unfold Dev.passOn
  exact .mono (Touches.setLan (lanes := fun h => (map_rising _ h).filter _))

theorem Dev.endLaneWindows_touches (d : Dev) (i : Nat) : Touches [.accs, .sessions, .ports, .decided] d (Dev.endLaneWindows d
    i) := by
  unfold Dev.endLaneWindows
  exact .forAllAfter (fun _ _ => .ite (.after (Dev.effects_touches ..) (.forAllAfter (fun _ _ => .mono
    (Dev.endReadWindow_touches ..)) (.ite (.after (Dev.endWindow_touches ..) (.mono (Dev.updSession_touches ..))) (.after
    (Dev.flushForced_touches ..) (.mono (Dev.updSession_touches ..)))))) (.refl _)) (.refl _)

theorem Dev.clearKeys_touches (d : Dev) (i : Nat) : Touches [.lan, .accs] d (Dev.clearKeys d i) := by
  unfold Dev.clearKeys
  exact .after (Dev.updLane_touches ..) (.mono (Touches.mapAccs))

theorem Dev.takeOut_touches (d : Dev) (i : Nat) (st : LaneSt) (squall : Bool) : Touches [.lan, .accs, .sessions, .ports,
    .decided] d (Dev.takeOut d i st squall) := by
  unfold Dev.takeOut
  exact .ite (.after (Dev.updLane_touches ..) (.mono (Dev.clearKeys_touches ..))) (.after (Dev.endLaneWindows_touches ..)
    (.after (Dev.updLane_touches ..) (.mono (Dev.clearKeys_touches ..))))

theorem Dev.startKat_touches (d : Dev) (i : Nat) : Touches [.mgt, .lan] d (Dev.startKat d i) := by
  unfold Dev.startKat
  exact .after (Dev.wake_touches ..) (.mono (Dev.updLane_touches ..))

theorem Dev.tapKatLost_touches (d : Dev) (i : Nat) : Touches [.tap] d (d.tapKatLost i) := .ite Touches.setTap (.refl _)

theorem Dev.replaced_touches (d : Dev) (i : Nat) (l : Lane) : Touches [.mgt, .lan] d (Dev.replaced d i l) := by
  unfold Dev.replaced
  exact .ite (.mono (Dev.newAuditor_touches ..)) (.ite (.refl _) (.ite (.mono (Dev.passOn_touches ..)) (by
    split
    · exact .after (Dev.activate_touches ..) (.mono (Dev.passOn_touches ..))
    · exact .ite (.after (Dev.raise_touches ..) (.mono (Dev.passOn_touches ..))) (.mono (Dev.passOn_touches ..)))))

theorem Dev.retireLane_touches (d : Dev) (i : Nat) (squall : Bool) : Touches [.mgt, .lan, .accs, .sessions, .ports, .tap,
    .decided] d (Dev.retireLane d i squall) := by
  unfold Dev.retireLane
  exact Dev.lanesChange_touches (fun _ => .after (Dev.replaced_touches ..) (.after (Dev.updLane_touches ..) (.after
    (Dev.takeOut_touches ..) (.mono (Dev.tapKatLost_touches ..))))) (.refl _)

theorem Dev.quarantineLane_touches (d : Dev) (i : Nat) (squall : Bool) : Touches [.mgt, .lan, .accs, .sessions, .ports,
    .decided] d (Dev.quarantineLane d i squall) := by
  unfold Dev.quarantineLane
  exact Dev.lanesChange_touches (fun _ => .ite (.after (Dev.newAuditor_touches ..) (.after (Dev.wake_touches ..) (.after
    (Dev.updLane_touches ..) (.after (Dev.startKat_touches ..) (.mono (Dev.takeOut_touches ..)))))) (.ite (.after
    (Dev.wake_touches ..) (.after (Dev.updLane_touches ..) (.after (Dev.startKat_touches ..) (.mono (Dev.takeOut_touches ..)))))
    (by
    split
    · exact .after (Dev.activate_touches ..) (.after (Dev.updLane_touches ..) (.after (Dev.wake_touches ..) (.after
        (Dev.updLane_touches ..) (.after (Dev.startKat_touches ..) (.mono (Dev.takeOut_touches ..))))))
    · exact .after (Dev.wake_touches ..) (.after (Dev.updLane_touches ..) (.after (Dev.startKat_touches ..) (.mono
        (Dev.takeOut_touches ..))))))) (.refl _)

theorem Dev.laneFailed_touches (d : Dev) (i : Nat) (squall : Bool) : Touches [.mgt, .lan, .accs, .sessions, .ports, .tap,
    .decided] d (Dev.laneFailed d i squall) := by
  unfold Dev.laneFailed
  exact .ite (.after (Dev.retireLane_touches ..) (.mono (Dev.updLane_touches ..))) (.mono (Dev.quarantineLane_touches ..))

theorem Dev.quarantinePassed_touches (d : Dev) (i : Nat) : Touches [.lan, .mgt] d (Dev.quarantinePassed d i) := by
  unfold Dev.quarantinePassed
  exact Dev.lanesChange_touches (fun _ => .ite (.mono (Dev.updLane_touches ..)) (.after (Dev.updLane_touches ..) (by
    split
    · exact .mono (Dev.standDown_touches ..)
    · exact .refl _))) (.refl _)

theorem Dev.tapKatDone_touches (d : Dev) (i : Nat) (pass : Bool) : Touches [.tap] d (Dev.tapKatDone d i pass) := by
  unfold Dev.tapKatDone
  exact .ite (.mono (Touches.setTap)) (.refl _)

theorem Dev.samplePass_touches (d : Dev) (x : Nat) (counts : Bool) : Touches [.lan] d (Dev.samplePass d x counts).1 := by
  unfold Dev.samplePass
  exact .ite1 (.refl _) (.ite1 (.refl _) (.ite1 (.mono (Dev.drawAudit_touches ..)) (.mono (Dev.updLane_touches ..))))

theorem Dev.loadKeys_touches (d : Dev) (x : Nat) (k : PassKeys) : Touches [.lan] d (Dev.loadKeys d x k) := by
  unfold Dev.loadKeys
  exact .mono (Dev.updLane_touches ..)

theorem Dev.withAuditor_touches (d : Dev) (x : Nat) : Touches [.mgt, .lan] d (Dev.withAuditor d x) := by
  unfold Dev.withAuditor
  exact .ite (.refl _) (.mono (Dev.newAuditor_touches ..))

theorem Dev.faulty_touches (d : Dev) (i : Nat) : Touches [.mgt, .lan, .accs, .sessions, .ports, .tap, .decided] d (Dev.faulty d
    i) := by
  unfold Dev.faulty
  exact .after (Dev.laneFailed_touches ..) (.after (Dev.raise_touches ..) (.after (Dev.updLane_touches ..) (.mono
    (Touches.setLan))))

theorem Dev.auditPass_touches (d : Dev) (x : Nat) (k : PassKeys) (counts : Bool) (a : Audit) : Touches [.lan, .mgt, .accs,
    .sessions, .ports, .tap, .decided] d (Dev.auditPass d x k counts a).1 := by
  unfold Dev.auditPass
  exact .ite1 (.mono (Dev.samplePass_touches ..)) (by
    split
    · exact .mono (Dev.samplePass_touches ..)
    · exact .ite1 (.after (Touches.setLan) (.after (Dev.wake_touches ..) (.after (Dev.loadKeys_touches ..) (.mono
        (Dev.samplePass_touches ..))))) (by
        split
        · exact .after (Dev.raise_touches ..) (.after (Touches.setLan) (.after (Touches.setLan) (.after (Dev.wake_touches ..)
            (.after (Dev.loadKeys_touches ..) (.mono (Dev.samplePass_touches ..))))))
        · exact by
            dsimp only
            split
            · exact .after (Dev.faulty_touches ..) (.after (Dev.wake_touches ..) (.after (Dev.loadKeys_touches ..) (.after
                (Touches.setLan) (.after (Dev.wake_touches ..) (.after (Dev.loadKeys_touches ..) (.mono (Dev.samplePass_touches
                ..)))))))
            · exact .after (Dev.faulty_touches ..) (.after (Dev.wake_touches ..) (.after (Dev.loadKeys_touches ..) (.after
                (Touches.setLan) (.after (Dev.wake_touches ..) (.after (Dev.loadKeys_touches ..) (.mono (Dev.samplePass_touches
                ..)))))))
            · exact .after (Dev.raise_touches ..) (.after (Touches.setLan) (.after (Touches.setLan) (.after (Dev.wake_touches
                ..) (.after (Dev.loadKeys_touches ..) (.mono (Dev.samplePass_touches ..))))))))

theorem Dev.deriveAll_touches (d : Dev) : Touches [.key] d (Dev.deriveAll d) := by
  unfold Dev.deriveAll
  exact .mono (Touches.setKey)

theorem Dev.loadLfsrs_touches (d : Dev) (b : Bytes) : Touches [.can] d (Dev.loadLfsrs d b) := by
  unfold Dev.loadLfsrs
  exact .forAllAfter (fun _ _ => .mono (Touches.setCan (lfsr := fun h => put_rising _ _ h))) (.refl _)

theorem Dev.generate_touches (d : Dev) (n : Nat) : Touches [.key] d (d.generate n).2 := Touches.setKey

theorem Dev.drbgFails_touches (d : Dev) : Touches [.key, .can] d (d.drbgFails) :=
  .ite (.mono (Touches.setKey)) ((.after (Touches.setKey) ((.after (Dev.loadLfsrs_touches ..) ((.after (Dev.generate_touches ..)
    (.mono (Touches.setKey))))))))

theorem Dev.noteDue_touches (d : Dev) : Touches [.key, .can] d (Dev.noteDue d) := by
  unfold Dev.noteDue
  exact .ite (.mono (Dev.drbgFails_touches ..)) (.refl _)

theorem Dev.waitDraw_touches (d : Dev) (q : Nat) (pos : QPos) : Touches [.queues, .hdma] d (Dev.waitDraw d q pos) := by
  unfold Dev.waitDraw
  exact .ite (.mono (Dev.finish_touches ..)) (.mono (Dev.updExec_touches ..))

theorem Dev.dropDrawn_touches (d : Dev) (q : Nat) (pos : Nat) : Touches [.key] d (Dev.dropDrawn d q pos) := by
  unfold Dev.dropDrawn
  exact .mono (Touches.setKey)

theorem Dev.keepDrawn_touches (d : Dev) (q : Nat) (pos : Nat) (b : Bytes) : Touches [.key] d (Dev.keepDrawn d q pos b) := by
  unfold Dev.keepDrawn
  exact .after (Touches.setKey) (.mono (Dev.dropDrawn_touches ..))

/-- A draw leaves what a draw changes. -/
theorem Dev.draw_touches {d : Dev} {n : Nat} {secret : Bool} {b : Bytes} {e : Dev} (h : d.draw n secret = .got b e) :
    Touches [.key, .can] d e := by
  unfold Dev.draw at h
  split at h
  · split at h
    · cases h
    · cases h
      exact (.after (Dev.noteDue_touches ..) (.mono (Dev.generate_touches ..)))
  · split at h
    · cases h
    · split at h
      · cases h
        exact (.mono (Dev.generate_touches ..))
      · cases h
  · cases h

theorem Dev.drawKeys_touches (q pos n : Nat) (d : Dev) : Touches [.key, .can] d (Dev.drawKeys q pos n d).1 := by
  induction n generalizing d with
  | zero => exact (.mono (Dev.dropDrawn_touches ..))
  | succ n ih =>
    unfold Dev.drawKeys
    split
    · exact (.after (ih _) ((.after (Dev.keepDrawn_touches ..) ((.after (Dev.draw_touches ‹_›) (Dev.noteDue_touches ..))))))
    · exact (.after (Dev.dropDrawn_touches ..) (Dev.noteDue_touches ..))
    · exact (Dev.noteDue_touches ..)

theorem Dev.seedLanes_touches (d : Dev) (ws : List Word32) : Touches [.lan] d (Dev.seedLanes d ws) := by
  unfold Dev.seedLanes
  exact .forAllAfter (fun _ _ => .mono (Dev.updLane_touches ..)) (.refl _)

theorem Dev.fallbackSeeds_touches (d : Dev) : Touches [.lan, .can] d (Dev.fallbackSeeds d) := by
  unfold Dev.fallbackSeeds
  exact .after (Dev.seedLanes_touches ..) (.mono (Dev.loadLfsrs_touches ..))

theorem Dev.reseedLfsrs_touches (d : Dev) : Touches [.key, .can] d (d.reseedLfsrs) := by
  unfold Dev.reseedLfsrs
  split
  · exact (.after (Touches.setKey) ((.after (Dev.loadLfsrs_touches ..) ((.after (Dev.draw_touches ‹_›) (Dev.noteDue_touches
      ..))))))
  · exact (.mono (Touches.setKey))

theorem Dev.retryLfsrs_touches (d : Dev) : Touches [.key, .can] d (Dev.retryLfsrs d) := by
  unfold Dev.retryLfsrs
  exact .ite (.mono (Dev.reseedLfsrs_touches ..)) (.refl _)

theorem Dev.setEnt_touches (d : Dev) (n : Nat) (e : Ent) : Touches [.key] d (Dev.setEnt d n e) := by
  unfold Dev.setEnt
  exact .mono (Touches.setKey (ents := fun h => put_rising _ _ h))

theorem Dev.sourceLost_touches (d : Dev) : Touches [.lan, .can, .key] d (Dev.sourceLost d) := by
  unfold Dev.sourceLost
  exact .ite (.after (Dev.fallbackSeeds_touches ..) (.after (Touches.setKey) (.mono (Dev.noteDue_touches ..)))) (.mono
    (Dev.noteDue_touches ..))

theorem Dev.sourceFails_touches (d : Dev) (n : Nat) (rct : Bool) (apt : Bool) : Touches [.lan, .can, .key] d (Dev.sourceFails d
    n rct apt) := by
  unfold Dev.sourceFails
  exact .after (Dev.sourceLost_touches ..) (.mono (Dev.setEnt_touches ..))

theorem Dev.startupDone_touches (d : Dev) (n : Nat) (rct : Bool) (apt : Bool) : Touches [.lan, .can, .key] d (Dev.startupDone d
    n rct apt) := by
  unfold Dev.startupDone
  exact .ite (.refl _) (.ite (.mono (Dev.sourceFails_touches ..)) (.ite (.after (Touches.setKey) (.after (Dev.raise_touches ..)
    (.mono (Dev.setEnt_touches ..)))) (.after (Dev.raise_touches ..) (.mono (Dev.setEnt_touches ..)))))

theorem Dev.collected_touches (d : Dev) (samples : Bytes) : Touches [.lan, .can, .key] d (Dev.collected d samples).1 := by
  unfold Dev.collected
  exact .forAllAfter (fun _ _ => .mono (Dev.sourceFails_touches ..)) (.refl _)

theorem Dev.drbgReady_touches (d : Dev) (before : DrbgSt) : Touches [] d (Dev.drbgReady d before) := by
  unfold Dev.drbgReady
  exact .ite (.mono (Dev.raise_touches ..)) (.refl _)

theorem Dev.unwrapEnds_touches (d : Dev) (c : Cpl) (counted : Bool) : Touches [.key] d (Dev.unwrapEnds d c counted).1 := by
  unfold Dev.unwrapEnds
  exact .ite (.after (Dev.raise_touches ..) (.mono (Touches.setKey))) (.refl _)

theorem Dev.keyInstall_touches (d : Dev) (i : Nat) (j : Nat) (kind : Nat) (o : Nat) (blob : Bytes) : Touches [.key] d
    (Dev.keyInstall d i j kind o blob).1 := by
  unfold Dev.keyInstall
  split
  · exact .refl _
  · exact by
      split
      · exact .mono (Dev.unwrapEnds_touches ..)
      · exact .ite1 (.refl _) (.mono (Touches.setKey (slots := fun h => put_rising _ _ h)))

theorem keyElem_touches (b : Bytes) (d : Dev) : Touches [.key] d (keyElem b d).1 := by
  unfold keyElem
  exact .ite1 (.refl _) (by
    split
    · exact .refl _
    · exact .mono (Dev.keyInstall_touches ..))

theorem Dev.keyArrives_touches (d : Dev) (q : Nat) (pos : QPos) : Touches [.key] d (Dev.keyArrives d q pos) := by
  unfold Dev.keyArrives
  exact .mono (Touches.setKey)

theorem Dev.keyCommand_touches {as bs : List Aspect} {d e : Dev} {q : Nat} {pos : QPos} {op : Nat} {derives : Bool}
    {act : Exec → Dev → Dev} (ha : ∀ y x, Touches as x (act y x) bs) (k : Touches as d e bs)
    (hs : (Touches.sub [.queues, .hdma, .key] as && Touches.sub [] (as ++ bs)) = true := by rfl) : Touches as d (e.keyCommand q
      pos op derives act) bs := by
  have hk : (Touches.sub [.key] as && Touches.sub [] (as ++ bs)) = true := by simp_all [Touches.sub]
  have hq : (Touches.sub [.queues, .hdma] as && Touches.sub [] (as ++ bs)) = true := by simp_all [Touches.sub]
  unfold Dev.keyCommand
  have ka := Touches.after (Dev.keyArrives_touches e q pos) k hk
  exact .ite k (.ite ka (Dev.command_touches (fun y x => .ite (.mono (Dev.finish_touches ..) hq) (ha y x)) ka hq))

theorem Dev.generated_touches (d : Dev) (q : Nat) (pos : QPos) (x : Exec) (failed : Bool) : Touches [.key] d (Dev.generated d q
    pos x failed) := by
  unfold Dev.generated
  exact .ite (.mono (Dev.dropDrawn_touches ..)) (.after (Touches.setKey (slots := fun h => put_rising _ _ h)) (.mono
    (Dev.dropDrawn_touches ..)))

theorem Dev.overwrite_touches (d : Dev) (t : KTarget) : Touches [.key, .lan, .accs] d (d.overwrite t) := by
  have hl (f : Lane → Lane) (e : Dev) (k : Touches [.key, .lan, .accs] d e) :
      Touches [.key, .lan, .accs] d (forAll (List.range Config.lanes) (fun i e => e.updLane i f) e) :=
    .forAllAfter (fun _ _ => (.mono (Dev.updLane_touches ..))) k
  cases t with
  | slot i => exact hl _ _ (.mono (Touches.setKey (slots := fun h => put_rising _ _ h)))
  | reg i =>
    exact hl _ _ ((.after (Touches.mapAccs (d := { d with key.regs := d.key.regs.put i (some 0) })) (.mono (Touches.setKey (regs
      := fun h => put_rising _ _ h)))))
  | kek i => exact (.mono (Touches.setKey (keks := fun h => put_rising _ _ h)))

theorem Dev.emptyKey_touches (d : Dev) (x : KTarget) : Touches [.key] d (Dev.emptyKey d x) := by
  unfold Dev.emptyKey
  split
  · exact .mono (Touches.setKey (slots := fun h => put_rising _ _ h))
  · exact .mono (Touches.setKey (regs := fun h => put_rising _ _ h))
  · exact .mono (Touches.setKey (keks := fun h => put_rising _ _ h))

theorem Dev.queueError_touches (d : Dev) (q : Nat) (cause : Nat) (pos : QPos) : Touches [.hdma, .queues] d (Dev.queueError d q
    cause pos) := by
  unfold Dev.queueError
  exact .ite (.refl _) (.after (Dev.raise_touches ..) (.after (Dev.dropReads_touches ..) (.mono (Dev.setQueue_touches ..))))

theorem Dev.setVec_touches (d : Dev) (v : Nat) (x : Vec) : Touches [.qmg] d (Dev.setVec d v x) := by
  unfold Dev.setVec
  exact .mono (Touches.setQmgRegs (vecs := fun h => put_rising _ _ h))

theorem Dev.noteDrained_touches (c d : Dev) : Touches [] d (c.noteDrained d) := by
  unfold Dev.noteDrained
  exact .ite (Dev.raise_touches ..) (.refl _)

theorem Dev.sendMsg_touches (d : Dev) (v : Nat) : Touches [.hdma, .queues, .qmg] d (Dev.sendMsg d v) := by
  unfold Dev.sendMsg
  exact .after (Dev.hostWrite_touches ..) (.after (Dev.setVec_touches ..) (.ite (.mono (Touches.setQmgRegs)) (.refl _)))

theorem Dev.fallDue_touches (d : Dev) (v : Nat) : Touches [.hdma, .queues, .qmg] d (Dev.fallDue d v) := by
  unfold Dev.fallDue
  exact .ite (.ite (.mono (Dev.sendMsg_touches ..)) (.refl _)) (.after (Dev.noteDrained_touches ..) (.after (Touches.setQmgRegs)
    (.mono (Dev.setVec_touches ..))))

theorem Dev.sendPending_touches (d : Dev) : Touches [.hdma, .queues, .qmg] d (Dev.sendPending d) := by
  unfold Dev.sendPending
  exact .forAllAfter (fun _ _ => .ite (.mono (Dev.sendMsg_touches ..)) (.refl _)) (.refl _)

theorem Dev.pumpDrains_touches (d : Dev) : Touches [.hdma, .queues, .qmg] d (Dev.pumpDrains d) := by
  unfold Dev.pumpDrains
  exact .after (Dev.noteDrained_touches ..) (.forAllAfter (fun _ _ => .mono (Dev.fallDue_touches ..)) (.ite (.refl _) (.mono
    (Touches.setQmgRegs))))

theorem Dev.pumpVecs_touches (d : Dev) : Touches [.hdma, .queues, .qmg] d (Dev.pumpVecs d) := by
  unfold Dev.pumpVecs
  exact .after (Dev.pumpDrains_touches ..) (.after (Dev.sendPending_touches ..) (.mono (Dev.pumpHdma_touches ..)))

theorem Dev.loadVec_touches (d : Dev) (v : Nat) (b : Bytes) : Touches [.qmg] d (Dev.loadVec d v b) := by
  unfold Dev.loadVec
  exact .ite (.mono (Dev.setVec_touches ..)) (.after (Dev.raise_touches ..) (.mono (Dev.setVec_touches ..)))

theorem Dev.fetchMore_touches (d : Dev) (q : Nat) (limit : Nat) : Touches [.hdma, .queues] d (Dev.fetchMore d q limit) := by
  unfold Dev.fetchMore
  exact .ite (.refl _) (.after (Dev.hostRead_touches ..) (.mono (Touches.setHdma)))

theorem Dev.scanStops_touches (d : Dev) (q : Nat) : Touches [.queues] d (Dev.scanStops d q) := by
  unfold Dev.scanStops
  exact .mono (Dev.updQueue_touches ..)

theorem Dev.takeEntries_touches (q : Nat) (scan : Bool) (n : Nat) (pos : QPos) (b : Bytes) (d : Dev) :
    Touches [.hdma, .queues] d (Dev.takeEntries q scan n pos b d) := by
  induction n generalizing pos b d with
  | zero => exact .refl _
  | succ n ih =>
    unfold Dev.takeEntries
    exact .ite ((.after (ih ..) (.mono (Dev.setQueue_touches ..)))) (.ite (.mono (Dev.scanStops_touches ..))
      (Dev.queueError_touches ..))

theorem Dev.entriesArrive_touches (d : Dev) (q : Nat) (pos : QPos) (n : Nat) (scan : Bool) (b : Bytes) (err : Bool) : Touches
    [.hdma, .queues] d (Dev.entriesArrive d q pos n scan b err) := by
  unfold Dev.entriesArrive
  exact .ite (.after (Dev.queueError_touches ..) (.ite (.mono (Dev.raise_touches ..)) (.refl _))) (.ite (.ite (.mono
    (Dev.raise_touches ..)) (.refl _)) (.after (Dev.takeEntries_touches ..) (.ite (.mono (Dev.raise_touches ..)) (.refl _))))

theorem Dev.ringScan_touches (d : Dev) (q : Nat) : Touches [.hdma, .queues] d (Dev.ringScan d q) := by
  unfold Dev.ringScan
  exact .ite (.after (Dev.fetchMore_touches ..) (.mono (Dev.setQueue_touches ..))) (.refl _)

theorem Dev.ringTail_touches (d : Dev) (q : Nat) (t : QPos) : Touches [.queues, .hdma] d (Dev.ringTail d q t) := by
  unfold Dev.ringTail
  exact .ite (.ite (.mono (Dev.setQueue_touches ..)) (.mono (Dev.queueError_touches ..))) (.ite (.mono (Dev.ringScan_touches
    ..)) (.ite (.mono (Dev.setQueue_touches ..)) (.mono (Dev.queueError_touches ..))))

theorem Dev.ringInvalidate_touches (d : Dev) (q : Nat) : Touches [.hdma, .queues] d (Dev.ringInvalidate d q) := by
  unfold Dev.ringInvalidate
  exact .ite (.after (Dev.fetchMore_touches ..) (.after (Dev.dropReads_touches ..) (.mono (Dev.setQueue_touches ..)))) (.refl _)

theorem Dev.ringDrain_touches (d : Dev) : Touches [.hdma, .queues, .qmg] d (Dev.ringDrain d) := by
  unfold Dev.ringDrain
  exact .after (Dev.pumpDrains_touches ..) (.after (Dev.bump_touches ..) (.mono (Touches.setQmgRegs)))

theorem Dev.doorbell_touches {as bs : List Aspect} {d e : Dev} {slot : BitVec 14} {low : BitVec 30} {be : BitVec 8}
    {f : Dev → Dev}
    (hf : ∀ x, Touches as x (f x) bs) (k : Touches as d e bs) : Touches as d (e.doorbell slot low be f) bs := by
  unfold Dev.doorbell
  exact .ite ((.after (Dev.raise_touches ..) k (by rfl))) (k.trans (hf _))

theorem Dev.readInput_touches (d : Dev) (q : Nat) (pos : QPos) : Touches [.hdma, .queues] d (Dev.readInput d q pos) := by
  unfold Dev.readInput
  split
  · exact .refl _
  · exact by
      dsimp only
      split
      · exact .mono (Dev.hostRead_touches ..)
      · exact by
          split
          · exact .refl _
          · exact .mono (Dev.hostRead_touches ..)
      · exact .refl _

theorem Dev.inputReady_touches (d : Dev) (q : Nat) (pos : QPos) : Touches [.queues] d (Dev.inputReady d q pos) := by
  unfold Dev.inputReady
  exact .mono (Dev.updExec_touches ..)

theorem Dev.readBuffer_touches (d : Dev) (q : Nat) (pos : QPos) (n : Nat) : Touches [.hdma, .queues] d (Dev.readBuffer d q pos
    n) := by
  unfold Dev.readBuffer
  exact .after (Dev.readInput_touches ..) (.mono (Dev.updExec_touches ..))

theorem Dev.tableDone_touches (d : Dev) (q : Nat) (pos : QPos) (x : Exec) : Touches [.queues, .hdma] d (Dev.tableDone d q pos
    x) := by
  unfold Dev.tableDone
  split
  · exact .mono (Dev.finish_touches ..)
  · exact .ite (.mono (Dev.finish_touches ..)) (.after (Dev.readInput_touches ..) (.mono (Dev.updExec_touches ..)))
  · exact .ite (.after (Dev.inputReady_touches ..) (.mono (Dev.updExec_touches ..))) (.after (Dev.readBuffer_touches ..) (.mono
      (Dev.updExec_touches ..)))

theorem Dev.inputArrives_touches (d : Dev) (q : Nat) (pos : QPos) (b : Bytes) (err : Bool) : Touches [.queues, .hdma] d
    (Dev.inputArrives d q pos b err) := by
  unfold Dev.inputArrives
  dsimp only
  split
  · exact .ite (.mono (Dev.raise_touches ..)) (.refl _)
  · exact .ite (.after (Dev.finish_touches ..) (.ite (.mono (Dev.raise_touches ..)) (.refl _))) (.ite (.after
      (Dev.readInput_touches ..) (.after (Dev.updExec_touches ..) (.ite (.mono (Dev.raise_touches ..)) (.refl _)))) (.ite
      (.after (Dev.tableDone_touches ..) (.after (Dev.updExec_touches ..) (.ite (.mono (Dev.raise_touches ..)) (.refl _))))
      (.after (Dev.inputReady_touches ..) (.after (Dev.updExec_touches ..) (.ite (.mono (Dev.raise_touches ..)) (.refl _))))))

theorem Dev.dropInput_touches (d : Dev) (q : Nat) (pos : QPos) : Touches [.hdma] d (Dev.dropInput d q pos) := by
  unfold Dev.dropInput
  exact .mono (Touches.setHdma (rdOut := fun h => map_rising _ h) (hh := fun ⟨h1, h2, h3, h⟩ => ⟨h1, h2, List.map_eq_nil_iff.mpr
    h3, h⟩))

theorem Dev.startInput_touches (d : Dev) (q : Nat) (pos : QPos) (e : Line) : Touches [.queues, .hdma] d (Dev.startInput d q pos
    e) := by
  unfold Dev.startInput
  exact .ite (.mono (Dev.inputReady_touches ..)) (.ite (.after (Dev.readInput_touches ..) (.mono (Dev.updExec_touches ..))) (by
    split
    · exact .after (Dev.readBuffer_touches ..) (.mono (Dev.updExec_touches ..))
    · exact .mono (Dev.inputReady_touches ..)))

theorem Dev.dropCpls_touches (d : Dev) (q : Nat) : Touches [.queues, .hdma] d (Dev.dropCpls d q) := by
  unfold Dev.dropCpls
  exact .forAllAfter (fun _ _ => .after (Dev.endReset_touches ..) (.mono (Dev.dropExec_touches ..))) (.mono (Touches.setHdma))

theorem Dev.contextLost_touches (d : Dev) (q : Nat) : Touches [.queues, .hdma] d (Dev.contextLost d q) := by
  unfold Dev.contextLost
  exact .ite (.mono (Dev.raise_touches ..)) (.after (Dev.dropCpls_touches ..) (.after (Dev.updQueue_touches ..) (.after
    (Dev.queueError_touches ..) (.mono (Dev.raise_touches ..)))))

theorem Dev.dropHeld_touches (d : Dev) (src : EvSrc) : Touches [] d (Dev.dropHeld d src) := by
  unfold Dev.dropHeld
  exact .mono (Touches.of_kept (as := []) (fun a ha => by cases a <;> simp_all [Kept, Per.record, Del.peers, Del.parted]) (fun h
    => { h with held := put_rising _ _ h.held }) id)

theorem Dev.writeRecord_touches (d : Dev) (q : Nat) (r : Rec) (pl : Bytes) : Touches [.hdma, .queues] d (Dev.writeRecord d q r
    pl) := by
  unfold Dev.writeRecord
  exact .after (Dev.hostWrite_touches ..) (.after (Dev.hostWrite_touches ..) (.after (Dev.hostWrite_touches ..) (.mono
    (Dev.setQueue_touches ..))))

theorem Dev.cplAcked_touches (d : Dev) (q : Nat) (pos : QPos) (counts : Bool) (err : Bool) : Touches [.queues, .hdma] d
    (Dev.cplAcked d q pos counts err) := by
  unfold Dev.cplAcked
  exact .after (Dev.endReset_touches ..) (.ite (.after (Dev.queueError_touches ..) (.after (Dev.raise_touches ..) (.mono
    (Dev.dropExec_touches ..)))) (.ite (.after (Dev.countItem_touches ..) (.after (Dev.setQueue_touches ..) (.mono
    (Dev.dropExec_touches ..)))) (.after (Dev.setQueue_touches ..) (.mono (Dev.dropExec_touches ..)))))

theorem Dev.resultAcked_touches (d : Dev) (q : Nat) (pos : QPos) (err : Bool) : Touches [.queues, .hdma, .key] d
    (Dev.resultAcked d q pos err) := by
  unfold Dev.resultAcked
  dsimp only
  split
  · exact .ite (.mono (Dev.raise_touches ..)) (.refl _)
  · exact .ite (.after (Dev.updExec_touches ..) (.ite (.mono (Dev.raise_touches ..)) (.refl _))) (.after (Dev.writeCpl_touches
      ..) (.ite (.after (Dev.updExec_touches ..) (.ite (.after (Dev.generated_touches ..) (.after (Dev.updExec_touches ..) (.ite
      (.mono (Dev.raise_touches ..)) (.refl _)))) (.after (Dev.updExec_touches ..) (.ite (.mono (Dev.raise_touches ..))
      (.refl _))))) (.ite (.after (Dev.generated_touches ..) (.after (Dev.updExec_touches ..) (.ite (.mono (Dev.raise_touches
      ..)) (.refl _)))) (.after (Dev.updExec_touches ..) (.ite (.mono (Dev.raise_touches ..)) (.refl _))))))

theorem Dev.recAcked_touches (d : Dev) (q : Nat) (pos : QPos) (high : Bool) (err : Bool) : Touches [.hdma, .queues] d
    (Dev.recAcked d q pos high err) := by
  unfold Dev.recAcked
  exact .ite (.ite (.mono (Dev.raise_touches ..)) (.refl _)) (.ite (.after (Dev.dropWrites_touches ..) (.after
    (Dev.queueError_touches ..) (.after (Dev.raise_touches ..) (.mono (Dev.setQueue_touches ..))))) (.ite (.ite (.after
    (Dev.countItem_touches ..) (.after (Dev.setQueue_touches ..) (.mono (Dev.setQueue_touches ..)))) (.after
    (Dev.setQueue_touches ..) (.mono (Dev.setQueue_touches ..)))) (.mono (Dev.setQueue_touches ..))))

theorem Dev.msgAcked_touches (d : Dev) (m : Nat) (err : Bool) : Touches [.qmg] d (Dev.msgAcked d m err) := by
  unfold Dev.msgAcked
  exact .ite (.after (Dev.raise_touches ..) (.after (Dev.noteDrained_touches ..) (.mono (Touches.setQmgRegs)))) (.after
    (Dev.noteDrained_touches ..) (.mono (Touches.setQmgRegs)))

theorem Dev.enableQueue_touches (d : Dev) (q : Nat) : Touches [.queues, .qmg] d (Dev.enableQueue d q) := by
  unfold Dev.enableQueue
  dsimp only
  split
  · exact .refl _
  · exact .mono (Dev.setQueue_touches ..)
  · exact .mono (Dev.setQueue_touches ..)
  · exact .ite (.mono (Dev.setQueue_touches ..)) (.mono (Touches.setQmgRegs))
  · exact .mono (Touches.setQmgRegs)

theorem Dev.disableQueue_touches (d : Dev) (q : Nat) : Touches [.queues] d (Dev.disableQueue d q) := by
  unfold Dev.disableQueue
  exact .ite (.mono (Dev.setQueue_touches ..)) (.refl _)

theorem Dev.resetAdmin_touches (d : Dev) (q : Nat) : Touches [.queues, .hdma, .qmg] d (Dev.resetAdmin d q) := by
  unfold Dev.resetAdmin
  exact .ite (.after (Dev.endReset_touches ..) (.mono (Dev.setQueue_touches ..))) (.mono (Touches.setQmgRegs))

theorem Dev.updScmd_touches (d : Dev) (q : Nat) (pos : Nat) (f : SCmd → SCmd) : Touches [.svc] d (Dev.updScmd d q pos f) := by
  unfold Dev.updScmd
  exact .mono (Touches.setSvc)

theorem Dev.zoneBack_touches (z : Nat) (d : Dev) : Touches [.frs, .svc] d (Dev.zoneBack z d) := by
  unfold Dev.zoneBack
  exact .after (Dev.updZone_touches ..) (.mono (Dev.zoneTo_touches ..))

theorem Dev.svcFinish_touches (d : Dev) (c : SCmd) (x : Cpl) : Touches [.queues, .hdma, .svc, .frs] d (Dev.svcFinish d c
    x) := by
  unfold Dev.svcFinish
  exact .after (Dev.finish_touches ..) (.after (Touches.setSvc) (.forAllAfter (fun _ _ => .mono (Dev.zoneBack_touches ..))
    (.refl _)))

theorem Dev.svcCheck_touches (d : Dev) (q : Nat) (pos : Nat) : Touches [.queues, .hdma, .svc, .frs] d (Dev.svcCheck d q
    pos) := by
  unfold Dev.svcCheck
  split
  · exact .refl _
  · exact .ite (.refl _) (by
      split
      · exact .mono (Dev.svcFinish_touches ..)
      · exact .ite (.mono (Dev.svcFinish_touches ..)) (.refl _))

theorem Dev.svcStop_touches (d : Dev) (q : Nat) (pos : Nat) (x : Cpl) : Touches [.queues, .hdma, .svc, .frs] d (Dev.svcStop d q
    pos x) := by
  unfold Dev.svcStop
  exact .after (Dev.svcCheck_touches ..) (.mono (Dev.updScmd_touches ..))

theorem Dev.cancelZone_touches (d : Dev) (z : Nat) : Touches [.queues, .hdma, .svc, .frs] d (Dev.cancelZone d z) := by
  unfold Dev.cancelZone
  exact .forAllAfter (fun _ _ => .mono (Dev.svcStop_touches ..)) (.refl _)

theorem Dev.takeZone_touches (d : Dev) (z : Nat) (st : ZoneSt) (q : Nat) (pos : Nat) (op : Nat) (key : Bytes) : Touches
    [.queues, .hdma, .svc, .frs] d (Dev.takeZone d z st q pos op key) := by
  unfold Dev.takeZone
  exact .ite (.after (Dev.cancelZone_touches ..) (.after (Dev.updZone_touches ..) (.mono (Dev.zoneTo_touches ..)))) (.after
    (Dev.updZone_touches ..) (.mono (Dev.zoneTo_touches ..)))

theorem Dev.cancelRegion_touches (d : Dev) (r : RegionCfg) : Touches [.queues, .hdma, .svc, .frs] d (Dev.cancelRegion d r) := by
  unfold Dev.cancelRegion
  exact .forAllAfter (fun _ _ => .mono (Dev.svcStop_touches ..)) (.refl _)

theorem Dev.readChunk_touches (d : Dev) (q : Nat) (pos : Nat) : Touches [.hdma, .queues, .svc] d (Dev.readChunk d q pos) := by
  unfold Dev.readChunk
  split
  · exact .ite (.refl _) (by
      split
      · exact .refl _
      · exact .after (Dev.hostRead_touches ..) (.after (Dev.bump_touches ..) (.mono (Dev.updScmd_touches ..))))
  · exact .refl _

theorem Dev.svcAccept_touches (d : Dev) (q : Nat) (pos : Nat) (e : Line) (region : Nat) (salt : Bytes) : Touches [.hdma,
    .queues, .svc] d (Dev.svcAccept d q pos e region salt) := by
  unfold Dev.svcAccept
  exact .after (Dev.readChunk_touches ..) (.after (Touches.setSvc) (.ite (.after (Dev.updExec_touches ..) (.mono
    (Dev.running_touches ..))) (.mono (Dev.running_touches ..))))

theorem Dev.svcCommand_touches (d : Dev) (q : Nat) (pos : QPos) (op : Nat) (zenith : Bool) (drbg : Option Bool) : Touches
    [.queues, .hdma, .key, .svc, .can, .frs] d (Dev.svcCommand d q pos op zenith drbg) := by
  unfold Dev.svcCommand
  exact .ite (.refl _) (Dev.command_touches (fun _ _ => .ite (.after (Dev.finish_touches ..) (.mono (Dev.dropDrawn_touches ..)))
    (by
    dsimp only
    split
    · exact .after (Dev.finish_touches ..) (.after (Dev.dropDrawn_touches ..) (.mono (Dev.zenithRead_touches ..)))
    · exact .ite (by
        split
        · exact .after (Dev.svcAccept_touches ..) (.after (Dev.drbgRead_touches ..) (.after (Dev.draw_touches ‹_›) (.after
            (Dev.noteDue_touches ..) (.mono (Dev.zenithRead_touches ..)))))
        · exact .after (Dev.noteDue_touches ..) (.mono (Dev.zenithRead_touches ..))) (.ite (.ite (.after (Dev.svcAccept_touches
            ..) (.mono (Dev.zenithRead_touches ..))) (.mono (Dev.zenithRead_touches ..))) (.ite (.ite (.mono
            (Dev.zenithRead_touches ..)) (by
        split
        · exact (.of_fst ‹_› (.after (Dev.drawKeys_touches ..) (.mono (Dev.zenithRead_touches ..))))
        · exact .after (Dev.finish_touches ..) ((.of_fst ‹_› (.after (Dev.drawKeys_touches ..) (.mono (Dev.zenithRead_touches
            ..)))))
        · exact .forAllAfter (fun _ _ => .mono (Dev.takeZone_touches ..)) (.after (Dev.svcAccept_touches ..) (.after
            (Dev.drbgRead_touches ..) ((.of_fst ‹_› (.after (Dev.drawKeys_touches ..) (.mono (Dev.zenithRead_touches ..)))))))))
            (.after (Dev.svcAccept_touches ..) (.mono (Dev.zenithRead_touches ..))))))) (.refl _))

theorem Dev.accrue_touches (d : Dev) : Touches [.svc] d d.accrue := by
  unfold Dev.accrue
  exact Touches.setSvc (fronts := foldl_rising fun i t h => put_rising _ _ h)

theorem Dev.beginStep_touches (d : Dev) (s : Step) : Touches [.fabRest, .svc] d (d.beginStep s).1 := by
  unfold Dev.beginStep
  exact ⟨fun a ha _
    => by cases a <;> simp_all [Kept, Per.record, Del.peers, Del.parted], fun _ _ a ha => by cases a <;> simp_all [Kept], fun h => { h with },
    Nat.le_add_right .., fun h a ha => Nat.lt_of_lt_of_le (h a ha) (Nat.le_add_right ..), List.prefix_refl _⟩

theorem Dev.releaseHold_touches (d : Dev) (id : Nat) : Touches [.fabRest] d (Dev.releaseHold d id) := by
  unfold Dev.releaseHold
  exact .mono (Touches.setFabRest)

theorem Dev.dropStep_touches (d : Dev) (id : Nat) : Touches [.fabRest, .accs, .svc, .decided] d (d.dropStep id) := by
  unfold Dev.dropStep
  exact .after (Touches.of_kept (d := d.releaseHold id) (as := [.svc, .accs, .decided]) (fun a ha
    => by cases a <;> simp_all [Kept, Per.record, Del.peers, Del.parted]) (fun h => { h with })
    fun h a ha => h a (List.mem_of_mem_filter ha)) (.mono (Dev.releaseHold_touches d id))

theorem Dev.abortStep_touches (d : Dev) (id : Nat) : Touches [.ports, .accs, .fabRest, .stl, .svc, .decided] d (Dev.abortStep d
    id) := by
  unfold Dev.abortStep
  exact .after (Dev.retryReceived_touches ..) (.after (Dev.noteHold_touches ..) (.mono (Dev.dropStep_touches ..)))

/-- New accesses take ids from the allocator. -/
theorem Touches.addAccs {d : Dev} {l : List Access} {n : Nat} (hl : ∀ a ∈ l, a.id < d.seq + n) :
    Touches [.accs, .decided] d { d with fab.accs := d.fab.accs ++ l, seq := d.seq + n } :=
  ⟨fun a ha _
    => by cases a <;> simp_all [Kept, Per.record, Del.peers, Del.parted], fun _ _ a ha => by cases a <;> simp_all [Kept], fun h => { h with },
    Nat.le_add_right .., fun h a ha => (List.mem_append.mp ha).elim (fun ha => Nat.lt_of_lt_of_le (h a ha) (Nat.le_add_right
      ..)) (hl a),
    List.prefix_refl _⟩

theorem Dev.addAccesses_touches (d : Dev) (s : Step) (place : Nat) (stage : Stage) : Touches [.accs, .svc, .fabRest, .ports,
    .decided] d (d.addAccesses s place stage) := by
  unfold Dev.addAccesses
  exact .after (Dev.noteHold_touches ..) (.after (Dev.updStep_touches ..) (.mono (Touches.addAccs fun a ha => by
    obtain ⟨k, hk, rfl⟩ := List.mem_map.mp ha
    exact Nat.add_lt_add_left (List.mem_range.mp hk) _)))

theorem Dev.listSlots_touches (d : Dev) (i : Nat) (c : RegionCfg) (chk : List Chk) : Touches [.svc, .stl] d (Dev.listSlots d i c
    chk).1 := by
  unfold Dev.listSlots
  exact .ite (.after (Dev.raise_touches ..) (.after (Touches.setSvc) (.mono (Dev.slotErrors_touches ..)))) (.mono
    (Dev.slotErrors_touches ..))

theorem Dev.checkNodes_touches (d : Dev) (s : Step) : Touches [.frs, .med, .can, .svc] d (Dev.checkNodes d s) := by
  unfold Dev.checkNodes
  exact .ite (.refl _) (.forAllAfter (fun _ _ => .mono (Dev.startLadder_touches ..)) (.mono (Dev.updStep_touches ..)))

theorem Dev.drizzleSeek_touches {d : Dev} {after : Bool} {e : Dev} (h : d.drizzleSeek after = some e) : Touches [.svc] d e := by
  unfold Dev.drizzleSeek at h
  have hg (k : Nat) (wrap : Bool) : Touches [.svc] d { (if wrap then d.raise bSvc 5 else d) with
      svc.drizzleZone := k, svc.drizzleUnit := 0, svc.drizzleLines := 0, svc.drizzleNodes := 0, svc.drizzleFinds := 0
      svc.drizzleLost := false, svc.slotRegion := none
      svc.drizzlePasses := if wrap then (d.svc.drizzlePasses + 1) % 2 ^ 32 else d.svc.drizzlePasses } :=
    (.after (Touches.setSvc) (.ite (.mono (Dev.raise_touches ..)) (.refl _)))
  dsimp only at h
  split at h
  · exact Option.some_inj.mp h ▸ .refl _
  · split at h
    · exact Option.some_inj.mp h ▸ hg ..
    · obtain ⟨k, _, rfl⟩ := Option.map_eq_some_iff.mp h
      exact hg ..

theorem Dev.drizzleReady_touches {d e : Dev} (h : d.drizzleReady = some e) : Touches [.svc] d e := by
  unfold Dev.drizzleReady at h
  split at h
  · cases h
  · split at h
    · split at h
      · cases h
      · cases h
        exact Dev.drizzleSeek_touches ‹_›
    · cases h

theorem Dev.cmdStep_touches (d : Dev) (c : SCmd) (u : Nat) (chk : List Chk) : Touches [.fabRest, .svc, .frs, .med, .can, .stl,
    .accs, .ports, .decided] d (Dev.cmdStep d c u chk) := by
  unfold Dev.cmdStep
  dsimp only
  split
  · exact by
      split
      · exact .after (Dev.beginStep_touches ..) (.after (Dev.updScmd_touches ..) (.mono (Touches.setSvc)))
      · exact .ite (.ite (.after (Dev.checkNodes_touches ..) (.after (Dev.beginStep_touches ..) (.after (Dev.updScmd_touches ..)
          (.after (Touches.setSvc) (.after (Dev.updScmd_touches ..) (.ite1 (.refl _) (.mono (Dev.listSlots_touches ..))))))))
          (.after (Dev.beginStep_touches ..) (.after (Dev.updScmd_touches ..) (.after (Touches.setSvc) (.after
          (Dev.updScmd_touches ..) (.ite1 (.refl _) (.mono (Dev.listSlots_touches ..)))))))) (.after (Dev.addAccesses_touches
          ..) (.ite (.after (Dev.checkNodes_touches ..) (.after (Dev.beginStep_touches ..) (.after (Dev.updScmd_touches ..)
          (.after (Touches.setSvc) (.after (Dev.updScmd_touches ..) (.ite1 (.refl _) (.mono (Dev.listSlots_touches ..))))))))
          (.after (Dev.beginStep_touches ..) (.after (Dev.updScmd_touches ..) (.after (Touches.setSvc) (.after
          (Dev.updScmd_touches ..) (.ite1 (.refl _) (.mono (Dev.listSlots_touches ..)))))))))
  · exact by
      split
      · exact .ite (.after (Dev.beginStep_touches ..) (.after (Dev.updScmd_touches ..) (.mono (Touches.setSvc)))) (.after
          (Dev.addAccesses_touches ..) (.after (Dev.beginStep_touches ..) (.after (Dev.updScmd_touches ..) (.mono
          (Touches.setSvc)))))
      · exact .refl _
  · exact .after (Dev.addAccesses_touches ..) (.after (Dev.updScmd_touches ..) (.after (Dev.beginStep_touches ..) (.after
      (Dev.updScmd_touches ..) (.mono (Touches.setSvc)))))
  · exact .after (Dev.addAccesses_touches ..) (.after (Dev.beginStep_touches ..) (.after (Dev.updScmd_touches ..) (.mono
      (Touches.setSvc))))

theorem Dev.frontStart_touches (d : Dev) (i : Nat) (chk : List Chk) : Touches [.svc, .rmp, .accs, .fabRest, .ports, .decided] d
    (Dev.frontStart d i chk) := by
  unfold Dev.frontStart
  exact .ite (.mono (Dev.accrue_touches ..)) (Dev.withRegions_touches (fun _ => by
    split
    · exact .refl _
    · exact .after (Dev.addAccesses_touches ..) (.after (Touches.setSvc (fronts := fun h => put_rising _ _ h)) (.after
        (Dev.beginStep_touches ..) (.mono (Dev.zoneRead_touches ..))))) (.mono (Dev.accrue_touches ..)))

theorem Dev.drizzleStart_touches (d : Dev) (chk : List Chk) : Touches [.svc, .rmp, .accs, .fabRest, .ports, .frs, .med, .can,
    .stl, .decided] d (Dev.drizzleStart d chk) := by
  unfold Dev.drizzleStart
  exact .ite (.mono (Dev.accrue_touches ..)) (by
    split
    · exact .mono (Dev.accrue_touches ..)
    · exact Dev.withRegions_touches (fun _ => by
        split
        · exact .ite (.after (Dev.addAccesses_touches ..) (.after (Dev.checkNodes_touches ..) (.after (Dev.beginStep_touches ..)
            (.after (Touches.setSvc) (.ite1 (.refl _) (.mono (Dev.listSlots_touches ..))))))) (.after (Dev.checkNodes_touches
            ..) (.after (Dev.beginStep_touches ..) (.after (Touches.setSvc) (.ite1 (.refl _) (.mono (Dev.listSlots_touches
            ..))))))
        · exact .after (Dev.checkNodes_touches ..) (.after (Dev.beginStep_touches ..) (.mono (Touches.setSvc)))) (.after
            (Touches.setSvc) (.after (Dev.zoneRead_touches ..) (.after (Dev.drizzleReady_touches ‹_›) (.mono (Dev.accrue_touches
            ..))))))

theorem Dev.cmdStart_touches (d : Dev) (q : Nat) (pos : Nat) (chk : List Chk) : Touches [.svc, .queues, .hdma, .frs, .rmp,
    .fabRest, .med, .can, .stl, .accs, .ports, .decided] d (Dev.cmdStart d q pos chk) := by
  unfold Dev.cmdStart
  dsimp only
  split
  · exact .mono (Dev.accrue_touches ..)
  · exact .ite (.mono (Dev.accrue_touches ..)) (.ite (.after (Dev.svcCheck_touches ..) (.after (Dev.updScmd_touches ..) (.mono
      (Dev.accrue_touches ..)))) (.ite (.mono (Dev.accrue_touches ..)) (.ite (Dev.withRegions_touches (fun _ => .mono
      (Dev.svcStop_touches ..)) (.after (Dev.zoneRead_touches ..) (.mono (Dev.accrue_touches ..)))) (.ite (.mono
      (Dev.accrue_touches ..)) (Dev.withRegions_touches (fun _ => .ite (.mono (Dev.cmdStep_touches ..)) (.mono
      (Dev.svcStop_touches ..))) (.after (Dev.zoneRead_touches ..) (.mono (Dev.accrue_touches ..))))))))

theorem Dev.stepEnds_touches (d : Dev) (s : Step) : Touches [.fabRest, .accs, .svc, .hdma, .queues, .frs, .decided] d
    (Dev.stepEnds d s) := by
  unfold Dev.stepEnds
  dsimp only
  split
  · exact .mono (Dev.dropStep_touches ..)
  · exact .after (Touches.setSvc) (.mono (Dev.dropStep_touches ..))
  · exact .after (Dev.readChunk_touches ..) (.after (Dev.svcCheck_touches ..) (.after (Dev.updScmd_touches ..) (.mono
      (Dev.dropStep_touches ..))))

theorem Dev.postChunk_touches (d : Dev) (c : SCmd) (s : Step) : Touches [.hdma, .queues, .svc, .fabRest] d (Dev.postChunk d c
    s) := by
  unfold Dev.postChunk
  split
  · exact .refl _
  · exact .forAllAfter (fun _ _ => .mono (Dev.hostWrite_touches ..)) (.after (Dev.updStep_touches ..) (.mono
      (Dev.releaseHold_touches ..)))

theorem Dev.chunkAcked_touches (d : Dev) (id : Nat) (err : Bool) : Touches [.queues, .hdma, .svc, .frs, .fabRest, .accs,
    .decided] d (d.chunkAcked id err) := by
  unfold Dev.chunkAcked
  extract_lets d1
  have h1 : Touches [.queues, .hdma, .svc, .frs, .fabRest, .accs, .decided] d d1 := .ite (.mono (Dev.raise_touches ..))
      (.refl _)
  split
  · exact h1
  · extract_lets d2 s' d3
    have h2 : Touches [.queues, .hdma, .svc, .frs, .fabRest, .accs, .decided] d d2 := by
      refine .ite ?_ h1
      split
      · exact .after (Dev.updScmd_touches ..) h1
      · exact h1
    have h3 : Touches [.queues, .hdma, .svc, .frs, .fabRest, .accs, .decided] d d3 := .after (Dev.updStep_touches ..) h2
    refine .ite h3 (.ite ?_ (.after (Dev.stepEnds_touches ..) h3))
    split
    · exact .after (Dev.svcCheck_touches ..) (.after (Dev.dropStep_touches ..) h3)
    · exact .after (Dev.dropStep_touches ..) h3

theorem Dev.chunkArrives_touches (d : Dev) (id : Nat) (b : Bytes) (err : Bool) : Touches [.queues, .hdma, .svc, .frs] d
    (Dev.chunkArrives d id b err) := by
  unfold Dev.chunkArrives
  dsimp only
  split
  · exact .ite (.mono (Dev.raise_touches ..)) (.refl _)
  · exact .ite (.after (Dev.svcStop_touches ..) (.after (Dev.updScmd_touches ..) (.ite (.mono (Dev.raise_touches ..))
      (.refl _)))) (.ite (.after (Dev.readChunk_touches ..) (.after (Dev.updScmd_touches ..) (.ite (.mono (Dev.raise_touches
      ..)) (.refl _)))) (.ite (.after (Dev.svcStop_touches ..) (.after (Dev.updScmd_touches ..) (.ite (.mono (Dev.raise_touches
      ..)) (.refl _)))) (.after (Dev.updScmd_touches ..) (.ite (.mono (Dev.raise_touches ..)) (.refl _)))))

theorem Dev.chunkHashed_touches (d : Dev) (s : Step) : Touches [.accs, .svc, .queues, .hdma, .frs, .ports, .fabRest, .stl,
    .decided] d (Dev.chunkHashed d s) := by
  unfold Dev.chunkHashed
  exact .ite (.after (Touches.mapAccs_any) (.mono (Dev.updStep_touches ..))) (by
    split
    · exact .after (Dev.svcStop_touches ..) (.mono (Dev.abortStep_touches ..))
    · exact .refl _)

theorem Dev.resetUnit_touches (d : Dev) (s : Step) (zenith : Bool) : Touches [.fabRest, .accs, .svc, .hdma, .queues, .frs, .can,
    .med, .decided] d (Dev.resetUnit d s zenith) := by
  unfold Dev.resetUnit
  exact .ite (.mono (Dev.stepEnds_touches ..)) (.ite (.ite (.refl _) (.after (Dev.stepEnds_touches ..) (.after
    (Dev.setSlot_touches ..) (.after (Touches.setFrs) (.after (Dev.dropSubtree_touches ..) (.after (Dev.zenithRead_touches ..)
    (.mono (Dev.countAnchor_touches ..)))))))) (.ite (.after (Dev.stepEnds_touches ..) (.mono (Dev.countAnchor_touches ..)))
    (.ite (by
    split
    · exact by
        split
        · exact .mono (Dev.wantSet_touches ..)
        · exact .refl _
    · exact .after (Dev.stepEnds_touches ..) (.after (Dev.setSlot_touches ..) (.after (Touches.setFrs) (.after
        (Dev.dropSubtree_touches ..) (.after (Dev.zenithRead_touches ..) (.after (Dev.synthPath_touches ‹_›) (.mono
        (Dev.countAnchor_touches ..)))))))) (.ite (.after (Dev.stepEnds_touches ..) (.mono (Dev.countAnchor_touches ..))) (.ite
        (.refl _) (.after (Dev.startLadder_touches ..) (.after (Dev.updStep_touches ..) (.mono (Dev.countAnchor_touches
        ..)))))))))

theorem Dev.keyLost_touches (d : Dev) (x : KeyRef) : Touches [.key, .lan, .accs, .queues, .hdma, .svc, .frs, .ports, .fabRest,
    .stl, .can, .med, .decided] d (Dev.keyLost d x) := by
  unfold Dev.keyLost
  split
  · exact .after (Dev.emptyKey_touches ..) (.mono (Dev.overwrite_touches ..))
  · exact .after (Dev.emptyKey_touches ..) (.mono (Dev.overwrite_touches ..))
  · exact .forAllAfter (fun _ _ => .after (Dev.svcStop_touches ..) (.forAllAfter (fun _ _ => .mono (Dev.abortStep_touches ..))
      (.refl _))) (.mono (Dev.emptyKey_touches ..))
  · exact .after (Dev.nodeError_touches ..) (.mono (Dev.updZone_touches ..))
  · exact .refl _
  · exact .refl _

theorem Dev.keyError_touches (d : Dev) (x : Option (KeyRef × Bool)) : Touches [.key, .lan, .accs, .queues, .hdma, .svc, .frs,
    .ports, .fabRest, .stl, .can, .med, .decided] d (Dev.keyError d x) := by
  unfold Dev.keyError
  split
  · exact .refl _
  · exact .ite (.after (Dev.keyLost_touches ..) (.mono (Dev.raise_touches ..))) (.mono (Dev.raise_touches ..))

theorem Dev.writeEnds_touches (d : Dev) (w : HWr) (err : Bool) : Touches [.queues, .hdma, .key, .qmg, .svc, .frs, .fabRest,
    .accs, .decided] d (Dev.writeEnds d w err) := by
  unfold Dev.writeEnds
  split
  · exact .mono (Dev.cplAcked_touches ..)
  · exact .mono (Dev.resultAcked_touches ..)
  · exact .mono (Dev.recAcked_touches ..)
  · exact .mono (Dev.recAcked_touches ..)
  · exact .mono (Dev.msgAcked_touches ..)
  · exact .mono (Dev.chunkAcked_touches ..)

theorem Dev.vectorsArrive_touches (d : Dev) (first : Nat) (n : Nat) (b : Bytes) (err : Bool) : Touches [.hdma, .queues, .qmg] d
    (Dev.vectorsArrive d first n b err) := by
  unfold Dev.vectorsArrive
  exact .after (Dev.sendPending_touches ..) (.after (Touches.setQmgRegs) (.ite (.mono (Dev.raise_touches ..)) (.forAllAfter (fun
    _ _ => .mono (Dev.loadVec_touches ..)) (.refl _))))

theorem Dev.readEnds_touches (d : Dev) (r : HRd) : Touches [.hdma, .queues, .qmg, .svc, .frs] d (Dev.readEnds d r) := by
  unfold Dev.readEnds
  split
  · exact .mono (Dev.entriesArrive_touches ..)
  · exact .mono (Dev.inputArrives_touches ..)
  · exact .mono (Dev.inputArrives_touches ..)
  · exact .mono (Dev.vectorsArrive_touches ..)
  · exact .mono (Dev.chunkArrives_touches ..)

theorem Dev.hostGoesOn_touches (d : Dev) : Touches [.key, .queues, .hdma, .rmp, .accs, .stl, .qmg] d (Dev.hostGoesOn d) := by
  unfold Dev.hostGoesOn
  exact .after (Touches.setKey) (.after (Dev.pumpTables_touches ..) (.mono (Dev.pumpVecs_touches ..)))

theorem Dev.hdmaFail_touches (d : Dev) (squall : Bool) : Touches [.hdma, .queues, .rmp, .accs, .stl, .qmg, .svc, .frs, .key,
    .fabRest, .decided] d (Dev.hdmaFail d squall) := by
  unfold Dev.hdmaFail
  exact .ite (.mono (Touches.setHdma (wrOut := fun h => .nil) (rdOut := fun h => .nil) (hh := fun ⟨h, _⟩ => ⟨h, rfl, rfl, rfl,
    rfl⟩))) (.after (Dev.pumpTables_touches ..) (.after (Dev.pumpDrains_touches ..) (.forAllAfter (fun _ _ => .mono
    (Dev.readEnds_touches ..)) (.forAllAfter (fun _ _ => .mono (Dev.writeEnds_touches ..)) (.mono (Touches.setHdma (wrOut := fun
    h => .nil) (rdOut := fun h => .nil) (hh := fun ⟨h, _⟩ => ⟨h, rfl, rfl, rfl, rfl⟩)))))))

theorem Dev.setMember_touches (d : Dev) (p : Nat) (m : Member) : Touches [.del, .peers] d (Dev.setMember d p m) := by
  unfold Dev.setMember
  exact .mono (Touches.setDel_peers (members := fun h => put_rising _ _ h))

theorem Dev.toCoord_touches (d : Dev) (typ : Nat) (pl : List Word32) : Touches [.del] d (Dev.toCoord d typ pl) := by
  unfold Dev.toCoord
  exact .mono (Dev.sendTo_touches ..)

theorem Dev.poolState_touches (d : Dev) (code : Nat) : Touches [] d (Dev.poolState d code) := by
  unfold Dev.poolState
  exact .mono (Dev.event_touches ..)

theorem Dev.retireEntry_touches (d : Dev) (i : Nat) (old : BitVec 16) : Touches [.svc] d (Dev.retireEntry d i old) := by
  unfold Dev.retireEntry
  exact .mono (Touches.setSvc)

theorem Dev.tally_touches (d : Dev) (i : Nat) (old : BitVec 16) (new : BitVec 16) : Touches [.svc, .del] d (Dev.tally d i old
    new) := by
  unfold Dev.tally
  exact .ite (.after (Dev.retireEntry_touches ..) (.after (Dev.broadcast_touches ..) (.mono (Touches.setDel)))) (.refl _)

theorem Dev.takeReport_touches (d : Dev) (p : Nat) (i : Nat) (old : BitVec 16) (new : BitVec 16) : Touches [.svc, .del] d
    (Dev.takeReport d p i old new) := by
  unfold Dev.takeReport
  exact .ite (.refl _) (.after (Dev.tally_touches ..) (.mono (Touches.setDel)))

theorem Dev.tallyAll_touches (d : Dev) : Touches [.svc, .del] d (Dev.tallyAll d) := by
  unfold Dev.tallyAll
  exact .ite (.refl _) (.forAllAfter (fun _ _ => .ite (.mono (Dev.tally_touches ..)) (.refl _)) (.refl _))

theorem Dev.sendReport_touches (d : Dev) (i : Nat) (old : BitVec 16) (new : BitVec 16) : Touches [.svc, .del] d (Dev.sendReport
    d i old new) := by
  unfold Dev.sendReport
  exact .ite (.refl _) (.ite (.mono (Dev.takeReport_touches ..)) (.mono (Dev.toCoord_touches ..)))

theorem Dev.reportAll_touches (d : Dev) : Touches [.svc, .del] d (Dev.reportAll d) := by
  unfold Dev.reportAll
  exact .forAllAfter (fun _ _ => .mono (Dev.sendReport_touches ..)) (.refl _)

theorem Dev.reconEnds_touches (d : Dev) (c : Cpl) : Touches [.queues, .hdma, .del] d (Dev.reconEnds d c) := by
  unfold Dev.reconEnds
  split
  · exact .refl _
  · exact .after (Dev.finish_touches ..) (.mono (Touches.setDel))

theorem Dev.reconFails_touches (d : Dev) (q : BitVec 64) (c : Cpl) : Touches [.queues, .hdma, .del] d (Dev.reconFails d q
    c) := by
  unfold Dev.reconFails
  exact .ite (.refl _) (.mono (Dev.reconEnds_touches ..))

theorem Dev.reconPart_touches (d : Dev) (q : BitVec 64) : Touches [.del] d (Dev.reconPart d q) := by
  unfold Dev.reconPart
  exact .ite (.mono (Touches.setDel)) (.refl _)

theorem Dev.reconciled_touches (d : Dev) (q : BitVec 64) : Touches [.queues, .hdma, .del, .svc, .parted] d (Dev.reconciled d
    q) := by
  unfold Dev.reconciled
  exact .after (Dev.reconEnds_touches ..) (.after (Dev.reportAll_touches ..) (.mono (Touches.setDel_pool)))

theorem Dev.doneAll_touches (d : Dev) : Touches [.del, .queues, .hdma, .svc] d (Dev.doneAll d) := by
  unfold Dev.doneAll
  split
  · exact .refl _
  · rename_i ht
    refine .of_whole (fun h => nomatch h.2.1.symm.trans ht) ?_
    exact .ite (.ite (.mono (Touches.setDel_pool)) (.ite (.after (Dev.reconEnds_touches ..) (.mono (Touches.setDel_pool)))
      (.after (Dev.reconciled_touches ..) (.after (Dev.broadcast_touches ..) (.mono (Touches.setDel_pool)))))) (.refl _)

theorem Dev.takeDone_touches (d : Dev) (p : Nat) (q : BitVec 64) (fail : Bool) : Touches [.del, .queues, .hdma, .svc] d
    (Dev.takeDone d p q fail) := by
  unfold Dev.takeDone
  split
  · exact .refl _
  · rename_i ht
    refine .of_whole (fun h => nomatch h.2.1.symm.trans ht) ?_
    exact .ite (.refl _) (.after (Dev.doneAll_touches ..) (.mono (Touches.setDel_pool)))

theorem Dev.sendDone_touches (d : Dev) (q : BitVec 64) (fail : Bool) : Touches [.del, .queues, .hdma, .svc] d (Dev.sendDone d q
    fail) := by
  unfold Dev.sendDone
  exact .ite (.mono (Dev.takeDone_touches ..)) (.ite (.refl _) (.mono (Dev.toCoord_touches ..)))

theorem Dev.abandon_touches (d : Dev) (p : MedWhy → Bool) : Touches [.med] d (d.abandon p) := by
  refine Touches.setChans (mapAll_rising _) (fun h q hq => ?_) fun _ hn => by
    dsimp only
    refine retired_mapAll ?_ hn
    exact fun _ _ => ⟨rfl, rfl⟩
  obtain ⟨hq, -⟩ := List.mem_filter.mp hq
  obtain ⟨r, hr, rfl⟩ := List.mem_map.mp hq
  exact map_rising _ (h.media r hr)

theorem Dev.startCkpt_touches (d : Dev) (trigger : Nat) (cmds : List (Nat × Nat)) (pck : Option (BitVec 64)) : Touches [.per] d
    (Dev.startCkpt d trigger cmds pck) := by
  unfold Dev.startCkpt
  exact .mono (Touches.setPer)

theorem Dev.joinPool_touches (d : Dev) (trigger : Nat) (q : BitVec 64) : Touches [.per, .del] d (Dev.joinPool d trigger q) := by
  unfold Dev.joinPool
  exact .after (Dev.startCkpt_touches ..) (.mono (Touches.of_kept (as := [.per, .del]) (fun a ha
    => by cases a <;> simp_all [Kept, Per.record, Del.peers, Del.parted]) (fun h => { h with }) id))

theorem Dev.startPool_touches (d : Dev) (trigger : Nat) (recon : Bool) : Touches [.per, .del, .parted] d (Dev.startPool d
    trigger recon) := by
  unfold Dev.startPool
  exact .after (Dev.joinPool_touches ..) (.after (Dev.broadcast_touches ..) (.mono (Touches.setDel_pool)))

theorem Dev.adoptEnds_touches (d : Dev) (ok : Bool) : Touches [] d (Dev.adoptEnds d ok) [.per, .adopt, .queues, .hdma, .frs,
    .svc] := by
  refine .whileAdopting (fun _ => ?_) fun h => by simp only [Dev.adoptEnds, h]
  unfold Dev.adoptEnds
  split
  · exact .refl _
  · exact .ite (.mono (Touches.of_kept (as := [.per, .adopt]) (fun a ha
      => by cases a <;> simp_all [Kept, Per.record, Del.peers, Del.parted]) (fun h => { h with }) id)) (.ite (.after
      (Dev.finish_touches ..) (.after (Dev.zoneTo_touches ..) (.mono (Touches.of_kept (as := [.per, .adopt]) (fun a ha
      => by cases a <;> simp_all [Kept, Per.record, Del.peers, Del.parted]) (fun h => { h with }) id)))) (.after
      (Dev.finishWith_touches ..) (.after (Dev.zoneTo_touches ..) (.mono (Touches.of_kept (as := [.per, .adopt]) (fun a ha
      => by cases a <;> simp_all [Kept, Per.record, Del.peers, Del.parted]) (fun h => { h with }) id)))))

theorem Dev.setAdopt_touches (d : Dev) (a : Adopt) : Touches [.per, .adopt] d (Dev.setAdopt d a) := by
  unfold Dev.setAdopt
  exact .mono (Touches.of_kept (as := [.per, .adopt]) (fun a ha
    => by cases a <;> simp_all [Kept, Per.record, Del.peers, Del.parted]) (fun h => { h with }) id)

theorem Dev.adoptError_touches (d : Dev) (a : Adopt) (x : NodeId) (cause : Nat) : Touches [.can, .accs, .med, .frs] d
    (Dev.adoptError d a x cause).1 := by
  unfold Dev.adoptError
  exact .mono (Dev.nodeErrorCore_touches ..)

theorem Dev.adoptWalked_touches (d : Dev) (a : Adopt) (root : Ctr) : Touches [.per, .adopt] d (Dev.adoptWalked d a root) := by
  unfold Dev.adoptWalked
  exact .mono (Touches.of_kept (as := [.per, .adopt]) (fun a ha
    => by cases a <;> simp_all [Kept, Per.record, Del.peers, Del.parted]) (fun h => { h with }) id)

theorem Dev.adoptCloses_touches (d : Dev) (a : Adopt) : Touches [.per, .key, .frs] d (Dev.adoptCloses d a) := by
  unfold Dev.adoptCloses
  exact .after (Dev.startCkpt_touches ..) (.after (Touches.setPer) (.after (Dev.dropDrawn_touches ..) (.mono
    (Dev.updZone_touches ..))))

theorem Dev.adoptFails_touches (d : Dev) (a : Adopt) (cause : Nat) : Touches [.per, .adopt, .can, .accs, .med, .frs] d
    (Dev.adoptFails d a cause) := by
  unfold Dev.adoptFails
  split
  · exact .refl _
  · exact by
      dsimp only
      split
      · exact .after (Dev.adoptWalked_touches ..) (.mono (Dev.adoptError_touches ..))
      · exact .after (Dev.setAdopt_touches ..) (.mono (Dev.adoptError_touches ..))

theorem Dev.adoptReadNode_touches {d : Dev} {x : NodeId} {e : Dev} (h : d.adoptReadNode x = some e) : Touches [.med] d e := by
  unfold Dev.adoptReadNode at h
  dsimp only at h
  split at h
  · cases h
  · cases h
    exact Dev.media_touches ..

theorem Dev.adoptRewrite_touches (d : Dev) (a : Adopt) (h : AdNode) (rest : List AdNode) : Touches [.med, .per, .adopt] d
    (Dev.adoptRewrite d a h rest) := by
  unfold Dev.adoptRewrite
  exact .ite (.after (Dev.media_touches ..) (.after (Dev.setAdopt_touches ..) (.mono (Touches.setPer)))) (.ite (.refl _) (.ite
    (.after (Dev.media_touches ..) (.after (Dev.setAdopt_touches ..) (.after (Touches.setPer) (.mono (Dev.openZone_touches
    ..))))) (.mono (Dev.openZone_touches ..))))

theorem Dev.walkOn_reaches (n : Nat) (d : Dev) : Touches [.per, .adopt, .can, .accs, .med, .frs] d (Dev.walkOn n d) := by
  induction n generalizing d with
  | zero => exact .refl _
  | succ n ih =>
    unfold Dev.walkOn
    split
    · exact .refl _
    · split
      · exact .refl _
      · refine .ite (.refl _) (.ite (.ite ?_ (.after (ih _) (.mono (Dev.setAdopt_touches ..))))
          (.ite (.after (ih _) (.mono (Dev.adoptFails_touches ..))) (.mono (Dev.adoptRewrite_touches ..))))
        dsimp only
        split
        · exact .after (Dev.adoptReadNode_touches ‹_›) (.mono (Dev.setAdopt_touches ..))
        · exact .after (ih _) (.mono (Dev.adoptFails_touches ..))

theorem Dev.walkOn_touches (n : Nat) (d : Dev) : Touches [] d (Dev.walkOn n d) [.per, .adopt, .can, .accs, .med, .frs] :=
  .whileAdopting (fun _ => Dev.walkOn_reaches n d) fun h => by cases n <;> simp only [Dev.walkOn, h]

theorem Dev.adoptNoTop_touches (d : Dev) (a : Adopt) (cause : Nat) : Touches [.per, .adopt, .can, .accs, .med, .frs] d
    (Dev.adoptNoTop d a cause) := by
  unfold Dev.adoptNoTop
  exact .ite (.mono (Dev.adoptWalked_touches ..)) (.after (Dev.adoptWalked_touches ..) (.mono (Dev.adoptError_touches ..)))

theorem Dev.adoptFlush_touches (d : Dev) (a : Adopt) : Touches [.can, .med, .per, .adopt, .frs, .accs] d (Dev.adoptFlush d
    a) := by
  unfold Dev.adoptFlush
  exact .ite (.refl _) (.ite (.forAllAfter (fun _ _ => .ite (.mono (Dev.wantLine_touches ..)) (.refl _)) (.refl _)) (by
    dsimp only
    split
    · exact .after (Dev.adoptReadNode_touches ‹_›) (.after (Dev.setAdopt_touches ..) (.after (Touches.setFrs) (.mono
        (Dev.dropSubtree_touches ..))))
    · exact .after (Dev.adoptNoTop_touches ..) (.after (Touches.setFrs) (.mono (Dev.dropSubtree_touches ..)))))

theorem Dev.pumpAdopt_touches (d : Dev) : Touches [] d (Dev.pumpAdopt d) [.per, .key, .frs, .can, .med, .adopt, .accs, .queues,
    .hdma, .svc] := by
  refine .whileAdopting (fun _ => ?_) fun h => by simp only [Dev.pumpAdopt, h]
  unfold Dev.pumpAdopt
  split
  · exact .refl _
  · exact .ite (.mono (Dev.adoptEnds_touches ..)) (.ite (.refl _) (by
      dsimp only
      split
      · exact .ite (.after (Dev.adoptCloses_touches ..) (.after (Dev.walkOn_touches ..) (.ite (.mono (Dev.adoptFlush_touches
          ..)) (.refl _)))) (.after (Dev.walkOn_touches ..) (.ite (.mono (Dev.adoptFlush_touches ..)) (.refl _)))
      · exact .after (Dev.walkOn_touches ..) (.ite (.mono (Dev.adoptFlush_touches ..)) (.refl _))))

theorem Dev.ckptNext_touches_any (d : Dev) : Touches [.per, .del, .parted] d (Dev.ckptNext d) [.key, .frs, .can, .med, .adopt,
    .accs, .queues, .hdma, .svc] := by
  unfold Dev.ckptNext
  exact .ite (.mono (Dev.pumpAdopt_touches ..)) (by
    split
    · exact .after (Dev.joinPool_touches ..) (.mono (Dev.pumpAdopt_touches ..))
    · exact .ite (.after (Dev.startPool_touches ..) (.after (Touches.setDel) (.mono (Dev.pumpAdopt_touches ..)))) (.ite (.ite
        (.after (Dev.startPool_touches ..) (.after (Touches.setDel) (.mono (Dev.pumpAdopt_touches ..)))) (.after
        (Touches.setDel) (.mono (Dev.pumpAdopt_touches ..)))) (.ite (.after (Touches.setDel) (.mono (Dev.pumpAdopt_touches ..)))
        (.after (Dev.startCkpt_touches ..) (.after (Touches.setPer) (.after (Touches.setDel) (.mono (Dev.pumpAdopt_touches
        ..))))))))

/-- A split admits no pool checkpoint, whatever waits for one. -/
theorem Dev.ckptNext_parted {d : Dev} (h : d.del.parted) : d.ckptNext.del.parted := by
  have hk : Kept d d.pumpAdopt .parted := (Dev.pumpAdopt_touches d).kept _ (by decide) (by decide)
  have hp : d.pumpAdopt.del.parted := hk h
  unfold Dev.ckptNext
  generalize d.pumpAdopt = e at hp
  obtain ⟨hs, ht, hr⟩ := hp
  have hadm : e.poolAdmits = false := by simp [Dev.poolAdmits, hs]
  have hwhole : ({ e with del.prepared := none } : Dev).poolWhole = false := by simp [Dev.poolWhole, hs]
  have hnone : e.del.prepared.filter (fun _ => e.poolAdmits) = none := by simp [hadm]
  dsimp only
  rw [hnone]
  split
  · exact ⟨hs, ht, hr⟩
  · dsimp only
    rw [if_neg (by simp [hr]), if_neg (by rw [show Dev.poolWhole _ = false from hwhole]; exact nofun)]
    split
    · exact ⟨hs, ht, hr⟩
    · exact ⟨hs, ht, hr⟩

theorem Dev.ckptNext_touches (d : Dev) : Touches [.per, .del] d (Dev.ckptNext d) [.key, .frs, .can, .med, .adopt, .accs,
    .queues, .hdma, .svc] := by
  by_cases h : d.del.parted
  · exact .of_parted (fun _ => Dev.ckptNext_parted h) (.mono (Dev.ckptNext_touches_any d))
  · exact .of_whole h (.mono (Dev.ckptNext_touches_any d))

theorem Dev.ckptEvent_touches (d : Dev) (c : Ckpt) (cause : Option Nat) : Touches [] d (Dev.ckptEvent d c cause) := by
  unfold Dev.ckptEvent
  split
  · exact .mono (Dev.event_touches ..)
  · exact .mono (Dev.event_touches ..)

theorem Dev.finishAll_touches (d : Dev) (xs : List (Nat × Nat)) (c : Cpl) : Touches [.queues, .hdma] d (Dev.finishAll d xs
    c) := by
  unfold Dev.finishAll
  exact .forAllAfter (fun _ _ => .mono (Dev.finish_touches ..)) (.refl _)

theorem Dev.ckptFail_touches (d : Dev) (cause : Nat) : Touches [.per, .del, .queues, .hdma, .med, .svc, .record] d (Dev.ckptFail
    d cause) [.key, .frs, .can, .adopt, .accs] := by
  unfold Dev.ckptFail
  split
  · exact .refl _
  · exact .after (Dev.ckptNext_touches ..) (.ite (.after (Dev.adoptEnds_touches ..) (by
      split
      · exact .ite (.after (Dev.reconFails_touches ..) (.ite (.after (Dev.ckptEvent_touches ..) (.after (Touches.setPer_any)
          (.mono (Dev.abandon_touches ..)))) (.after (Dev.finishAll_touches ..) (.after (Touches.setPer_any) (.mono
          (Dev.abandon_touches ..)))))) (.after (Dev.sendDone_touches ..) (.after (Dev.reconFails_touches ..) (.ite (.after
          (Dev.ckptEvent_touches ..) (.after (Touches.setPer_any) (.mono (Dev.abandon_touches ..)))) (.after
          (Dev.finishAll_touches ..) (.after (Touches.setPer_any) (.mono (Dev.abandon_touches ..)))))))
      · exact .ite (.after (Dev.ckptEvent_touches ..) (.after (Touches.setPer_any) (.mono (Dev.abandon_touches ..)))) (.after
          (Dev.finishAll_touches ..) (.after (Touches.setPer_any) (.mono (Dev.abandon_touches ..)))))) (by
      split
      · exact .ite (.after (Dev.reconFails_touches ..) (.ite (.after (Dev.ckptEvent_touches ..) (.after (Touches.setPer_any)
          (.mono (Dev.abandon_touches ..)))) (.after (Dev.finishAll_touches ..) (.after (Touches.setPer_any) (.mono
          (Dev.abandon_touches ..)))))) (.after (Dev.sendDone_touches ..) (.after (Dev.reconFails_touches ..) (.ite (.after
          (Dev.ckptEvent_touches ..) (.after (Touches.setPer_any) (.mono (Dev.abandon_touches ..)))) (.after
          (Dev.finishAll_touches ..) (.after (Touches.setPer_any) (.mono (Dev.abandon_touches ..)))))))
      · exact .ite (.after (Dev.ckptEvent_touches ..) (.after (Touches.setPer_any) (.mono (Dev.abandon_touches ..)))) (.after
          (Dev.finishAll_touches ..) (.after (Touches.setPer_any) (.mono (Dev.abandon_touches ..))))))

theorem Dev.ckptCommit_touches (d : Dev) (c : Ckpt) : Touches [.per, .del, .svc, .queues, .hdma, .record] d (Dev.ckptCommit d c)
    [.key, .frs, .can, .med, .adopt, .accs] := by
  unfold Dev.ckptCommit
  exact .after (Dev.ckptNext_touches ..) (.ite (.after (Dev.adoptEnds_touches ..) (by
    split
    · exact .ite (.after (Dev.reportAll_touches ..) (.after (Dev.sendDone_touches ..) (.after (Dev.reconPart_touches ..) (.after
        (Touches.setDel) (.after (Dev.raise_touches ..) (.ite (.after (Dev.ckptEvent_touches ..) (.mono (Touches.setPer_any)))
        (.after (Dev.finishAll_touches ..) (.mono (Touches.setPer_any))))))))) (.after (Dev.reconFails_touches ..) (.after
        (Dev.reportAll_touches ..) (.after (Dev.sendDone_touches ..) (.after (Dev.reconPart_touches ..) (.after (Touches.setDel)
        (.after (Dev.raise_touches ..) (.ite (.after (Dev.ckptEvent_touches ..) (.mono (Touches.setPer_any))) (.after
        (Dev.finishAll_touches ..) (.mono (Touches.setPer_any))))))))))
    · exact by
        split
        · exact .after (Dev.reconFails_touches ..) (.after (Dev.raise_touches ..) (.ite (.after (Dev.ckptEvent_touches ..)
            (.mono (Touches.setPer_any))) (.after (Dev.finishAll_touches ..) (.mono (Touches.setPer_any)))))
        · exact .after (Dev.raise_touches ..) (.ite (.after (Dev.ckptEvent_touches ..) (.mono (Touches.setPer_any))) (.after
            (Dev.finishAll_touches ..) (.mono (Touches.setPer_any)))))) (by
    split
    · exact .ite (.after (Dev.reportAll_touches ..) (.after (Dev.sendDone_touches ..) (.after (Dev.reconPart_touches ..) (.after
        (Touches.setDel) (.after (Dev.raise_touches ..) (.ite (.after (Dev.ckptEvent_touches ..) (.mono (Touches.setPer_any)))
        (.after (Dev.finishAll_touches ..) (.mono (Touches.setPer_any))))))))) (.after (Dev.reconFails_touches ..) (.after
        (Dev.reportAll_touches ..) (.after (Dev.sendDone_touches ..) (.after (Dev.reconPart_touches ..) (.after (Touches.setDel)
        (.after (Dev.raise_touches ..) (.ite (.after (Dev.ckptEvent_touches ..) (.mono (Touches.setPer_any))) (.after
        (Dev.finishAll_touches ..) (.mono (Touches.setPer_any))))))))))
    · exact by
        split
        · exact .after (Dev.reconFails_touches ..) (.after (Dev.raise_touches ..) (.ite (.after (Dev.ckptEvent_touches ..)
            (.mono (Touches.setPer_any))) (.after (Dev.finishAll_touches ..) (.mono (Touches.setPer_any)))))
        · exact .after (Dev.raise_touches ..) (.ite (.after (Dev.ckptEvent_touches ..) (.mono (Touches.setPer_any))) (.after
            (Dev.finishAll_touches ..) (.mono (Touches.setPer_any))))))

theorem Dev.issueImage_touches (img : Bytes) (copy : Nat) (rs : List Nat) (d : Dev) : Touches [.per, .del, .svc, .queues, .hdma,
    .med, .record] d (Dev.issueImage img copy rs d) [.adopt, .frs, .key, .can, .accs] := by
  induction rs generalizing d with
  | nil => exact .refl _
  | cons r rs ih =>
    unfold Dev.issueImage
    exact .ite ((.after (Dev.ckptFail_touches ..) (.mono (Dev.raise_touches ..)))) ((.after (ih _) (.mono (Dev.media_touches
      ..))))

theorem Dev.cutNow_touches (d : Dev) (c : Ckpt) : Touches [.per, .del, .svc, .queues, .hdma, .med, .key, .can, .record] d
    (Dev.cutNow d c) [.adopt, .frs, .accs] := by
  unfold Dev.cutNow
  split
  · exact .after (Dev.issueImage_touches ..) (.after (Touches.setPer) (.after (Dev.abandon_touches ..) (.after (Dev.draw_touches
      ‹_›) (.mono (Dev.noteDue_touches ..)))))
  · exact .after (Touches.setPer) (.mono (Dev.noteDue_touches ..))

theorem Dev.heldAll_touches (d : Dev) : Touches [.per, .del] d (Dev.heldAll d) := by
  unfold Dev.heldAll
  split
  · exact .refl _
  · rename_i ht
    refine .of_whole (fun h => nomatch h.2.1.symm.trans ht) ?_
    exact .ite (.after (Touches.setPer) (.after (Dev.broadcast_touches ..) (.mono (Touches.setDel_pool)))) (.refl _)

theorem Dev.takeHeld_touches (d : Dev) (p : Nat) (q : BitVec 64) : Touches [.per, .del] d (Dev.takeHeld d p q) := by
  unfold Dev.takeHeld
  split
  · exact .refl _
  · rename_i ht
    refine .of_whole (fun h => nomatch h.2.1.symm.trans ht) ?_
    exact .ite (.refl _) (.after (Dev.heldAll_touches ..) (.mono (Touches.setDel_pool)))

theorem Dev.sendHeld_touches (d : Dev) (q : BitVec 64) : Touches [.per, .del] d (Dev.sendHeld d q) := by
  unfold Dev.sendHeld
  exact .ite (.mono (Dev.takeHeld_touches ..)) (.mono (Dev.toCoord_touches ..))

theorem Dev.ckptCut_touches (d : Dev) (c : Ckpt) : Touches [.per, .del, .svc, .queues, .hdma, .med, .key, .can, .record] d
    (Dev.ckptCut d c) [.adopt, .frs, .accs] := by
  unfold Dev.ckptCut
  split
  · exact .mono (Dev.cutNow_touches ..)
  · exact .ite (.mono (Dev.cutNow_touches ..)) (.ite (.refl _) (by
      dsimp only
      split
      · exact .ite (.after (Dev.cutNow_touches ..) (.after (Dev.sendHeld_touches ..) (.mono (Touches.setPer)))) (.after
          (Dev.sendHeld_touches ..) (.mono (Touches.setPer)))
      · exact .after (Dev.sendHeld_touches ..) (.mono (Touches.setPer))))

theorem Dev.recordWord_touches (d : Dev) (w : Option Word32) : Touches [.per] d (Dev.recordWord d w) := by
  unfold Dev.recordWord
  exact .mono (Touches.setPer)

theorem Dev.anvilEnds_touches (d : Dev) (write : Bool) (ans : Option Word32) : Touches [.per, .del, .queues, .hdma, .med, .svc,
    .record] d (Dev.anvilEnds d write ans) [.key, .frs, .can, .adopt, .accs] := by
  unfold Dev.anvilEnds
  exact .ite (.after (Dev.recordWord_touches ..) (.ite (.mono (Dev.raise_touches ..)) (.refl _))) (.ite (.after
    (Dev.ckptFail_touches ..) (.ite (.mono (Dev.raise_touches ..)) (.refl _))) (.after (Touches.setPer_any) (.ite (.mono
    (Dev.raise_touches ..)) (.refl _))))

theorem Dev.pumpAnvil_touches (n : Nat) (d : Dev) : Touches [.per, .del, .svc, .queues, .hdma, .med, .record] d (Dev.pumpAnvil n
    d) [.adopt, .frs, .key, .can, .accs] := by
  induction n generalizing d with
  | zero => exact .refl _
  | succ n ih =>
    unfold Dev.pumpAnvil
    refine .ite (.refl _) ?_
    split
    · exact .refl _
    · exact .ite ((.after (Dev.emit_touches ..) (.mono (Touches.setPer)))) ((.after (ih _) (.mono (Dev.anvilEnds_touches ..))))

theorem Dev.issueMap_touches (rs : List Nat) (d : Dev) : Touches [.per, .med] d (Dev.issueMap rs d) := by
  induction rs generalizing d with
  | nil => exact .refl _
  | cons r rs ih =>
    unfold Dev.issueMap
    exact .ite ((.after (Touches.setPer) ((.after (Dev.raise_touches ..) (.mono (Dev.abandon_touches ..)))))) ((.after (ih _)
      (.mono (Dev.media_touches ..))))

theorem Dev.startArm_touches (d : Dev) : Touches [.per, .med, .record] d (Dev.startArm d) := by
  unfold Dev.startArm
  exact .after (Dev.issueMap_touches ..) (.mono (Touches.setPer_any (openMap := fun h => .nil)))

theorem Dev.arm_touches (d : Dev) : Touches [.per, .del, .record] d (Dev.arm d) [.key, .frs, .can, .med, .adopt, .accs, .queues,
    .hdma, .svc] := by
  unfold Dev.arm
  exact .after (Dev.ckptNext_touches ..) (.after (Dev.raise_touches ..) (.mono (Touches.setPer_any)))

theorem Dev.armWritten_touches (d : Dev) (ok : Bool) : Touches [.per, .med, .record] d (Dev.armWritten d ok) := by
  unfold Dev.armWritten
  exact .ite (.ite (.refl _) (.mono (Dev.raise_touches ..))) (.ite (.mono (Touches.setPer_any)) (.after (Touches.setPer_any)
    (.after (Dev.raise_touches ..) (.mono (Dev.abandon_touches ..)))))

theorem Dev.restoreEnds_touches (d : Dev) (c : Cpl) (loaded : Bool) : Touches [.queues, .hdma, .per] d (Dev.restoreEnds d c
    loaded) := by
  unfold Dev.restoreEnds
  split
  · exact .refl _
  · exact .after (Dev.finishWith_touches ..) (.mono (Touches.setPer))

theorem Dev.restored_touches (d : Dev) (r : Restore) : Touches [.queues, .hdma, .per, .del, .record] d (Dev.restored d r) [.key,
    .frs, .can, .med, .adopt, .accs, .svc] := by
  unfold Dev.restored
  exact .after (Dev.restoreEnds_touches ..) (.after (Dev.arm_touches ..) (.ite (.mono (Dev.raise_touches ..)) (.refl _)))

theorem Dev.restoreCheck_touches (d : Dev) : Touches [.queues, .hdma, .per, .del, .record] d (Dev.restoreCheck d) [.key, .frs,
    .can, .med, .adopt, .accs, .svc] := by
  unfold Dev.restoreCheck
  split
  · exact .ite (.mono (Dev.restored_touches ..)) (.refl _)
  · exact .refl _

theorem Dev.setChecks_touches (d : Dev) (f : List (Nat × Nat) → List (Nat × Nat)) : Touches [.per] d (Dev.setChecks d f) := by
  unfold Dev.setChecks
  exact .mono (Touches.setPer)

theorem Dev.decideZone_touches (s : Nat) (z : Nat) (d : Dev) : Touches [.frs, .svc, .med, .per] d (Dev.decideZone s z d) := by
  unfold Dev.decideZone
  dsimp only
  split
  · exact .mono (Dev.zoneTo_touches ..)
  · exact .ite (.mono (Dev.zoneTo_touches ..)) (.ite (.mono (Dev.zoneTo_touches ..)) (.ite (.mono (Dev.zoneTo_touches ..)) (.ite
      (.mono (Dev.zoneTo_touches ..)) (.ite (.mono (Dev.zoneTo_touches ..)) (.after (Dev.media_touches ..) (.mono
      (Dev.setChecks_touches ..)))))))
  · exact .refl _

theorem Dev.decideZones_touches (d : Dev) (r : Restore) : Touches [.queues, .hdma, .per, .del, .frs, .svc, .med, .record] d
    (Dev.decideZones d r) [.key, .can, .adopt, .accs] := by
  unfold Dev.decideZones
  exact .after (Dev.restoreCheck_touches ..) (.forAllAfter (fun _ _ => .mono (Dev.decideZone_touches ..)) (.mono
    (Touches.setPer)))

theorem Dev.restoreL8_touches (d : Dev) (z : Nat) (b : Beat) (ecc : BitVec 2) : Touches [.queues, .hdma, .per, .del, .frs, .svc,
    .can, .med, .record] d (Dev.restoreL8 d z b ecc).1 [.key, .adopt, .accs] := by
  unfold Dev.restoreL8
  split
  · exact .refl _
  · exact .ite1 (.after (Dev.restoreCheck_touches ..) (.after (Dev.zoneTo_touches ..) (.mono (Dev.setChecks_touches ..))))
      (.ite1 (.after (Dev.restoreCheck_touches ..) (.getD (fun _ h => .after (Dev.fillNode_touches h) (.after
      (Dev.zoneTo_touches ..) (.mono (Dev.setChecks_touches ..)))) (.after (Dev.zoneTo_touches ..) (.mono (Dev.setChecks_touches
      ..))))) (by
      split
      · exact .after (Dev.restoreCheck_touches ..) (.after (Dev.zoneTo_touches ..) (.mono (Dev.setChecks_touches ..)))
      · exact .after (Dev.media_touches ..) (.mono (Dev.setChecks_touches ..))))

theorem Dev.restoreL8Gone_touches (d : Dev) (z : Nat) : Touches [.queues, .hdma, .per, .del, .frs, .svc, .record] d
    (Dev.restoreL8Gone d z) [.key, .can, .med, .adopt, .accs] := by
  unfold Dev.restoreL8Gone
  exact .after (Dev.restoreCheck_touches ..) (.after (Dev.zoneTo_touches ..) (.mono (Dev.setChecks_touches ..)))

/-- A table made index by index has its keys in order. -/
theorem rangeTab_rising {α : Type} (n : Nat) {f : Nat → Option (Nat × α)} (hf : ∀ i p, f i = some p → p.1 = i) :
    Tab.rising ((List.range n).filterMap f) :=
  List.Pairwise.filterMap f (fun i j hij p hp q hq => by rwa [hf i p hp, hf j q hq]) List.pairwise_lt_range

theorem Dev.loadImage_touches (d : Dev) (h body : Bytes) (copy : Nat) : Touches [.frs, .rmp, .svc, .per, .del, .record] d
    (d.loadImage h body copy) := by
  unfold Dev.loadImage
  extract_lets fmt zs entry part regions rekeys fronts
  have hz : Tab.rising zs := List.Pairwise.map _ (fun _ _ h => h) List.pairwise_lt_range
  have hr : Tab.rising regions := rangeTab_rising _ fun i p hp => by split at hp <;> cases hp; rfl
  have hk : Tab.rising rekeys := rangeTab_rising _ fun i p hp => by split at hp <;> cases hp; rfl
  have hf : Tab.rising fronts := rangeTab_rising _ fun i p hp => by split at hp <;> cases hp; rfl
  clear_value zs regions rekeys fronts
  refine .of_kept (fun a ha => ?_) (fun h => { h with
    zones := hz.filter _, rmpA := hr, staleA := .nil, rmpB := .nil, staleB := .nil, rekey := hk, fronts := hf }) id
  cases a
  case adopt => exact id
  case peers => exact rfl
  case parted => exact id
  all_goals simp_all [Kept]

theorem Dev.readRows_touches (a : Nat) (why : Nat → MedWhy) (rows : List Nat) (d : Dev) : Touches [.med] d (Dev.readRows a why
    rows d).1 := by
  unfold Dev.readRows
  suffices ∀ (r : Dev × Nat), Touches [.med] d r.1 → Touches [.med] d (rows.foldl (fun (r : Dev × Nat) i =>
      if r.1.lineGone (a + i) then (r.1, r.2) else (r.1.media 2 (a + i) default (why i), r.2 + 1)) r).1 from this _ (.refl _)
  induction rows with
  | nil => exact fun r h => h
  | cons l ls ih => exact fun r h => ih _ (.ite1 h ((.after (Dev.media_touches ..) h)))

theorem Dev.setRestore_touches (d : Dev) (r : Restore) : Touches [.per] d (Dev.setRestore d r) := by
  unfold Dev.setRestore
  exact .mono (Touches.setPer)

/-- With the open map read, the restore decides or waits for the rest. -/
theorem openMapRead_touches {d e : Dev} (k : Touches [.queues, .hdma, .per, .del, .frs, .svc, .med, .record] d e [.key, .can,
    .adopt, .accs]) {t : Tab (BitVec 64)} (ht : Tab.rising e.per.openMap → Tab.rising t)
    (r : Restore) (n : Nat) : Touches [.queues, .hdma, .per, .del, .frs, .svc, .med, .record] d
      (if n = 0 then { e with per.openMap := t }.decideZones r else { e with per.openMap := t }.setRestore r) [.key, .can,
        .adopt, .accs] :=
  have h : Touches [.queues, .hdma, .per, .del, .frs, .svc, .med, .record] d { e with per.openMap := t } [.key, .can, .adopt,
      .accs] := .after (Touches.setPer (openMap := ht)) k
  .ite (.after (Dev.decideZones_touches ..) h) (.after (Dev.setRestore_touches ..) h)

theorem Dev.readMap_touches (d : Dev) (r : Restore) : Touches [.queues, .hdma, .per, .del, .frs, .svc, .med, .record] d
    (d.readMap r) [.key, .can, .adopt, .accs] := by
  unfold Dev.readMap
  exact openMapRead_touches (.after (Dev.readRows_touches ..) (.mono (Touches.setPer (openMap := fun _ => .nil))))
    (foldl_rising fun _ _ h => put_rising _ _ h) _ _

theorem Dev.checkCopy_touches {d : Dev} {r : Restore} {e : Dev} (h : d.checkCopy r = some e) : Touches [.frs, .rmp, .svc, .per,
    .del, .med, .queues, .hdma, .record] d e [.adopt, .key, .can, .accs] := by
  unfold Dev.checkCopy at h
  split at h
  · cases h
  · split at h
    · obtain ⟨x, _, rfl⟩ := Option.map_eq_some_iff.mp h
      exact (.after (Dev.readMap_touches ..) (.mono (Dev.loadImage_touches ..)))
    · cases h

theorem Dev.tryRecords_touches (n : Nat) (r : Restore) (d : Dev) : Touches [.med, .per, .queues, .hdma, .record] d
    (Dev.tryRecords n r d) := by
  induction n generalizing r d with
  | zero => exact (.mono (Dev.setRestore_touches ..))
  | succ n ih =>
    unfold Dev.tryRecords
    split
    · exact .ite ((.after (Dev.startArm_touches ..) (.mono (Dev.setRestore_touches ..))))
        ((.after (Dev.restoreEnds_touches ..) ((.after (Dev.setRestore_touches ..) (.mono (Dev.raise_touches ..))))))
    · exact .ite ((.after (ih ..) (.mono (Dev.readRows_touches ..)))) ((.after (Dev.setRestore_touches ..) (.mono
        (Dev.readRows_touches ..))))

theorem Dev.recordsRead_touches (d : Dev) (r : Restore) : Touches [.med, .per, .queues, .hdma, .record] d (Dev.recordsRead d
    r) := by
  unfold Dev.recordsRead
  exact .mono (Dev.tryRecords_touches ..)

theorem Dev.pumpRestore_touches (d : Dev) : Touches [.med, .per, .queues, .hdma, .del, .svc, .record] d (Dev.pumpRestore d)
    [.adopt, .frs, .key, .can, .accs] := by
  unfold Dev.pumpRestore
  dsimp only
  split
  · exact .ite (.after (Dev.recordsRead_touches ..) (.mono (Dev.pumpAnvil_touches ..))) (.mono (Dev.pumpAnvil_touches ..))
  · exact .mono (Dev.pumpAnvil_touches ..)

theorem Dev.restoreRow_touches (d : Dev) (row : Nat) (x : Option Line) : Touches [.per, .frs, .rmp, .svc, .del, .med, .queues,
    .hdma, .record] d (Dev.restoreRow d row x) [.adopt, .key, .can, .accs] := by
  unfold Dev.restoreRow
  split
  · exact .refl _
  · exact .ite (.refl _) (.ite (.mono (Dev.setRestore_touches ..)) (by
      split
      · exact .mono (Dev.checkCopy_touches ‹_›)
      · exact .mono (Dev.tryRecords_touches ..)))

theorem Dev.restoreMapRow_touches (d : Dev) (row : Nat) (x : Option Line) : Touches [.queues, .hdma, .per, .del, .frs, .svc,
    .med, .record] d (d.restoreMapRow row x) [.key, .can, .adopt, .accs] := by
  unfold Dev.restoreMapRow
  split
  · exact .refl _
  · have h {t : Tab (BitVec 64)} (ht : Tab.rising d.per.openMap → Tab.rising t) : Touches [.queues, .hdma, .per, .del, .frs,
      .svc, .med, .record] d { d with per.openMap := t } [.key, .can, .adopt, .accs] :=
      .mono (Touches.setPer (openMap := ht))
    exact .ite (.after (Dev.decideZones_touches ..) (h (foldl_rising fun _ _ h => put_rising _ _ h)))
      (.after (Dev.setRestore_touches ..) (h (foldl_rising fun _ _ h => put_rising _ _ h)))

theorem Dev.drbgUp_touches (d : Dev) : Touches [.med, .per, .queues, .hdma, .del, .svc, .record] d (Dev.drbgUp d) [.adopt, .frs,
    .key, .can, .accs] := by
  unfold Dev.drbgUp
  dsimp only
  split
  · exact .ite (.after (Dev.pumpRestore_touches ..) (.after (Dev.setRestore_touches ..) (.ite (.mono (Dev.startArm_touches ..))
      (.refl _)))) (.ite (.mono (Dev.startArm_touches ..)) (.refl _))
  · exact .ite (.mono (Dev.startArm_touches ..)) (.refl _)

theorem Dev.anvilAnswer_touches (d : Dev) (a : Anv) (ans : Option Word32) (squall : Bool) : Touches [.per, .del, .queues, .hdma,
    .med, .svc, .record] d (Dev.anvilAnswer d a ans squall) [.key, .frs, .can, .adopt, .accs] := by
  unfold Dev.anvilAnswer
  exact .ite (.ite (.ite (.after (Dev.raise_touches ..) (.mono (Touches.setPer))) (.mono (Touches.setPer))) (.after
    (Dev.anvilEnds_touches ..) (.mono (Touches.setPer)))) (.after (Dev.pumpAdopt_touches ..) (.after (Dev.pumpRestore_touches
    ..) (.ite (.ite (.after (Dev.raise_touches ..) (.mono (Touches.setPer))) (.mono (Touches.setPer))) (.after
    (Dev.anvilEnds_touches ..) (.mono (Touches.setPer))))))

theorem Dev.imageWritten_touches (d : Dev) (row : Nat) (ok : Bool) : Touches [.per, .del, .queues, .hdma, .med, .svc, .record] d
    (Dev.imageWritten d row ok) [.key, .frs, .can, .adopt, .accs] := by
  unfold Dev.imageWritten
  exact .ite (.ite (.refl _) (.mono (Dev.raise_touches ..))) (.ite (.mono (Touches.setPer)) (.after (Dev.ckptFail_touches ..)
    (.mono (Dev.raise_touches ..))))

theorem Dev.openWritten_touches (d : Dev) (z : Nat) (ok : Bool) : Touches [.per] d (Dev.openWritten d z ok) := by
  unfold Dev.openWritten
  exact .ite (.ite (.refl _) (.mono (Dev.raise_touches ..))) (.ite (.after (Touches.setPer) (.mono (Touches.setPer))) (.after
    (Touches.setPer) (.after (Dev.raise_touches ..) (.mono (Touches.setPer)))))

theorem Dev.adoptNode_touches (d : Dev) (x : NodeId) (b : Beat) (ecc : BitVec 2) : Touches [] d (Dev.adoptNode d x b ecc).1
    [.per, .adopt, .can, .accs, .med, .frs, .key, .queues, .hdma, .svc] := by
  refine .whileAdopting (fun _ => ?_) fun h => by simp only [Dev.adoptNode, h]
  unfold Dev.adoptNode
  split
  · exact .refl _
  · exact by
      split
      · exact .refl _
      · exact .ite1 (.refl _) (.ite1 (.ite (.after (Dev.pumpAdopt_touches ..) (.mono (Dev.adoptNoTop_touches ..))) (.after
          (Dev.pumpAdopt_touches ..) (.mono (Dev.adoptFails_touches ..)))) (.ite1 (.after (Dev.pumpAdopt_touches ..) (.mono
          (Dev.setAdopt_touches ..))) (by
          split
          · exact .after (Dev.pumpAdopt_touches ..) (.mono (Dev.adoptFails_touches ..))
          · exact .after (Dev.media_touches ..) (.mono (Dev.setAdopt_touches ..)))))

theorem Dev.adoptGone_touches (d : Dev) (x : NodeId) : Touches [] d (Dev.adoptGone d x) [.per, .adopt, .can, .accs, .med, .frs,
    .key, .queues, .hdma, .svc] := by
  refine .whileAdopting (fun _ => ?_) fun h => by simp only [Dev.adoptGone, h]
  unfold Dev.adoptGone
  split
  · exact .refl _
  · exact by
      split
      · exact .refl _
      · exact .ite (.refl _) (.ite (.after (Dev.pumpAdopt_touches ..) (.mono (Dev.adoptNoTop_touches ..))) (.after
          (Dev.pumpAdopt_touches ..) (.mono (Dev.adoptFails_touches ..))))

theorem Dev.adoptWritten_touches (d : Dev) (x : NodeId) (ok : Bool) : Touches [] d (Dev.adoptWritten d x ok) [.per, .adopt,
    .can, .accs, .med, .frs, .key, .queues, .hdma, .svc] := by
  refine .whileAdopting (fun _ => ?_) fun h => by simp only [Dev.adoptWritten, h]
  unfold Dev.adoptWritten
  split
  · exact .refl _
  · exact by
      split
      · exact .refl _
      · exact .ite (.refl _) (.ite (.after (Dev.pumpAdopt_touches ..) (.mono (Dev.adoptFails_touches ..))) (.after
          (Dev.pumpAdopt_touches ..) (.ite (.mono (Dev.adoptWalked_touches ..)) (.mono (Dev.setAdopt_touches ..)))))

theorem Dev.startAdopt_touches (d : Dev) (a : Adopt) : Touches [.queues, .hdma, .svc, .frs, .per, .adopt] d (Dev.startAdopt d a)
    [.key, .can, .med, .accs] := by
  unfold Dev.startAdopt
  exact .after (Dev.pumpAdopt_touches ..) (.ite (.after (Dev.cancelZone_touches ..) (.after (Dev.updZone_touches ..) (.after
    (Dev.zoneTo_touches ..) (.mono (Dev.setAdopt_touches ..))))) (.mono (Dev.setAdopt_touches ..)))

theorem Dev.leafWaits_touches (d : Dev) : Touches [.accs] d (Dev.leafWaits d) := by
  unfold Dev.leafWaits
  exact .forAllAfter (fun _ _ => .ite (.mono (Dev.outcome_touches ..)) (.ite (.mono (Dev.outcome_touches ..)) (by
    split
    · exact .ite (.mono (Dev.outcome_touches ..)) (.refl _)
    · exact .refl _))) (.refl _)

theorem Dev.writeBackGone_touches (d : Dev) (x : NodeId) : Touches [.queues, .hdma, .can, .frs, .accs, .med] d
    (Dev.writeBackGone d x) := by
  unfold Dev.writeBackGone
  split
  · exact .ite (.after (Dev.pumpMaint_touches ..) (.after (Dev.leafWaits_touches ..) (.after (Dev.stick_touches ..) (.mono
      (Dev.updLine_touches ..))))) (.refl _)
  · exact .refl _

theorem Dev.nodeGone_touches (d : Dev) (x : NodeId) : Touches [.frs] d (Dev.nodeGone d x) := by
  unfold Dev.nodeGone
  exact .mono (Touches.setFrs)

theorem Dev.commandGone_touches (d : Dev) (x : MedWhy) : Touches [.accs, .svc, .ports, .fabRest, .stl, .frs, .queues, .hdma,
    .can, .med, .per, .del, .rmp, .decided, .record] d (Dev.commandGone d x) [.key, .adopt] := by
  unfold Dev.commandGone
  split
  · exact by
      split
      · exact .ite (.mono (Dev.endRetired_touches ..)) (.refl _)
      · exact .refl _
  · exact .mono (Dev.nodeGone_touches ..)
  · exact .mono (Dev.writeBackGone_touches ..)
  · exact .mono (Dev.openWritten_touches ..)
  · exact .mono (Dev.armWritten_touches ..)
  · exact .mono (Dev.imageWritten_touches ..)
  · exact .mono (Dev.restoreRow_touches ..)
  · exact .mono (Dev.restoreMapRow_touches ..)
  · exact .mono (Dev.restoreL8Gone_touches ..)
  · exact .mono (Dev.adoptGone_touches ..)
  · exact .mono (Dev.adoptGone_touches ..)

theorem Dev.retireChannel_touches (d : Dev) (n : Nat) (cause : Nat) : Touches [.accs, .svc, .ports, .fabRest, .stl, .frs,
    .queues, .hdma, .can, .med, .per, .del, .rmp, .decided, .record] d (Dev.retireChannel d n cause) [.key, .adopt] := by
  unfold Dev.retireChannel
  dsimp only
  split
  · exact .refl _
  · rename_i hn
    have ha : (if d.mgt.ready then d.accrue else d).chan n = d.chan n := by split <;> rfl
    exact .after (Dev.pumpAdopt_touches ..) (.forAllAfter (fun _ _ => .mono (Dev.commandGone_touches ..)) (.after
      (Dev.event_touches ..)
      (.after (Dev.setChan_touches _ _ _ (hr := fun h => absurd (ha ▸ h) hn)) (.ite (.mono (Dev.accrue_touches ..))
        (.refl _)))))

theorem Dev.writeThreshold_touches (d : Dev) (v : Nat) : Touches [.med] d (Dev.writeThreshold d v) := by
  unfold Dev.writeThreshold
  have h : Touches [.med] d (forAll (List.range Config.channels) (fun n e => e.setChan n { e.chan n with
      oldThreshold := (e.chan n).oldThreshold.orElse fun _ => some d.med.threshold }) d) :=
    .forAllAfter (fun _ _ => .mono (Dev.setChan_touches ..)) (.refl _)
  generalize forAll (List.range Config.channels) _ d = e at h ⊢
  exact .after Touches.setMed h

theorem Dev.transient_touches (d : Dev) (n : Nat) : Touches [.accs, .svc, .ports, .fabRest, .stl, .frs, .queues, .hdma, .can,
    .med, .per, .del, .rmp, .decided, .record] d (Dev.transient d n) [.key, .adopt] := by
  unfold Dev.transient
  exact .ite (.refl _) (.ite (.after (Dev.retireChannel_touches ..) (.ite (.after (Dev.raise_touches ..) (.mono
    (Dev.setChan_touches ..))) (.mono (Dev.setChan_touches ..)))) (.ite (.after (Dev.raise_touches ..) (.mono
    (Dev.setChan_touches ..))) (.mono (Dev.setChan_touches ..))))

theorem Dev.retireSafe_touches (d : Dev) (n : Nat) (cause : Nat) : Touches [.med] d (Dev.retireSafe d n cause) := by
  unfold Dev.retireSafe
  dsimp only
  split
  · exact .refl _
  · rename_i hn
    exact .after (Dev.event_touches ..) (.mono (Dev.setChan_touches _ _ _ (hr := fun h => absurd h hn)))

theorem Dev.finding_touches (d : Dev) (drizzle : Bool) (zone : Nat) (kind : Nat) (level : Nat) (at_ : Nat) : Touches [.svc] d
    (Dev.finding d drizzle zone kind level at_) := by
  unfold Dev.finding
  exact .after (Dev.event_touches ..) (.after (Dev.raise_touches ..) (.mono (Touches.setSvc)))

theorem Dev.alarm_touches (d : Dev) (a : Access) (attempts : Nat) : Touches [] d (Dev.alarm d a attempts) := by
  unfold Dev.alarm
  exact .mono (Dev.event_touches ..)

theorem Dev.countCheck_touches (d : Dev) (a : Access) : Touches [.svc] d (Dev.countCheck d a) := by
  unfold Dev.countCheck
  exact .ite (.mono (Touches.setSvc)) (.refl _)

theorem Dev.permanent_touches (d : Dev) (a : Access) (macFail : Bool) : Touches [.ports, .accs, .fabRest, .stl, .svc, .med,
    .can, .frs, .sessions, .decided] d (Dev.permanent d a macFail) := by
  unfold Dev.permanent
  exact .after (Dev.proceed_touches ..) (.after (Dev.updAcc_any ..) (.ite (.after (Dev.finding_touches ..) (.mono
    (Dev.countCheck_touches ..))) (.ite (.after (Dev.alarm_touches ..) (.mono (Dev.raise_touches ..))) (.mono (Dev.raise_touches
    ..)))))

theorem Dev.attemptFails_touches (d : Dev) (a : Access) (mac : Bool) : Touches [.accs, .svc, .ports, .fabRest, .stl, .med, .can,
    .frs, .sessions, .decided] d (Dev.attemptFails d a mac) := by
  unfold Dev.attemptFails
  exact .ite (.after (Dev.readData_touches ..) (.mono (Dev.updAcc_any ..))) (.after (Dev.permanent_touches ..) (.mono
    (Dev.updAcc_any ..)))

theorem Dev.attemptPasses_touches (d : Dev) (a : Access) : Touches [.accs, .svc, .ports, .fabRest, .stl, .frs, .queues, .hdma,
    .can, .med, .per, .del, .rmp, .decided, .record] d (Dev.attemptPasses d a) [.key, .adopt] := by
  unfold Dev.attemptPasses
  exact .ite (.after (Dev.transient_touches ..) (.mono (Dev.raise_touches ..))) (.refl _)

theorem Dev.dataBeat_touches (d : Dev) (id : Nat) (b : Beat) (ecc : BitVec 2) : Touches [.accs, .svc, .ports, .fabRest, .stl,
    .med, .can, .frs, .sessions, .decided] d (Dev.dataBeat d id b ecc) := by
  unfold Dev.dataBeat
  split
  · exact .refl _
  · exact .ite (.refl _) (.ite (.mono (Dev.outcome_touches ..)) (.ite (.mono (Dev.attemptFails_touches ..)) (.mono
      (Dev.updAcc_any ..))))

theorem Dev.readBeat_touches (d : Dev) (why : MedWhy) (b : Beat) (ecc : BitVec 2) : Touches [.accs, .svc, .ports, .fabRest,
    .stl, .med, .can, .frs, .sessions, .per, .rmp, .del, .queues, .hdma, .decided, .record] d (Dev.readBeat d why b ecc)
    [.adopt, .key] := by
  unfold Dev.readBeat
  dsimp only
  split
  · exact .mono (Dev.dataBeat_touches ..)
  · exact .mono (Dev.nodeBeat_touches ..)
  · exact .mono (Dev.restoreRow_touches ..)
  · exact .mono (Dev.restoreMapRow_touches ..)
  · exact .ite (.after (Dev.transient_touches ..) (.after (Dev.raise_touches ..) (.mono (Dev.restoreL8_touches ..)))) (.mono
      (Dev.restoreL8_touches ..))
  · exact .ite (.after (Dev.transient_touches ..) (.after (Dev.raise_touches ..) (.mono (Dev.adoptNode_touches ..)))) (.mono
      (Dev.adoptNode_touches ..))
  · exact .refl _

theorem Dev.beatErrors_touches (d : Dev) (why : MedWhy) (ecc : BitVec 2) (zenith : Bool) (key : Option (KeyRef × Bool)) :
    Touches [.key, .lan, .accs, .queues, .hdma, .svc, .frs, .ports, .fabRest, .stl, .can, .med, .decided] d (Dev.beatErrors d
    why ecc zenith key) := by
  unfold Dev.beatErrors
  split
  · exact .after (Dev.keyError_touches ..) (.mono (Dev.zenithRead_touches ..))
  · exact .mono (Dev.zenithRead_touches ..)
  · exact .mono (Dev.keyError_touches ..)
  · exact .after (Dev.keyError_touches ..) (.mono (Dev.zenithRead_touches ..))
  · exact .mono (Dev.zenithRead_touches ..)
  · exact .refl _

theorem Dev.dataWritten_touches (d : Dev) (id : Nat) (ok : Bool) : Touches [.ports, .accs, .fabRest, .stl, .svc, .med, .can,
    .frs, .sessions, .decided] d (Dev.dataWritten d id ok) := by
  unfold Dev.dataWritten
  split
  · exact .refl _
  · exact .ite (.refl _) (.ite (.after (Dev.proceed_touches ..) (.after (Dev.updAcc_any ..) (.mono (Dev.raise_touches ..)))) (by
      split
      · exact .mono (Dev.leave_touches ..)
      · exact .ite (.mono (Dev.outcome_touches ..)) (.ite (.after (Dev.leafWaits_touches ..) (.mono (Dev.updAcc_any ..))) (.mono
          (Dev.outcome_touches ..)))))

theorem Dev.leafDone_touches (d : Dev) (x : NodeId) : Touches [.accs] d (Dev.leafDone d x) := by
  unfold Dev.leafDone
  exact .mono (Touches.mapAccs)

theorem Dev.nodeWritten_touches (d : Dev) (x : NodeId) (ok : Bool) : Touches [.queues, .hdma, .can, .frs, .accs, .med, .per] d
    (Dev.nodeWritten d x ok) := by
  unfold Dev.nodeWritten
  split
  · exact .refl _
  · exact .ite (.refl _) (.ite (.after (Dev.pumpMaint_touches ..) (.after (Dev.leafWaits_touches ..) (.after
      (Dev.nodeError_touches ..) (.mono (Dev.updLine_touches ..))))) (.after (Dev.trimStaging_touches ..) (.after
      (Dev.afterClean_touches ..) (.after (Dev.leafWaits_touches ..) (.after (Dev.maintWritten_touches ..) (.after
      (Dev.noteDirty_touches ..) (.after (Touches.setPer) (.after (Dev.leafDone_touches ..) (.mono (Dev.updLine_touches
      ..))))))))))

theorem Dev.writeDone_touches (d : Dev) (why : MedWhy) (ok : Bool) : Touches [.ports, .accs, .fabRest, .stl, .svc, .med, .can,
    .frs, .sessions, .queues, .hdma, .per, .del, .decided, .record] d (Dev.writeDone d why ok) [.key, .adopt] := by
  unfold Dev.writeDone
  split
  · exact .mono (Dev.dataWritten_touches ..)
  · exact .after (Dev.pumpAdopt_touches ..) (.mono (Dev.nodeWritten_touches ..))
  · exact .after (Dev.pumpAdopt_touches ..) (.mono (Dev.openWritten_touches ..))
  · exact .mono (Dev.armWritten_touches ..)
  · exact .after (Dev.pumpAdopt_touches ..) (.mono (Dev.imageWritten_touches ..))
  · exact .mono (Dev.adoptWritten_touches ..)
  · exact .refl _

theorem Dev.keyless_touches {d : Dev} {a : Access} {e : Dev} (h : d.keyless a = some e) : Touches [.accs, .svc, .ports,
    .fabRest, .stl, .decided] d e := by
  unfold Dev.keyless at h
  split at h
  · cases h
  · split at h
    · cases h
      exact (.mono (Dev.outcome_touches ..))
    · split at h
      · cases h
        exact (Dev.endRetired_touches ..)
      · split at h
        · obtain ⟨_, h⟩ := Option.ite_none_right_eq_some.mp h
          exact Option.some_inj.mp h ▸ (.mono (Dev.outcome_touches ..))
        · cases h

theorem Dev.writeData_touches (d : Dev) (a : Access) (b : Beat) : Touches [.accs, .svc, .ports, .fabRest, .stl, .med, .decided]
    d (Dev.writeData d a b) := by
  unfold Dev.writeData
  exact .ite (.mono (Dev.endRetired_touches ..)) (.after (Dev.media_touches ..) (.mono (Dev.updAcc_any ..)))

theorem Dev.writeHalf_touches (d : Dev) (a : Access) : Touches [.accs, .svc, .ports, .fabRest, .stl, .med, .decided] d
    (Dev.writeHalf d a) := by
  unfold Dev.writeHalf
  dsimp only
  split
  · exact .mono (Dev.writeData_touches ..)
  · exact .mono (Dev.writeData_touches ..)
  · exact by
      split
      · exact .mono (Dev.writeData_touches ..)
      · exact .refl _
  · exact .mono (Dev.writeData_touches ..)
  · exact by
      split
      · exact .mono (Dev.writeData_touches ..)
      · exact .refl _
  · exact .refl _

theorem Dev.verifiedOld_touches (d : Dev) (a : Access) : Touches [.accs, .svc, .ports, .fabRest, .stl, .med, .can, .frs,
    .sessions, .queues, .hdma, .per, .del, .rmp, .decided, .record] d (Dev.verifiedOld d a) [.key, .adopt] := by
  unfold Dev.verifiedOld
  dsimp only
  split
  · exact .ite (.after (Dev.writeHalf_touches ..) (.after (Dev.proceed_touches ..) (.after (Dev.updAcc_any ..) (.mono
      (Dev.attemptPasses_touches ..))))) (.after (Dev.proceed_touches ..) (.after (Dev.updAcc_any ..) (.mono
      (Dev.attemptPasses_touches ..))))
  · exact .after (Dev.proceed_touches ..) (.after (Dev.updAcc_any ..) (.mono (Dev.attemptPasses_touches ..)))

theorem Dev.tagMismatch_touches (d : Dev) (a : Access) : Touches [.accs, .ports] d (Dev.tagMismatch d a) := by
  unfold Dev.tagMismatch
  split
  · exact .after (Dev.outcome_touches ..) (.mono (Dev.setPort_touches ..))
  · exact .refl _

theorem Dev.rekeyLine_touches (d : Dev) (a : Access) (s : Step) : Touches [.accs, .svc, .ports, .fabRest, .stl, .med, .can,
    .frs, .sessions, .queues, .hdma, .per, .del, .rmp, .decided, .record] d (Dev.rekeyLine d a s) [.key, .adopt] := by
  unfold Dev.rekeyLine
  exact .ite (.mono (Dev.verifiedOld_touches ..)) (.ite (.after (Dev.leave_touches ..) (.after (Dev.countSkip_touches ..) (.mono
    (Dev.attemptPasses_touches ..)))) (.ite (.after (Dev.leave_touches ..) (.after (Dev.raise_touches ..) (.mono
    (Touches.setSvc)))) (.mono (Dev.attemptFails_touches ..))))

theorem Dev.checkLine_touches (d : Dev) (a : Access) (s : Step) : Touches [.ports, .accs, .fabRest, .stl, .svc, .frs, .queues,
    .hdma, .can, .med, .per, .del, .rmp, .sessions, .decided, .record] d (Dev.checkLine d a s) [.key, .adopt] := by
  unfold Dev.checkLine
  exact .ite (.after (Dev.leave_touches ..) (.after (Dev.countCheck_touches ..) (.mono (Touches.setSvc)))) (.ite (.after
    (Dev.leave_touches ..) (.after (Dev.countCheck_touches ..) (.mono (Dev.attemptPasses_touches ..)))) (.mono
    (Dev.attemptFails_touches ..)))

theorem Dev.sealRead_touches (d : Dev) (a : Access) : Touches [.ports, .accs, .fabRest, .stl, .svc, .frs, .queues, .hdma, .can,
    .med, .per, .del, .rmp, .sessions, .decided, .record] d (Dev.sealRead d a) [.key, .adopt] := by
  unfold Dev.sealRead
  exact .ite (.after (Dev.leave_touches ..) (.mono (Dev.sealLine_touches ..))) (.ite (.after (Dev.leave_touches ..) (.after
    (Dev.sealLine_touches ..) (.mono (Dev.voidLine_touches ..)))) (.ite (.after (Dev.leave_touches ..) (.after
    (Dev.sealLine_touches ..) (.mono (Dev.attemptPasses_touches ..)))) (.mono (Dev.attemptFails_touches ..))))

theorem Dev.hashed_touches (d : Dev) (a : Access) : Touches [.accs, .svc, .queues, .hdma, .frs, .ports, .fabRest, .stl,
    .decided] d (Dev.hashed d a) := by
  unfold Dev.hashed
  dsimp only
  split
  · exact .mono (Dev.updAcc_any ..)
  · exact .ite (.mono (Dev.updAcc_any ..)) (.after (Dev.chunkHashed_touches ..) (.mono (Dev.updAcc_any ..)))

theorem Dev.readOut_touches (d : Dev) (id : Nat) : Touches [.accs] d (Dev.readOut d id) := by
  unfold Dev.readOut
  split
  · exact .ite (.mono (Dev.outcome_touches ..)) (.refl _)
  · exact .refl _

theorem Dev.passOut_touches (d : Dev) (a : Access) : Touches [.accs, .ports, .sessions, .svc, .fabRest, .stl, .frs, .queues,
    .hdma, .can, .med, .per, .del, .rmp, .decided, .record] d (Dev.passOut d a) [.key, .adopt] := by
  unfold Dev.passOut
  split
  · exact .ite (.mono (Dev.readOut_touches ..)) (.ite (.mono (Dev.tagMismatch_touches ..)) (.ite (.after (Dev.readOut_touches
      ..) (.after (Dev.placeRead_touches ..) (.after (Dev.updAcc_touches ..) (.mono (Dev.attemptPasses_touches ..))))) (.mono
      (Dev.attemptFails_touches ..))))
  · exact .mono (Dev.readOut_touches ..)
  · exact .ite (.mono (Dev.tagMismatch_touches ..)) (.ite (.mono (Dev.verifiedOld_touches ..)) (.mono (Dev.attemptFails_touches
      ..)))
  · exact by
      split
      · exact .mono (Dev.rekeyLine_touches ..)
      · exact .refl _
  · exact by
      split
      · exact .mono (Dev.checkLine_touches ..)
      · exact .refl _
  · exact .mono (Dev.sealRead_touches ..)
  · exact .mono (Dev.hashed_touches ..)
  · exact .mono (Dev.writeHalf_touches ..)

theorem Dev.inLane_touches (d : Dev) (a : Access) (x : Nat) : Touches [.svc, .accs] d (Dev.inLane d a x) := by
  unfold Dev.inLane
  dsimp only
  split
  · exact .after (Dev.updStep_touches ..) (.mono (Dev.updAcc_touches ..))
  · exact .mono (Dev.updAcc_touches ..)

theorem Dev.takePass_touches (d : Dev) (id : Nat) (lane : Nat) (audit : Audit) : Touches [.accs, .svc, .ports, .fabRest, .stl,
    .sessions, .frs, .queues, .hdma, .can, .med, .per, .del, .rmp, .lan, .mgt, .tap, .decided, .record] d (Dev.takePass d id
    lane audit) [.key, .adopt] := by
  unfold Dev.takePass
  split
  · exact .refl _
  · exact .ite (.refl _) (by
      split
      · exact .mono (Dev.keyless_touches ‹_›)
      · exact .ite (.after (Dev.passOut_touches ..) (.after (Dev.inLane_touches ..) (.after (Dev.auditPass_touches ..) (.after
          (Dev.loadKeys_touches ..) (.ite (.mono (Dev.withAuditor_touches ..)) (.refl _)))))) (.after (Dev.auditPass_touches ..)
          (.after (Dev.loadKeys_touches ..) (.ite (.mono (Dev.withAuditor_touches ..)) (.refl _)))))

theorem Dev.nodeRetried_touches (d : Dev) (x : NodeId) : Touches [.accs, .svc, .ports, .fabRest, .stl, .frs, .queues, .hdma,
    .can, .med, .per, .del, .rmp, .decided, .record] d (Dev.nodeRetried d x) [.key, .adopt] := by
  unfold Dev.nodeRetried
  exact .after (Dev.transient_touches ..) (.after (Dev.raise_touches ..) (.mono (Touches.setFrs)))

theorem Dev.rungRetries_touches (d : Dev) (l : Ladder) (rs : List Rung) : Touches [.accs, .svc, .ports, .fabRest, .stl, .frs,
    .queues, .hdma, .can, .med, .per, .del, .rmp, .decided, .record] d (Dev.rungRetries d l rs) [.key, .adopt] := by
  unfold Dev.rungRetries
  exact .forAllAfter (fun _ _ => .mono (Dev.nodeRetried_touches ..)) (.refl _)

theorem Dev.countChecked_touches (d : Dev) (l : Ladder) (level : Nat) : Touches [.can] d (Dev.countChecked d l level) := by
  unfold Dev.countChecked
  exact .ite (.refl _) (.forAllAfter (fun _ _ => .ite (by
    split
    · exact .mono (Dev.countWay_touches ..)
    · exact .refl _) (.refl _)) (.refl _))

theorem Dev.countNodes_touches (d : Dev) (l : Ladder) (rs : List Rung) (level : Nat) : Touches [.can, .svc] d (Dev.countNodes d
    l rs level) := by
  unfold Dev.countNodes
  exact .ite (.mono (Dev.countChecked_touches ..)) (.after (Touches.setSvc) (.mono (Dev.countChecked_touches ..)))

theorem Dev.placeFetched_touches {d : Dev} {l : Ladder} {rs : List Rung} {path : List Nat} {v : Ctr} {e : Dev}
    (h : d.placeFetched l rs path v = some e) : Touches [.can] d e := by
  unfold Dev.placeFetched at h
  split at h
  · exact Option.some_inj.mp h ▸ .refl _
  · obtain ⟨x, hx, rfl⟩ := Option.map_eq_some_iff.mp h
    obtain ⟨y, hy, hx⟩ := Option.bind_eq_some_iff.mp hx
    exact .forAllAfter (fun _ _ => Dev.walkedBy_touches ..) ((.after (Dev.synthPath_touches hx) (Dev.placeRungs_touches hy)))

theorem Dev.placeWaits_touches (d : Dev) (l : Ladder) (rs : List Rung) (path : List Nat) (v : Ctr) : Touches [.can, .frs] d
    (Dev.placeWaits d l rs path v) := by
  unfold Dev.placeWaits
  dsimp only
  split
  · exact .after (Dev.wantSet_touches ..) (.mono (Dev.setLadder_touches ..))
  · exact .mono (Dev.setLadder_touches ..)

theorem Dev.nodeChecked_touches (d : Dev) (id : Nat) : Touches [.svc] d (Dev.nodeChecked d id) := by
  unfold Dev.nodeChecked
  exact .mono (Dev.updStep_touches ..)

theorem Dev.waiterPoisoned_touches (w : Waiter) (d : Dev) : Touches [.accs, .svc, .ports, .fabRest, .stl, .frs, .queues, .hdma,
    .can, .decided] d (Dev.waiterPoisoned w d) := by
  unfold Dev.waiterPoisoned
  split
  · exact by
      split
      · exact .mono (Dev.endPoisoned_touches ..)
      · exact .refl _
  · exact .refl _
  · exact .mono (Touches.setFrs)
  · exact by
      split
      · exact .mono (Dev.maintEnd_touches ..)
      · exact .refl _
  · exact .mono (Dev.nodeChecked_touches ..)

theorem Dev.waiterRetired_touches (w : Waiter) (d : Dev) : Touches [.accs, .svc, .ports, .fabRest, .stl, .can, .frs, .queues,
    .hdma, .decided] d (Dev.waiterRetired w d) := by
  unfold Dev.waiterRetired
  split
  · exact by
      split
      · exact .mono (Dev.endRetired_touches ..)
      · exact .refl _
  · exact by
      split
      · exact .ite (.mono (Dev.stick_touches ..)) (.refl _)
      · exact .refl _
  · exact .mono (Touches.setFrs)
  · exact by
      split
      · exact .mono (Dev.maintEnd_touches ..)
      · exact .refl _
  · exact .mono (Dev.nodeChecked_touches ..)

theorem Dev.waiterGoes_touches (l : Ladder) (level : Nat) (slot : Ctr) (w : Waiter) (d : Dev) : Touches [.accs, .svc, .ports,
    .fabRest, .stl, .frs, .can, .med, .sessions, .per, .queues, .hdma, .decided] d (Dev.waiterGoes l level slot w d) := by
  unfold Dev.waiterGoes
  split
  · exact .ite (by
      split
      · exact .after (Dev.slotKnown_touches ..) (.mono (Dev.updAcc_any ..))
      · exact .refl _) (.after (Touches.setCan) (.after (Dev.proceed_touches ..) (.after (Dev.updAcc_any ..) (.mono
          (Touches.setCan)))))
  · exact by
      split
      · exact .ite (.mono (Dev.writeBackLine_touches ..)) (.refl _)
      · exact .refl _
  · exact .mono (Dev.placeMark_touches ..)
  · exact by
      split
      · exact .refl _
      · exact .ite (.mono (Dev.maintEnd_touches ..)) (.ite (.mono (Dev.pinHere_touches ..)) (by
          split
          · exact .mono (Dev.pinHere_touches ..)
          · exact by
              split
              · exact .mono (Dev.pinHere_touches ..)
              · exact .mono (Dev.maintEnd_touches ..)))
  · exact .mono (Dev.nodeChecked_touches ..)

theorem Dev.readAgain_touches (d : Dev) (x : NodeId) (seen : Option Node) : Touches [.frs, .med] d (Dev.readAgain d x
    seen) := by
  unfold Dev.readAgain
  exact .after (Touches.setFrs) (.mono (Dev.readNode_touches ..))

theorem Dev.ladderEnds_touches (d : Dev) (l : Ladder) (e : LadEnd) (rs : List Rung) : Touches [.frs, .med, .can, .accs, .svc,
    .ports, .fabRest, .stl, .queues, .hdma, .per, .del, .rmp, .sessions, .decided, .record] d (Dev.ladderEnds d l e rs) [.key,
    .adopt] := by
  unfold Dev.ladderEnds
  split
  · exact .after (Dev.setLadder_touches ..) (.after (Dev.openRungs_touches ..) (.ite (.refl _) (.mono (Dev.beginFills_touches
      ..))))
  · exact .mono (Dev.readAgain_touches ..)
  · exact by
      dsimp only
      split
      · exact .after (Dev.placeWaits_touches ..) (.mono (Dev.rungRetries_touches ..))
      · exact .after (Dev.leafWaits_touches ..) (.forAllAfter (fun _ _ => .mono (Dev.waiterPoisoned_touches ..)) (.after
          (Dev.nodeError_touches ..) (.after (Dev.dropLadder_touches ..) (.after (Dev.countNodes_touches ..) (.after
          (Dev.rungRetries_touches ..) (by
          split
          · exact .after (Dev.finding_touches ..) (.mono (Dev.placeFetched_touches ‹_›))
          · exact .mono (Dev.placeFetched_touches ‹_›)))))))
  · exact by
      split
      · exact .after (Dev.placeWaits_touches ..) (.mono (Dev.rungRetries_touches ..))
      · exact .after (Dev.leafWaits_touches ..) (.forAllAfter (fun _ _ => .mono (Dev.waiterRetired_touches ..)) (.after
          (Dev.dropLadder_touches ..) (.after (Dev.countNodes_touches ..) (.after (Dev.rungRetries_touches ..) (.mono
          (Dev.placeFetched_touches ‹_›))))))
  · exact by
      dsimp only
      split
      · exact .after (Dev.placeWaits_touches ..) (.mono (Dev.rungRetries_touches ..))
      · exact .forAllAfter (fun _ _ => .mono (Dev.waiterGoes_touches ..)) (.after (Dev.dropLadder_touches ..) (.after
          (Dev.countNodes_touches ..) (.after (Dev.rungRetries_touches ..) (.mono (Dev.placeFetched_touches ‹_›)))))

/-- A domain in reset is not up. -/
theorem Dev.up_of_reset {d : Dev} {k : Nat} (h : d.mgt.domReset.getLsbD k = true) : (!d.up k) = true := by
  simp [Dev.up, h]

theorem Dev.credit_touches (d : Dev) (live : Bool) (x : CreditCh) : Touches [.ports, .med, .hdma, .queues, .qmg] d (Dev.credit d
    live x) := by
  unfold Dev.credit
  split
  · exact .ite (.refl _) (.mono (Dev.setPort_touches ..))
  · exact .ite (.refl _) (.mono (Dev.setPort_touches ..))
  · exact .ite (.refl _) (.ite (.after (pumpWchk_touches ..) (.mono (Dev.setPort_touches ..))) (.mono (Dev.setPort_touches ..)))
  · exact .ite (.refl _) (.ite (.after (pumpRtag_touches ..) (.mono (Dev.setPort_touches ..))) (.mono (Dev.setPort_touches ..)))
  · exact .ite (.refl _) (.ite (.after (Dev.pumpMedia_touches ..) (.mono (Dev.setChan_touches ..))) (.mono (Dev.setChan_touches
      ..)))
  · exact .ite (.refl _) (.ite (.after (Dev.pumpMedia_touches ..) (.mono (Dev.setChan_touches ..))) (.mono (Dev.setChan_touches
      ..)))
  · split
    · exact .refl _
    · rename_i hu
      have hh : Kept d { d with qmg.wrCredit := min 255 (d.qmg.wrCredit + 1) } .host := fun ⟨h, _⟩ => absurd (Dev.up_of_reset h)
          hu
      exact .ite (.after (Dev.pumpVecs_touches ..) (.mono (Touches.setHdma (hh := hh)))) (.mono (Touches.setHdma (hh := hh)))
  · split
    · exact .refl _
    · rename_i hu
      have hh : Kept d { d with qmg.rdCredit := min 255 (d.qmg.rdCredit + 1) } .host := fun ⟨h, _⟩ => absurd (Dev.up_of_reset h)
          hu
      exact .ite (.after (Dev.pumpHdma_touches ..) (.mono (Touches.setHdma (hh := hh)))) (.mono (Touches.setHdma (hh := hh)))

theorem Dev.measureArrives_touches (d : Dev) (q : Nat) (pos : QPos) : Touches [.key, .rmp, .stl] d (Dev.measureArrives d q
    pos) := by
  unfold Dev.measureArrives
  exact .ite (.mono (Dev.keyArrives_touches ..)) (.after (Dev.queueRmp_touches ..) (.after (Dev.queueStl_touches ..) (.mono
    (Dev.keyArrives_touches ..))))

theorem Dev.afterMeasure_touches (d e : Dev) : Touches [.queues, .hdma, .svc, .frs, .per, .del, .med, .record] e (d.afterMeasure
    e) [.adopt, .key, .can, .accs] := by
  unfold Dev.afterMeasure
  have h := (Touches.after (Dev.ckptNext_touches (forAll e.svc.cmds (fun c x => x.svcCheck c.q c.pos) e)) (.forAllAfter (as :=
      [.queues, .hdma, .svc, .frs, .per, .del, .med, .record]) (bs := [.adopt, .key, .can, .accs]) (fun _ _ => (.mono
      (Dev.svcCheck_touches ..))) (.refl _)))
  exact .ite (.refl _) (.ite ((.after (Dev.drbgUp_touches ..) h)) h)

theorem Dev.hostLost_touches (d : Dev) (squall : Bool) : Touches [.hdma, .queues, .rmp, .accs, .stl, .qmg, .svc, .frs, .key,
    .fabRest, .per, .del, .med, .decided, .record] d (Dev.hostLost d squall) [.adopt, .can] := by
  unfold Dev.hostLost
  exact .ite (.mono (Dev.hdmaFail_touches ..)) (.after (Dev.afterMeasure_touches ..) (.mono (Dev.hdmaFail_touches ..)))

theorem Dev.miscWrite_touches {d : Dev} {a : Nat} {v : Word32} {e : Dev} (h : d.miscWrite a v = some e) : Touches [.qmg, .mgt,
    .fabRest, .stl, .rmp, .lan, .frs, .can, .med, .key, .mgtRest] d e := by
  unfold Dev.miscWrite at h
  split at h
  · exact Option.some_inj.mp h ▸ (.mono (Touches.setQmgRegs))
  split at h
  · exact Option.some_inj.mp h ▸ (.mono (Touches.setMgt (loHeld := fun h => put_rising _ _ h)))
  split at h <;> (first | (cases h; done) | cases h)
  · exact (.mono (Touches.setMgt))
  · exact (.mono (Touches.setFabRest))
  · exact (.mono (Touches.setStl))
  · exact (.mono (Touches.setStl))
  · exact (.mono (Touches.setStl))
  · exact (.mono (Touches.setStl))
  · exact (.mono (Touches.setStl))
  · exact (.mono (Touches.setRmp))
  · exact (.mono (Touches.setLan))
  · exact (.mono (Touches.setLan))
  · exact (.mono (Touches.setFrs))
  · exact (.mono (Touches.setFrs))
  · exact (.mono (Touches.setFrs))
  · exact (.mono (Touches.setCan))
  · exact (.after (Dev.noteDirty_touches ..) (.mono (Touches.setCan)))
  · exact (.mono (Touches.setMed))
  · exact (.mono (Dev.writeThreshold_touches ..))
  · exact (.after (Dev.noteDue_touches ..) (.mono (Touches.setKey)))

theorem Dev.qmgWrite_touches {d : Dev} {a : Nat} {v : Word32} {e : Dev} (h : d.qmgWrite a v = some e) : Touches [.qmg, .hdma,
    .queues] d e := by
  unfold Dev.qmgWrite at h
  split at h
  · exact Option.some_inj.mp h ▸ (.mono (Touches.setQmgRegs))
  · exact Option.some_inj.mp h ▸ .ite (.mono (Touches.setQmgRegs)) (.mono (Touches.setQmgRegs))
  · exact Option.some_inj.mp h ▸ .ite (.mono (Touches.setQmgRegs)) (.mono (Touches.setQmgRegs))
  · exact Option.some_inj.mp h ▸ (.mono (Touches.setQmgRegs))
  · exact Option.some_inj.mp h ▸ .ite (.mono (Touches.setQmgRegs)) (.mono (Touches.setQmgRegs))
  · obtain ⟨n, _, rfl⟩ := Option.map_eq_some_iff.mp h
    exact (.after (Dev.sendPending_touches ..) (.mono (Dev.setVec_touches ..)))

theorem Dev.svcWrite_touches {d : Dev} {a : Nat} {v : Word32} {e : Dev} (h : d.svcWrite a v = some e) : Touches [.svc, .per,
    .qmg, .del, .record, .peers] d e := by
  unfold Dev.svcWrite at h
  split at h <;> (first | (cases h; done) | cases h)
  · exact (.mono (Touches.setSvc))
  · exact (.mono (Touches.setSvc))
  · exact (.after (Touches.setSvc) (.mono (Dev.accrue_touches ..)))
  · exact (.after (Touches.setSvc) (.mono (Dev.accrue_touches ..)))
  · exact (.after (Touches.setSvc) (.mono (Dev.accrue_touches ..)))
  · exact (.mono (Touches.setPer_any))
  · exact (.mono (Touches.setPer_any))
  · exact (.mono (Touches.setPer_any))
  · exact (.mono (Touches.setQmgRegs))
  · exact (.mono (Touches.of_kept (as := []) (fun a _ => by cases a <;> simp [Kept, Del.peers, Del.parted]) (fun h =>
      { h with }) id))
  · exact (.mono (Touches.setDel))
  · exact (.mono (Touches.setDel))
  · exact (.mono (Touches.setDel_peers))
  · exact (.mono (Touches.setDel_peers))

theorem Dev.regDoorbell_touches (d : Dev) (q : Nat) (v : Word32) : Touches [.queues, .hdma, .qmg] d (Dev.regDoorbell d q
    v) := by
  unfold Dev.regDoorbell
  exact Dev.doorbell_touches (fun _ => by
    split
    · exact .mono (Dev.ringTail_touches ..)
    · exact .mono (Dev.ringScan_touches ..)
    · exact .mono (Dev.ringInvalidate_touches ..)
    · exact .mono (Dev.ringDrain_touches ..)) (.refl _)

theorem Dev.force_touches (d : Dev) (b : Nat) (ks : List Nat) : Touches [] d (Dev.force d b ks) := by
  unfold Dev.force
  exact .mono (Touches.raises ..)

theorem Dev.featureWrite_touches (d : Dev) (a : Nat) (v : Word32) : Touches [.qmg, .mgt, .fabRest, .stl, .rmp, .lan, .frs, .can,
    .med, .key, .hdma, .queues, .svc, .per, .del, .mgtRest, .record, .peers] d (d.featureWrite a v) := by
  unfold Dev.featureWrite
  refine .getD (fun e h => ?_) (.refl _)
  rcases hm : d.miscWrite a v with _ | x
  · rcases hq : d.qmgWrite a v with _ | x
    · rw [hm, hq] at h
      exact (.mono (Dev.svcWrite_touches h))
    · rw [hm, hq] at h
      cases h
      exact (.mono (Dev.qmgWrite_touches hq))
  · rw [hm] at h
    cases h
    exact (.mono (Dev.miscWrite_touches hm))

theorem Dev.linkDown_touches (d : Dev) (n : Nat) : Touches [.del, .peers] d (Dev.linkDown d n) := by
  unfold Dev.linkDown
  exact .mono (Dev.setLink_touches ..)

theorem Dev.linkHeard_touches (d : Dev) (n : Nat) : Touches [.del, .peers] d (Dev.linkHeard d n) := by
  unfold Dev.linkHeard
  exact .mono (Dev.setLink_touches ..)

theorem Dev.cutDue_touches (d : Dev) : Touches [.per, .del, .svc, .queues, .hdma, .med, .key, .can, .record] d (Dev.cutDue d)
    [.adopt, .frs, .accs] := by
  unfold Dev.cutDue
  split
  · exact .ite (.mono (Dev.cutNow_touches ..)) (.refl _)
  · exact .refl _

theorem Dev.split_touches (d : Dev) : Touches [.per, .del, .svc, .queues, .hdma, .med, .key, .can, .record] d (Dev.split d)
    [.frs, .adopt, .accs] := by
  unfold Dev.split
  exact .after (Dev.ckptNext_touches ..) (.after (Dev.cutDue_touches ..) (.ite (.after (Dev.poolState_touches ..) (.mono
    (Touches.of_kept (as := [.per, .del]) (fun a ha => by cases a <;> simp_all [Kept, Per.record, Del.peers, Del.parted]) (fun h
    => { h with }) id))) (.after (Dev.reconEnds_touches ..) (.after (Dev.poolState_touches ..) (.mono (Touches.of_kept (as :=
    [.per, .del]) (fun a ha => by cases a <;> simp_all [Kept, Per.record, Del.peers, Del.parted]) (fun h => { h with }) id))))))

theorem Dev.membersChanged_touches (d : Dev) : Touches [.per, .del, .svc, .queues, .hdma, .med, .key, .can, .record] d
    (Dev.membersChanged d) [.frs, .adopt, .accs] := by
  unfold Dev.membersChanged
  exact .after (Dev.ckptNext_touches ..) (.after (Dev.tallyAll_touches ..) (.after (Dev.doneAll_touches ..) (.after
    (Dev.cutDue_touches ..) (.mono (Dev.heldAll_touches ..)))))

theorem Dev.regroup_touches (d : Dev) : Touches [.per, .del, .svc, .queues, .hdma, .med, .key, .can, .record, .parted] d
    (Dev.regroup d) [.frs, .adopt, .accs] := by
  unfold Dev.regroup
  split
  · exact .refl _
  · exact .ite (.ite (.refl _) (.mono (Dev.split_touches ..))) (.ite (.after (Dev.raise_touches ..) (.after
      (Dev.poolState_touches ..) (.mono (Touches.setDel_pool)))) (.mono (Dev.membersChanged_touches ..)))

theorem Dev.memberTo_touches (d : Dev) (p : Nat) (st : MemSt) : Touches [.del, .peers] d (Dev.memberTo d p st) := by
  unfold Dev.memberTo
  exact .ite (.refl _) (.after (Dev.raise_touches ..) (.mono (Dev.setMember_touches ..)))

theorem Dev.sendMember_touches (d : Dev) (leave : Bool) : Touches [.del] d (Dev.sendMember d leave) := by
  unfold Dev.sendMember
  exact .mono (Dev.broadcast_touches ..)

theorem Dev.takePrepare_touches (d : Dev) (q : BitVec 64) : Touches [.per, .del] d (Dev.takePrepare d q) := by
  unfold Dev.takePrepare
  exact .ite (.refl _) (.ite (.mono (Dev.joinPool_touches ..)) (.mono (Touches.setDel)))

theorem Dev.takeCut_touches (d : Dev) (q : BitVec 64) : Touches [.per, .del, .svc, .queues, .hdma, .med, .key, .can, .record] d
    (Dev.takeCut d q) [.adopt, .frs, .accs] := by
  unfold Dev.takeCut
  split
  · exact .ite (.after (Dev.cutDue_touches ..) (.mono (Touches.setPer))) (.refl _)
  · exact .refl _

theorem Dev.cutLocal_touches (d : Dev) (q : BitVec 64) : Touches [.per, .del, .svc, .queues, .hdma, .med, .key, .can, .record] d
    (Dev.cutLocal d q) [.adopt, .frs, .accs] := by
  unfold Dev.cutLocal
  split
  · exact .ite (.after (Dev.cutDue_touches ..) (.mono (Touches.setPer))) (.refl _)
  · exact .refl _

theorem Dev.takeAbort_touches (d : Dev) (q : BitVec 64) : Touches [.per, .del, .svc, .queues, .hdma, .med, .key, .can, .record]
    d (Dev.takeAbort d q) [.adopt, .frs, .accs] := by
  unfold Dev.takeAbort
  exact .ite (.after (Dev.cutLocal_touches ..) (.ite (.mono (Touches.setDel)) (.refl _))) (.after (Dev.reconFails_touches ..)
    (.ite (.mono (Touches.setDel)) (.refl _)))

theorem Dev.takeCkreq_touches (d : Dev) : Touches [.per, .del] d (Dev.takeCkreq d) [.key, .frs, .can, .med, .adopt, .accs,
    .queues, .hdma, .svc] := by
  unfold Dev.takeCkreq
  exact .ite (.after (Dev.ckptNext_touches ..) (.mono (Touches.setDel))) (.refl _)

theorem Dev.takeRecon_touches (d : Dev) : Touches [.per, .del, .parted] d (Dev.takeRecon d) [.key, .frs, .can, .med, .adopt,
    .accs, .queues, .hdma, .svc] := by
  unfold Dev.takeRecon
  exact .ite (.after (Dev.ckptNext_touches ..) (.mono (Touches.setDel_pool))) (.refl _)

theorem Dev.takeReconDone_touches (d : Dev) (q : BitVec 64) : Touches [.queues, .hdma, .del, .svc, .parted] d (Dev.takeReconDone
    d q) := by
  unfold Dev.takeReconDone
  exact .ite (.mono (Dev.reconciled_touches ..)) (.refl _)

theorem Dev.takeHello_touches (d : Dev) (n : Nat) (f : Frame) : Touches [.del, .peers] d (Dev.takeHello d n f) := by
  unfold Dev.takeHello
  exact .ite (.mono (Dev.setLink_touches ..)) (.ite (.after (Dev.raise_touches ..) (.mono (Dev.setLink_touches ..))) (.ite
    (.mono (Dev.setLink_touches ..)) (.ite (.after (Dev.sendMember_touches ..) (.after (Dev.raise_touches ..) (.mono
    (Dev.setLink_touches ..)))) (.mono (Dev.setLink_touches ..)))))

theorem Dev.takeAck_touches (d : Dev) (n : Nat) (f : Frame) : Touches [.del, .peers] d (Dev.takeAck d n f) := by
  unfold Dev.takeAck
  exact .mono (Dev.setLink_touches ..)

theorem Dev.actOn_touches (d : Dev) (n : Nat) (typ : Nat) (f : Frame) : Touches [.per, .del, .svc, .queues, .hdma, .med, .key,
    .can, .record, .peers, .parted] d (Dev.actOn d n typ f) [.frs, .adopt, .accs] := by
  unfold Dev.actOn
  exact .ite (.after (Dev.regroup_touches ..) (.mono (Dev.setMember_touches ..))) (.ite (.ite (.after (Dev.regroup_touches ..)
    (.mono (Dev.setMember_touches ..))) (.after (Dev.regroup_touches ..) (.mono (Dev.setMember_touches ..)))) (.ite (.after
    (Dev.regroup_touches ..) (.after (Dev.raise_touches ..) (.mono (Dev.setMember_touches ..)))) (.ite (.refl _) (.ite (.mono
    (Dev.takePrepare_touches ..)) (.ite (.after (Dev.cutDue_touches ..) (.mono (Dev.takeHeld_touches ..))) (.ite (.mono
    (Dev.takeCut_touches ..)) (.ite (.after (Dev.ckptNext_touches ..) (.mono (Dev.takeDone_touches ..))) (.ite (.mono
    (Dev.takeAbort_touches ..)) (.ite (.mono (Dev.takeCkreq_touches ..)) (.ite (.ite (.mono (Dev.takeReport_touches ..))
    (.refl _)) (.ite (.mono (Dev.retireEntry_touches ..)) (.ite (.mono (Dev.takeRecon_touches ..)) (.ite (.mono
    (Dev.takeReconDone_touches ..)) (.refl _))))))))))))))

theorem Dev.frameFails_touches (d : Dev) (n : Nat) : Touches [.del, .peers] d (Dev.frameFails d n) := by
  unfold Dev.frameFails
  exact .after (Dev.raise_touches ..) (.mono (Dev.setLink_touches ..))

theorem Dev.takeFrame_touches (d : Dev) (n : Nat) (typ : Nat) (f : Frame) : Touches [.del, .per, .svc, .queues, .hdma, .med,
    .key, .can, .record, .peers, .parted] d (Dev.takeFrame d n typ f) [.frs, .adopt, .accs] := by
  unfold Dev.takeFrame
  exact .ite (.ite (.mono (Dev.sendLink_touches ..)) (.refl _)) (.ite (.after (Dev.flood_touches ..) (.ite (.after
    (Dev.actOn_touches ..) (.after (Dev.regroup_touches ..) (.after (Dev.memberTo_touches ..) (.after (Dev.setMember_touches ..)
    (.ite (.mono (Dev.sendLink_touches ..)) (.refl _)))))) (.after (Dev.regroup_touches ..) (.after (Dev.memberTo_touches ..)
    (.after (Dev.setMember_touches ..) (.ite (.mono (Dev.sendLink_touches ..)) (.refl _))))))) (.ite (.after (Dev.actOn_touches
    ..) (.after (Dev.regroup_touches ..) (.after (Dev.memberTo_touches ..) (.after (Dev.setMember_touches ..) (.ite (.mono
    (Dev.sendLink_touches ..)) (.refl _)))))) (.after (Dev.regroup_touches ..) (.after (Dev.memberTo_touches ..) (.after
    (Dev.setMember_touches ..) (.ite (.mono (Dev.sendLink_touches ..)) (.refl _)))))))

theorem Dev.receive_touches (d : Dev) (n : Nat) (typ : Nat) (f : Frame) : Touches [.del, .per, .svc, .queues, .hdma, .med, .key,
    .can, .record, .peers, .parted] d (Dev.receive d n typ f) [.frs, .adopt, .accs] := by
  unfold Dev.receive
  exact .ite (.refl _) (.ite (.ite (.mono (Dev.frameFails_touches ..)) (.after (Dev.takeHello_touches ..) (.mono
    (Dev.linkHeard_touches ..)))) (.ite (.mono (Dev.frameFails_touches ..)) (.ite (.refl _) (.ite (.after (Dev.takeAck_touches
    ..) (.mono (Dev.linkHeard_touches ..))) (.after (Dev.takeFrame_touches ..) (.mono (Dev.linkHeard_touches ..)))))))

theorem Dev.rekeyDone_touches (d : Dev) (i : Nat) (c : RegionCfg) : Touches [.svc, .del, .rmp] d (Dev.rekeyDone d i c) := by
  unfold Dev.rekeyDone
  exact .ite (.after (Dev.sendReport_touches ..) (.after (Touches.setSvc) (.after (Dev.event_touches ..) (.after
    (Dev.raise_touches ..) (.mono (Dev.setRekey_touches ..)))))) (.after (Dev.event_touches ..) (.after (Dev.raise_touches ..)
    (.mono (Dev.setRekey_touches ..))))

theorem Dev.intoReset_touches (d : Dev) (k : Nat) : Touches [.mgt, .mgtRest] d (Dev.intoReset d k) := by
  unfold Dev.intoReset
  exact .mono (Touches.setMgt (clkMeas := fun h => put_rising _ _ h)
    (hh := fun ⟨h, hr⟩ => ⟨by rw [BitVec.getLsbD_or, h, Bool.true_or], hr⟩))

theorem Dev.outOfReset_touches (d : Dev) (k : Nat) : Touches [.mgt, .host, .mgtRest] d (Dev.outOfReset d k) := by
  unfold Dev.outOfReset
  exact .mono Touches.setResets

theorem Dev.startPower_touches (d : Dev) : Touches [.mgt, .host, .mgtRest] d (Dev.startPower d) := by
  unfold Dev.startPower
  exact .ite (.after (Dev.emit_touches ..) (.after (Touches.setMgt) (.mono (Dev.outOfReset_touches ..)))) (.refl _)

theorem Dev.fuseFails_touches (d : Dev) : Touches [.mgt, .mgtRest] d (Dev.fuseFails d) := by
  unfold Dev.fuseFails
  exact .after (Dev.raise_touches ..) (.mono (Touches.setMgt))

theorem Dev.fuseWord_touches (d : Dev) (data : Word32) : Touches [.mgt, .mgtRest] d (Dev.fuseWord d data) := by
  unfold Dev.fuseWord
  exact .ite (.mono (Dev.fuseFails_touches ..)) (.after (Dev.emit_touches ..) (.mono (Touches.setMgt)))

theorem Dev.phaseEnds_touches {as bs : List Aspect} {d e : Dev} {p : Phase} {done squall : Bool} {f : Dev → Dev}
    (hf : ∀ x, Touches as x (f x) bs) (k : Touches as d e bs)
    (hs : (Touches.sub [.mgt, .mgtRest] as && Touches.sub [] (as ++ bs)) = true := by rfl) : Touches as d (e.phaseEnds p done
      squall f) bs := by
  unfold Dev.phaseEnds
  exact .ite k (.ite ((.after (Touches.setMgt) k hs)) (k.trans (hf _)))

theorem Dev.stepFiveOut_touches (d : Dev) (k : Nat) (held : Bool) : Touches [.mgt, .host, .mgtRest] d (Dev.stepFiveOut d k
    held) := by
  unfold Dev.stepFiveOut
  exact .ite (.mono (Touches.setMgt)) (.mono (Dev.outOfReset_touches ..))

theorem Dev.dbCredits_touches (d : Dev) : Touches [] d (Dev.dbCredits d) := by
  unfold Dev.dbCredits
  exact .forAllAfter (fun _ _ => .mono (Dev.emit_touches ..)) (.refl _)

theorem Dev.laneRoles_touches (d : Dev) (results : List (List Bytes)) : Touches [.mgt, .lan, .mgtRest] d (Dev.laneRoles d
    results) := by
  unfold Dev.laneRoles
  exact .ite (.after (Dev.raise_touches ..) (.after (Touches.setMgt) (by
    split
    · exact .after (Dev.updLane_touches ..) (.forAllAfter (fun _ _ => .mono (Dev.updLane_touches ..)) (.forAllAfter (fun _ _ =>
        .mono (Dev.updLane_touches ..)) (.forAllAfter (fun _ _ => .mono (Dev.updLane_touches ..)) (.refl _))))
    · exact .forAllAfter (fun _ _ => .mono (Dev.updLane_touches ..)) (.forAllAfter (fun _ _ => .mono (Dev.updLane_touches ..))
        (.forAllAfter (fun _ _ => .mono (Dev.updLane_touches ..)) (.refl _)))))) (.ite (.after (Dev.raise_touches ..) (.after
        (Touches.setMgt) (by
    split
    · exact .after (Dev.updLane_touches ..) (.forAllAfter (fun _ _ => .mono (Dev.updLane_touches ..)) (.forAllAfter (fun _ _ =>
        .mono (Dev.updLane_touches ..)) (.forAllAfter (fun _ _ => .mono (Dev.updLane_touches ..)) (.refl _))))
    · exact .forAllAfter (fun _ _ => .mono (Dev.updLane_touches ..)) (.forAllAfter (fun _ _ => .mono (Dev.updLane_touches ..))
        (.forAllAfter (fun _ _ => .mono (Dev.updLane_touches ..)) (.refl _)))))) (.after (Touches.setMgt) (by
    split
    · exact .after (Dev.updLane_touches ..) (.forAllAfter (fun _ _ => .mono (Dev.updLane_touches ..)) (.forAllAfter (fun _ _ =>
        .mono (Dev.updLane_touches ..)) (.forAllAfter (fun _ _ => .mono (Dev.updLane_touches ..)) (.refl _))))
    · exact .forAllAfter (fun _ _ => .mono (Dev.updLane_touches ..)) (.forAllAfter (fun _ _ => .mono (Dev.updLane_touches ..))
        (.forAllAfter (fun _ _ => .mono (Dev.updLane_touches ..)) (.refl _))))))

theorem Dev.instantiate_touches (d : Dev) (samples : Bytes) : Touches [.key, .can] d (d.instantiate samples) := by
  unfold Dev.instantiate
  exact (.after (Dev.loadLfsrs_touches ..) ((.after (Dev.generate_touches ..) (.mono (Touches.setKey)))))

theorem Dev.sysReset_touches (d : Dev) : Touches [.mgt, .tap, .ports, .sessions, .accs, .fabRest, .stl, .rmp, .lan, .frs, .can,
    .med, .key, .svc, .per, .del, .queues, .hdma, .qmg, .retired, .host, .mgtRest, .decided, .record, .peers, .parted] d
    d.sysReset := by
  refine .of_kept (fun a ha => ?_) (fun h => ?_) fun _ a ha => nomatch ha
  · cases a
    case fuse => rfl
    case adopt => exact fun _ => rfl
    all_goals exact absurd ha (by decide)
  · constructor
    case clkMeas => exact put_rising _ _ .nil
    case links => exact (map_rising _ h.links).filter _
    case media => exact fun p hp => nomatch hp
    all_goals exact .nil

theorem Touches.filterMapAccs {d : Dev} {g : Access → Option Access} (hg : ∀ a b, g a = some b → b.id = a.id) :
    Touches [.accs, .decided] d { d with fab.accs := d.fab.accs.filterMap g } :=
  Touches.setAccs fun h b hb => by
    obtain ⟨a, ha, hab⟩ := List.mem_filterMap.mp hb
    rw [hg a b hab]
    exact h a ha

theorem Dev.portReset_touches (d : Dev) (p : Nat) (squall : Bool) : Touches [.accs, .stl, .sessions, .ports, .fabRest, .decided]
    d (d.portReset p squall) := by
  unfold Dev.portReset
  extract_lets mine gone parked _ d1 d2 d3 x _ d4
  have h1 : Touches [.accs, .stl, .sessions, .ports, .fabRest, .decided] d d1 := .mono (Touches.filterMapAccs fun a b hab => by
    split at hab
    · cases hab; rfl
    · split at hab <;> cases hab
      rfl)
  have h2 : Touches [.accs, .stl, .sessions, .ports, .fabRest, .decided] d d2 := .forAllAfter (fun _ _ => .mono
      (Dev.syncFilter_touches ..)) h1
  have h3 : Touches [.accs, .stl, .sessions, .ports, .fabRest, .decided] d d3 := .forAllAfter (fun _ _ => .mono
      (Dev.updSession_touches ..)) h2
  have h4 : Touches [.accs, .stl, .sessions, .ports, .fabRest, .decided] d d4 := .after (Dev.setPort_touches ..) h3
  exact .ite h4 (.after (Dev.retryReceived_touches ..) (.after (Dev.noteHold_touches ..) h4))

theorem Dev.anvilLost_touches (d : Dev) (squall : Bool) : Touches [.per, .del, .queues, .hdma, .med, .svc, .record] d
    (Dev.anvilLost d squall) [.key, .frs, .can, .adopt, .accs] := by
  unfold Dev.anvilLost
  split
  · exact .refl _
  · exact .mono (Dev.anvilAnswer_touches ..)

theorem Dev.clockGone_touches (d : Dev) (k : Nat) : Touches [.mgt, .lan, .accs, .sessions, .ports, .tap, .stl, .fabRest, .svc,
    .frs, .queues, .hdma, .can, .med, .per, .del, .rmp, .qmg, .key, .decided, .record, .peers] d (Dev.clockGone d k)
    [.adopt] := by
  unfold Dev.clockGone
  exact .ite (.forAllAfter (fun _ _ => .ite (.refl _) (.mono (Dev.retireLane_touches ..))) (.refl _)) (.ite (.mono
    (Dev.portReset_touches ..)) (.ite (.mono (Dev.portReset_touches ..)) (.ite (.mono (Dev.retireChannel_touches ..)) (.ite
    (.mono (Dev.hostLost_touches ..)) (.ite (.mono (Dev.anvilLost_touches ..)) (.ite (.mono (Dev.sourceFails_touches ..)) (.ite
    (.mono (Dev.linkDown_touches ..)) (.refl _))))))))

theorem Dev.clockGoneSafe_touches (d : Dev) (k : Nat) : Touches [.mgt, .lan, .accs, .sessions, .ports, .tap, .stl, .fabRest,
    .med, .hdma, .queues, .rmp, .qmg, .svc, .frs, .key, .per, .del, .decided, .record, .peers] d (Dev.clockGoneSafe d k)
    [.adopt, .can] := by
  unfold Dev.clockGoneSafe
  exact .ite (.forAllAfter (fun _ _ => .ite (.refl _) (.mono (Dev.retireLane_touches ..))) (.refl _)) (.ite (.mono
    (Dev.portReset_touches ..)) (.ite (.mono (Dev.portReset_touches ..)) (.ite (.mono (Dev.retireSafe_touches ..)) (.ite (.mono
    (Dev.hostLost_touches ..)) (.ite (.mono (Dev.anvilLost_touches ..)) (.ite (.mono (Dev.setEnt_touches ..)) (.ite (.mono
    (Dev.linkDown_touches ..)) (.refl _))))))))

theorem Dev.clockLost_touches (d : Dev) (k : Nat) (squall : Bool) : Touches [.tap, .mgt, .lan, .accs, .sessions, .ports, .stl,
    .fabRest, .med, .hdma, .queues, .rmp, .qmg, .svc, .frs, .key, .per, .del, .can, .mgtRest, .decided, .record, .peers] d
    (Dev.clockLost d k squall) [.adopt] := by
  unfold Dev.clockLost
  exact .ite (.refl _) (.ite (.after (Touches.setTap) (.mono (Touches.setMgt (clkMeas := fun h => put_rising _ _ h)))) (.ite
    (.after (Dev.clockGoneSafe_touches ..) (.mono (Touches.setMgt (clkMeas := fun h => put_rising _ _ h)))) (.ite (.after
    (Dev.clockGone_touches ..) (.mono (Touches.setMgt (clkMeas := fun h => put_rising _ _ h)))) (.mono (Touches.setMgt (clkMeas
    := fun h => put_rising _ _ h))))))

theorem Dev.stopAdmission_touches (d : Dev) : Touches [.accs, .sessions, .ports, .stl] d (Dev.stopAdmission d) := by
  unfold Dev.stopAdmission
  exact .forAllAfter (fun _ _ => .mono (Dev.outcome_touches ..)) (.forAllAfter (fun _ _ => .ite (.after (Dev.endWindow_touches
    ..) (.mono (Dev.updSession_touches ..))) (.after (Dev.flushForced_touches ..) (.mono (Dev.updSession_touches ..))))
    (.forAllAfter (fun _ _ => .after (Dev.syncFilter_touches ..) (.mono (Dev.outcome_touches ..))) (.refl _)))

theorem Dev.stopEntries_touches (d : Dev) : Touches [.queues, .hdma, .per, .svc, .frs, .key] d (Dev.stopEntries d) := by
  unfold Dev.stopEntries
  dsimp only
  split
  · exact .ite (.after (Dev.restoreEnds_touches ..) (.forAllAfter (fun _ _ => .mono (Dev.svcStop_touches ..)) (.forAllAfter (fun
      _ _ => .after (Dev.finish_touches ..) (.after (Dev.dropInput_touches ..) (.mono (Dev.dropDrawn_touches ..)))) (.refl _))))
      (.forAllAfter (fun _ _ => .mono (Dev.svcStop_touches ..)) (.forAllAfter (fun _ _ => .after (Dev.finish_touches ..) (.after
      (Dev.dropInput_touches ..) (.mono (Dev.dropDrawn_touches ..)))) (.refl _)))
  · exact .forAllAfter (fun _ _ => .mono (Dev.svcStop_touches ..)) (.forAllAfter (fun _ _ => .after (Dev.finish_touches ..)
      (.after (Dev.dropInput_touches ..) (.mono (Dev.dropDrawn_touches ..)))) (.refl _))

theorem Dev.flushBegins_touches (d : Dev) : Touches [.queues, .hdma, .per, .svc, .frs, .key, .del, .med, .accs, .sessions,
    .ports, .stl, .mgt, .mgtRest, .record] d d.flushBegins [.can, .adopt] := by
  unfold Dev.flushBegins
  have h : Touches [.queues, .hdma, .per, .svc, .frs, .key, .del, .med, .accs, .sessions, .ports, .stl, .mgt, .mgtRest, .record]
      d ({ d with mgt.pfw := .flushing }.stopAdmission.ckptFail 3) [.can, .adopt] :=
    .after (Dev.ckptFail_touches ..) (.after (Dev.stopAdmission_touches ..) (.mono Touches.setMgt))
  generalize { d with mgt.pfw := .flushing }.stopAdmission.ckptFail 3 = e at h ⊢
  exact .after (Dev.stopEntries_touches ..) (.after (Dev.finishAll_touches ..) (.after Touches.setPer h))

theorem Dev.zeroise_touches (d : Dev) : Touches [.key, .frs, .accs, .sessions, .tap, .lan, .decided] d d.zeroise := by
  unfold Dev.zeroise
  refine .of_kept (fun a ha => by cases a <;> simp_all [Kept, Per.record, Del.peers, Del.parted]) (fun h => { h with
    slots := .nil, regs := .nil, keks := .nil, zones := (map_rising _ h.zones).filter _
    sessions := (map_rising _ h.sessions).filter _, lanes := (map_rising _ h.lanes).filter _ }) fun h b hb => ?_
  obtain ⟨a, ha, rfl⟩ := List.mem_map.mp hb
  have hid : a.outOfLane.id = a.id := by
    unfold Access.outOfLane
    dsimp only
    split <;> rfl
  rw [hid]
  exact h a ha

theorem Dev.shiftOut_touches (d : Dev) (x : Shift) : Touches [] d (Dev.shiftOut d x) := by
  unfold Dev.shiftOut
  exact .mono (Dev.emit_touches ..)

theorem Dev.select_touches (d : Dev) (i : BitVec 8) : Touches [.tap] d (Dev.select d i) := by
  unfold Dev.select
  exact .after (Dev.shiftOut_touches ..) (.mono (Touches.setTap))

end Machine
end Sys2Proof

/-! What every row of the tables touches, for the rows whose whole effect is on the block. -/

namespace Sys2Proof
namespace Machine

open Laws

-- each proof is small and there are many: elaborated one after the other they need one thread
set_option Elab.async false

/-! ### What a row of the tables touches -/

/-- A row whose whole effect is on the block, within the aspects named. -/
def Effect (as : List Aspect) (s : State) (o : Host.Outcome State Fault Refusal) (bs : List Aspect := []) : Prop :=
  ∃ e, Touches as { s.dev with drive := [] } e bs ∧ o = .next (settle { s with dev := e })

namespace Effect

variable {as bs : List Aspect} {s : State} {f : Dev → Dev}

theorem act (h : ∀ d, Touches as d (f d) bs) : Effect as s (s.act f) bs := ⟨_, h _, rfl⟩

theorem serve (h : ∀ d, Touches as d (f d) bs) : Effect as s (s.serve f) bs :=
  act fun d => .ite (.refl d) (h d)

theorem core (h : ∀ d, Touches as d (f d) bs) : Effect as s (s.core f) bs :=
  act fun d => .ite (.refl d) (.ite (.after (Dev.emit_touches ..) (.refl d) (by simp [Touches.sub]))
    (.after (Dev.emit_touches ..) (.ite (.refl d) (h d)) (by simp [Touches.sub])))

theorem onTap (h : ∀ d, Touches as d (f d) bs) : Effect as s (s.onTap f) bs :=
  act fun d => .ite (h d) (.refl d)

theorem ring {slot : BitVec 14} {low : BitVec 30} {be : BitVec 8} (h : ∀ d, Touches as d (f d) bs) :
    Effect as s (s.ring slot low be f) bs :=
  act fun d => .ite (.refl d) (.after (Dev.emit_touches ..) (.ite (.refl d) (Dev.doorbell_touches h (.refl d)))
    (by simp [Touches.sub]))

theorem wlpc {p : Nat} (h : ∀ d, Touches as d (f d) bs) (hs : (Touches.sub [.ports] as && Touches.sub [] (as ++ bs)) =
    true := by rfl) :
    Effect as s (s.wlpc p f) bs :=
  act fun d => .ite (.refl d) (.ite (.after (Dev.raise_touches ..) (.mono (Dev.setPort_touches ..) hs) (by simp [Touches.sub]))
    (.ite (.mono (Dev.setPort_touches ..) hs) (.after (Dev.giveCredits_touches ..) (.trans (.mono (Dev.setPort_touches ..) hs)
      (h _)) hs)))

theorem rlpc {p : Nat} (h : ∀ d, Touches as d (f d) bs) (hs : (Touches.sub [.ports] as && Touches.sub [] (as ++ bs)) =
    true := by rfl) :
    Effect as s (s.rlpc p f) bs :=
  act fun d => .ite (.refl d) (.ite (.after (Dev.raise_touches ..) (.mono (Dev.setPort_touches ..) hs) (by simp [Touches.sub]))
    (.ite (.mono (Dev.setPort_touches ..) hs) (.after (Dev.giveCredits_touches ..) (.trans (.mono (Dev.setPort_touches ..) hs)
      (h _)) hs)))

end Effect

theorem execStreamInsert_effect (q : BitVec 14) (pos : BitVec 16) (chk : List (Nat × Chk)) (s : State) : Effect [.queues, .hdma,
    .accs, .stl] s (execStreamInsert q pos chk s) := by
  unfold execStreamInsert
  exact .serve fun _ => .mono (Dev.streamCommand_touches ..)

theorem execStreamRemove_effect (q : BitVec 14) (pos : BitVec 16) (chk : List (Nat × Chk)) (s : State) : Effect [.queues, .hdma,
    .accs, .stl] s (execStreamRemove q pos chk s) := by
  unfold execStreamRemove
  exact .serve fun _ => .mono (Dev.streamCommand_touches ..)

theorem execStreamQuery_effect (q : BitVec 14) (pos : BitVec 16) (chk : List (Nat × Chk)) (s : State) : Effect [.queues, .hdma,
    .accs, .stl] s (execStreamQuery q pos chk s) := by
  unfold execStreamQuery
  exact .serve fun _ => .mono (Dev.streamCommand_touches ..)

theorem execAgeingTick_effect (s : State) : Effect [.stl] s (execAgeingTick s) := by
  unfold execAgeingTick
  exact .serve fun _ => .ite (.after Touches.setStl
    (Dev.putStlSet_touches _ _ _ fun h => (map_rising _ (h.stlTab _)).filter _)) (.refl _)

theorem execStlClear_effect (v : Word32) (s : State) : Effect [.stl] s (execStlClear v s) := by
  unfold execStlClear
  exact .core fun _ => .ite (.after (Dev.putStlSet_touches ..) (.ite (.mono (Touches.setStl)) (.refl _))) (.ite (.mono
    (Touches.setStl)) (.refl _))

theorem execStlClearDone_effect (s : State) : Effect [.queues, .hdma, .accs, .stl] s (execStlClearDone s) := by
  unfold execStlClearDone
  exact .serve fun _ => .ite (.after (Dev.pumpStreams_touches ..) (.mono (Dev.putStlSet_touches _ _ _ fun _ => .nil))) (.refl _)

theorem execStlRejectClr_effect (v : Word32) (s : State) : Effect [.stl] s (execStlRejectClr v s) := by
  unfold execStlRejectClr
  exact .core fun _ => .ite (.mono (Touches.setStl)) (.refl _)

theorem clearPorts_rising {v : Word32} {t : Tab Nat} (h : Tab.rising t) : Tab.rising (clearPorts v t) := by
  exact h.filter _

theorem execStlCntClr_effect (v : Word32) (s : State) : Effect [.stl] s (execStlCntClr v s) := by
  unfold execStlCntClr
  exact .core fun _ => Touches.setStl (rejects := clearPorts_rising) (timeouts := clearPorts_rising) (parkFulls :=
    clearPorts_rising)

theorem execStlGeomSeedWrite_effect (reg : GeomReg) (set : Fin 2) (v : Word32) (s : State) :
    Effect [.stl] s (execStlGeomSeedWrite reg set v s) := by
  unfold execStlGeomSeedWrite
  refine .core fun _ => .ite (Dev.putStlSet_touches _ _ _ fun h => ?_) Touches.setStl
  split <;> exact h.stlTab _

theorem execRegionWrite_effect (q : BitVec 14) (pos : BitVec 16) (s : State) : Effect [.queues, .hdma, .rmp] s (execRegionWrite
    q pos s) := by
  unfold execRegionWrite
  exact .serve fun _ => .mono (Dev.regionCommand_touches ..)

theorem execRegionRead_effect (q : BitVec 14) (pos : BitVec 16) (s : State) : Effect [.queues, .hdma, .rmp] s (execRegionRead q
    pos s) := by
  unfold execRegionRead
  exact .serve fun _ => .mono (Dev.regionCommand_touches ..)

theorem execRmpClear_effect (v : Word32) (s : State) : Effect [.rmp] s (execRmpClear v s) := by
  unfold execRmpClear
  exact .core fun _ => .ite (.after (Dev.putRmpSet_touches ..) (.ite (.mono (Touches.setRmp)) (.refl _))) (.ite (.mono
    (Touches.setRmp)) (.refl _))

theorem execRmpClearDone_effect (s : State) : Effect [.queues, .hdma, .rmp] s (execRmpClearDone s) := by
  unfold execRmpClearDone
  exact .serve fun _ => .ite (.after (Dev.pumpRegions_touches ..) (.mono (Dev.putRmpSet_touches _ _ _ (fun _ => .nil) fun _ =>
    .nil)))
    (.refl _)

theorem execRmpSetCfg_effect (set : Fin 2) (v : Word32) (s : State) : Effect [.rmp] s (execRmpSetCfg set v s) := by
  unfold execRmpSetCfg
  exact .core fun _ => .ite (.mono (Dev.putRmpSet_touches ..)) (.mono (Touches.setRmp))

theorem execShadowRelease_effect (s : State) : Effect [.queues, .hdma, .rmp, .accs, .stl] s (execShadowRelease s) := by
  unfold execShadowRelease
  exact .serve fun _ => .ite (.mono (Dev.pumpTables_touches ..)) (.refl _)

theorem execSwapConfig_effect (q : BitVec 14) (pos : BitVec 16) (s : State) : Effect [.queues, .hdma, .rmp] s (execSwapConfig q
    pos s) := by
  unfold execSwapConfig
  exact .serve fun _ => .ite (.refl _) (Dev.command_touches (fun _ _ => .after (Touches.setRmp) (.mono (Dev.running_touches
    ..))) (.refl _))

theorem execSwapCycle_effect (s : State) : Effect [.queues, .hdma, .rmp, .accs, .stl] s (execSwapCycle s) := by
  unfold execSwapCycle
  exact .serve fun _ => by
    split
    · exact .refl _
    · exact .ite (.refl _) (.after (Dev.pumpTables_touches ..) (.ite (.after (Dev.finish_touches ..) (.after
        (Dev.swapSets_touches ..) (.mono (Dev.swapOver_touches ..)))) (.after (Dev.finish_touches ..) (.mono
        (Dev.swapOver_touches ..)))))

theorem execFabricRequest_effect (p : Fin 8) (op : BitVec 2) (tag : BitVec 12) (sid kid : BitVec 16) (line : LineNo) (sess :
    BitVec 5)
    (chk : List Chk) (s : State) : Effect [.accs, .ports, .stl, .fabRest, .sessions, .decided] s (execFabricRequest p op tag sid
      kid line sess chk s) := by
  unfold execFabricRequest
  refine .act fun d => .ite (.refl _) (.ite (.after (Dev.raise_touches ..) (.mono (Dev.setPort_touches ..))) ?_)
  extract_lets _ d1 _ a _ d2 _ d3
  have h2 : Touches [.accs, .ports, .stl, .fabRest, .sessions, .decided] d d2 := by
    have ha : Touches [.accs, .decided] d1 d2 := Touches.addAccs (n := 1) fun b hb => by
      rw [List.mem_singleton.mp hb]
      exact Nat.lt_succ_self _
    exact .after ha (.mono (Dev.setPort_touches ..))
  have h3 : Touches [.accs, .ports, .stl, .fabRest, .sessions, .decided] d d3 := .ite (.after (Dev.pair_touches ..) (.after
      (Dev.setPort_touches ..) h2)) h2
  exact .ite (.after (Dev.outcome_touches ..) h2) (.ite (.after (Dev.giveCredits_touches ..) (.after (Dev.outcome_touches ..)
    h2))
    (.after (Dev.process_touches ..) h3))

theorem execWritePayload_effect (p : Fin 8) (data : Line) (mask : BitVec 64) (s : State) : Effect [.ports, .accs, .sessions,
    .decided] s (execWritePayload p data mask s) := by
  unfold execWritePayload
  exact .act fun _ => .ite (.refl _) (.ite (.after (Dev.raise_touches ..) (.mono (Dev.setPort_touches ..))) (.ite (.mono
    (Dev.setPort_touches ..)) (.after (Dev.pair_touches ..) (.mono (Dev.setPort_touches ..)))))

theorem Dev.windowLane_touches (d : Dev) : Touches [.fabRest] d d.windowLane.2 := by
  unfold Dev.windowLane
  dsimp only
  split
  · exact Touches.setFabRest
  · exact .refl _

theorem execWlpcOpen_effect (p : Fin 8) (e : BitVec 128) (s : State) : Effect [.sessions, .fabRest, .accs, .ports] s
    (execWlpcOpen p e s) := by
  unfold execWlpcOpen
  exact .wlpc fun _ => .ite (.mono (Dev.formatWrite_touches ..)) (.after (Dev.updSession_touches ..) (.after (Dev.bump_touches
    ..)
    (.mono (Dev.windowLane_touches ..))))

theorem execWlpcAad_effect (p : Fin 8) (e : BitVec 128) (s : State) : Effect [.accs, .sessions, .ports] s (execWlpcAad p e
    s) := by
  unfold execWlpcAad
  exact .wlpc fun _ => by
    dsimp only
    split
    · exact .mono (Dev.formatWrite_touches ..)
    · exact .ite (.mono (Dev.formatWrite_touches ..)) (.after (Dev.checkComplete_touches ..) (.mono (Dev.updSession_touches
        ..)))

theorem execWlpcClose_effect (p : Fin 8) (e : BitVec 128) (s : State) : Effect [.accs, .sessions, .ports] s (execWlpcClose p e
    s) := by
  unfold execWlpcClose
  exact .wlpc fun _ => by
    dsimp only
    split
    · exact .mono (Dev.formatWrite_touches ..)
    · exact .ite (.mono (Dev.formatWrite_touches ..)) (.after (Dev.checkComplete_touches ..) (.mono (Dev.updSession_touches
        ..)))

theorem execWlpcReservedType_effect (p : Fin 8) (ty : BitVec 2) (e : BitVec 128) (s : State) : Effect [.accs, .sessions, .ports]
    s (execWlpcReservedType p ty e s) := by
  unfold execWlpcReservedType
  exact .wlpc fun _ => .ite (.mono (Dev.formatWrite_touches ..)) (.refl _)

theorem execWindowResult_effect (sess : BitVec 8) (s : State) : Effect [.accs, .sessions, .ports] s (execWindowResult sess
    s) := by
  unfold execWindowResult
  exact .serve fun _ => by
    dsimp only
    split
    · exact .refl _
    · exact .after (Dev.flushForced_touches ..) (.after (Dev.deliver_touches ..) (.mono (Dev.updSession_touches ..)))

theorem execWriteWindowTimeout_effect (sess : BitVec 8) (s : State) : Effect [.accs, .sessions, .ports] s
    (execWriteWindowTimeout sess s) := by
  unfold execWriteWindowTimeout
  exact .serve fun _ => by
    split
    · exact .refl _
    · exact .ite (.mono (Dev.endWindow_touches ..)) (.refl _)

theorem execRlpcOpen_effect (p : Fin 8) (e : BitVec 128) (s : State) : Effect [.sessions, .accs, .fabRest, .ports, .decided] s
    (execRlpcOpen p e s) := by
  unfold execRlpcOpen
  exact .rlpc fun _ => .ite (.refl _) (.ite (.mono (Dev.formatRead_touches ..)) (.after (Dev.effects_touches ..)
    (.after (Dev.updSession_touches ..) (.after (Dev.bump_touches ..) (.mono (Dev.windowLane_touches ..))))))

theorem execRlpcAad_effect (p : Fin 8) (e : BitVec 128) (s : State) : Effect [.accs, .ports, .sessions, .decided] s (execRlpcAad
    p e s) := by
  unfold execRlpcAad
  exact .rlpc fun _ => .ite (.refl _) (.ite (.mono (Dev.formatRead_touches ..)) (by
    split
    · exact .mono (Dev.formatRead_touches ..)
    · exact .mono (Dev.updSession_touches ..)))

theorem execRlpcFormatError_effect (p : Fin 8) (ty : BitVec 2) (e : BitVec 128) (s : State) : Effect [.accs, .ports, .sessions,
    .decided] s (execRlpcFormatError p ty e s) := by
  unfold execRlpcFormatError
  exact .rlpc fun _ => .ite (.refl _) (.ite (.mono (Dev.formatRead_touches ..)) (.refl _))

theorem execRtag_effect (sess : BitVec 8) (s : State) : Effect [.accs, .sessions, .ports, .decided] s (execRtag sess s) := by
  unfold execRtag
  exact .serve fun _ => by
    dsimp only
    split
    · exact .refl _
    · exact .ite (.after (Dev.effects_touches ..) (.after (Dev.sendRtag_touches ..) (.mono (Dev.updSession_touches ..))))
        (.refl _)

theorem execReadWindowWaitTimeout_effect (sess : BitVec 8) (read : Option Nat) (s : State) : Effect [.accs, .ports, .sessions,
    .decided] s (execReadWindowWaitTimeout sess read s) := by
  unfold execReadWindowWaitTimeout
  exact .serve fun _ => by
    dsimp only
    split
    · exact by
        split
        · exact .ite (.mono (Dev.outcome_touches ..)) (.refl _)
        · exact .refl _
    · exact .ite (.mono (Dev.formatRead_touches ..)) (.refl _)

theorem execResponseTransfer_effect (id : Nat) (err : Bool) (s : State) : Effect [.accs, .ports, .fabRest, .stl, .sessions,
    .decided] s (execResponseTransfer id err s) := by
  unfold execResponseTransfer
  exact .act fun _ => by
    dsimp only
    split
    · exact .ite (.mono (Dev.raise_touches ..)) (.refl _)
    · exact by
        split
        · exact .ite (.mono (Dev.raise_touches ..)) (.refl _)
        · exact .ite (.ite (.after (Dev.dropAcc_touches ..) (.ite (.mono (Dev.raise_touches ..)) (.refl _))) (.ite (.after
            (Dev.retryReceived_touches ..) (.after (Dev.noteHold_touches ..) (.after (Dev.dropAcc_touches ..) (.ite (.mono
            (Dev.raise_touches ..)) (.refl _))))) (.ite (.mono (Dev.raise_touches ..)) (.refl _)))) (.ite (.ite (.after
            (Dev.respond_touches ..) (.ite (.mono (Dev.raise_touches ..)) (.refl _))) (.ite (.mono (Dev.raise_touches ..))
            (.refl _))) (.ite (.ite (.mono (Dev.raise_touches ..)) (.refl _)) (.after (Dev.retryReceived_touches ..) (.after
            (Dev.noteHold_touches ..) (.after (Dev.respond_touches ..) (.ite (.mono (Dev.raise_touches ..)) (.refl _)))))))

theorem execParkingTimeout_effect (id : Nat) (err : Bool) (s : State) : Effect [.stl, .accs, .decided] s (execParkingTimeout id
    err s) := by
  unfold execParkingTimeout
  exact .serve fun _ => by
    split
    · exact .refl _
    · exact .ite (.after (Dev.syncFilter_touches ..) (.after (Dev.expire_touches ..) (.after (Touches.setStl (timeouts := fun h
        => put_rising _ _ h)) (.ite (.mono (Dev.raise_touches ..)) (.refl _))))) (.refl _)

theorem execParkedRelease_effect (chk : List (Nat × Chk)) (s : State) : Effect [.ports, .accs, .fabRest, .stl, .decided] s
    (execParkedRelease chk s) := by
  unfold execParkedRelease
  exact .serve fun _ => .after (Dev.retryReceived_touches ..) (.mono (Dev.releaseAll_touches ..))

theorem execFabPortEn_effect (v : Word32) (s : State) : Effect [.ports, .fabRest] s (execFabPortEn v s) := by
  unfold execFabPortEn
  exact .core fun _ => .ite (.refl _) (.forAllAfter (fun _ _ => .mono (Dev.initialCredits_touches ..)) (.mono
    (Touches.setFabRest)))

theorem execFabCntClr_effect (v : Word32) (s : State) : Effect [.ports] s (execFabCntClr v s) := by
  unfold execFabCntClr
  exact .core fun _ => .forAllAfter (fun _ _ => .ite (.mono (Dev.setPort_touches ..)) (.refl _)) (.refl _)

theorem execAccessGrant_effect (id : Nat) (err : Option CanErr) (s : State) : Effect [.accs, .can, .frs, .med, .ports, .fabRest,
    .stl, .svc, .sessions, .decided] s (execAccessGrant id err s) := by
  unfold execAccessGrant
  exact .serve fun _ => by
    split
    · exact .refl _
    · exact .ite (.refl _) (.ite (.ite (.after (Dev.updAcc_any ..) (.after (Dev.canopyError_touches ..) (.mono
        (Dev.trimStaging_touches ..)))) (.after (Dev.canopyError_touches ..) (.mono (Dev.trimStaging_touches ..)))) (.ite
        (.after (Dev.outcome_touches ..) (.ite (.after (Dev.updAcc_any ..) (.after (Dev.canopyError_touches ..) (.mono
        (Dev.trimStaging_touches ..)))) (.after (Dev.canopyError_touches ..) (.mono (Dev.trimStaging_touches ..))))) (.after
        (Dev.proceed_touches ..) (.ite (.after (Dev.updAcc_any ..) (.after (Dev.canopyError_touches ..) (.mono
        (Dev.trimStaging_touches ..)))) (.after (Dev.canopyError_touches ..) (.mono (Dev.trimStaging_touches ..)))))))

theorem execCanopyMaintFlush_effect (q : BitVec 14) (pos : BitVec 16) (s : State) : Effect [.queues, .hdma, .can, .frs, .accs,
    .med] s (execCanopyMaintFlush q pos s) := by
  unfold execCanopyMaintFlush
  exact .serve fun _ => .mono (Dev.maintCommand_touches ..)

theorem execCanopyMaintInvalidate_effect (q : BitVec 14) (pos : BitVec 16) (s : State) : Effect [.queues, .hdma, .can, .frs,
    .accs, .med] s (execCanopyMaintInvalidate q pos s) := by
  unfold execCanopyMaintInvalidate
  exact .serve fun _ => .mono (Dev.maintCommand_touches ..)

theorem execFlushInv_effect (q : BitVec 14) (pos : BitVec 16) (s : State) : Effect [.queues, .hdma, .can, .frs, .accs, .med] s
    (execFlushInv q pos s) := by
  unfold execFlushInv
  exact .serve fun _ => .mono (Dev.maintCommand_touches ..)

theorem execPin_effect (q : BitVec 14) (pos : BitVec 16) (err : Option CanErr) (s : State) : Effect [.queues, .hdma, .can, .frs,
    .accs, .med] s (execPin q pos err s) := by
  unfold execPin
  exact .serve fun _ => .after (Dev.maintCommand_touches ..) (.ite (.mono (Dev.canopyError_touches ..)) (.refl _))

theorem execUnpin_effect (q : BitVec 14) (pos : BitVec 16) (s : State) : Effect [.queues, .hdma, .can, .frs, .accs, .med] s
    (execUnpin q pos s) := by
  unfold execUnpin
  exact .serve fun _ => .mono (Dev.maintCommand_touches ..)

theorem execCanopyMaintRead_effect (q : BitVec 14) (pos : BitVec 16) (err : Option Bool) (s : State) : Effect [.queues, .hdma,
    .can, .frs, .accs, .med] s (execCanopyMaintRead q pos err s) := by
  unfold execCanopyMaintRead
  exact .serve fun _ => .mono (Dev.maintCommand_touches ..)

theorem execZero_effect (q : BitVec 14) (pos : BitVec 16) (s : State) : Effect [.queues, .hdma, .can, .frs, .accs, .med] s
    (execZero q pos s) := by
  unfold execZero
  exact .serve fun _ => .mono (Dev.maintCommand_touches ..)

theorem execCanCtrlEn_effect (v : Word32) (s : State) : Effect [.queues, .hdma, .can, .frs, .accs, .med] s (execCanCtrlEn v
    s) := by
  unfold execCanCtrlEn
  exact .core fun _ => .ite (.ite (.refl _) (.after (Dev.pumpMaint_touches ..) (.mono (Dev.endDrain_touches ..)))) (.ite (.after
    (Dev.pumpMaint_touches ..) (.mono (Dev.startDrain_touches ..))) (.refl _))

theorem execCanPinCfg_effect (v : Word32) (s : State) : Effect [.can] s (execCanPinCfg v s) := by
  unfold execCanPinCfg
  exact .core fun _ => .ite (.mono (Touches.setCan)) (.forAllAfter (fun _ _ => .ite (.mono (Dev.raise_touches ..)) (.refl _))
    (.mono (Touches.setCan (lines := fun h => h.filter _))))

theorem execCanCntClr_effect (v : Word32) (s : State) : Effect [.can] s (execCanCntClr v s) := by
  unfold execCanCntClr
  exact .core fun _ => .ite (.mono (Touches.setCan)) (.refl _)

theorem execLanKatRun_effect (hi : Word32) (s : State) : Effect [.mgt, .lan] s (execLanKatRun hi s) := by
  unfold execLanKatRun
  exact .core fun _ => .forAllAfter (fun _ _ => .ite (.mono (Dev.startKat_touches ..)) (.refl _)) (.refl _)

theorem execKatPeriodExpiry_effect (lane : Fin 36) (s : State) : Effect [.lan, .mgt] s (execKatPeriodExpiry lane s) := by
  unfold execKatPeriodExpiry
  exact .serve fun _ => .ite (.after (Dev.updLane_touches ..) (.mono (Dev.startKat_touches ..))) (.refl _)

theorem execKatSetDone_effect (lane : Fin 36) (results : List Bytes) (s : State) : Effect [.lan, .mgt, .tap, .accs, .sessions,
    .ports, .decided] s (execKatSetDone lane results s) := by
  unfold execKatSetDone
  exact .act fun _ => .ite (.refl _) (.ite (.ite (.after (Dev.quarantinePassed_touches ..) (.after (Dev.tapKatDone_touches ..)
    (.mono (Dev.updLane_touches ..)))) (.after (Dev.tapKatDone_touches ..) (.mono (Dev.updLane_touches ..)))) (.after
    (Dev.laneFailed_touches ..) (.ite (.after (Dev.raise_touches ..) (.after (Dev.updLane_touches ..) (.after
    (Dev.tapKatDone_touches ..) (.mono (Dev.updLane_touches ..))))) (.after (Dev.updLane_touches ..) (.after
    (Dev.tapKatDone_touches ..) (.mono (Dev.updLane_touches ..)))))))

theorem execProbationEnd_effect (lane : Fin 36) (s : State) : Effect [.lan] s (execProbationEnd lane s) := by
  unfold execProbationEnd
  exact .serve fun _ => .ite (.after (Dev.raise_touches ..) (Dev.lanesChange_touches (fun _ => .mono (Dev.activate_touches ..))
    (.refl _))) (.refl _)

theorem execStandbyKatRepeat_effect (lane : Fin 36) (s : State) : Effect [.mgt, .lan] s (execStandbyKatRepeat lane s) := by
  unfold execStandbyKatRepeat
  exact .serve fun _ => .ite (.mono (Dev.startKat_touches ..)) (.refl _)

theorem execClusterIdleGate_effect (k : Fin 9) (s : State) : Effect [.mgt, .mgtRest] s (execClusterIdleGate k s) := by
  unfold execClusterIdleGate
  exact .act fun _ => .ite (.mono (Touches.setMgt)) (.refl _)

theorem execCanLfsrReseed_effect (v : Word32) (drbg : Option Bool) (s : State) : Effect [.key, .can] s (execCanLfsrReseed v drbg
    s) := by
  unfold execCanLfsrReseed
  exact .core fun _ => .ite (.after (Dev.reseedLfsrs_touches ..) (.ite (.mono (Dev.drbgRead_touches ..)) (.refl _))) (.refl _)

theorem execKeyDrbgReseed_effect (v : Word32) (s : State) : Effect [.key, .can] s (execKeyDrbgReseed v s) := by
  unfold execKeyDrbgReseed
  exact .core fun _ => .ite (.after (Dev.noteDue_touches ..) (.mono (Touches.setKey))) (.refl _)

theorem execKeyCntClr_effect (v : Word32) (s : State) : Effect [.key] s (execKeyCntClr v s) := by
  unfold execKeyCntClr
  exact .core fun _ => .ite (.mono (Touches.setKey)) (.refl _)

theorem execKeyEntEn_effect (v : Word32) (s : State) : Effect [.lan, .can, .key] s (execKeyEntEn v s) := by
  unfold execKeyEntEn
  exact .core fun _ => .after (Dev.sourceLost_touches ..) (.forAllAfter (fun _ _ => .ite (.mono (Dev.setEnt_touches ..)) (.ite
    (.mono (Dev.setEnt_touches ..)) (.refl _))) (.mono (Touches.setKey)))

theorem execEntropyStartupDone_effect (n : Fin 8) (samples : Bytes) (s : State) : Effect [.lan, .can, .key] s
    (execEntropyStartupDone n samples s) := by
  unfold execEntropyStartupDone
  exact .act fun _ => .ite (.refl _) (.mono (Dev.startupDone_touches ..))

theorem execEntropyHealthFail_effect (n : Fin 8) (samples : Bytes) (s : State) : Effect [.lan, .can, .key] s
    (execEntropyHealthFail n samples s) := by
  unfold execEntropyHealthFail
  exact .act fun _ => .ite (.refl _) (.mono (Dev.sourceFails_touches ..))

theorem execDrbgReseedDone_effect (samples : Bytes) (drbg : Option Bool) (s : State) : Effect [.lan, .can, .key] s
    (execDrbgReseedDone samples drbg s) := by
  unfold execDrbgReseedDone
  exact .serve fun _ => .ite (.ite (.mono (Dev.collected_touches ..)) (.after (Dev.retryLfsrs_touches ..) (.after
    (Dev.drbgReady_touches ..) (.after (Touches.setKey) (.mono (Dev.drbgRead_touches ..)))))) (.refl _)

theorem execVectorDue_effect (vec : BitVec 11) (s : State) : Effect [.hdma, .queues, .qmg] s (execVectorDue vec s) := by
  unfold execVectorDue
  exact .serve fun _ => .ite (.mono (Dev.fallDue_touches ..)) (.refl _)

theorem execHostHoldoffRise_effect (s : State) : Effect [.mgt, .mgtRest] s (execHostHoldoffRise s) := by
  unfold execHostHoldoffRise
  exact .act fun _ => .mono (Touches.setMgt)

theorem execHostHoldoffFall_effect (s : State) : Effect [.mgt, .hdma, .queues, .qmg, .mgtRest] s (execHostHoldoffFall s) := by
  unfold execHostHoldoffFall
  exact .act fun _ => .ite (.ite (.after (Dev.raise_touches ..) (.mono (Touches.setMgt))) (.mono (Touches.setMgt))) (.after
    (Dev.sendPending_touches ..) (.ite (.after (Dev.raise_touches ..) (.mono (Touches.setMgt))) (.mono (Touches.setMgt))))

theorem execQmgVecLoad_effect (v : Word32) (s : State) : Effect [.qmg, .hdma, .queues] s (execQmgVecLoad v s) := by
  unfold execQmgVecLoad
  exact .core fun _ => .ite (.mono (Touches.setQmgRegs)) (.ite (.forAllAfter (fun _ _ => .mono (Dev.hostRead_touches ..)) (.mono
    (Touches.setQmgRegs))) (.after (Dev.hostRead_touches ..) (.mono (Touches.setQmgRegs))))

theorem execEntryFetch_effect (q : BitVec 14) (s : State) : Effect [.hdma, .queues] s (execEntryFetch q s) := by
  unfold execEntryFetch
  exact .serve fun _ => .mono (Dev.fetchMore_touches ..)

theorem execScanPoll_effect (q : BitVec 14) (s : State) : Effect [.hdma, .queues] s (execScanPoll q s) := by
  unfold execScanPoll
  exact .serve fun _ => .ite (.after (Dev.fetchMore_touches ..) (.mono (Dev.setQueue_touches ..))) (.refl _)

theorem execTail_effect (slot : BitVec 14) (low : BitVec 30) (be : BitVec 8) (s : State) : Effect [.queues, .hdma] s (execTail
    slot low be s) := by
  unfold execTail
  exact .ring fun _ => .mono (Dev.ringTail_touches ..)

theorem execScan_effect (slot : BitVec 14) (low : BitVec 30) (be : BitVec 8) (s : State) : Effect [.hdma, .queues] s (execScan
    slot low be s) := by
  unfold execScan
  exact .ring fun _ => .mono (Dev.ringScan_touches ..)

theorem execInvalidate_effect (slot : BitVec 14) (low : BitVec 30) (be : BitVec 8) (s : State) : Effect [.hdma, .queues] s
    (execInvalidate slot low be s) := by
  unfold execInvalidate
  exact .ring fun _ => .mono (Dev.ringInvalidate_touches ..)

theorem execDrain_effect (slot : BitVec 14) (low : BitVec 30) (be : BitVec 8) (s : State) : Effect [.hdma, .queues, .qmg] s
    (execDrain slot low be s) := by
  unfold execDrain
  exact .ring fun _ => .mono (Dev.ringDrain_touches ..)

theorem execEntryConsumption_effect (q : BitVec 14) (err : Option Bool) (s : State) : Effect [.queues, .hdma] s
    (execEntryConsumption q err s) := by
  unfold execEntryConsumption
  exact .serve fun _ => .ite (.ite (.ite (.mono (Dev.raise_touches ..)) (.refl _)) (.after (Dev.contextLost_touches ..) (.ite
    (.mono (Dev.raise_touches ..)) (.refl _)))) (by
    split
    · exact .ite (.mono (Dev.raise_touches ..)) (.refl _)
    · exact .ite (.ite (.mono (Dev.raise_touches ..)) (.refl _)) (by
        split
        · exact .after (Dev.queueError_touches ..) (.ite (.mono (Dev.raise_touches ..)) (.refl _))
        · exact .after (Dev.startInput_touches ..) (.after (Dev.setQueue_touches ..) (.ite (.mono (Dev.raise_touches ..))
            (.refl _)))))

theorem execEventRecordWrite_effect (src : EvSrc) (s : State) : Effect [.stl, .hdma, .queues] s (execEventRecordWrite src
    s) := by
  unfold execEventRecordWrite
  exact .serve fun _ => by
    dsimp only
    split
    · exact .refl _
    · exact .ite (.mono (Dev.dropHeld_touches ..)) (.ite (.after (Dev.raise_touches ..) (.after (Dev.learnWritten_touches ..)
        (.mono (Dev.dropHeld_touches ..)))) (.ite (.refl _) (.after (Dev.learnWritten_touches ..) (.after
        (Dev.writeRecord_touches ..) (.after (Dev.updQueue_touches ..) (.mono (Dev.dropHeld_touches ..)))))))

theorem execCreateQueue_effect (q : BitVec 14) (pos : BitVec 16) (s : State) : Effect [.queues, .hdma] s (execCreateQueue q pos
    s) := by
  unfold execCreateQueue
  exact .serve fun _ => Dev.command_touches (fun _ _ => .ite (.mono (Dev.finish_touches ..)) (.ite (.mono (Dev.finish_touches
    ..)) (.after (Dev.finish_touches ..) (.mono (Dev.setQueue_touches ..))))) (.refl _)

theorem execDeleteQueue_effect (q : BitVec 14) (pos : BitVec 16) (s : State) : Effect [.queues, .hdma] s (execDeleteQueue q pos
    s) := by
  unfold execDeleteQueue
  exact .serve fun _ => Dev.command_touches (fun _ _ => .ite (.mono (Dev.finish_touches ..)) (.ite (.mono (Dev.finish_touches
    ..)) (.after (Dev.finish_touches ..) (.mono (Dev.removeQueue_touches ..))))) (.refl _)

theorem execResetQueue_effect (q : BitVec 14) (pos : BitVec 16) (s : State) : Effect [.queues, .hdma] s (execResetQueue q pos
    s) := by
  unfold execResetQueue
  exact .serve fun _ => Dev.command_touches (fun _ _ => .ite (.mono (Dev.finish_touches ..)) (.ite (.mono (Dev.finish_touches
    ..)) (.after (Dev.endReset_touches ..) (.after (Dev.updQueue_touches ..) (.mono (Dev.running_touches ..)))))) (.refl _)

theorem execEnable_effect (q : BitVec 14) (s : State) : Effect [.queues, .qmg] s (execEnable q s) := by
  unfold execEnable
  exact .core fun _ => .mono (Dev.enableQueue_touches ..)

theorem execDisable_effect (q : BitVec 14) (s : State) : Effect [.queues] s (execDisable q s) := by
  unfold execDisable
  exact .core fun _ => .mono (Dev.disableQueue_touches ..)

theorem execAdminReset_effect (q : BitVec 14) (s : State) : Effect [.queues, .hdma, .qmg] s (execAdminReset q s) := by
  unfold execAdminReset
  exact .core fun _ => .mono (Dev.resetAdmin_touches ..)

theorem execQueueIdle_effect (q : BitVec 14) (s : State) : Effect [.queues] s (execQueueIdle q s) := by
  unfold execQueueIdle
  exact .serve fun _ => .ite (.mono (Dev.setQueue_touches ..)) (.refl _)

theorem execFormatZone_effect (q : BitVec 14) (pos : BitVec 16) (zenith : Bool) (drbg : Option Bool) (s : State) : Effect
    [.queues, .hdma, .key, .can, .svc, .frs] s (execFormatZone q pos zenith drbg s) := by
  unfold execFormatZone
  exact .serve fun _ => .ite (.refl _) (Dev.command_touches (fun _ _ => .ite (.after (Dev.finish_touches ..) (.mono
    (Dev.zenithRead_touches ..))) (.ite (.after (Dev.finish_touches ..) (.mono (Dev.zenithRead_touches ..))) (.ite (.mono
    (Dev.zenithRead_touches ..)) (by
    dsimp only
    split
    · exact .after (Dev.waitDraw_touches ..) (.after (Dev.noteDue_touches ..) (.mono (Dev.zenithRead_touches ..)))
    · exact .after (Dev.finish_touches ..) (.after (Dev.noteDue_touches ..) (.mono (Dev.zenithRead_touches ..)))
    · exact .after (Dev.takeZone_touches ..) (.after (Dev.running_touches ..) (.after (Dev.drbgRead_touches ..) (.after
        (Dev.draw_touches ‹_›) (.after (Dev.noteDue_touches ..) (.mono (Dev.zenithRead_touches ..)))))))))) (.refl _))

theorem execTreeReset_effect (z : BitVec 13) (zenith : Bool) (s : State) : Effect [.frs, .can, .accs, .med, .queues, .hdma,
    .svc] s (execTreeReset z zenith s) := by
  unfold execTreeReset
  exact .serve fun _ => .ite (.refl _) (by
    dsimp only
    split
    · exact .after (Dev.updZone_touches ..) (.after (Touches.setFrs) (.after (Dev.dropSubtree_touches ..) (.mono
        (Dev.zenithRead_touches ..))))
    · exact .ite (.after (Dev.finish_touches ..) (.after (Dev.updZone_touches ..) (.after (Dev.zoneTo_touches ..) (.after
        (Dev.pumpMaint_touches ..) (.after (Dev.updZone_touches ..) (.after (Touches.setFrs) (.after (Dev.dropSubtree_touches
        ..) (.mono (Dev.zenithRead_touches ..))))))))) (.after (Dev.svcCheck_touches ..) (.after (Dev.updScmd_touches ..)
        (.after (Dev.pumpMaint_touches ..) (.after (Dev.updZone_touches ..) (.after (Touches.setFrs) (.after
        (Dev.dropSubtree_touches ..) (.mono (Dev.zenithRead_touches ..)))))))))

theorem execRekeyStart_effect (q : BitVec 14) (pos : BitVec 16) (s : State) : Effect [.queues, .hdma, .svc, .rmp] s
    (execRekeyStart q pos s) := by
  unfold execRekeyStart
  exact .serve fun _ => .ite (.refl _) (Dev.command_touches (fun _ _ => by
    dsimp only
    split
    · exact .mono (Dev.finish_touches ..)
    · exact .ite (.mono (Dev.finish_touches ..)) (.ite (.mono (Dev.finish_touches ..)) (.ite (.mono (Dev.finish_touches ..))
        (.after (Dev.finish_touches ..) (.after (Touches.setSvc (fronts := fun h => put_rising _ _ h)) (.mono
        (Dev.setRekey_touches ..))))))) (.refl _))

/-- Rates and credits may be set whose table was in order at the start. -/
theorem Touches.setFronts {as bs : List Aspect} {d e : Dev} {t : Tab Front} (h : Touches as d e bs) (ht : Canonical d →
    Tab.rising t)
    (hs : (Touches.sub [.svc] as && Touches.sub [] (as ++ bs)) = true := by rfl) : Touches as d { e with svc.fronts := t }
      bs := by
  have hm : .svc ∈ as := by simpa [Touches.sub] using hs
  have hp : ∀ a, a ∉ as → Kept e { e with svc.fronts := t } a := by
    intro a ha
    cases a <;> simp_all [Kept]
  exact ⟨fun a ha hb => (h.kept a ha hb).trans (hp a ha), fun hq hn a ha => (h.quiet hq hn a ha).trans (hp a ha),
    fun hd => { h.tables hd with fronts := ht hd }, h.seq, h.ids, h.drive⟩

theorem execRekeyAbort_effect (q : BitVec 14) (pos : BitVec 16) (s : State) : Effect [.queues, .hdma, .svc, .frs, .rmp] s
    (execRekeyAbort q pos s) := by
  unfold execRekeyAbort
  refine .serve fun _ => ?_
  split
  · exact .refl _
  · refine .ite (.refl _) (Dev.command_touches (fun _ _ => ?_) (.refl _))
    dsimp only
    split
    · exact .mono (Dev.finish_touches ..)
    · exact .ite (.mono (Dev.finish_touches ..)) (.after (Dev.finish_touches ..)
        (.setFronts (.after (Dev.cancelRegion_touches ..) (.mono (Dev.setRekey_touches ..))) fun h => put_rising _ _ h.fronts))

theorem execSanitize_effect (q : BitVec 14) (pos : BitVec 16) (zenith : Bool) (drbg : Option Bool) (s : State) : Effect
    [.queues, .hdma, .key, .svc, .can, .frs] s (execSanitize q pos zenith drbg s) := by
  unfold execSanitize
  exact .serve fun _ => .mono (Dev.svcCommand_touches ..)

theorem execScrub_effect (q : BitVec 14) (pos : BitVec 16) (zenith : Bool) (s : State) : Effect [.queues, .hdma, .key, .svc,
    .can, .frs] s (execScrub q pos zenith s) := by
  unfold execScrub
  exact .serve fun _ => .mono (Dev.svcCommand_touches ..)

theorem execSeal_effect (q : BitVec 14) (pos : BitVec 16) (zenith : Bool) (drbg : Option Bool) (s : State) : Effect [.queues,
    .hdma, .key, .svc, .can, .frs] s (execSeal q pos zenith drbg s) := by
  unfold execSeal
  exact .serve fun _ => .mono (Dev.svcCommand_touches ..)

theorem execUnseal_effect (q : BitVec 14) (pos : BitVec 16) (zenith : Bool) (s : State) : Effect [.queues, .hdma, .key, .svc,
    .can, .frs] s (execUnseal q pos zenith s) := by
  unfold execUnseal
  exact .serve fun _ => .mono (Dev.svcCommand_touches ..)

theorem execTranscode_effect (q : BitVec 14) (pos : BitVec 16) (zenith : Bool) (s : State) : Effect [.queues, .hdma, .key, .svc,
    .can, .frs] s (execTranscode q pos zenith s) := by
  unfold execTranscode
  exact .serve fun _ => .mono (Dev.svcCommand_touches ..)

theorem execServiceCommandStart_effect (q : BitVec 14) (pos : BitVec 16) (s : State) : Effect [.queues, .hdma, .svc, .frs] s
    (execServiceCommandStart q pos s) := by
  unfold execServiceCommandStart
  exact .serve fun _ => by
    split
    · exact .refl _
    · exact .ite (by
        split
        · exact .mono (Dev.svcStop_touches ..)
        · exact .after (Dev.readChunk_touches ..) (.mono (Dev.updScmd_touches ..))) (.refl _)

theorem execScrubDone_effect (s : State) : Effect [.svc] s (execScrubDone s) := by
  unfold execScrubDone
  exact .serve fun _ => .ite (.refl _) (.getD (fun _ h => .after (Dev.drizzleSeek_touches h) (.ite (.mono (Dev.event_touches
    ..)) (.refl _))) (.ite (.mono (Dev.event_touches ..)) (.refl _)))

theorem execServiceStepStart_effect (who : SvcWho) (chk : List Chk) (s : State) : Effect [.svc, .rmp, .accs, .fabRest, .ports,
    .frs, .med, .can, .stl, .queues, .hdma, .decided] s (execServiceStepStart who chk s) := by
  unfold execServiceStepStart
  exact .serve fun _ => by
    split
    · exact .mono (Dev.frontStart_touches ..)
    · exact .mono (Dev.drizzleStart_touches ..)
    · exact .mono (Dev.cmdStart_touches ..)

theorem execServiceStepDone_effect (step : Nat) (zenith : Bool) (s : State) : Effect [.fabRest, .accs, .svc, .hdma, .queues,
    .frs, .can, .med, .decided] s (execServiceStepDone step zenith s) := by
  unfold execServiceStepDone
  exact .serve fun _ => by
    split
    · exact .refl _
    · exact .ite (.refl _) (.ite (by
        split
        · exact .ite (.refl _) (.mono (Dev.resetUnit_touches ..))
        · exact .refl _) (.ite (.refl _) (by
        split
        · exact .ite (.refl _) (by
            split
            · exact .mono (Dev.postChunk_touches ..)
            · exact .refl _)
        · exact .ite (.mono (Dev.stepEnds_touches ..)) (.refl _)
        · exact .mono (Dev.stepEnds_touches ..))))

theorem execSvcCntClr_effect (v : Word32) (s : State) : Effect [.svc] s (execSvcCntClr v s) := by
  unfold execSvcCntClr
  exact .core fun _ => .ite (.mono (Touches.setSvc)) (.refl _)

theorem execHdmaReadData_effect (tag : BitVec 8) (data : BitVec 256) (last : Bool) (err : Bool) (s : State) : Effect [.hdma,
    .host, .key, .queues, .rmp, .accs, .stl, .qmg, .svc, .frs] s (execHdmaReadData tag data last err s) := by
  unfold execHdmaReadData
  exact .act fun _ => by
    split
    · exact .refl _
    · exact .ite (.mono (Touches.setHost (fun h => h) fun h => put_rising _ _ h)) (.ite (.mono (Touches.setHost (fun h => h) fun
        h => put_rising _ _ h)) (.after (Dev.hostGoesOn_touches ..) (.after (Dev.readEnds_touches ..) (.mono (Touches.setHost
        (fun h => h) fun h => put_rising _ _ h)))))

theorem execHold_effect (s : State) : Effect [.per] s (execHold s) := by
  unfold execHold
  exact .serve fun _ => by
    split
    · exact .refl _
    · exact .ite (.mono (Touches.setPer)) (.refl _)

theorem execAnchorRestore_effect (q : BitVec 14) (pos : BitVec 16) (zenith : Bool) (s : State) : Effect [.queues, .hdma, .per,
    .med, .del, .svc, .record] s (execAnchorRestore q pos zenith s) [.adopt, .frs, .key, .can, .accs] := by
  unfold execAnchorRestore
  exact .serve fun _ => .ite (.refl _) (Dev.command_touches (fun _ _ => .ite (.after (Dev.finish_touches ..) (.mono
    (Dev.zenithRead_touches ..))) (.ite (.after (Dev.finish_touches ..) (.mono (Dev.zenithRead_touches ..))) (.ite (.after
    (Dev.restoreEnds_touches ..) (.after (Dev.setRestore_touches ..) (.after (Dev.running_touches ..) (.mono
    (Dev.zenithRead_touches ..))))) (.after (Dev.pumpRestore_touches ..) (.after (Dev.setRestore_touches ..) (.after
    (Dev.running_touches ..) (.mono (Dev.zenithRead_touches ..)))))))) (.refl _))

theorem execPerArm_effect (v : Word32) (s : State) : Effect [.per, .med, .record] s (execPerArm v s) := by
  unfold execPerArm
  exact .core fun _ => .ite (.refl _) (.ite (.mono (Touches.setPer)) (.ite (.mono (Touches.setPer)) (.mono (Dev.startArm_touches
    ..))))

theorem execArmingDone_effect (s : State) : Effect [.queues, .hdma, .per, .del, .record] s (execArmingDone s) [.key, .frs, .can,
    .med, .adopt, .accs, .svc] := by
  unfold execArmingDone
  exact .serve fun _ => by
    split
    · exact .refl _
    · exact .ite (.after (Dev.restoreEnds_touches ..) (.mono (Touches.setPer_any))) (.ite (.after (Dev.restoreEnds_touches ..)
        (.mono (Dev.arm_touches ..))) (.refl _))

theorem execAnvilResponse_effect (rdata : Word32) (err : Bool) (s : State) : Effect [.per, .del, .queues, .hdma, .med, .svc,
    .record] s (execAnvilResponse rdata err s) [.key, .frs, .can, .adopt, .accs] := by
  unfold execAnvilResponse
  exact .act fun _ => by
    split
    · exact .refl _
    · exact .mono (Dev.anvilAnswer_touches ..)

theorem execAnvilTimeout_effect (s : State) : Effect [.per, .del, .queues, .hdma, .med, .svc, .record] s (execAnvilTimeout s)
    [.key, .frs, .can, .adopt, .accs] := by
  unfold execAnvilTimeout
  exact .act fun _ => by
    split
    · exact .refl _
    · exact .ite (.mono (Dev.anvilAnswer_touches ..)) (.refl _)

theorem execCheckpoint_effect (q : BitVec 14) (pos : BitVec 16) (s : State) : Effect [.queues, .hdma, .per, .del] s
    (execCheckpoint q pos s) [.key, .frs, .can, .med, .adopt, .accs, .svc] := by
  unfold execCheckpoint
  exact .serve fun _ => Dev.command_touches (fun _ _ => .ite (.mono (Dev.finish_touches ..)) (.ite (.mono (Dev.finish_touches
    ..)) (.after (Dev.ckptNext_touches ..) (.ite (.after (Dev.toCoord_touches ..) (.after (Touches.setPer) (.mono
    (Dev.running_touches ..)))) (.after (Touches.setPer) (.mono (Dev.running_touches ..))))))) (.refl _)

theorem execPeriodicCheckpoint_effect (s : State) : Effect [.per, .del, .peers, .parted] s (execPeriodicCheckpoint s) := by
  unfold execPeriodicCheckpoint
  exact .serve fun _ => .ite (.refl _) (.ite (.mono (Dev.startCkpt_touches ..)) (.ite (.mono (Dev.startPool_touches ..))
    (.refl _)))

theorem execAdoptZone_effect (q : BitVec 14) (pos : BitVec 16) (zenith : Bool) (drbg : Option Bool) (s : State) : Effect
    [.queues, .hdma, .key, .can, .per, .svc, .frs, .adopt] s (execAdoptZone q pos zenith drbg s) [.med, .accs] := by
  unfold execAdoptZone
  exact .serve fun _ => .ite (.refl _) (Dev.command_touches (fun _ _ => by
    dsimp only
    split
    · exact .after (Dev.finish_touches ..) (.mono (Dev.zenithRead_touches ..))
    · exact by
        split
        · exact .after (Dev.waitDraw_touches ..) (.after (Dev.noteDue_touches ..) (.mono (Dev.zenithRead_touches ..)))
        · exact .after (Dev.finish_touches ..) (.after (Dev.noteDue_touches ..) (.mono (Dev.zenithRead_touches ..)))
        · exact .ite (.after (Touches.setPer) (.after (Dev.keepDrawn_touches ..) (.after (Dev.running_touches ..) (.after
            (Dev.drbgRead_touches ..) (.after (Dev.draw_touches ‹_›) (.after (Dev.noteDue_touches ..) (.mono
            (Dev.zenithRead_touches ..)))))))) (.after (Dev.startAdopt_touches ..) (.after (Dev.keepDrawn_touches ..) (.after
            (Dev.running_touches ..) (.after (Dev.drbgRead_touches ..) (.after (Dev.draw_touches ‹_›) (.after
            (Dev.noteDue_touches ..) (.mono (Dev.zenithRead_touches ..))))))))) (.refl _))

theorem execAdoptionStart_effect (zenith : Bool) (s : State) : Effect [.queues, .hdma, .key, .per, .svc, .frs, .adopt] s
    (execAdoptionStart zenith s) [.can, .med, .accs] := by
  unfold execAdoptionStart
  exact .serve fun _ => by
    split
    · exact .refl _
    · exact .ite (.refl _) (.ite (.after (Dev.finish_touches ..) (.after (Dev.dropDrawn_touches ..) (.after
        (Dev.zenithRead_touches ..) (.mono (Touches.setPer))))) (by
        split
        · exact .after (Dev.finish_touches ..) (.after (Dev.dropDrawn_touches ..) (.after (Dev.zenithRead_touches ..) (.mono
            (Touches.setPer))))
        · exact .after (Dev.startAdopt_touches ..) (.after (Dev.zenithRead_touches ..) (.mono (Touches.setPer)))))

theorem execCut_effect (err : Option CanErr) (key : Option (KeyRef × Bool)) (s : State) : Effect [.per, .del, .svc, .queues,
    .hdma, .med, .key, .can, .lan, .accs, .frs, .ports, .fabRest, .stl, .decided, .record] s (execCut err key s) [.adopt] := by
  unfold execCut
  exact .serve fun _ => by
    dsimp only
    split
    · exact .ite (.after (Dev.pumpAdopt_touches ..) (.after (Dev.ckptCut_touches ..) (.after (Dev.keyError_touches ..) (.ite
        (.mono (Dev.canopyError_touches ..)) (.refl _))))) (.refl _)
    · exact .ite (.refl _) (by
        split
        · exact .after (Dev.pumpAdopt_touches ..) (.after (Dev.cutNow_touches ..) (.after (Dev.startCkpt_touches ..) (.after
            (Touches.setPer) (.after (Dev.keyError_touches ..) (.ite (.mono (Dev.canopyError_touches ..)) (.refl _))))))
        · exact .after (Dev.startCkpt_touches ..) (.after (Touches.setPer) (.after (Dev.keyError_touches ..) (.ite (.mono
            (Dev.canopyError_touches ..)) (.refl _)))))

theorem execRelease_effect (s : State) : Effect [.per, .del, .svc, .queues, .hdma, .med, .record] s (execRelease s) [.key, .frs,
    .can, .adopt, .accs] := by
  unfold execRelease
  exact .serve fun _ => by
    split
    · exact .refl _
    · exact .ite (.after (Dev.pumpAdopt_touches ..) (.after (Dev.pumpAnvil_touches ..) (.mono (Touches.setPer)))) (.refl _)

theorem execCommit_effect (zenith : Bool) (s : State) : Effect [.per, .del, .svc, .queues, .hdma, .record] s (execCommit zenith
    s) [.key, .frs, .can, .med, .adopt, .accs] := by
  unfold execCommit
  exact .serve fun _ => by
    split
    · exact .refl _
    · exact .ite (.after (Dev.ckptCommit_touches ..) (.mono (Dev.zenithRead_touches ..))) (.refl _)

theorem execWriteBack_effect (err : Option CanErr) (key : Option (KeyRef × Bool)) (s : State) : Effect [.queues, .hdma, .can,
    .frs, .accs, .med, .per, .key, .lan, .svc, .ports, .fabRest, .stl, .decided] s (execWriteBack err key s) [.adopt] := by
  unfold execWriteBack
  exact .serve fun _ => .after (Dev.pumpAdopt_touches ..) (by
    split
    · exact .after (Dev.pumpMaint_touches ..) (.after (Dev.trimStaging_touches ..) (.after (Dev.leafWaits_touches ..) (.after
        (Dev.writeBackLine_touches ..) (.after (Dev.keyError_touches ..) (.mono (Dev.canopyError_touches ..))))))
    · exact .after (Dev.keyError_touches ..) (.mono (Dev.canopyError_touches ..)))

theorem execZoneDeparture_effect (z : BitVec 13) (s : State) : Effect [.queues, .hdma, .svc, .frs] s (execZoneDeparture z s)
    [.per, .key, .can, .med, .adopt, .accs] := by
  unfold execZoneDeparture
  exact .serve fun _ => .ite (.after (Dev.pumpAdopt_touches ..) (by
    split
    · exact .after (Dev.svcCheck_touches ..) (.mono (Dev.updZone_touches ..))
    · exact .mono (Dev.updZone_touches ..))) (.refl _)

theorem execPerAnchorBaseWrite_effect (v : Word32) (s : State) : Effect [.per, .record] s (execPerAnchorBaseWrite v s) := by
  unfold execPerAnchorBaseWrite
  exact .core fun _ => .ite (.mono (Touches.setPer_any)) (.mono (Touches.setPer_any))

theorem execPerCntClr_effect (v : Word32) (s : State) : Effect [.per, .record] s (execPerCntClr v s) := by
  unfold execPerCntClr
  exact .core fun _ => .ite (.mono (Touches.setPer_any)) (.refl _)

theorem execMcnFail_effect (ch : Fin 16) (s : State) : Effect [.med, .accs, .svc, .ports, .fabRest, .stl, .frs, .queues, .hdma,
    .can, .per, .del, .rmp, .decided, .record] s (execMcnFail ch s) [.key, .adopt] := by
  unfold execMcnFail
  exact .act fun _ => .ite (.refl _) (.ite (.mono (Dev.retireSafe_touches ..)) (.mono (Dev.retireChannel_touches ..)))

theorem execTransientBucketLeak_effect (ch : Fin 16) (s : State) : Effect [.med] s (execTransientBucketLeak ch s) := by
  unfold execTransientBucketLeak
  exact .act fun _ => .ite (.refl _) (.mono (Dev.setChan_touches ..))

theorem execMedCntClr_effect (v : Word32) (s : State) : Effect [.med] s (execMedCntClr v s) := by
  unfold execMedCntClr
  exact .core fun _ => .forAllAfter (fun _ _ => .ite (.mono (Dev.setChan_touches ..)) (.refl _)) (.refl _)

theorem execMediaReadBeat_effect (ch : Fin 16) (tag : BitVec 10) (beat : Beat) (ecc : BitVec 2) (zenith : Bool) (key : Option
    (KeyRef × Bool)) (s : State) : Effect [.med, .accs, .svc, .ports, .fabRest, .stl, .can, .frs, .sessions, .per, .rmp, .del,
    .queues, .hdma, .key, .lan, .decided, .record] s (execMediaReadBeat ch tag beat ecc zenith key s) [.adopt] := by
  unfold execMediaReadBeat
  exact .act fun _ => .ite (.refl _) (by
    split
    · exact .ite (.refl _) (.mono (Dev.raise_touches ..))
    · exact .ite (.ite (.refl _) (.mono (Dev.raise_touches ..))) (.ite (.mono (Dev.mediaDone_touches ..)) (.after
        (Dev.pumpMedia_touches ..) (.after (Dev.readBeat_touches ..) (.after (Dev.beatErrors_touches ..) (.mono
        (Dev.mediaDone_touches ..)))))))

theorem execMediaWriteCompletion_effect (ch : Fin 16) (tag : BitVec 10) (status : BitVec 2) (zenith : Bool) (s : State) : Effect
    [.med, .ports, .accs, .fabRest, .stl, .svc, .can, .frs, .sessions, .queues, .hdma, .per, .del, .decided, .record] s
    (execMediaWriteCompletion ch tag status zenith s) [.key, .adopt] := by
  unfold execMediaWriteCompletion
  exact .act fun _ => .ite (.refl _) (by
    split
    · exact .ite (.refl _) (.mono (Dev.raise_touches ..))
    · exact .ite (.ite (.refl _) (.mono (Dev.raise_touches ..))) (.ite (.mono (Dev.mediaDone_touches ..)) (.after
        (Dev.pumpMedia_touches ..) (.after (Dev.writeDone_touches ..) (.after (Dev.zenithRead_touches ..) (.mono
        (Dev.mediaDone_touches ..)))))))

theorem execLanePassDone_effect (id : Nat) (lane : Fin 36) (audit : Audit) (err : Option CanErr) (key : Option (KeyRef × Bool))
    (s : State) : Effect [.accs, .svc, .ports, .fabRest, .stl, .sessions, .frs, .queues, .hdma, .can, .med, .per, .del, .rmp,
    .lan, .mgt, .tap, .key, .decided, .record] s (execLanePassDone id lane audit err key s) [.adopt] := by
  unfold execLanePassDone
  exact .serve fun _ => by
    split
    · exact .refl _
    · exact .ite (.refl _) (.after (Dev.takePass_touches ..) (.after (Dev.wake_touches ..) (.after (Dev.canopyError_touches ..)
        (.mono (Dev.keyError_touches ..)))))

theorem execLadderVerifyDone_effect (id : Nat) (err : Option CanErr) (key : Option (KeyRef × Bool)) (s : State) : Effect
    [.queues, .hdma, .can, .frs, .accs, .med, .key, .lan, .svc, .ports, .fabRest, .stl, .per, .del, .rmp, .sessions, .decided,
    .record] s (execLadderVerifyDone id err key s) [.adopt] := by
  unfold execLadderVerifyDone
  exact .serve fun _ => by
    split
    · exact .refl _
    · exact by
        dsimp only
        split
        · exact .after (Dev.pumpAdopt_touches ..) (.after (Dev.pumpMaint_touches ..) (.after (Dev.trimStaging_touches ..)
            (.after (Dev.keyError_touches ..) (.mono (Dev.canopyError_touches ..)))))
        · exact .after (Dev.pumpAdopt_touches ..) (.after (Dev.pumpMaint_touches ..) (.after (Dev.trimStaging_touches ..)
            (.after (Dev.ladderEnds_touches ..) (.after (Dev.countAnchor_touches ..) (.after (Dev.keyError_touches ..) (.mono
            (Dev.canopyError_touches ..)))))))

theorem execCreditReturn_effect (c : CreditCh) (s : State) : Effect [.ports, .med, .hdma, .queues, .qmg] s (execCreditReturn c
    s) := by
  unfold execCreditReturn
  exact .act fun _ => .mono (Dev.credit_touches ..)

theorem execFrsMetaBaseWrite_effect (limit : Bool) (v : Word32) (s : State) : Effect [.frs] s (execFrsMetaBaseWrite limit v
    s) := by
  unfold execFrsMetaBaseWrite
  exact .core fun _ => .ite (.mono (Touches.setFrs)) (.mono (Touches.setFrs))

theorem execFrsCntClr_effect (v : Word32) (s : State) : Effect [.frs] s (execFrsCntClr v s) := by
  unfold execFrsCntClr
  exact .core fun _ => .ite (.mono (Touches.setFrs)) (.refl _)

theorem execKeyInstall_effect (q : BitVec 14) (pos : BitVec 16) (key : Option (KeyRef × Bool)) (s : State) : Effect [.queues,
    .hdma, .key, .lan, .accs, .svc, .frs, .ports, .fabRest, .stl, .can, .med, .decided] s (execKeyInstall q pos key s) := by
  unfold execKeyInstall
  exact .serve fun _ => Dev.keyCommand_touches (fun _ _ => .ite (.after (Dev.finish_touches ..) (runBatch_touches (fun _ _ =>
    .mono (keyElem_touches ..)) (.mono (Dev.keyError_touches ..)))) (.after (Dev.finish_touches ..) (.after
    (Dev.keyInstall_touches ..) (.mono (Dev.keyError_touches ..))))) (.refl _)

theorem execKeyGenerate_effect (q : BitVec 14) (pos : BitVec 16) (key : Option (KeyRef × Bool)) (s : State) : Effect [.queues,
    .hdma, .key, .lan, .accs, .svc, .frs, .ports, .fabRest, .stl, .can, .med, .decided] s (execKeyGenerate q pos key s) := by
  unfold execKeyGenerate
  exact .serve fun _ => Dev.keyCommand_touches (fun _ _ => by
    dsimp only
    split
    · exact .after (Dev.finish_touches ..) (.mono (Dev.keyError_touches ..))
    · exact by
        split
        · exact .after (Dev.waitDraw_touches ..) (.after (Dev.noteDue_touches ..) (.mono (Dev.keyError_touches ..)))
        · exact .after (Dev.finish_touches ..) (.after (Dev.noteDue_touches ..) (.mono (Dev.keyError_touches ..)))
        · exact .after (Dev.finishWith_touches ..) (.after (Dev.keepDrawn_touches ..) (.after (Dev.draw_touches ‹_›) (.after
            (Dev.noteDue_touches ..) (.mono (Dev.keyError_touches ..)))))) (.refl _)

theorem execKekLoadDerive_effect (q : BitVec 14) (pos : BitVec 16) (s : State) : Effect [.queues, .hdma, .key] s
    (execKekLoadDerive q pos s) := by
  unfold execKekLoadDerive
  exact .serve fun _ => by
    split
    · exact .refl _
    · exact .ite (.refl _) (Dev.keyCommand_touches (fun _ _ => .ite (.mono (Dev.finish_touches ..)) (.after (Dev.finish_touches
        ..) (.ite (.refl _) (.mono (Touches.setKey (keks := fun h => put_rising _ _ h)))))) (.refl _))

theorem execKekLoadUnwrap_effect (q : BitVec 14) (pos : BitVec 16) (key : Option (KeyRef × Bool)) (s : State) : Effect [.queues,
    .hdma, .key, .lan, .accs, .svc, .frs, .ports, .fabRest, .stl, .can, .med, .decided] s (execKekLoadUnwrap q pos key s) := by
  unfold execKekLoadUnwrap
  exact .serve fun _ => by
    split
    · exact .refl _
    · exact .ite (.refl _) (Dev.keyCommand_touches (fun _ _ => by
        dsimp only
        split
        · exact .after (Dev.finish_touches ..) (.mono (Dev.keyError_touches ..))
        · exact by
            split
            · exact .after (Dev.finish_touches ..) (.after (Dev.unwrapEnds_touches ..) (.mono (Dev.keyError_touches ..)))
            · exact .ite (.after (Dev.finish_touches ..) (.mono (Dev.keyError_touches ..))) (.after (Dev.finish_touches ..)
                (.after (Touches.setKey (keks := fun h => put_rising _ _ h)) (.mono (Dev.keyError_touches ..))))) (.refl _))

theorem execSessionKeyInstall_effect (q : BitVec 14) (pos : BitVec 16) (key : Option (KeyRef × Bool)) (s : State) : Effect
    [.queues, .hdma, .key, .lan, .accs, .svc, .frs, .ports, .fabRest, .stl, .can, .med, .sessions, .decided] s
    (execSessionKeyInstall q pos key s) := by
  unfold execSessionKeyInstall
  exact .serve fun _ => Dev.keyCommand_touches (fun _ _ => by
    dsimp only
    split
    · exact .after (Dev.finish_touches ..) (.mono (Dev.keyError_touches ..))
    · exact by
        split
        · exact .after (Dev.finish_touches ..) (.after (Dev.unwrapEnds_touches ..) (.mono (Dev.keyError_touches ..)))
        · exact .ite (.after (Dev.finish_touches ..) (.mono (Dev.keyError_touches ..))) (.after (Dev.finish_touches ..) (.after
            (Dev.updSession_touches ..) (.after (Touches.setKey (regs := fun h => put_rising _ _ h)) (.mono
            (Dev.keyError_touches ..)))))) (.refl _)

theorem execKeyDestroy_effect (q : BitVec 14) (pos : BitVec 16) (s : State) : Effect [.queues, .hdma, .key, .lan, .accs] s
    (execKeyDestroy q pos s) := by
  unfold execKeyDestroy
  refine .serve fun _ => Dev.keyCommand_touches (fun _ d => ?_) (.refl _)
  split
  · exact .mono (Dev.finish_touches ..)
  · dsimp only
    split
    · exact .after Touches.setKey (.after (Touches.setKey (slots := put_rising _ _)) (.mono (Dev.running_touches ..)))
    · exact .after Touches.setKey (.after (Dev.overwrite_touches ..) (.mono (Dev.running_touches ..)))
    · exact .after Touches.setKey (.mono (Dev.running_touches ..))

theorem execKeyDrained_effect (q : BitVec 14) (pos : BitVec 16) (s : State) : Effect [.key, .lan, .accs] s (execKeyDrained q pos
    s) := by
  unfold execKeyDrained
  exact .serve fun _ => by
    split
    · exact .refl _
    · exact .ite (.refl _) (.after (Touches.setKey) (.mono (Dev.overwrite_touches ..)))

theorem execZeroisationConfirm_effect (q : BitVec 14) (pos : BitVec 16) (s : State) : Effect [.queues, .hdma, .key] s
    (execZeroisationConfirm q pos s) := by
  unfold execZeroisationConfirm
  exact .serve fun _ => by
    split
    · exact .refl _
    · exact .ite (.refl _) (.after (Dev.finish_touches ..) (.after (Touches.setKey) (.mono (Dev.emptyKey_touches ..))))

theorem execKeyZeroiseTimeout_effect (q : BitVec 14) (pos : BitVec 16) (s : State) : Effect [] s (execKeyZeroiseTimeout q pos
    s) := by
  unfold execKeyZeroiseTimeout
  exact .serve fun _ => by
    split
    · exact .refl _
    · exact .ite (.mono (Dev.raise_touches ..)) (.refl _)

theorem execMeasure_effect (q : BitVec 14) (pos : BitVec 16) (key : Option (KeyRef × Bool)) (zenith : Bool) (s : State) : Effect
    [.key, .rmp, .stl, .queues, .hdma, .accs, .lan, .svc, .frs, .ports, .fabRest, .can, .med, .decided] s (execMeasure q pos key
    zenith s) := by
  unfold execMeasure
  exact .serve fun _ => .ite (.refl _) (.ite (.after (Dev.measureArrives_touches ..) (.mono (Dev.pumpTables_touches ..)))
    (.after (Dev.pumpTables_touches ..) (Dev.keyCommand_touches (fun _ _ => .after (Dev.finishWith_touches ..) (.after
    (Dev.keyError_touches ..) (.mono (Dev.zenithRead_touches ..)))) (.after (Dev.measureArrives_touches ..) (.mono
    (Dev.pumpTables_touches ..))))))

theorem execHdmaWriteAck_effect (tag : BitVec 8) (err : Bool) (s : State) : Effect [.hdma, .host, .queues, .svc, .frs, .per,
    .del, .med, .key, .rmp, .accs, .stl, .qmg, .fabRest, .decided, .record] s (execHdmaWriteAck tag err s) [.adopt, .can] := by
  unfold execHdmaWriteAck
  exact .act fun _ => by
    split
    · exact .refl _
    · exact .ite (.mono (Touches.setHost (fun h => put_rising _ _ h) fun h => h)) (.after (Dev.afterMeasure_touches ..) (.after
        (Dev.hostGoesOn_touches ..) (.after (Dev.writeEnds_touches ..) (.mono (Touches.setHost (fun h => put_rising _ _ h) fun h
        => h)))))

theorem execRegReadPairLo_effect (woff : BitVec 22) (zenith : Bool) (s : State) : Effect [.mgt, .mgtRest] s (execRegReadPairLo
    woff zenith s) := by
  unfold execRegReadPairLo
  exact .act fun _ => .ite (.refl _) (.ite (.mono (Dev.emit_touches ..)) (.after (Dev.emit_touches ..) (.after
    (Dev.zenithRead_touches ..) (.mono (Touches.setMgt)))))

theorem execQctl_effect (v : Word32) (s : State) : Effect [.queues, .hdma, .qmg] s (execQctl v s) := by
  unfold execQctl
  dsimp only
  split
  · exact .core fun _ => .refl _
  · exact .core fun _ => .mono (Dev.enableQueue_touches ..)
  · exact .core fun _ => .mono (Dev.disableQueue_touches ..)
  · exact .core fun _ => .mono (Dev.resetAdmin_touches ..)

theorem execSetFeature_effect (q : BitVec 14) (pos : BitVec 16) (s : State) : Effect [.queues, .hdma, .qmg, .mgt, .fabRest,
    .stl, .rmp, .lan, .frs, .can, .med, .key, .svc, .per, .del, .mgtRest, .record, .peers] s (execSetFeature q pos s) := by
  unfold execSetFeature
  exact .serve fun _ => Dev.command_touches (fun _ _ => by
    split
    · exact .mono (Dev.finish_touches ..)
    · exact .after (Dev.finish_touches ..) (.mono (Dev.featureWrite_touches ..))) (.refl _)

theorem execGetFeature_effect (q : BitVec 14) (pos : BitVec 16) (s : State) : Effect [.queues, .hdma] s (execGetFeature q pos
    s) := by
  unfold execGetFeature
  exact .serve fun _ => Dev.command_touches (fun _ _ => by
    split
    · exact .mono (Dev.finish_touches ..)
    · exact .mono (Dev.finish_touches ..)) (.refl _)

theorem execIdentify_effect (q : BitVec 14) (pos : BitVec 16) (s : State) : Effect [.queues, .hdma] s (execIdentify q pos
    s) := by
  unfold execIdentify
  exact .serve fun _ => Dev.command_touches (fun _ _ => .mono (Dev.finishWith_touches ..)) (.refl _)

theorem execLinkUpChange_effect (n : Fin 4) (up : Bool) (s : State) : Effect [.del, .peers] s (execLinkUpChange n up s) := by
  unfold execLinkUpChange
  exact .act fun _ => .ite (.refl _) (.after (Dev.linkDown_touches ..) (.mono (Dev.setLink_touches ..)))

theorem execHelloTimer_effect (n : Fin 4) (s : State) : Effect [.del, .peers] s (execHelloTimer n s) := by
  unfold execHelloTimer
  exact .serve fun _ => .ite (.after (Dev.sendHello_touches ..) (.mono (Dev.setLink_touches ..))) (.refl _)

theorem execLinkTimeout_effect (n : Fin 4) (s : State) : Effect [.del, .peers] s (execLinkTimeout n s) := by
  unfold execLinkTimeout
  exact .serve fun _ => .ite (.refl _) (.after (Dev.setLink_touches ..) (.ite (.mono (Dev.linkDown_touches ..)) (.refl _)))

theorem execMemberTimeout_effect (m : BitVec 6) (s : State) : Effect [.per, .del, .svc, .queues, .hdma, .med, .key, .can,
    .record, .peers, .parted] s (execMemberTimeout m s) [.frs, .adopt, .accs] := by
  unfold execMemberTimeout
  exact .serve fun _ => .ite (.after (Dev.regroup_touches ..) (.mono (Dev.memberTo_touches ..))) (.refl _)

theorem execTxnTimeout_effect (s : State) : Effect [.per, .del, .queues, .hdma, .svc, .med, .key, .can, .record, .parted] s
    (execTxnTimeout s) [.frs, .adopt, .accs] := by
  unfold execTxnTimeout
  exact .serve fun _ => .after (Dev.ckptNext_touches ..) (.ite (.after (Dev.reconEnds_touches ..) (by
    split
    · exact by
        split
        · exact .ite (.after (Dev.cutLocal_touches ..) (by
            split
            · exact .ite (.after (Dev.cutLocal_touches ..) (.after (Dev.broadcast_touches ..) (.mono (Touches.setDel_pool))))
                (.refl _)
            · exact .refl _)) (by
            split
            · exact .ite (.after (Dev.cutLocal_touches ..) (.after (Dev.broadcast_touches ..) (.mono (Touches.setDel_pool))))
                (.refl _)
            · exact .refl _)
        · exact by
            split
            · exact .ite (.after (Dev.cutLocal_touches ..) (.after (Dev.broadcast_touches ..) (.mono (Touches.setDel_pool))))
                (.refl _)
            · exact .refl _
    · exact by
        split
        · exact .ite (.after (Dev.cutLocal_touches ..) (.after (Dev.broadcast_touches ..) (.mono (Touches.setDel_pool))))
            (.refl _)
        · exact .refl _)) (by
    split
    · exact by
        split
        · exact .ite (.after (Dev.cutLocal_touches ..) (by
            split
            · exact .ite (.after (Dev.cutLocal_touches ..) (.after (Dev.broadcast_touches ..) (.mono (Touches.setDel_pool))))
                (.refl _)
            · exact .refl _)) (by
            split
            · exact .ite (.after (Dev.cutLocal_touches ..) (.after (Dev.broadcast_touches ..) (.mono (Touches.setDel_pool))))
                (.refl _)
            · exact .refl _)
        · exact by
            split
            · exact .ite (.after (Dev.cutLocal_touches ..) (.after (Dev.broadcast_touches ..) (.mono (Touches.setDel_pool))))
                (.refl _)
            · exact .refl _
    · exact by
        split
        · exact .ite (.after (Dev.cutLocal_touches ..) (.after (Dev.broadcast_touches ..) (.mono (Touches.setDel_pool))))
            (.refl _)
        · exact .refl _))

theorem execFrameReceived_effect (n : Fin 4) (words : List Word32) (s : State) : Effect [.del, .per, .svc, .queues, .hdma, .med,
    .key, .can, .record, .peers, .parted] s (execFrameReceived n words s) [.frs, .adopt, .accs] := by
  unfold execFrameReceived
  exact .serve fun _ => .ite (.refl _) (by
    split
    · exact .mono (Dev.receive_touches ..)
    · exact .mono (Dev.frameFails_touches ..))

theorem execHello_effect (n : Fin 4) (f : Frame) (s : State) : Effect [.del, .per, .svc, .queues, .hdma, .med, .key, .can,
    .record, .peers, .parted] s (execHello n f s) [.frs, .adopt, .accs] := by
  unfold execHello
  exact .serve fun _ => .mono (Dev.receive_touches ..)

theorem execHb_effect (n : Fin 4) (f : Frame) (s : State) : Effect [.del, .per, .svc, .queues, .hdma, .med, .key, .can, .record,
    .peers, .parted] s (execHb n f s) [.frs, .adopt, .accs] := by
  unfold execHb
  exact .serve fun _ => .mono (Dev.receive_touches ..)

theorem execMember_effect (n : Fin 4) (f : Frame) (s : State) : Effect [.del, .per, .svc, .queues, .hdma, .med, .key, .can,
    .record, .peers, .parted] s (execMember n f s) [.frs, .adopt, .accs] := by
  unfold execMember
  exact .serve fun _ => .mono (Dev.receive_touches ..)

theorem execSafe_effect (n : Fin 4) (f : Frame) (s : State) : Effect [.del, .per, .svc, .queues, .hdma, .med, .key, .can,
    .record, .peers, .parted] s (execSafe n f s) [.frs, .adopt, .accs] := by
  unfold execSafe
  exact .serve fun _ => .mono (Dev.receive_touches ..)

theorem execAck_effect (n : Fin 4) (f : Frame) (s : State) : Effect [.del, .per, .svc, .queues, .hdma, .med, .key, .can,
    .record, .peers, .parted] s (execAck n f s) [.frs, .adopt, .accs] := by
  unfold execAck
  exact .serve fun _ => .mono (Dev.receive_touches ..)

theorem execPrepare_effect (n : Fin 4) (f : Frame) (s : State) : Effect [.del, .per, .svc, .queues, .hdma, .med, .key, .can,
    .record, .peers, .parted] s (execPrepare n f s) [.frs, .adopt, .accs] := by
  unfold execPrepare
  exact .serve fun _ => .mono (Dev.receive_touches ..)

theorem execHeld_effect (n : Fin 4) (f : Frame) (s : State) : Effect [.del, .per, .svc, .queues, .hdma, .med, .key, .can,
    .record, .peers, .parted] s (execHeld n f s) [.frs, .adopt, .accs] := by
  unfold execHeld
  exact .serve fun _ => .mono (Dev.receive_touches ..)

theorem execCutFrame_effect (n : Fin 4) (f : Frame) (s : State) : Effect [.del, .per, .svc, .queues, .hdma, .med, .key, .can,
    .record, .peers, .parted] s (execCutFrame n f s) [.frs, .adopt, .accs] := by
  unfold execCutFrame
  exact .serve fun _ => .mono (Dev.receive_touches ..)

theorem execDone_effect (n : Fin 4) (f : Frame) (s : State) : Effect [.del, .per, .svc, .queues, .hdma, .med, .key, .can,
    .record, .peers, .parted] s (execDone n f s) [.frs, .adopt, .accs] := by
  unfold execDone
  exact .serve fun _ => .mono (Dev.receive_touches ..)

theorem execAbort_effect (n : Fin 4) (f : Frame) (s : State) : Effect [.del, .per, .svc, .queues, .hdma, .med, .key, .can,
    .record, .peers, .parted] s (execAbort n f s) [.frs, .adopt, .accs] := by
  unfold execAbort
  exact .serve fun _ => .mono (Dev.receive_touches ..)

theorem execCkreq_effect (n : Fin 4) (f : Frame) (s : State) : Effect [.del, .per, .svc, .queues, .hdma, .med, .key, .can,
    .record, .peers, .parted] s (execCkreq n f s) [.frs, .adopt, .accs] := by
  unfold execCkreq
  exact .serve fun _ => .mono (Dev.receive_touches ..)

theorem execReport_effect (n : Fin 4) (f : Frame) (s : State) : Effect [.del, .per, .svc, .queues, .hdma, .med, .key, .can,
    .record, .peers, .parted] s (execReport n f s) [.frs, .adopt, .accs] := by
  unfold execReport
  exact .serve fun _ => .mono (Dev.receive_touches ..)

theorem execRetire_effect (n : Fin 4) (f : Frame) (s : State) : Effect [.del, .per, .svc, .queues, .hdma, .med, .key, .can,
    .record, .peers, .parted] s (execRetire n f s) [.frs, .adopt, .accs] := by
  unfold execRetire
  exact .serve fun _ => .mono (Dev.receive_touches ..)

theorem execRecon_effect (n : Fin 4) (f : Frame) (s : State) : Effect [.del, .per, .svc, .queues, .hdma, .med, .key, .can,
    .record, .peers, .parted] s (execRecon n f s) [.frs, .adopt, .accs] := by
  unfold execRecon
  exact .serve fun _ => .mono (Dev.receive_touches ..)

theorem execReconDone_effect (n : Fin 4) (f : Frame) (s : State) : Effect [.del, .per, .svc, .queues, .hdma, .med, .key, .can,
    .record, .peers, .parted] s (execReconDone n f s) [.frs, .adopt, .accs] := by
  unfold execReconDone
  exact .serve fun _ => .mono (Dev.receive_touches ..)

theorem execHeartbeatTimer_effect (s : State) : Effect [.del, .parted, .peers] s (execHeartbeatTimer s) := by
  unfold execHeartbeatTimer
  exact .act fun _ => .ite (.refl _) (.ite (.after (Dev.sendSafe_touches ..) (.mono (Touches.setDel_any))) (.after
    (Dev.broadcast_touches ..) (.mono (Touches.setDel_any))))

theorem execRetransmitTimer_effect (n : Fin 4) (s : State) : Effect [.del, .peers] s (execRetransmitTimer n s) := by
  unfold execRetransmitTimer
  exact .serve fun _ => .ite (.refl _) (.forAllAfter (fun _ _ => .mono (Dev.emit_touches ..)) (.mono (Dev.setLink_touches ..)))

theorem execPoolJoin_effect (q : BitVec 14) (pos : BitVec 16) (s : State) : Effect [.queues, .hdma, .del, .parted, .peers] s
    (execPoolJoin q pos s) := by
  unfold execPoolJoin
  exact .serve fun _ => Dev.command_touches (fun _ _ => .ite (.mono (Dev.finish_touches ..)) (.ite (.mono (Dev.finish_touches
    ..)) (.after (Dev.finish_touches ..) (.after (Dev.poolState_touches ..) (.forAllAfter (fun _ _ => .ite (.refl _) (.mono
    (Dev.linkDown_touches ..))) (.mono (Touches.setDel_any))))))) (.refl _)

theorem execPoolLeave_effect (q : BitVec 14) (pos : BitVec 16) (s : State) : Effect [.queues, .hdma, .per, .del, .svc, .parted,
    .peers] s (execPoolLeave q pos s) [.key, .frs, .can, .med, .adopt, .accs] := by
  unfold execPoolLeave
  refine .serve fun _ => Dev.command_touches (fun _ d => .ite (.mono (Dev.finish_touches ..)) (.ite (.mono (Dev.finish_touches
    ..)) ?_))
    (.refl _)
  extract_lets d1 d2 links _ _ d3 _ d4
  have h2 : Touches [.queues, .hdma, .per, .del, .svc, .parted, .peers] d d2 [.key, .frs, .can, .med, .adopt, .accs] :=
      .forAllAfter (fun _ _ => .mono (Dev.memberTo_touches ..)) (.mono (Dev.sendMember_touches ..))
  have hl : Canonical d2 → Tab.rising links := fun h => (map_rising _ h.links).filter _
  clear_value d2 links
  have h3 : Touches [.queues, .hdma, .per, .del, .svc, .parted, .peers] d d3 [.key, .frs, .can, .med, .adopt, .accs] := .after
      (Dev.poolState_touches ..) (.after (Touches.of_kept (d := d2) (as := [.svc, .del, .peers, .parted])
    (fun a ha => by cases a <;> simp_all [Kept]) (fun h => { h with members := .nil, links := hl h }) id) h2)
  clear_value d3
  have h4 : Touches [.queues, .hdma, .per, .del, .svc, .parted, .peers] d d4 [.key, .frs, .can, .med, .adopt, .accs] := .after
      (Touches.setDel_any (d := d3)) h3
  exact .after (Dev.finish_touches ..) (.after (Dev.ckptNext_touches ..) (.after (Dev.reconEnds_touches ..) h4))

theorem execPoolReconcile_effect (q : BitVec 14) (pos : BitVec 16) (s : State) : Effect [.queues, .hdma, .per, .del, .parted] s
    (execPoolReconcile q pos s) [.key, .frs, .can, .med, .adopt, .accs, .svc] := by
  unfold execPoolReconcile
  exact .serve fun _ => .ite (.refl _) (Dev.command_touches (fun _ _ => .ite (.mono (Dev.finish_touches ..)) (.ite (.mono
    (Dev.finish_touches ..)) (.ite (.mono (Dev.finish_touches ..)) (.ite (.after (Dev.takeRecon_touches ..) (.after
    (Touches.setDel_pool) (.mono (Dev.running_touches ..)))) (.after (Dev.toCoord_touches ..) (.after (Touches.setDel_pool)
    (.mono (Dev.running_touches ..)))))))) (.refl _))

theorem execFrontStepDone_effect (step : Nat) (s : State) : Effect [.svc, .del, .rmp, .fabRest, .ports, .accs, .decided] s
    (execFrontStepDone step s) := by
  unfold execFrontStepDone
  exact .serve fun _ => by
    split
    · exact .refl _
    · exact by
        split
        · exact .ite (.refl _) (by
            dsimp only
            split
            · exact .ite (.after (Dev.rekeyDone_touches ..) (.after (Dev.noteHold_touches ..) (.after (Touches.setSvc (fronts :=
                fun h => put_rising _ _ h)) (.after (Dev.dropStep_touches ..) (.mono (Dev.setRekey_touches ..)))))) (.after
                (Dev.noteHold_touches ..) (.after (Touches.setSvc (fronts := fun h => put_rising _ _ h)) (.after
                (Dev.dropStep_touches ..) (.mono (Dev.setRekey_touches ..)))))
            · exact .after (Dev.noteHold_touches ..) (.after (Touches.setSvc (fronts := fun h => put_rising _ _ h)) (.after
                (Dev.dropStep_touches ..) (.mono (Dev.setRekey_touches ..)))))
        · exact .refl _

theorem execFuseAck_effect (level : Bool) (data : Word32) (s : State) : Effect [.host, .mgt, .mgtRest] s (execFuseAck level data
    s) := by
  unfold execFuseAck
  exact .act fun _ => .ite (.mono (Dev.startPower_touches ..)) (.ite (.after (Dev.fuseWord_touches ..) (.mono
    (Dev.startPower_touches ..))) (.ite (.ite (.after (Dev.emit_touches ..) (.after (Touches.setMgt) (.after (Touches.setMgt)
    (.mono (Dev.startPower_touches ..))))) (.after (Touches.setMgt) (.mono (Dev.startPower_touches ..)))) (.mono
    (Dev.startPower_touches ..))))

theorem execFuseLoadFailure_effect (s : State) : Effect [.host, .mgt, .mgtRest] s (execFuseLoadFailure s) := by
  unfold execFuseLoadFailure
  exact .act fun _ => .ite (.after (Dev.fuseFails_touches ..) (.mono (Dev.startPower_touches ..))) (.mono
    (Dev.startPower_touches ..))

theorem execFusePhaseDone_effect (s : State) : Effect [.host, .mgt, .fuse, .tap, .lan, .key, .mgtRest] s (execFusePhaseDone
    s) := by
  unfold execFusePhaseDone
  refine .act fun _ => Dev.phaseEnds_touches (fun d => ?_) (.refl _)
  extract_lets _ d1 _ d2 d3
  have h1 : Touches [.host, .mgt, .fuse, .tap, .lan, .key, .mgtRest] d d1 := .after (Dev.outOfReset_touches ..) (.after
      (Dev.outOfReset_touches ..)
    (.of_kept (fun a ha => by cases a <;> simp_all [Kept]) (fun h => { h with }) id))
  have h2 : Touches [.host, .mgt, .fuse, .tap, .lan, .key, .mgtRest] d d2 := .ite (.after (Touches.setTap (d := d1)) h1) h1
  have h3 : Touches [.host, .mgt, .fuse, .tap, .lan, .key, .mgtRest] d d3 := .forAllAfter (fun _ _ => .ite (.mono
      (Dev.updLane_touches ..)) (.refl _)) h2
  exact .ite (.after (Dev.raise_touches ..) (.after (Touches.setKey (d := d3)) h3)) h3

theorem execSramInitDone_effect (s : State) : Effect [.host, .mgt, .key, .mgtRest] s (execSramInitDone s) := by
  unfold execSramInitDone
  exact .act fun _ => Dev.phaseEnds_touches (fun _ => .after (Touches.setKey) (.ite (.after (Dev.stepFiveOut_touches ..)
    (.forAllAfter (fun _ _ => .mono (Dev.stepFiveOut_touches ..)) (.forAllAfter (fun _ _ => .mono (Dev.stepFiveOut_touches ..))
    (.forAllAfter (fun _ _ => .after (Dev.stepFiveOut_touches ..) (.mono (Dev.stepFiveOut_touches ..))) (.after
    (Dev.outOfReset_touches ..) (.forAllAfter (fun _ _ => .ite (.after (Dev.setEnt_touches ..) (.mono (Dev.outOfReset_touches
    ..))) (.mono (Dev.outOfReset_touches ..))) (.forAllAfter (fun _ _ => .ite (.mono (Dev.outOfReset_touches ..)) (.refl _))
    (.mono (Touches.setMgt))))))))) (.after (Dev.dbCredits_touches ..) (.after (Dev.stepFiveOut_touches ..) (.forAllAfter (fun _
    _ => .mono (Dev.stepFiveOut_touches ..)) (.forAllAfter (fun _ _ => .mono (Dev.stepFiveOut_touches ..)) (.forAllAfter (fun _
    _ => .after (Dev.stepFiveOut_touches ..) (.mono (Dev.stepFiveOut_touches ..))) (.after (Dev.outOfReset_touches ..)
    (.forAllAfter (fun _ _ => .ite (.after (Dev.setEnt_touches ..) (.mono (Dev.outOfReset_touches ..))) (.mono
    (Dev.outOfReset_touches ..))) (.forAllAfter (fun _ _ => .ite (.mono (Dev.outOfReset_touches ..)) (.refl _)) (.mono
    (Touches.setMgt)))))))))))) (.refl _)

theorem execSelftestDone_effect (laneResults : List (List Bytes)) (keyPass : Bool) (s : State) : Effect [.mgt, .lan, .key, .can,
    .mgtRest] s (execSelftestDone laneResults keyPass s) := by
  unfold execSelftestDone
  exact .act fun _ => Dev.phaseEnds_touches (fun _ => .ite (.after (Dev.raise_touches ..) (.after (Dev.laneRoles_touches ..)
    (.mono (Touches.setMgt)))) (.ite (.after (Dev.laneRoles_touches ..) (.mono (Touches.setMgt))) (.ite (.after (Touches.setKey)
    (.after (Dev.deriveAll_touches ..) (.after (Dev.laneRoles_touches ..) (.mono (Touches.setMgt))))) (.after
    (Dev.fallbackSeeds_touches ..) (.after (Touches.setKey) (.after (Dev.deriveAll_touches ..) (.after (Dev.laneRoles_touches
    ..) (.mono (Touches.setMgt))))))))) (.refl _)

theorem execDrbgInstantiate_effect (samples : Bytes) (lfsr : List Word32) (s : State) : Effect [.lan, .can, .key, .med, .per,
    .queues, .hdma, .del, .svc, .record] s (execDrbgInstantiate samples lfsr s) [.adopt, .frs, .accs] := by
  unfold execDrbgInstantiate
  exact .act fun _ => .ite (.refl _) (.ite (.mono (Dev.collected_touches ..)) (.after (Dev.retryLfsrs_touches ..) (.after
    (Dev.drbgUp_touches ..) (.ite (.after (Dev.seedLanes_touches ..) (.after (Dev.drbgReady_touches ..) (.mono
    (Dev.instantiate_touches ..)))) (.after (Dev.drbgReady_touches ..) (.mono (Dev.instantiate_touches ..)))))))

theorem execReady_effect (s : State) : Effect [.mgt, .lan, .stl, .svc, .per, .mgtRest, .record] s (execReady s) := by
  unfold execReady
  exact .act fun _ => Dev.phaseEnds_touches (fun _ => .after (Dev.raise_touches ..) (.forAllAfter (fun _ _ => .mono
    (Dev.drawAudit_touches ..)) (.forAllAfter (fun _ _ => .mono (Dev.updLane_touches ..)) (.mono (Touches.of_kept (as := [.mgt,
    .mgtRest, .stl, .svc, .per, .record]) (fun a ha => by cases a <;> simp_all [Kept]) (fun h => { h with }) id))))) (.refl _)

theorem execFpnRstN_effect (p : Fin 8) (s : State) : Effect [.accs, .stl, .sessions, .ports, .fabRest, .mgt, .mgtRest, .decided]
    s (execFpnRstN p s) := by
  unfold execFpnRstN
  exact .act fun _ => .ite (.after (Dev.portReset_touches ..) (.after (Dev.intoReset_touches ..) (.after (Dev.intoReset_touches
    ..) (.mono (Touches.setMgt))))) (.after (Dev.intoReset_touches ..) (.after (Dev.intoReset_touches ..) (.mono
    (Touches.setMgt))))

theorem execFpnResetRelease_effect (p : Fin 8) (s : State) : Effect [.host, .mgt, .ports, .mgtRest] s (execFpnResetRelease p
    s) := by
  unfold execFpnResetRelease
  exact .act fun _ => .ite (.refl _) (.ite (.ite (.after (Dev.outOfReset_touches ..) (.after (Dev.outOfReset_touches ..) (.mono
    (Touches.setMgt)))) (.after (Dev.initialCredits_touches ..) (.after (Dev.outOfReset_touches ..) (.after
    (Dev.outOfReset_touches ..) (.mono (Touches.setMgt)))))) (.mono (Touches.setMgt)))

theorem execMcnRstN_effect (ch : Fin 16) (s : State) : Effect [.mgt, .svc, .med, .accs, .ports, .fabRest, .stl, .frs, .queues,
    .hdma, .can, .per, .del, .rmp, .mgtRest, .decided, .record] s (execMcnRstN ch s) [.key, .adopt] := by
  unfold execMcnRstN
  exact .act fun _ => .ite (.after (Dev.intoReset_touches ..) (.after (Touches.setMgt) (.ite (.mono (Dev.accrue_touches ..))
    (.refl _)))) (.after (Dev.setChan_touches ..) (.ite (.after (Dev.retireSafe_touches ..) (.after (Dev.intoReset_touches ..)
    (.after (Touches.setMgt) (.ite (.mono (Dev.accrue_touches ..)) (.refl _))))) (.after (Dev.retireChannel_touches ..) (.after
    (Dev.intoReset_touches ..) (.after (Touches.setMgt) (.ite (.mono (Dev.accrue_touches ..)) (.refl _)))))))

theorem execMcnResetRelease_effect (ch : Fin 16) (s : State) : Effect [.host, .mgt, .mgtRest] s (execMcnResetRelease ch s) := by
  unfold execMcnResetRelease
  exact .act fun _ => .ite (.after (Dev.outOfReset_touches ..) (.mono (Touches.setMgt))) (.mono (Touches.setMgt))

theorem execHdmaRstN_effect (s : State) : Effect [.hdma, .queues, .rmp, .accs, .stl, .qmg, .svc, .frs, .key, .fabRest, .per,
    .del, .med, .mgt, .mgtRest, .decided, .record] s (execHdmaRstN s) [.adopt, .can] := by
  unfold execHdmaRstN
  exact .act fun _ => .ite (.after (Dev.hostLost_touches ..) (.after (Dev.intoReset_touches ..) (.mono (Touches.setMgt))))
    (.after (Dev.intoReset_touches ..) (.mono (Touches.setMgt)))

theorem execHdmaResetRelease_effect (s : State) : Effect [.host, .mgt, .hdma, .queues, .qmg, .mgtRest] s (execHdmaResetRelease
    s) := by
  unfold execHdmaResetRelease
  exact .act fun _ => .ite (.refl _) (.ite (.ite (.after (Dev.outOfReset_touches ..) (.mono (Touches.setMgt))) (.after
    (Dev.pumpVecs_touches ..) (.after (Dev.dbCredits_touches ..) (.after (Dev.outOfReset_touches ..) (.mono
    (Touches.setMgt)))))) (.mono (Touches.setMgt)))

theorem execPelnRstN_effect (n : Fin 4) (s : State) : Effect [.del, .mgt, .mgtRest, .peers] s (execPelnRstN n s) := by
  unfold execPelnRstN
  exact .act fun _ => .after (Dev.linkDown_touches ..) (.after (Dev.setLink_touches ..) (.after (Dev.intoReset_touches ..)
    (.mono (Touches.setMgt))))

theorem execPelnResetRelease_effect (n : Fin 4) (s : State) : Effect [.del, .mgt, .host, .mgtRest, .peers] s
    (execPelnResetRelease n s) := by
  unfold execPelnResetRelease
  exact .act fun _ => .ite (.after (Dev.linkDown_touches ..) (.after (Dev.outOfReset_touches ..) (.mono (Touches.setMgt))))
    (.mono (Touches.setMgt))

theorem execClockLoss_effect (dom : Fin 60) (s : State) : Effect [.tap, .mgt, .lan, .accs, .sessions, .ports, .stl, .fabRest,
    .med, .hdma, .queues, .rmp, .qmg, .svc, .frs, .key, .per, .del, .can, .mgtRest, .decided, .record, .peers] s (execClockLoss
    dom s) [.adopt] := by
  unfold execClockLoss
  exact .act fun _ => .mono (Dev.clockLost_touches ..)

theorem execClockMeasurement_effect (dom : Fin 60) (freq : BitVec 16) (s : State) : Effect [.tap, .mgt, .lan, .accs, .sessions,
    .ports, .stl, .fabRest, .med, .hdma, .queues, .rmp, .qmg, .svc, .frs, .key, .per, .del, .can, .mgtRest, .decided, .record,
    .peers] s (execClockMeasurement dom freq s) [.adopt] := by
  unfold execClockMeasurement
  exact .act fun _ => .ite (.refl _) (.ite (.after (Dev.clockLost_touches ..) (.after (Touches.setMgt (clkMeas := fun h =>
    put_rising _ _ h)) (.ite (.mono (Dev.accrue_touches ..)) (.refl _)))) (.after (Touches.setMgt (clkMeas := fun h =>
    put_rising _ _ h)) (.ite (.mono (Dev.accrue_touches ..)) (.refl _))))

theorem execPfWarn_effect (s : State) : Effect [.host, .mgt, .queues, .hdma, .per, .svc, .frs, .key, .del, .med, .accs,
    .sessions, .ports, .stl, .mgtRest, .record] s (execPfWarn s) [.can, .adopt] := by
  unfold execPfWarn
  exact .act fun _ => .ite (.mono (Dev.startPower_touches ..)) (.ite (.after (Dev.flushBegins_touches ..) (.after
    (Dev.raise_touches ..) (.after (Touches.setMgt) (.mono (Dev.startPower_touches ..))))) (.after (Dev.raise_touches ..)
    (.after (Touches.setMgt) (.mono (Dev.startPower_touches ..)))))

theorem execPfWarnClear_effect (s : State) : Effect [.mgt, .per, .del, .ports, .accs, .fabRest, .stl, .mgtRest, .decided,
    .record] s (execPfWarnClear s) [.key, .frs, .can, .med, .adopt, .queues, .hdma, .svc] := by
  unfold execPfWarnClear
  refine .act fun d => .ite (.refl _) ?_
  extract_lets was _ d1 _ _ d2 d3
  have h1 : Touches [.mgt, .per, .del, .ports, .accs, .fabRest, .stl, .mgtRest, .decided, .record] d d1 [.key, .frs, .can, .med,
      .adopt, .queues, .hdma, .svc] := .mono Touches.setMgt
  clear_value d1
  have h2 : Touches [.mgt, .per, .del, .ports, .accs, .fabRest, .stl, .mgtRest, .decided, .record] d d2 [.key, .frs, .can, .med,
      .adopt, .queues, .hdma, .svc] := .after (Touches.setPer_any (d := { d1 with mgt.pfw := .none })) (.after (Touches.setMgt
      (d := d1)) h1)
  have h3 : Touches [.mgt, .per, .del, .ports, .accs, .fabRest, .stl, .mgtRest, .decided, .record] d d3 [.key, .frs, .can, .med,
      .adopt, .queues, .hdma, .svc] := .forAllAfter (fun _ _ => .mono (Dev.initialCredits_touches ..)) h2
  exact .ite h1 (.after (Dev.pumpAdopt_touches ..) (.after (Dev.ckptNext_touches ..) (.after (Dev.retryReceived_touches ..)
    h3)))

theorem execSquallEntry_effect (b : Fin 14) (src : BitVec 10) (s : State) : Effect [] s (execSquallEntry b src s) := by
  unfold execSquallEntry
  exact .act fun _ => .ite (.mono (Dev.raise_touches ..)) (.refl _)

theorem execTrstN_effect (level : Bool) (s : State) : Effect [.tap, .mgt, .host, .mgtRest] s (execTrstN level s) := by
  unfold execTrstN
  exact .act fun _ => .ite (.after Touches.setTap (.mono (Dev.intoReset_touches ..))) (.ite (.refl _)
    (.after Touches.setTap (.mono (Dev.outOfReset_touches ..))))

/-- EXTEST that is not refused acts on the TAP alone. -/
theorem execExtest_effect (sampled loaded : BitVec Config.chainBits) (s : State) (h : (s.dev.tapOn && s.dev.mgt.sysRstN) =
    false) :
    Effect [.tap] s (execExtest sampled loaded s) := by
  unfold execExtest
  rw [if_neg (by simp [h])]
  exact .onTap fun _ => .after (Dev.emit_touches ..) (.after Touches.setTap (.after (Dev.shiftOut_touches ..) (.after
    (Dev.emit_touches ..)
    (.mono (Dev.select_touches ..)))))

theorem execClamp_effect (s : State) (h : (s.dev.tapOn && s.dev.mgt.sysRstN) = false) : Effect [.tap] s (execClamp s) := by
  unfold execClamp
  rw [if_neg (by simp [h])]
  exact .onTap fun _ => .after (Dev.shiftOut_touches ..) (.after (Dev.emit_touches ..) (.mono (Dev.select_touches ..)))

theorem execIdcode_effect (testLogicReset : Bool) (s : State) : Effect [.tap] s (execIdcode testLogicReset s) := by
  unfold execIdcode
  exact .onTap fun _ => .after (Dev.shiftOut_touches ..) (.ite Touches.setTap (.mono (Dev.select_touches ..)))

theorem execSamplePreload_effect (sampled : BitVec Config.chainBits) (loaded : BitVec Config.chainBits) (s : State) : Effect
    [.tap] s (execSamplePreload sampled loaded s) := by
  unfold execSamplePreload
  exact .onTap fun _ => .after (Touches.setTap) (.after (Dev.shiftOut_touches ..) (.mono (Dev.select_touches ..)))

theorem execBypass_effect (code : BitVec 8) (s : State) : Effect [.tap] s (execBypass code s) := by
  unfold execBypass
  exact .onTap fun _ => .ite (.refl _) (.after (Dev.shiftOut_touches ..) (.mono (Dev.select_touches ..)))

theorem execNetwork_effect (sibReg sibKat : Bool) (s : State) : Effect [.tap] s (execNetwork sibReg sibKat s) := by
  unfold execNetwork
  exact .onTap fun _ => .ite (.after (Dev.raise_touches ..) (.after Touches.setTap (.after (Dev.shiftOut_touches ..)
    (.after (Dev.select_touches ..) (.mono Touches.setTap))))) (.after Touches.setTap (.after (Dev.shiftOut_touches ..)
    (.mono (Dev.select_touches ..))))

theorem execTapRegRead_effect (woff : BitVec 22) (zenith : Bool) (s : State) : Effect [.tap] s (execTapRegRead woff zenith
    s) := by
  unfold execTapRegRead
  exact .onTap fun _ => .ite (.refl _) (.ite (.after (Dev.raise_touches ..) (.after (Touches.setTap) (.after (Touches.setTap)
    (.mono (Dev.shiftOut_touches ..))))) (.ite (.after (Touches.setTap) (.after (Touches.setTap) (.mono (Dev.shiftOut_touches
    ..)))) (.after (Dev.zenithRead_touches ..) (.after (Touches.setTap) (.after (Touches.setTap) (.mono (Dev.shiftOut_touches
    ..)))))))

theorem execTapKat_effect (lane : BitVec 6) (s : State) : Effect [.mgt, .lan, .tap] s (execTapKat lane s) := by
  unfold execTapKat
  exact .onTap fun _ => .ite (.refl _) (.ite (.after (Dev.startKat_touches ..) (.after (Touches.setTap) (.after (Touches.setTap)
    (.mono (Dev.shiftOut_touches ..))))) (.after (Touches.setTap) (.after (Touches.setTap) (.mono (Dev.shiftOut_touches ..)))))

end Machine
end Sys2Proof

/-! What registering at the end of a step keeps. -/

namespace Sys2Proof
namespace Machine

open Laws

-- each proof is small and there are many: elaborated one after the other they need one thread
set_option Elab.async false

/-! ### Registering keeps the invariants -/

/-- Entering the safe state drives outputs and sets SAFE. -/
theorem enterSquall_touches (b k : Nat) (fuse : Bool) (s : State) : Touches [] s.dev (enterSquall b k fuse s).dev := by
  unfold enterSquall
  split
  · exact .refl _
  · exact Dev.sendSafe_touches _

theorem settleBank_touches (b : Nat) (s : State) : Touches [] s.dev (settleBank b s).dev := by
  unfold settleBank
  split
  · split
    · exact .refl _
    · split
      · exact enterSquall_touches ..
      · split
        · exact enterSquall_touches ..
        · exact .refl _
  · extract_lets mine occs x r _ d1 d2 d3 _ s1
    have h1 : Touches [] s.dev d1 := Touches.raises ..
    have h2 : Touches [] s.dev d2 := .ite (.after (Dev.countItem_touches ..) h1) h1
    have h3 : Touches [] s.dev s1.dev := .ite (.after (Dev.post_touches ..) h2) h2
    split
    · exact .after (enterSquall_touches ..) h3
    · split
      · exact h3
      · exact .after (Dev.raise_touches ..) h3

theorem settle_touches (s : State) : Touches [] s.dev (settle s).dev := by
  unfold settle forAll
  suffices h : ∀ (bs : List Nat) (t : State), Touches [] s.dev t.dev → Touches [] s.dev (bs.foldl (fun t x => settleBank x t)
    t).dev from
    h _ s (.refl _)
  intro bs
  induction bs with
  | nil => exact fun t h => h
  | cons b r ih => exact fun t h => ih _ (h.trans (settleBank_touches b t))

/-! ### The fault banks and SAFE (spec/15 R405, R409, R417, R422) -/

theorem mergeOcc_marked {o : Occ} {l : List Occ} (ho : o.raw = true ∨ o.forced = true) (hl : ∀ x ∈ l, x.raw = true ∨ x.forced =
    true) :
    ∀ x ∈ mergeOcc o l, x.raw = true ∨ x.forced = true := by
  induction l with
  | nil =>
    intro x hx
    rw [mergeOcc, List.mem_singleton] at hx
    exact hx ▸ ho
  | cons y r ih =>
    obtain ⟨hy, hr⟩ := List.forall_mem_cons.mp hl
    unfold mergeOcc
    split
    · exact List.forall_mem_cons.mpr ⟨ho, hl⟩
    · split
      · refine List.forall_mem_cons.mpr ⟨?_, hr⟩
        rcases hy with hy | hy <;> simp [hy]
      · exact List.forall_mem_cons.mpr ⟨hy, ih hr⟩

theorem foldr_mergeOcc_marked {os l : List Occ} (ho : ∀ x ∈ os, x.raw = true ∨ x.forced = true)
    (hl : ∀ x ∈ l, x.raw = true ∨ x.forced = true) : ∀ x ∈ os.foldr mergeOcc l, x.raw = true ∨ x.forced = true := by
  induction os with
  | nil => exact hl
  | cons o r ih =>
    obtain ⟨h, hr⟩ := List.forall_mem_cons.mp ho
    exact mergeOcc_marked h (ih hr)

/-- A bank whose record and escalated sources are in order. -/
structure BankHolds (b : Nat) (x : Bank) : Prop where
  first : ∀ r, x.first = some r → r.cls ≠ 0 ∧ (r.raw = true ∨ r.forced = true)
  esc : ∀ k ∈ x.esc, baseClass b k = 1 ∨ baseClass b k = 2

theorem BankHolds.default (b : Nat) : BankHolds b default := ⟨fun _ h => (by cases h), fun _ h => (by cases h)⟩

/-- A registration latches records of fault classes that say RAW or FORCED. -/
theorem Bank.register_holds {b now : Nat} {x : Bank} {occs : List Occ} {holds : List Nat} {drill : Bool} (hx : BankHolds b x)
    (ho : ∀ o ∈ occs, o.raw = true ∨ o.forced = true) : BankHolds b (x.register b now occs holds drill).bank := by
  refine ⟨fun r hr => ?_, hx.esc⟩
  unfold Bank.register at hr
  extract_lets isCond rises os os' faults real forcedFt notes risen live latch first ovf at hr
  have hos : ∀ o ∈ os, o.raw = true ∨ o.forced = true := by
    refine foldr_mergeOcc_marked (fun o h => ?_) (foldr_mergeOcc_marked ho (by simp))
    obtain ⟨k, _, rfl⟩ := List.mem_map.mp h
    exact .inl rfl
  simp only [first] at hr
  split at hr
  · obtain ⟨o, hh, rfl⟩ := Option.map_eq_some_iff.mp hr
    have hmem : o ∈ faults := List.mem_of_mem_head? hh
    obtain ⟨hmem', hcls⟩ := List.mem_filter.mp hmem
    refine ⟨?_, hos o (List.mem_of_mem_filter hmem')⟩
    simp only [Bool.and_eq_true, bne_iff_ne, ne_eq] at hcls
    exact hcls.1
  · exact hx.first r hr

theorem BanksHold.bank {s : State} (h : BanksHold s) (b : Nat) : BankHolds b (s.flt.banks.get b) := ⟨h.first b, h.esc b⟩

/-- Writing one bank. -/
theorem BanksHold.putBank {s : State} (h : BanksHold s) {b : Nat} {x : Bank} (hx : BankHolds b x) (d : Dev) :
    BanksHold { s with dev := d, flt.banks := s.flt.banks.put b x } := by
  have hi : ∀ i, BankHolds i ((s.flt.banks.put b x).get i) := by
    intro i
    by_cases hi : i = b
    · subst hi
      rwa [Tab.get_put_self i x h.banks]
    · rw [Tab.get_put_other x hi]
      exact h.bank i
  exact { h with banks := Tab.put_wf b x h.banks, first := fun i => (hi i).first, esc := fun i => (hi i).esc }

theorem BanksHold.enterSquall {s : State} (h : BanksHold s) (b k : Nat) (fuse : Bool) : BanksHold (enterSquall b k fuse s) := by
  unfold Machine.enterSquall
  split
  · exact h
  · refine { h with out := fun ha => (by cases ha), inside := fun _ => ?_ }
    dsimp only
    split
    · decide
    · split <;> decide

theorem BanksHold.settleBank {s : State} (h : BanksHold s) (b : Nat) : BanksHold (settleBank b s) := by
  unfold Machine.settleBank
  split
  · split
    · exact h
    · split
      · exact h.enterSquall ..
      · split
        · exact h.enterSquall ..
        · exact h
  · extract_lets mine occs x r _ d1 d2 d3 _ s1
    have h1 : BanksHold s1 := h.putBank (Bank.register_holds (h.bank b) fun o ho => by
      obtain ⟨q, _, rfl⟩ := List.mem_map.mp ho
      cases q.forced <;> simp) d3
    split
    · exact h1.enterSquall ..
    · split
      · exact h1
      · exact { h1 with drills := Nat.min_le_left .. }

theorem BanksHold.settle {s : State} (h : BanksHold s) : BanksHold (settle s) := by
  unfold Machine.settle forAll
  suffices k : ∀ (bs : List Nat) (t : State), BanksHold t → BanksHold (bs.foldl (fun t x => Machine.settleBank x t) t) from k _
    s h
  intro bs
  induction bs with
  | nil => exact fun t h => h
  | cons b r ih => exact fun t h => ih _ (h.settleBank b)

end Machine
end Sys2Proof

/-! O1 to O8. Every command keeps the queue of commands, the tables, the ids and the fault banks in order: through the frames
for the rows of the block, by hand for the rows that reach the fault banks and SAFE. -/

namespace Sys2Proof
namespace Machine

open Laws

-- each proof is small and there are many: elaborated one after the other they need one thread
set_option Elab.async false

/-! ### What one bank registers -/

/-- The occurrences of a bank that wait. -/
def Dev.occs (d : Dev) (b : Nat) : List Occ := (d.raised.filter fun r => r.bank = b).map fun r => ⟨r.src, !r.forced, r.forced⟩

/-- What a bank makes of the occurrences that wait and the conditions that hold. -/
def State.registered (s : State) (b : Nat) : Reg :=
  (s.flt.banks.get b).register b s.dev.stamp (s.dev.occs b) (s.dev.holding b) s.drillOn

/-- A bank is in CORE and CORE is in reset (spec/15 R404). -/
def State.bankHeld (s : State) (b : Nat) : Prop := (b != bFlt && s.dev.mgt.domReset.getLsbD domCore) = true

theorem countItem_raised (d : Dev) (v n : Nat) : (d.countItem v n).raised = d.raised := by
  unfold Dev.countItem
  split <;> rfl

theorem post_raised (d : Dev) (r : Rec) : (d.post .flt r).raised = d.raised := by
  unfold Dev.post
  split
  · rfl
  · dsimp only
    split
    · rfl
    · have h : ∀ c : Bool, (if c = true then d.markLost .flt
          else { d with qmg.held := d.qmg.held.put (evCode .flt) (d.qmg.held.get (evCode .flt) ++ [r]) }).raised =
            d.raised := by
        intro c
        cases c <;> rfl
      exact h _

theorem sendSafe_raised (d : Dev) : d.sendSafe.raised = d.raised := by
  obtain ⟨ts, o, h⟩ := d.sendSafe_eq
  rw [h]

theorem enterSquall_raised (b k : Nat) (f : Bool) (s : State) : (enterSquall b k f s).dev.raised = s.dev.raised := by
  unfold enterSquall
  split
  · rfl
  · exact sendSafe_raised _

theorem enterSquall_flt (b k : Nat) (f : Bool) (s : State) : (enterSquall b k f s).flt = s.flt :=
  (enterSquall_registers b k f s).2.2.1

theorem enterSquall_of_active {b k : Nat} {f : Bool} {s : State} (h : s.safe.active = true) : enterSquall b k f s = s :=
  if_pos h

/-- The bank and SAFE after a bank has registered. -/
theorem settleBank_served {s : State} {b : Nat} (h : ¬s.bankHeld b) : ∃ d, Registers s.dev d ∧
    d.raised = s.dev.raised.filter (fun r => r.bank ≠ b) ∧
    settleBank b s =
      let s1 : State := { s with dev := d, flt.banks := s.flt.banks.put b (s.registered b).bank }
      match (s.registered b).real with
      | some k => enterSquall b k (b == bMgt && k == 59 && (s.dev.raised.filter fun r => r.bank = b).any fun r => r.src == 59 &&
        !r.forced) s1
      | none =>
        if (s.registered b).drills = [] || s.safe.active then s1
        else { s1 with safe.drillCnt := min 255 (s.safe.drillCnt + (s.registered b).drills.length), dev := d.raise bFlt 15 } := by
  unfold State.bankHeld at h
  unfold settleBank
  rw [if_neg h]
  extract_lets mine occs x r _ d1 d2 d3
  have hr : r = s.registered b := rfl
  refine ⟨d3, ?_, ?_, rfl⟩
  · have h1 : Registers s.dev d1 := .raised ..
    have h2 : Registers s.dev d2 := by
      unfold d2
      split
      · exact h1.trans (.countItem ..)
      · exact h1
    unfold d3
    split
    · exact h2.trans (.post ..)
    · exact h2
  · have h2 : d2.raised = d1.raised := by
      unfold d2
      split
      · exact countItem_raised ..
      · rfl
    have h3 : d3.raised = d2.raised := by
      unfold d3
      split
      · exact post_raised ..
      · rfl
    exact h3.trans h2

/-- A bank that is held registers nothing; the failures that reach Squall from SAFE directly enter the safe state. -/
theorem settleBank_of_held {s : State} {b : Nat} (h : s.bankHeld b) : settleBank b s = if b != bMgt then s
    else if s.dev.raised.any fun r => r.bank == bMgt && r.src == 59 && !r.forced then enterSquall bMgt 59 true s
    else if s.dev.clockLostAt domTref then enterSquall bMgt 58 false s else s :=
  if_pos h

/-! ### SAFE while its state is entered -/

/-- In the safe state a bank's registration leaves SAFE alone. -/
theorem settleBank_safe {s : State} (b : Nat) (h : s.safe.active = true) : (settleBank b s).safe = s.safe := by
  by_cases hb : s.bankHeld b
  · rw [settleBank_of_held hb]
    (repeat' split) <;> first | rfl | rw [enterSquall_of_active h]
  · obtain ⟨d, -, -, he⟩ := settleBank_served hb
    rw [he]
    dsimp only
    split
    · exact (congrArg State.safe (enterSquall_of_active (s :=
        { s with dev := d, flt.banks := s.flt.banks.put b (s.registered b).bank }) h)).trans rfl
    · rw [if_pos (by simp [h])]

theorem forAll_settleBank_safe {s : State} (bs : List Nat) (h : s.safe.active = true) : (forAll bs settleBank s).safe =
    s.safe := by
  unfold forAll
  induction bs generalizing s with
  | nil => rfl
  | cons b r ih =>
    have hb := settleBank_safe b h
    exact (ih (by rw [hb, h])).trans hb

/-- In the safe state a registration leaves SAFE alone. -/
theorem settle_safe_active {s : State} (h : s.safe.active = true) : (settle s).safe = s.safe :=
  forAll_settleBank_safe _ h

/-! ### What every command keeps -/

/-- Once entered, the safe state stands, and SAFE tells its first cause (spec/15 R422). -/
def CauseHeld (s u : State) : Prop :=
  s.safe.active = true → u.safe.active = true ∧ u.safe.cls = s.safe.cls ∧ u.safe.bank = s.safe.bank ∧ u.safe.src = s.safe.src ∧
    u.safe.time = s.safe.time

theorem CauseHeld.of_safe {s u : State} (h : u.safe = s.safe) : CauseHeld s u := fun ha => by
  rw [h]
  exact ⟨ha, rfl, rfl, rfl, rfl⟩

theorem CauseHeld.trans {s t u : State} (h : CauseHeld s t) (k : CauseHeld t u) : CauseHeld s u := fun ha => by
  obtain ⟨h0, h1, h2, h3, h4⟩ := h ha
  obtain ⟨k0, k1, k2, k3, k4⟩ := k h0
  exact ⟨k0, k1.trans h1, k2.trans h2, k3.trans h3, k4.trans h4⟩

theorem CauseHeld.settle (s : State) : CauseHeld s (settle s) := fun ha => CauseHeld.of_safe (settle_safe_active ha) ha

/-- A state that a command reaches: it has the queue of commands, and keeps the tables, the ids and the fault banks in order.
Where `P` holds it has the fuse words as well; where `Q` holds, the safe state and its first cause stand. -/
structure Keeps (P Q : Prop) (s u : State) : Prop where
  pending : u.pending = s.pending
  tables : Canonical s.dev → Canonical u.dev
  ids : FreshIds s.dev → FreshIds u.dev
  banks : BanksHold s → BanksHold u
  fuse : P → u.dev.mgt.fuse = s.dev.mgt.fuse
  cause : Q → CauseHeld s u

namespace Keeps

variable {P Q : Prop} {s t u : State} {as bs : List Aspect} {d : Dev}

theorem refl (s : State) : Keeps P Q s s := ⟨rfl, id, id, id, fun _ => rfl, fun _ ha => ⟨ha, rfl, rfl, rfl, rfl⟩⟩

theorem trans (h : Keeps P Q s t) (k : Keeps P Q t u) : Keeps P Q s u :=
  ⟨k.pending.trans h.pending, k.tables ∘ h.tables, k.ids ∘ h.ids, k.banks ∘ h.banks, fun p => (k.fuse p).trans (h.fuse p),
    fun q => (h.cause q).trans (k.cause q)⟩

theorem ite {c : Prop} [Decidable c] (h : Keeps P Q s t) (k : Keeps P Q s u) : Keeps P Q s (if c then t else u) := by
  split <;> assumption

/-- A change of the block alone. -/
theorem of_touches (h : Touches as s.dev d bs) (hf : P → (as.contains .fuse || bs.contains .fuse) =
    false := by exact fun _ => rfl) :
    Keeps P Q s { s with dev := d } := by
  refine ⟨rfl, h.tables, h.ids, fun hb => { hb with }, fun hp => ?_, fun _ => .of_safe rfl⟩
  have hc := hf hp
  simp only [Bool.or_eq_false_iff, List.contains_eq_mem, decide_eq_false_iff_not] at hc
  exact h.kept .fuse hc.1 hc.2

theorem settle (h : Keeps P Q s u) : Keeps P Q s (settle u) :=
  h.trans ⟨settle_pending u, (settle_touches u).tables, (settle_touches u).ids, .settle,
    fun _ => (settle_touches u).kept .fuse (by simp) (by simp), fun _ => .settle u⟩

/-- Writing one bank. -/
theorem updBank {b : Nat} {f : Bank → Bank} (h : Keeps P Q s u) (hf : ∀ x, BankHolds b x → BankHolds b (f x)) :
    Keeps P Q s (u.updBank b f) :=
  h.trans ⟨rfl, id, id, fun hb => hb.putBank (hf _ (hb.bank b)) u.dev, fun _ => rfl, fun _ ha => ⟨ha, rfl, rfl, rfl, rfl⟩⟩

end Keeps

/-- A row that answers a state which keeps what every command keeps. -/
abbrev Row (P Q : Prop) (s : State) (o : Host.Outcome State Fault Refusal) : Prop := ∃ u, Keeps P Q s u ∧ o = .next u

theorem Effect.row {P Q : Prop} {as bs : List Aspect} {s : State} {o : Host.Outcome State Fault Refusal} (h : Effect as s o bs)
    (hf : P → (as.contains .fuse || bs.contains .fuse) = false := by exact fun _ => rfl) : Row P Q s o := by
  obtain ⟨e, he, rfl⟩ := h
  have h0 : Keeps P Q s { s with dev.drive := [] } := ⟨rfl, fun h => { h with }, id, fun h => { h with }, fun _ => rfl, fun _ ha
      => ⟨ha, rfl, rfl, rfl, rfl⟩⟩
  exact ⟨_, (h0.trans (.of_touches he hf)).settle, rfl⟩

/-- A row that reaches the fault banks or SAFE as well. -/
theorem whole_row {P Q : Prop} {s : State} {f : State → State} (h : ∀ t, Keeps P Q t (f t)) : Row P Q s (s.whole f) := by
  have h0 : Keeps P Q s { s with dev.drive := [] } := ⟨rfl, fun h => { h with }, id, fun h => { h with }, fun _ => rfl, fun _ ha
      => ⟨ha, rfl, rfl, rfl, rfl⟩⟩
  exact ⟨_, (h0.trans (h _)).settle, rfl⟩

theorem regPort_row {P Q : Prop} {s : State} {a : Nat} {f : State → State} (h : ∀ t, Keeps P Q t (f t)) : Row P Q s (s.regPort a
    f) := by
  have h0 : Keeps P Q s { s with dev.drive := [] } := ⟨rfl, fun h => { h with }, id, fun h => { h with }, fun _ => rfl, fun _ ha
      => ⟨ha, rfl, rfl, rfl, rfl⟩⟩
  have hemit : ∀ (t : State) (x : Transfer), Keeps P Q t { t with dev := t.dev.emit x } := fun t x =>
    .of_touches (Dev.emit_touches t.dev x)
  exact ⟨_, (h0.trans (.ite (.refl _) (.ite (hemit _ _) (.trans (.ite (.refl _) (h _)) (hemit _ _))))).settle, rfl⟩

theorem Row.of_false {P Q : Prop} {s : State} {o : Host.Outcome State Fault Refusal} (h : Row False False s o) (hp : ¬P) (hq :
    ¬Q) :
    Row P Q s o := by
  obtain ⟨u, hu, rfl⟩ := h
  exact ⟨u, { hu with fuse := hu.fuse ∘ hp, cause := hu.cause ∘ hq }, rfl⟩

/-! ### The registers of the fault banks -/

theorem mem_insSorted {x y : Nat} {l : List Nat} (h : y ∈ insSorted x l) : y = x ∨ y ∈ l := by
  induction l with
  | nil => exact .inl (List.mem_singleton.mp h)
  | cons z r ih =>
    unfold insSorted at h
    split at h
    · exact (List.mem_cons.mp h)
    · split at h
      · exact .inr h
      · rcases List.mem_cons.mp h with rfl | h
        · exact .inr List.mem_cons_self
        · exact (ih h).imp_right (List.mem_cons_of_mem _)

/-- A read of the entries whose index passes a test. -/
theorem get_filter_key {α : Type} [Inhabited α] [DecidableEq α] (f : Nat → Bool) (t : Tab α) (i : Nat) :
    Tab.get (t.filter fun p => f p.1) i = if f i then t.get i else default := by
  induction t with
  | nil => simp [Tab.get]
  | cons p r ih =>
    rw [List.filter_cons]
    by_cases hp : p.1 = i
    · subst hp
      by_cases hf : f p.1 = true
      · simp [hf, Tab.get]
      · simp only [hf, ih, if_false, Bool.false_eq_true]
    · by_cases hf : f p.1 = true
      · simp only [hf, if_true, Tab.get, if_neg hp, ih]
      · simp only [hf, Tab.get, if_neg hp, ih, if_false, Bool.false_eq_true]

theorem baseClass_le (b k : Nat) : baseClass b k ≤ 3 := by
  have h (l : List (Nat × Nat)) (hl : ∀ p ∈ l, p.2 ≤ 3) : classIn l k ≤ 3 := by
    induction l with
    | nil => exact Nat.zero_le _
    | cons p r ih =>
      obtain ⟨hp, hr⟩ := List.forall_mem_cons.mp hl
      unfold classIn
      split
      · exact hp
      · exact ih hr
  refine h _ ?_
  unfold classRuns
  split <;> decide

theorem BankHolds.clearFirst {b : Nat} {x : Bank} (h : BankHolds b x) : BankHolds b x.clearFirst :=
  { h with first := fun _ hr => by cases hr }

theorem BankHolds.clearPending {b : Nat} {x : Bank} (h : BankHolds b x) (ks : List Nat) : BankHolds b (x.clearPending b ks) :=
  { h with }

theorem BankHolds.classWrite {b : Nat} {x : Bank} (h : BankHolds b x) (w : Nat) (v : Word32) : BankHolds b (x.classWrite b w
    v) := by
  unfold Bank.classWrite forAll
  generalize (List.range 16).filter _ = is
  induction is generalizing x with
  | nil => exact h
  | cons i r ih =>
    refine ih ?_
    dsimp only
    split
    · exact h
    next hb =>
      have hle := baseClass_le b (16 * w + i)
      split
      · refine { h with esc := fun k hk => ?_ }
        rcases mem_insSorted hk with rfl | hk
        · omega
        · exact h.esc k hk
      · split
        · exact { h with esc := fun k hk => h.esc k (List.mem_of_mem_filter hk) }
        · exact h

theorem BankHolds.write {b : Nat} {x : Bank} (h : BankHolds b x) (o : Nat) (v : Word32) : BankHolds b (x.write b o v) := by
  unfold Bank.write
  split
  · exact { h with }
  · exact { h with }
  · split
    · exact h
    · exact { h with }

theorem bankRow_keeps {P Q : Prop} {b o : Nat} {v : Word32} {f : State → State} (h : bankRow b o v = some f) (t : State) :
    Keeps P Q t (f t) := by
  unfold bankRow at h
  split at h
  · obtain rfl := Option.some.inj h
    exact .ite (.updBank (.refl t) fun _ => .clearFirst) (.refl t)
  · split at h
    · obtain rfl := Option.some.inj h
      exact .updBank (.refl t) fun _ hx => hx.clearPending _
    · obtain rfl := Option.some.inj h
      exact .of_touches (Touches.raises ..)
    · obtain rfl := Option.some.inj h
      exact .updBank (.refl t) fun _ hx => hx.classWrite _ _
    · cases h

theorem execFltFirstHiClear_row {P Q : Prop} (b : Fin 14) (s : State) : Row P Q s (execFltFirstHiClear b s) :=
  regPort_row fun t => .updBank (.refl t) fun _ => .clearFirst

theorem execFltForce_row {P Q : Prop} (b : Fin 14) (w : BitVec 6) (v : Word32) (s : State) : Row P Q s (execFltForce b w v s) :=
  regPort_row fun _ => .of_touches (Touches.raises ..)

theorem execFltClassWrite_row {P Q : Prop} (b : Fin 14) (w : BitVec 6) (v : Word32) (s : State) : Row P Q s (execFltClassWrite b
    w v s) :=
  regPort_row fun t => .updBank (.refl t) fun _ hx => hx.classWrite _ _

theorem execNotificationClear_row {P Q : Prop} (b : Fin 14) (w : BitVec 6) (v : Word32) (s : State) :
    Row P Q s (execNotificationClear b w v s) :=
  regPort_row fun t => .updBank (.refl t) fun _ hx => hx.clearPending _

/-! ### REG_WRITE -/

theorem plainWrite_keeps {P Q : Prop} (a : Nat) (v : Word32) (t : State) : Keeps P Q t (t.plainWrite a v) := by
  unfold State.plainWrite
  split
  next b o _ => exact ⟨rfl, id, id, fun hb => hb.putBank ((hb.bank b).write o v) t.dev, fun _ => rfl, fun _ ha => ⟨ha, rfl, rfl,
    rfl, rfl⟩⟩
  · split
    · exact ⟨rfl, id, id, fun hb => { hb with }, fun _ => rfl, fun _ ha => ⟨ha, rfl, rfl, rfl, rfl⟩⟩
    · split
      · split
        · exact .refl t
        · exact ⟨rfl, id, id, fun hb => { hb with }, fun _ => rfl, fun _ ha => ⟨ha, rfl, rfl, rfl, rfl⟩⟩
      · split
        next d hd =>
          rcases (Option.orElse_eq_some _ _ _).mp hd with h | ⟨_, hd⟩
          · exact .of_touches (Dev.miscWrite_touches h)
          · rcases (Option.orElse_eq_some _ _ _).mp hd with h | ⟨_, h⟩
            · exact .of_touches (Dev.qmgWrite_touches h)
            · exact .of_touches (Dev.svcWrite_touches h)
        · exact .refl t

theorem execQctl_row {P Q : Prop} (v : Word32) (s : State) : Row P Q s (execQctl v s) := by
  unfold execQctl
  split
  · exact (Effect.core (as := []) (bs := []) fun d => .refl d).row
  · exact (Effect.core fun d => Dev.enableQueue_touches d _).row
  · exact (Effect.core fun d => Dev.disableQueue_touches d _).row
  · exact (Effect.core fun d => Dev.resetAdmin_touches d _).row

theorem ownRow_row {P Q : Prop} {a : Nat} {v : Word32} {f : State → Host.Outcome State Fault Refusal} (h : ownRow a v = some f)
    (s : State) :
    Row P Q s (f s) := by
  unfold ownRow at h
  split at h
  · obtain rfl := Option.some.inj h
    exact (execFabPortEn_effect ..).row
  · obtain rfl := Option.some.inj h
    exact (execFabCntClr_effect ..).row
  · obtain rfl := Option.some.inj h
    exact (execStlClear_effect ..).row
  · obtain rfl := Option.some.inj h
    exact (execStlRejectClr_effect ..).row
  · obtain rfl := Option.some.inj h
    exact (execStlCntClr_effect ..).row
  · obtain rfl := Option.some.inj h
    exact (execRmpSetCfg_effect ..).row
  · obtain rfl := Option.some.inj h
    exact (execRmpSetCfg_effect ..).row
  · obtain rfl := Option.some.inj h
    exact (execRmpClear_effect ..).row
  · obtain rfl := Option.some.inj h
    exact (execLanKatRun_effect ..).row
  · obtain rfl := Option.some.inj h
    exact (execFrsMetaBaseWrite_effect ..).row
  · obtain rfl := Option.some.inj h
    exact (execFrsMetaBaseWrite_effect ..).row
  · obtain rfl := Option.some.inj h
    exact (execFrsCntClr_effect ..).row
  · obtain rfl := Option.some.inj h
    exact (execCanCtrlEn_effect ..).row
  · obtain rfl := Option.some.inj h
    exact (execCanPinCfg_effect ..).row
  · obtain rfl := Option.some.inj h
    exact (execCanLfsrReseed_effect ..).row
  · obtain rfl := Option.some.inj h
    exact (execCanCntClr_effect ..).row
  · obtain rfl := Option.some.inj h
    exact (execMedCntClr_effect ..).row
  · obtain rfl := Option.some.inj h
    exact (execKeyDrbgReseed_effect ..).row
  · obtain rfl := Option.some.inj h
    exact (execKeyEntEn_effect ..).row
  · obtain rfl := Option.some.inj h
    exact (execKeyCntClr_effect ..).row
  · obtain rfl := Option.some.inj h
    exact execQctl_row v s
  · obtain rfl := Option.some.inj h
    exact (execQmgVecLoad_effect ..).row
  · obtain rfl := Option.some.inj h
    exact (execSvcCntClr_effect ..).row
  · obtain rfl := Option.some.inj h
    exact (execPerArm_effect ..).row
  · obtain rfl := Option.some.inj h
    exact (execPerAnchorBaseWrite_effect ..).row
  · obtain rfl := Option.some.inj h
    exact (execPerCntClr_effect ..).row
  · obtain ⟨p, _, rfl⟩ := Option.map_eq_some_iff.mp h
    exact (execStlGeomSeedWrite_effect ..).row

theorem execRegWrite_row {P Q : Prop} (woff : BitVec 22) (v : Word32) (s : State) : Row P Q s (execRegWrite woff v s) := by
  unfold execRegWrite
  dsimp only
  split
  next f hf => exact ownRow_row hf s
  · refine regPort_row fun t => ?_
    split
    · exact .of_touches (Dev.regDoorbell_touches ..)
    · split
      · split
        next f hf => exact bankRow_keeps hf t
        · exact plainWrite_keeps ..
      · exact plainWrite_keeps ..

/-! ### Power and resets -/

/-- The banks but FLT are cleared. -/
theorem BanksHold.onlyFlt {s : State} (h : BanksHold s) (d : Dev) :
    BanksHold { s with dev := d, flt.banks := s.flt.banks.filter fun p => p.1 = bFlt } := by
  have hi : ∀ i, BankHolds i (Tab.get (s.flt.banks.filter fun p => p.1 = bFlt) i) := by
    intro i
    rw [get_filter_key (fun k => decide (k = bFlt))]
    split
    · exact h.bank i
    · exact .default i
  exact { h with banks := Tab.filter_wf _ h.banks, first := fun i => (hi i).first, esc := fun i => (hi i).esc }

theorem sysReset_keeps {P Q : Prop} (s : State) : Keeps P Q s s.sysReset where
  pending := rfl
  tables := (Dev.sysReset_touches s.dev).tables
  ids := (Dev.sysReset_touches s.dev).ids
  banks h := { h.onlyFlt s.dev.sysReset with }
  fuse _ := rfl
  cause _ ha := ⟨ha, rfl, rfl, rfl, rfl⟩

theorem overdueReset_keeps {P Q : Prop} (s : State) : Keeps P Q s s.overdueReset :=
  .ite (sysReset_keeps s) (.refl s)

theorem execSysRstNAssert_row {P Q : Prop} (s : State) : Row P Q s (execSysRstNAssert s) := by
  refine whole_row fun s => ?_
  have h (b : Bool) : Keeps P Q s { s with dev.mgt.sysRstN := false, dev.mgt.rstDeferred := b } := .of_touches Touches.setMgt
  refine .ite (.refl s) (.ite ?_ ?_)
  · exact (h true).trans ⟨rfl, id, id, fun hb => { hb with }, fun _ => rfl, fun _ ha => ⟨ha, rfl, rfl, rfl, rfl⟩⟩
  · exact (h s.dev.mgt.rstDeferred).trans (sysReset_keeps _)

theorem execSysRstNRelease_row {P Q : Prop} {s : State} (h : ¬(s.dev.tap.ir = 0 ∨ s.dev.tap.ir = 3)) : Row P Q s
    (execSysRstNRelease s) := by
  unfold execSysRstNRelease
  rw [if_neg h]
  refine whole_row fun s => (overdueReset_keeps s).trans (.ite (.refl _) (.ite ?_ ?_))
  · exact .of_touches Touches.setMgt
  · exact .of_touches (as := [.mgt, .host, .mgtRest]) (bs := []) (.after (Dev.startPower_touches _) (.mono Touches.setMgt))

theorem execPowerLoss_row {P Q : Prop} (s : State) : Row P Q s (execPowerLoss s) := by
  refine whole_row fun s => ?_
  have h : Keeps P Q s { s with dev.mgt.pwrGood := false } := .of_touches Touches.setMgt
  refine .ite (.refl s) (h.trans (.ite (sysReset_keeps _) ?_))
  exact ⟨rfl, (Dev.sysReset_touches _).tables, (Dev.sysReset_touches _).ids, fun hb => hb.onlyFlt _, fun _ => rfl, fun _ ha =>
    ⟨ha, rfl, rfl, rfl, rfl⟩⟩

theorem BanksHold.fresh (p : List Instr) (d : Dev) : BanksHold ⟨p, d, Flt.reset, Safe.reset⟩ where
  banks := Tab.wf_nil
  first _ _ h := by cases h
  esc _ _ h := by cases h
  drills := Nat.zero_le _
  out _ := ⟨rfl, rfl, rfl, rfl, rfl⟩
  inside h := by cases h

theorem execPowerCycle_row (s : State) : Row False False s (execPowerCycle s) := by
  refine whole_row fun s => .ite (.refl s) ?_
  have h := Dev.sysReset_touches s.dev
  have h1 : Keeps False False s { s with dev := { s.dev.sysReset with
      mgt := { s.dev.sysReset.mgt with pwrGood := true, fuse := [], domReset := Mgt.reset.domReset, clkOk := Mgt.reset.clkOk, clkMeas := [] }
      tap := { Tap.reset with trstN := s.dev.tap.trstN }, raised := [] } } :=
    ⟨rfl, fun hc => { h.tables hc with clkMeas := .nil }, h.ids, fun hb => { hb with }, False.elim, False.elim⟩
  have h2 (d : Dev) (c : Bool) : Touches [.mgt, .host, .mgtRest] d (if c then d.outOfReset domDbg else d).startPower :=
    .after (Dev.startPower_touches _) (.ite (Dev.outOfReset_touches ..) (.refl d))
  refine (h1.trans (.of_touches (h2 _ s.dev.tap.trstN))).trans ?_
  exact ⟨rfl, id, id, fun _ => .fresh .., False.elim, False.elim⟩

theorem execPfwDone_row {P Q : Prop} (s : State) : Row P Q s (execPfwDone s) := by
  refine whole_row fun s => .ite (overdueReset_keeps s) (.ite (.refl s) ?_)
  have h : Keeps P Q s { s with dev := { s.dev with per.pfwDone := true, mgt.pfw := .done }.raise bPer 6 } :=
    .of_touches (as := [.per, .mgt, .mgtRest, .record]) (bs := []) (.after (Dev.raise_touches ..) (.after (Touches.setMgt (d :=
      { s.dev with per.pfwDone := true })) (.mono (Touches.setPer_any (d := s.dev)))))
  refine h.trans (.ite (sysReset_keeps _) ?_)
  exact .of_touches (as := [.mgt, .mgtRest]) (bs := []) Touches.setMgt

theorem execZeroisationDone_row {P Q : Prop} (s : State) : Row P Q s (execZeroisationDone s) := by
  refine whole_row fun s => ?_
  by_cases hs : s.safe.active = true
  · refine .ite (.refl s) ((Keeps.of_touches (Dev.zeroise_touches _)).trans ⟨rfl, id, id, fun hb => ?_, fun _ => rfl, fun _ ha
      => ⟨ha, rfl, rfl, rfl, rfl⟩⟩)
    exact { hb with out := fun ha => absurd (hs.symm.trans ha) (by simp) }
  · rw [if_pos (by simp [hs])]
    exact .refl s

/-! ### Every command -/

/-- A command that answers the fault: boundary scan outside reset, and a release of SYS_RST_N during it (spec/17 R459). -/
def Stops (s : State) (c : Instr) : Prop :=
  ((∃ x y, c = .extest x y) ∨ c = .clamp) ∧ s.dev.tapOn = true ∧ s.dev.mgt.sysRstN = true ∨
    c = .sysRstNRelease ∧ (s.dev.tap.ir = 0 ∨ s.dev.tap.ir = 3)

/-- Every other command answers a state with the queue of commands, the tables, ids and fault banks in order; only the fuse
phase and the power rows write the fuse words, and only a power cycle ends the safe state. -/
theorem exec_row (c : Instr) (s : State) :
    Stops s c ∨ Row (c ≠ .fusePhaseDone ∧ c ≠ .powerLoss ∧ c ≠ .powerCycle) (c ≠ .powerCycle) s (exec c s) := by
  match c with
  | .fabricRequest p op tag sid kid line sess chk => exact .inr (execFabricRequest_effect ..).row
  | .writePayload p data mask => exact .inr (execWritePayload_effect ..).row
  | .wlpcOpen p e => exact .inr (execWlpcOpen_effect ..).row
  | .wlpcAad p e => exact .inr (execWlpcAad_effect ..).row
  | .wlpcClose p e => exact .inr (execWlpcClose_effect ..).row
  | .wlpcReservedType p ty e => exact .inr (execWlpcReservedType_effect ..).row
  | .windowResult sess => exact .inr (execWindowResult_effect ..).row
  | .writeWindowTimeout sess => exact .inr (execWriteWindowTimeout_effect ..).row
  | .rlpcOpen p e => exact .inr (execRlpcOpen_effect ..).row
  | .rlpcAad p e => exact .inr (execRlpcAad_effect ..).row
  | .rlpcFormatError p ty e => exact .inr (execRlpcFormatError_effect ..).row
  | .rtag sess => exact .inr (execRtag_effect ..).row
  | .readWindowWaitTimeout sess read => exact .inr (execReadWindowWaitTimeout_effect ..).row
  | .accessGrant id err => exact .inr (execAccessGrant_effect ..).row
  | .ladderVerifyDone id err key => exact .inr (execLadderVerifyDone_effect ..).row
  | .mediaReadBeat ch tag beat ecc zenith key => exact .inr (execMediaReadBeat_effect ..).row
  | .lanePassDone id lane audit err key => exact .inr (execLanePassDone_effect ..).row
  | .mediaWriteCompletion ch tag status zenith => exact .inr (execMediaWriteCompletion_effect ..).row
  | .responseTransfer id err => exact .inr (execResponseTransfer_effect ..).row
  | .creditReturn c => exact .inr (execCreditReturn_effect ..).row
  | .mcnFail ch => exact .inr (execMcnFail_effect ..).row
  | .transientBucketLeak ch => exact .inr (execTransientBucketLeak_effect ..).row
  | .parkingTimeout id err => exact .inr (execParkingTimeout_effect ..).row
  | .parkedRelease chk => exact .inr (execParkedRelease_effect ..).row
  | .ageingTick => exact .inr (execAgeingTick_effect ..).row
  | .hdmaWriteAck tag err => exact .inr (execHdmaWriteAck_effect ..).row
  | .hdmaReadData tag data last err => exact .inr (execHdmaReadData_effect ..).row
  | .hostHoldoffRise => exact .inr (execHostHoldoffRise_effect ..).row
  | .hostHoldoffFall => exact .inr (execHostHoldoffFall_effect ..).row
  | .tail slot low be => exact .inr (execTail_effect ..).row
  | .scan slot low be => exact .inr (execScan_effect ..).row
  | .invalidate slot low be => exact .inr (execInvalidate_effect ..).row
  | .drain slot low be => exact .inr (execDrain_effect ..).row
  | .entryFetch q => exact .inr (execEntryFetch_effect ..).row
  | .scanPoll q => exact .inr (execScanPoll_effect ..).row
  | .entryConsumption q err => exact .inr (execEntryConsumption_effect ..).row
  | .eventRecordWrite src => exact .inr (execEventRecordWrite_effect ..).row
  | .vectorDue vec => exact .inr (execVectorDue_effect ..).row
  | .regWrite woff v => exact .inr (execRegWrite_row ..)
  | .regReadPairLo woff zenith => exact .inr (execRegReadPairLo_effect ..).row
  | .fabPortEn v => exact .inr (execFabPortEn_effect ..).row
  | .fabCntClr v => exact .inr (execFabCntClr_effect ..).row
  | .stlClear v => exact .inr (execStlClear_effect ..).row
  | .stlClearDone => exact .inr (execStlClearDone_effect ..).row
  | .stlRejectClr v => exact .inr (execStlRejectClr_effect ..).row
  | .stlCntClr v => exact .inr (execStlCntClr_effect ..).row
  | .stlGeomSeedWrite reg set v => exact .inr (execStlGeomSeedWrite_effect ..).row
  | .rmpClear v => exact .inr (execRmpClear_effect ..).row
  | .rmpClearDone => exact .inr (execRmpClearDone_effect ..).row
  | .rmpSetCfg set v => exact .inr (execRmpSetCfg_effect ..).row
  | .lanKatRun hi => exact .inr (execLanKatRun_effect ..).row
  | .katPeriodExpiry lane => exact .inr (execKatPeriodExpiry_effect ..).row
  | .katSetDone lane results => exact .inr (execKatSetDone_effect ..).row
  | .probationEnd lane => exact .inr (execProbationEnd_effect ..).row
  | .standbyKatRepeat lane => exact .inr (execStandbyKatRepeat_effect ..).row
  | .clusterIdleGate k => exact .inr (execClusterIdleGate_effect ..).row
  | .canCtrlEn v => exact .inr (execCanCtrlEn_effect ..).row
  | .canPinCfg v => exact .inr (execCanPinCfg_effect ..).row
  | .canLfsrReseed v drbg => exact .inr (execCanLfsrReseed_effect ..).row
  | .canCntClr v => exact .inr (execCanCntClr_effect ..).row
  | .writeBack err key => exact .inr (execWriteBack_effect ..).row
  | .frsMetaBaseWrite limit v => exact .inr (execFrsMetaBaseWrite_effect ..).row
  | .frsCntClr v => exact .inr (execFrsCntClr_effect ..).row
  | .perArm v => exact .inr (execPerArm_effect ..).row
  | .armingDone => exact .inr (execArmingDone_effect ..).row
  | .perAnchorBaseWrite v => exact .inr (execPerAnchorBaseWrite_effect ..).row
  | .perCntClr v => exact .inr (execPerCntClr_effect ..).row
  | .keyDrbgReseed v => exact .inr (execKeyDrbgReseed_effect ..).row
  | .drbgReseedDone samples drbg => exact .inr (execDrbgReseedDone_effect ..).row
  | .keyEntEn v => exact .inr (execKeyEntEn_effect ..).row
  | .keyCntClr v => exact .inr (execKeyCntClr_effect ..).row
  | .entropyStartupDone n samples => exact .inr (execEntropyStartupDone_effect ..).row
  | .entropyHealthFail n samples => exact .inr (execEntropyHealthFail_effect ..).row
  | .drbgInstantiate samples lfsr => exact .inr (execDrbgInstantiate_effect ..).row
  | .enable q => exact .inr (execEnable_effect ..).row
  | .disable q => exact .inr (execDisable_effect ..).row
  | .adminReset q => exact .inr (execAdminReset_effect ..).row
  | .queueIdle q => exact .inr (execQueueIdle_effect ..).row
  | .qmgVecLoad v => exact .inr (execQmgVecLoad_effect ..).row
  | .fltFirstHiClear b => exact .inr (execFltFirstHiClear_row ..)
  | .fltForce b w v => exact .inr (execFltForce_row ..)
  | .fltClassWrite b w v => exact .inr (execFltClassWrite_row ..)
  | .notificationClear b w v => exact .inr (execNotificationClear_row ..)
  | .medCntClr v => exact .inr (execMedCntClr_effect ..).row
  | .svcCntClr v => exact .inr (execSvcCntClr_effect ..).row
  | .anvilResponse rdata err => exact .inr (execAnvilResponse_effect ..).row
  | .anvilTimeout => exact .inr (execAnvilTimeout_effect ..).row
  | .powerLoss => exact .inr (execPowerLoss_row ..)
  | .powerCycle => exact .inr ((execPowerCycle_row s).of_false (fun h => h.2.2 rfl) fun h => h rfl)
  | .pfWarn => exact .inr (execPfWarn_effect ..).row
  | .pfwDone => exact .inr (execPfwDone_row ..)
  | .pfWarnClear => exact .inr (execPfWarnClear_effect ..).row
  | .sysRstNAssert => exact .inr (execSysRstNAssert_row ..)
  | .sysRstNRelease =>
    by_cases h : s.dev.tap.ir = 0 ∨ s.dev.tap.ir = 3
    · exact .inl (.inr ⟨rfl, h⟩)
    · exact .inr (execSysRstNRelease_row h)
  | .fpnRstN p => exact .inr (execFpnRstN_effect ..).row
  | .mcnRstN ch => exact .inr (execMcnRstN_effect ..).row
  | .hdmaRstN => exact .inr (execHdmaRstN_effect ..).row
  | .hdmaResetRelease => exact .inr (execHdmaResetRelease_effect ..).row
  | .pelnRstN n => exact .inr (execPelnRstN_effect ..).row
  | .clockLoss dom => exact .inr (execClockLoss_effect ..).row
  | .clockMeasurement dom freq => exact .inr (execClockMeasurement_effect ..).row
  | .fuseAck level data => exact .inr (execFuseAck_effect ..).row
  | .fuseLoadFailure => exact .inr (execFuseLoadFailure_effect ..).row
  | .fusePhaseDone => exact .inr ((execFusePhaseDone_effect ..).row fun h => absurd rfl h.1)
  | .sramInitDone => exact .inr (execSramInitDone_effect ..).row
  | .selftestDone laneResults keyPass => exact .inr (execSelftestDone_effect ..).row
  | .ready => exact .inr (execReady_effect ..).row
  | .squallEntry b src => exact .inr (execSquallEntry_effect ..).row
  | .zeroisationDone => exact .inr (execZeroisationDone_row ..)
  | .zeroisationConfirm q pos => exact .inr (execZeroisationConfirm_effect ..).row
  | .keyZeroiseTimeout q pos => exact .inr (execKeyZeroiseTimeout_effect ..).row
  | .createQueue q pos => exact .inr (execCreateQueue_effect ..).row
  | .deleteQueue q pos => exact .inr (execDeleteQueue_effect ..).row
  | .resetQueue q pos => exact .inr (execResetQueue_effect ..).row
  | .setFeature q pos => exact .inr (execSetFeature_effect ..).row
  | .getFeature q pos => exact .inr (execGetFeature_effect ..).row
  | .identify q pos => exact .inr (execIdentify_effect ..).row
  | .swapConfig q pos => exact .inr (execSwapConfig_effect ..).row
  | .swapCycle => exact .inr (execSwapCycle_effect ..).row
  | .anchorRestore q pos zenith => exact .inr (execAnchorRestore_effect ..).row
  | .adoptZone q pos zenith drbg => exact .inr (execAdoptZone_effect ..).row
  | .adoptionStart zenith => exact .inr (execAdoptionStart_effect ..).row
  | .formatZone q pos zenith drbg => exact .inr (execFormatZone_effect ..).row
  | .treeReset z zenith => exact .inr (execTreeReset_effect ..).row
  | .poolJoin q pos => exact .inr (execPoolJoin_effect ..).row
  | .poolLeave q pos => exact .inr (execPoolLeave_effect ..).row
  | .poolReconcile q pos => exact .inr (execPoolReconcile_effect ..).row
  | .keyInstall q pos key => exact .inr (execKeyInstall_effect ..).row
  | .keyGenerate q pos key => exact .inr (execKeyGenerate_effect ..).row
  | .keyDestroy q pos => exact .inr (execKeyDestroy_effect ..).row
  | .keyDrained q pos => exact .inr (execKeyDrained_effect ..).row
  | .kekLoadDerive q pos => exact .inr (execKekLoadDerive_effect ..).row
  | .kekLoadUnwrap q pos key => exact .inr (execKekLoadUnwrap_effect ..).row
  | .sessionKeyInstall q pos key => exact .inr (execSessionKeyInstall_effect ..).row
  | .streamInsert q pos chk => exact .inr (execStreamInsert_effect ..).row
  | .streamRemove q pos chk => exact .inr (execStreamRemove_effect ..).row
  | .streamQuery q pos chk => exact .inr (execStreamQuery_effect ..).row
  | .regionWrite q pos => exact .inr (execRegionWrite_effect ..).row
  | .regionRead q pos => exact .inr (execRegionRead_effect ..).row
  | .rekeyStart q pos => exact .inr (execRekeyStart_effect ..).row
  | .rekeyAbort q pos => exact .inr (execRekeyAbort_effect ..).row
  | .sanitize q pos zenith drbg => exact .inr (execSanitize_effect ..).row
  | .scrub q pos zenith => exact .inr (execScrub_effect ..).row
  | .seal q pos zenith drbg => exact .inr (execSeal_effect ..).row
  | .unseal q pos zenith => exact .inr (execUnseal_effect ..).row
  | .transcode q pos zenith => exact .inr (execTranscode_effect ..).row
  | .serviceCommandStart q pos => exact .inr (execServiceCommandStart_effect ..).row
  | .checkpoint q pos => exact .inr (execCheckpoint_effect ..).row
  | .canopyMaintFlush q pos => exact .inr (execCanopyMaintFlush_effect ..).row
  | .canopyMaintInvalidate q pos => exact .inr (execCanopyMaintInvalidate_effect ..).row
  | .flushInv q pos => exact .inr (execFlushInv_effect ..).row
  | .pin q pos err => exact .inr (execPin_effect ..).row
  | .unpin q pos => exact .inr (execUnpin_effect ..).row
  | .canopyMaintRead q pos err => exact .inr (execCanopyMaintRead_effect ..).row
  | .zero q pos => exact .inr (execZero_effect ..).row
  | .measure q pos key zenith => exact .inr (execMeasure_effect ..).row
  | .periodicCheckpoint => exact .inr (execPeriodicCheckpoint_effect ..).row
  | .hold => exact .inr (execHold_effect ..).row
  | .cut err key => exact .inr (execCut_effect ..).row
  | .release => exact .inr (execRelease_effect ..).row
  | .commit zenith => exact .inr (execCommit_effect ..).row
  | .serviceStepStart who chk => exact .inr (execServiceStepStart_effect ..).row
  | .frontStepDone step => exact .inr (execFrontStepDone_effect ..).row
  | .serviceStepDone step zenith => exact .inr (execServiceStepDone_effect ..).row
  | .scrubDone => exact .inr (execScrubDone_effect ..).row
  | .zoneDeparture z => exact .inr (execZoneDeparture_effect ..).row
  | .shadowRelease => exact .inr (execShadowRelease_effect ..).row
  | .linkUpChange n up => exact .inr (execLinkUpChange_effect ..).row
  | .frameReceived n words => exact .inr (execFrameReceived_effect ..).row
  | .hello n f => exact .inr (execHello_effect ..).row
  | .helloTimer n => exact .inr (execHelloTimer_effect ..).row
  | .hb n f => exact .inr (execHb_effect ..).row
  | .heartbeatTimer => exact .inr (execHeartbeatTimer_effect ..).row
  | .member n f => exact .inr (execMember_effect ..).row
  | .safe n f => exact .inr (execSafe_effect ..).row
  | .ack n f => exact .inr (execAck_effect ..).row
  | .retransmitTimer n => exact .inr (execRetransmitTimer_effect ..).row
  | .memberTimeout m => exact .inr (execMemberTimeout_effect ..).row
  | .linkTimeout n => exact .inr (execLinkTimeout_effect ..).row
  | .prepare n f => exact .inr (execPrepare_effect ..).row
  | .held n f => exact .inr (execHeld_effect ..).row
  | .cutFrame n f => exact .inr (execCutFrame_effect ..).row
  | .done n f => exact .inr (execDone_effect ..).row
  | .abort n f => exact .inr (execAbort_effect ..).row
  | .ckreq n f => exact .inr (execCkreq_effect ..).row
  | .txnTimeout => exact .inr (execTxnTimeout_effect ..).row
  | .report n f => exact .inr (execReport_effect ..).row
  | .retire n f => exact .inr (execRetire_effect ..).row
  | .recon n f => exact .inr (execRecon_effect ..).row
  | .reconDone n f => exact .inr (execReconDone_effect ..).row
  | .trstN level => exact .inr (execTrstN_effect ..).row
  | .extest sampled loaded =>
    by_cases h : (s.dev.tapOn && s.dev.mgt.sysRstN) = true
    · exact .inl (.inl ⟨.inl ⟨_, _, rfl⟩, (Bool.and_eq_true ..).mp h⟩)
    · exact .inr (execExtest_effect (h := by simpa using h) ..).row
  | .idcode testLogicReset => exact .inr (execIdcode_effect ..).row
  | .samplePreload sampled loaded => exact .inr (execSamplePreload_effect ..).row
  | .clamp =>
    by_cases h : (s.dev.tapOn && s.dev.mgt.sysRstN) = true
    · exact .inl (.inl ⟨.inr rfl, (Bool.and_eq_true ..).mp h⟩)
    · exact .inr (execClamp_effect (h := by simpa using h) ..).row
  | .network sibReg sibKat => exact .inr (execNetwork_effect ..).row
  | .bypass code => exact .inr (execBypass_effect ..).row
  | .tapRegRead woff zenith => exact .inr (execTapRegRead_effect ..).row
  | .tapKat lane => exact .inr (execTapKat_effect ..).row
  | .fpnResetRelease p => exact .inr (execFpnResetRelease_effect ..).row
  | .mcnResetRelease ch => exact .inr (execMcnResetRelease_effect ..).row
  | .pelnResetRelease n => exact .inr (execPelnResetRelease_effect ..).row

theorem execExtest_stops {sampled loaded : BitVec Config.chainBits} {s : State} (h : s.dev.tapOn = true ∧ s.dev.mgt.sysRstN =
    true) :
    execExtest sampled loaded s = .fault .boundaryScanWithoutReset := by
  unfold execExtest
  simp [h]

theorem execClamp_stops {s : State} (h : s.dev.tapOn = true ∧ s.dev.mgt.sysRstN = true) :
    execClamp s = .fault .boundaryScanWithoutReset := by
  unfold execClamp
  simp [h]

theorem execSysRstNRelease_stops {s : State} (h : s.dev.tap.ir = 0 ∨ s.dev.tap.ir = 3) :
    execSysRstNRelease s = .fault .boundaryScanWithoutReset :=
  if_pos h

theorem exec_of_stops {c : Instr} {s : State} (h : Stops s c) : exec c s = .fault .boundaryScanWithoutReset := by
  rcases h with ⟨⟨x, y, rfl⟩ | rfl, h⟩ | ⟨rfl, h⟩
  · exact execExtest_stops h
  · exact execClamp_stops h
  · exact execSysRstNRelease_stops h

/-! ### The obligations -/

theorem exec_next {c : Instr} {s t : State} (h : exec c s = .next t) :
    Keeps (c ≠ .fusePhaseDone ∧ c ≠ .powerLoss ∧ c ≠ .powerCycle) (c ≠ .powerCycle) s t := by
  rcases exec_row c s with hs | ⟨u, hu, he⟩
  · rw [exec_of_stops hs] at h
    cases h
  · rw [he] at h
    cases h
    exact hu

theorem step_keeps {s t : State} (h : step s = .next t) :
    (Canonical s.dev → Canonical t.dev) ∧ (FreshIds s.dev → FreshIds t.dev) ∧ (BanksHold s → BanksHold t) := by
  unfold step at h
  split at h
  · cases h
    exact ⟨fun k => { k with }, id, fun k => { k with }⟩
  · have k := exec_next h
    exact ⟨k.tables, k.ids, fun hb => k.banks { hb with }⟩

/-- A change that leaves the fuse words alone. -/
theorem Touches.fuse_eq {as bs : List Aspect} {d e : Dev} (h : Touches as d e bs)
    (hf : (as.contains .fuse || bs.contains .fuse) = false := by rfl) : e.mgt.fuse = d.mgt.fuse := by
  simp only [Bool.or_eq_false_iff, List.contains_eq_mem, decide_eq_false_iff_not] at hf
  exact h.kept .fuse hf.1 hf.2

theorem Dev.phaseEnds_acts {d : Dev} {p : Phase} {done squall : Bool} {f : Dev → Dev} (hp : d.mgt.phase = p)
    (hr : d.inReset domTref = false) (hd : done = true) (hw : d.mgt.pfWarn = false) : d.phaseEnds p done squall f = f d := by
  unfold Dev.phaseEnds
  rw [if_neg (by simp [hp, hr, hd]), if_neg (by simp [hw])]

/-- The end of the fuse phase takes the words of the first reading, and leaves them alone then. -/
theorem execFusePhaseDone_eq : ∃ f : Dev → Dev, (∀ d, ∃ e : Dev, e.mgt.fuse = d.mgt.fuseFirst ∧ Touches [.tap, .lan, .key] e (f
    d)) ∧
    ∀ s, execFusePhaseDone s = s.act fun d => d.phaseEnds .fuse (decide (d.mgt.fuseIdx = 22)) s.safe.active f := by
  refine ⟨_, fun d => ?_, fun s => by unfold execFusePhaseDone; exact rfl⟩
  extract_lets _ d1 _ d2 d3
  have h2 : Touches [.tap, .lan, .key] d1 d2 := .ite (.mono (Touches.setTap (d := d1))) (.refl d1)
  have h3 : Touches [.tap, .lan, .key] d1 d3 := .forAllAfter (fun _ _ => .ite (.mono (Dev.updLane_touches ..)) (.refl _)) h2
  exact ⟨d1, rfl, .ite (.after (Dev.raise_touches ..) (.after (Touches.setKey (d := d3)) h3)) h3⟩

theorem fuse_fusePhaseDone {s : State} (hp : s.dev.mgt.phase = .fuse) (hr : s.dev.inReset domTref = false)
    (hw : s.dev.mgt.pfWarn = false) (hi : s.dev.mgt.fuseIdx = 22) :
    ∃ t, exec .fusePhaseDone s = .next t ∧ t.dev.mgt.fuse = s.dev.mgt.fuseFirst := by
  obtain ⟨f, hf, he⟩ := execFusePhaseDone_eq
  refine ⟨_, he s, (congrArg Mgt.fuse (settle_mgt _)).trans ?_⟩
  have h := Dev.phaseEnds_acts (squall := s.safe.active) (f := f) (d := { s.dev with drive := [] }) hp hr (decide_eq_true hi) hw
  obtain ⟨e, he, ht⟩ := hf { s.dev with drive := [] }
  exact (congrArg (fun e : Dev => e.mgt.fuse) h).trans (ht.fuse_eq.trans he)

end Machine
end Sys2Proof

section
open Sys2Proof Sys2Proof.Machine
set_option Elab.async false

/-- Settles O1: the two branches of `step`. -/
theorem stepRunsTheFront : Obligations.StepRunsTheFront := by
  unfold Obligations.StepRunsTheFront
  constructor
  · intro c rest s h
    simp only [step, h]
  · intro s h
    simp only [step, h, tick]

/-- Settles O2: each register of State.reset, evaluated. -/
theorem resetRegisterValues : Obligations.ResetRegisterValues := by
  unfold Obligations.ResetRegisterValues
  refine ⟨⟨rfl, rfl, rfl⟩, ?_⟩
  decide

/-- Settles O3, by the frame of every row and of registering. -/
theorem execKeepsTheQueue : Obligations.ExecKeepsTheQueue :=
  fun _ _ _ h => (exec_next h).pending

/-- Settles O4: every row but the three answers a state (`exec_row`), and those answer the fault. -/
theorem onlyBoundaryScanStops : Obligations.OnlyBoundaryScanStops := by
  unfold Obligations.OnlyBoundaryScanStops
  refine ⟨fun c s => ?_, fun x y s ht hs => ⟨execExtest_stops ⟨ht, hs⟩, execClamp_stops ⟨ht, hs⟩⟩, fun s h =>
    execSysRstNRelease_stops h⟩
  rcases exec_row c s with h | ⟨u, _, he⟩
  · exact .inr ⟨exec_of_stops h, h⟩
  · exact .inl ⟨u, he⟩

/-- Settles O5: each row, and registering, keeps the invariant of the fault banks and SAFE. -/
theorem faultBanksHoldEveryStep : Obligations.FaultBanksHoldEveryStep :=
  fun _ _ hb h => (step_keeps h).2.2 hb

/-- Settles O6, on the reset values. -/
theorem invariantsHoldAtReset : Obligations.InvariantsHoldAtReset := by
  unfold Obligations.InvariantsHoldAtReset
  refine ⟨.fresh .., ?_, by simp [FreshIds, State.reset, Dev.reset, Fab.reset]⟩
  constructor <;> decide

/-- Settles O7: each row, and registering, keeps the tables in rising order and the ids fresh. -/
theorem tablesStayCanonical : Obligations.TablesStayCanonical :=
  fun _ _ hc hi h => ⟨(step_keeps h).1 hc, (step_keeps h).2.1 hi⟩

/-- Settles O8: the fuse phase holds the words it has read, and no other row writes the fuse words. -/
theorem fusesHoldTheirWord : Obligations.FusesHoldTheirWord := by
  unfold Obligations.FusesHoldTheirWord
  constructor
  · rintro s hp hr hw hi w rfl
    obtain ⟨t, ht, hf⟩ := fuse_fusePhaseDone hp hr hw hi
    refine ⟨t, ht, ?_⟩
    exact ⟨by rw [Dev.lifecycle, hf], by rw [Dev.dbgDisabled, hf]; rfl⟩
  · intro c s t h1 h2 h3 h
    have hf := (exec_next h).fuse ⟨h1, h2, h3⟩
    simp only [Dev.lifecycle, Dev.dbgDisabled, hf]
    exact ⟨trivial, trivial⟩

end

/-! O57 and O60. What the rows leave unchanged: the aspects they touch, as parts of the block. -/

namespace Sys2Proof
namespace Machine

open Laws

-- each proof is small and there are many: elaborated one after the other they need one thread
set_option Elab.async false

/-! ### From aspects to parts -/

/-- The part that an aspect belongs to, for those of the parts. -/
def Aspect.part : Aspect → Option Part
  | .mgt => some .mgt | .tap => some .tap | .ports => some .fab | .sessions => some .fab | .accs => some .fab | .fabRest => some
    .fab
  | .stl => some .stl | .rmp => some .rmp | .lan => some .lan | .frs => some .frs | .can => some .can | .med => some .med
  | .key => some .key | .svc => some .svc | .per => some .per | .del => some .del | .queues => some .queues | .hdma => some
    .hdma
  | .qmg => some .qmg | .fuse => none | .adopt => none | .mgtRest => none | .retired => none | .host => none | .decided => none
    | .record => none | .peers => none | .parted => none

/-- Every aspect listed lies in a part listed, or in none. -/
def covers (as : List Aspect) (ps : List Part) : Bool := as.all fun a => a.part.all fun p => ps.contains p

/-- An aspect of a part not listed is not listed. -/
theorem not_mem_of_covers {as : List Aspect} {ps : List Part} (h : covers as ps = true) {a : Aspect} {p : Part} (ha : a.part =
    some p)
    (hp : p ∉ ps) : a ∉ as := by
  intro hm
  have := List.all_eq_true.mp h a hm
  simp_all

/-- A change of the block that keeps every aspect of a part leaves the part as it was. -/
theorem same_of_kept {s : State} {d : Dev} {p : Part} (h : ∀ a : Aspect, a.part = some p → Kept s.dev d a) : Same s
    { s with dev := d } p := by
  cases p
  case pending => rfl
  case banks => exact fun hw => ⟨hw, fun _ => ⟨rfl, rfl, rfl, rfl⟩⟩
  case safeRegs => exact ⟨rfl, rfl⟩
  case fab =>
    have h1 : d.fab.ports = s.dev.fab.ports := h .ports rfl
    have h2 : d.fab.sessions = s.dev.fab.sessions := h .sessions rfl
    have h3 : d.fab.accs = s.dev.fab.accs := h .accs rfl
    have h4 : { d.fab with ports := [], sessions := [], accs := [] } =
        { s.dev.fab with ports := [], sessions := [], accs := [] } :=
      h .fabRest rfl
    show d.fab = s.dev.fab
    generalize d.fab = x at *
    generalize s.dev.fab = y at *
    cases x
    cases y
    simp_all
  case mgt => exact h .mgt rfl
  case tap => exact h .tap rfl
  case stl => exact h .stl rfl
  case rmp => exact h .rmp rfl
  case lan => exact h .lan rfl
  case frs => exact h .frs rfl
  case can => exact h .can rfl
  case med => exact h .med rfl
  case key => exact h .key rfl
  case svc => exact h .svc rfl
  case per => exact h .per rfl
  case del => exact h .del rfl
  case queues => exact h .queues rfl
  case hdma => exact h .hdma rfl
  case qmg => exact h .qmg rfl

theorem OnlyChanges.trans {ps : List Part} {a b c : State} (h : OnlyChanges ps a b) (k : OnlyChanges ps b c) : OnlyChanges ps a
    c :=
  fun p hp => (h p hp).trans (k p hp)

theorem OnlyChanges.refl {ps : List Part} (s : State) : OnlyChanges ps s s :=
  fun _ _ => same_of_kept (d := s.dev) fun a _ => .refl _ a

theorem OnlyChanges.of_touches {as bs : List Aspect} {ps : List Part} {s : State} {d : Dev} (h : Touches as s.dev d bs)
    (hc : covers (as ++ bs) ps = true := by rfl) : OnlyChanges ps s { s with dev := d } :=
  fun _ hp => same_of_kept fun a ha => by
    have hn := not_mem_of_covers hc ha hp
    rw [List.mem_append, not_or] at hn
    exact h.kept a hn.1 hn.2

/-- With no adoption in progress the second list does not count. -/
theorem OnlyChanges.of_touches_quiet {as bs : List Aspect} {ps : List Part} {s : State} {d : Dev} (h : Touches as s.dev d bs)
    (hq : s.dev.per.adopt = none) (hn : as.contains .adopt = false := by rfl) (hc : covers as ps = true := by rfl) :
    OnlyChanges ps s { s with dev := d } :=
  fun _ hp => same_of_kept fun a ha => h.quiet hq (by simpa using hn) a (not_mem_of_covers hc ha hp)

theorem onlyChanges_undriven {ps : List Part} (s : State) : OnlyChanges ps s { s with dev.drive := [] } :=
  fun p _ => onlyChanges_drive s [] p List.not_mem_nil

namespace Effect

variable {as bs : List Aspect} {ps : List Part} {s t : State} {o : Host.Outcome State Fault Refusal}

theorem only (h : Effect as s o bs) (ho : o = .next t) (hc : covers (as ++ bs) ps = true) : OnlyChanges ps s t := by
  obtain ⟨e, he, rfl⟩ := h
  cases ho
  exact onlyChanges_settle ((onlyChanges_undriven s).trans (.of_touches (s := { s with dev.drive := [] }) he hc))

theorem only_quiet (h : Effect as s o bs) (hq : s.dev.per.adopt = none) (ho : o = .next t) (hn : as.contains .adopt = false)
    (hc : covers as ps = true) : OnlyChanges ps s t := by
  obtain ⟨e, he, rfl⟩ := h
  cases ho
  exact onlyChanges_settle ((onlyChanges_undriven s).trans (.of_touches_quiet (s := { s with dev.drive := [] }) he hq hn hc))

end Effect

/-- Each of the commands leaves the parts not listed as they were. -/
def AllOnly (ps : List Part) (s t : State) (cs : List Instr) : Prop := ∀ c ∈ cs, exec c s = .next t → OnlyChanges ps s t

namespace AllOnly

variable {as bs : List Aspect} {ps : List Part} {s t : State} {c : Instr} {cs : List Instr}

theorem nil : AllOnly ps s t [] := fun _ h => by cases h

theorem consOf (h : exec c s = .next t → OnlyChanges ps s t) (k : AllOnly ps s t cs) : AllOnly ps s t (c :: cs) :=
  List.forall_mem_cons.mpr ⟨h, k⟩

theorem cons (h : Effect as s (exec c s) bs) (k : AllOnly ps s t cs) (hc : covers (as ++ bs) ps = true := by rfl) :
    AllOnly ps s t (c :: cs) :=
  consOf (fun ho => h.only ho hc) k

theorem consQuiet (hq : s.dev.per.adopt = none) (h : Effect as s (exec c s) bs) (k : AllOnly ps s t cs)
    (hn : as.contains .adopt = false := by rfl) (hc : covers as ps = true := by rfl) : AllOnly ps s t (c :: cs) :=
  consOf (fun ho => h.only_quiet hq ho hn hc) k

end AllOnly

/-! ### Rows that reach SAFE, and rows that may stop -/

theorem onlyChanges_whole {ps : List Part} {s t : State} {f : State → State} (h : ∀ u, OnlyChanges ps u (f u)) (ho : s.whole f =
    .next t) :
    OnlyChanges ps s t := by
  cases ho
  exact onlyChanges_settle ((onlyChanges_undriven s).trans (h _))

theorem execZeroisationDone_only {s t : State} (ho : execZeroisationDone s = .next t) : OnlyChanges [.fab, .frs, .key, .lan,
    .tap] s t := by
  refine onlyChanges_whole (fun u => ?_) ho
  dsimp only
  split
  · exact .refl u
  · exact (OnlyChanges.of_touches (Dev.zeroise_touches u.dev)).trans fun p _ => by
      cases p <;> simp [Same]

/-- The release of SYS_RST_N may change every part but the queue of commands. -/
theorem execSysRstNRelease_only {s t : State} (ho : execSysRstNRelease s = .next t) :
    OnlyChanges [.banks, .can, .del, .fab, .frs, .hdma, .key, .lan, .med, .mgt, .per, .qmg, .queues, .rmp, .safeRegs, .stl,
      .svc,
      .tap] s t := by
  intro p hp
  cases p
  case pending => exact (exec_next (c := .sysRstNRelease) ho).pending
  all_goals simp at hp

theorem execExtest_only {sampled loaded : BitVec Config.chainBits} {s t : State} (ho : execExtest sampled loaded s = .next t) :
    OnlyChanges [.tap] s t := by
  by_cases h : s.dev.tapOn = true ∧ s.dev.mgt.sysRstN = true
  · rw [execExtest_stops h] at ho
    cases ho
  · exact (execExtest_effect (h := by simpa using h) ..).only ho rfl

theorem execClamp_only {s t : State} (ho : execClamp s = .next t) : OnlyChanges [.tap] s t := by
  by_cases h : s.dev.tapOn = true ∧ s.dev.mgt.sysRstN = true
  · rw [execClamp_stops h] at ho
    cases ho
  · exact (execClamp_effect (h := by simpa using h) ..).only ho rfl

/-! ### Key errors that were corrected -/

theorem Dev.keyError_corrected {key : Option (KeyRef × Bool)} (hk : ∀ r, key ≠ some (r, true)) (d : Dev) :
    Touches [] d (d.keyError key) := by
  rcases key with _ | ⟨r, u⟩
  · exact .refl d
  · cases u
    · exact Dev.raise_touches ..
    · exact absurd rfl (hk r)

theorem Dev.beatErrors_corrected {key : Option (KeyRef × Bool)} (hk : ∀ r, key ≠ some (r, true)) (d : Dev) (why : MedWhy)
    (ecc : BitVec 2) (zenith : Bool) : Touches [] d (d.beatErrors why ecc zenith key) := by
  unfold Dev.beatErrors
  split
  · exact .after (Dev.keyError_corrected hk _) (.mono (Dev.zenithRead_touches ..))
  · exact .mono (Dev.zenithRead_touches ..)
  · exact .mono (Dev.keyError_corrected hk _)
  · exact .after (Dev.keyError_corrected hk _) (.mono (Dev.zenithRead_touches ..))
  · exact .mono (Dev.zenithRead_touches ..)
  · exact .refl _

theorem execLadderVerifyDone_corrected (id : Nat) (err : Option CanErr) (key : Option (KeyRef × Bool)) (s : State) (hk : ∀ r,
    key ≠ some (r, true)) : Effect [.queues, .hdma, .can, .frs, .accs, .med, .key, .svc, .ports, .fabRest, .stl, .per, .del,
    .rmp, .sessions, .decided, .record] s (execLadderVerifyDone id err key s) [.adopt] := by
  unfold execLadderVerifyDone
  exact .serve fun _ => by
    split
    · exact .refl _
    · exact by
        dsimp only
        split
        · exact .after (Dev.pumpAdopt_touches ..) (.after (Dev.pumpMaint_touches ..) (.after (Dev.trimStaging_touches ..)
            (.after (Dev.keyError_corrected hk _) (.mono (Dev.canopyError_touches ..)))))
        · exact .after (Dev.pumpAdopt_touches ..) (.after (Dev.pumpMaint_touches ..) (.after (Dev.trimStaging_touches ..)
            (.after (Dev.ladderEnds_touches ..) (.after (Dev.countAnchor_touches ..) (.after (Dev.keyError_corrected hk _)
            (.mono (Dev.canopyError_touches ..)))))))

theorem execMediaReadBeat_corrected (ch : Fin 16) (tag : BitVec 10) (beat : Beat) (ecc : BitVec 2) (zenith : Bool) (key : Option
    (KeyRef × Bool)) (s : State) (hk : ∀ r, key ≠ some (r, true)) : Effect [.med, .accs, .svc, .ports, .fabRest, .stl, .can,
    .frs, .sessions, .per, .rmp, .del, .queues, .hdma, .key, .decided, .record] s (execMediaReadBeat ch tag beat ecc zenith key
    s) [.adopt] := by
  unfold execMediaReadBeat
  exact .act fun _ => .ite (.refl _) (by
    split
    · exact .ite (.refl _) (.mono (Dev.raise_touches ..))
    · exact .ite (.ite (.refl _) (.mono (Dev.raise_touches ..))) (.ite (.mono (Dev.mediaDone_touches ..)) (.after
        (Dev.pumpMedia_touches ..) (.after (Dev.readBeat_touches ..) (.after (Dev.beatErrors_corrected hk ..) (.mono
        (Dev.mediaDone_touches ..)))))))

end Machine
end Sys2Proof

section
open Sys2Proof Sys2Proof.Machine
set_option Elab.async false

/-- Settles O57: the aspects that each row touches lie in the parts named. -/
theorem requestPathFrames : Obligations.RequestPathFrames := by
  unfold Obligations.RequestPathFrames
  intro s t
  refine ⟨?_, ?_, ?_, ?_, ?_, ?_, ?_, ?_, ?_, ?_, ?_, fun hq => ⟨?_, ?_⟩⟩
  · exact fun _ _ _ _ _ _ _ _ _ _ _ => AllOnly.cons (execFabricRequest_effect ..) <| .cons (execResponseTransfer_effect ..) <|
      .cons (execParkingTimeout_effect ..) <| .cons (execParkedRelease_effect ..) <| .nil
  · exact fun _ _ _ _ _ _ _ => AllOnly.cons (execWritePayload_effect ..) <| .cons (execWlpcOpen_effect ..) <|
      .cons (execWlpcAad_effect ..) <| .cons (execWlpcClose_effect ..) <| .cons (execWlpcReservedType_effect ..) <|
      .cons (execWindowResult_effect ..) <| .cons (execWriteWindowTimeout_effect ..) <| .cons (execRlpcOpen_effect ..) <|
      .cons (execRlpcAad_effect ..) <| .cons (execRlpcFormatError_effect ..) <| .cons (execRtag_effect ..) <|
      .cons (execReadWindowWaitTimeout_effect ..) <| .nil
  · exact fun _ _ => AllOnly.cons (execAccessGrant_effect ..) <| .nil
  · exact fun _ _ _ _ _ _ _ _ => AllOnly.cons (execLadderVerifyDone_effect ..) <| .cons (execMediaReadBeat_effect ..) <| .nil
  · exact fun _ _ _ _ _ => AllOnly.cons (execLanePassDone_effect ..) <| .nil
  · exact fun _ _ _ _ => AllOnly.cons (execMediaWriteCompletion_effect ..) <| .nil
  · exact fun _ => AllOnly.cons (execCreditReturn_effect ..) <| .nil
  · exact fun _ => AllOnly.cons (execMcnFail_effect ..) <| .nil
  · exact fun _ => AllOnly.cons (execTransientBucketLeak_effect ..) <| .nil
  · exact AllOnly.cons (execAgeingTick_effect ..) <| .nil
  · exact fun _ _ _ _ _ _ _ _ hk => AllOnly.cons (execLadderVerifyDone_corrected (hk := hk) ..) <|
      .cons (execMediaReadBeat_corrected (hk := hk) ..) <| .nil
  · exact fun _ _ _ _ => AllOnly.consQuiet hq (execMediaWriteCompletion_effect ..) <| .nil
  · exact fun _ => AllOnly.consQuiet hq (execMcnFail_effect ..) <| .nil

/-- Settles O60: the aspects that each row touches lie in the parts named. -/
theorem powerAndPoolFrames : Obligations.PowerAndPoolFrames := by
  unfold Obligations.PowerAndPoolFrames
  intro s t
  refine ⟨?_, ?_, ?_, ?_, ?_, ?_, ?_, ?_, ?_, ?_, ?_, ?_, ?_, ?_, ?_, ?_, ?_, ?_, ?_, ?_, ?_, fun hq => ⟨?_, ?_, ?_, ?_, ?_⟩⟩
  · exact AllOnly.cons (execPfWarn_effect ..) <| .cons (execPfWarnClear_effect ..) <| .nil
  · exact AllOnly.consOf execSysRstNRelease_only <| .nil
  · exact fun _ => AllOnly.cons (execFpnRstN_effect ..) <| .nil
  · exact fun _ => AllOnly.cons (execMcnRstN_effect ..) <| .nil
  · exact AllOnly.cons (execHdmaRstN_effect ..) <| .nil
  · exact AllOnly.cons (execHdmaResetRelease_effect ..) <| .nil
  · exact fun _ => AllOnly.cons (execPelnRstN_effect ..) <| .cons (execPelnResetRelease_effect ..) <| .nil
  · exact fun _ _ => AllOnly.cons (execClockMeasurement_effect ..) <| .nil
  · exact fun _ _ _ => AllOnly.cons (execFuseAck_effect ..) <| .cons (execFuseLoadFailure_effect ..) <|
      .cons (execMcnResetRelease_effect ..) <| .nil
  · exact AllOnly.cons (execFusePhaseDone_effect ..) <| .nil
  · exact AllOnly.cons (execSramInitDone_effect ..) <| .nil
  · exact fun _ _ => AllOnly.cons (execSelftestDone_effect ..) <| .nil
  · exact AllOnly.cons (execReady_effect ..) <| .nil
  · exact fun _ _ => AllOnly.cons (execSquallEntry_effect ..) <| .nil
  · exact AllOnly.consOf execZeroisationDone_only <| .nil
  · exact fun _ _ => AllOnly.cons (execLinkUpChange_effect ..) <| .cons (execHelloTimer_effect ..) <|
      .cons (execHeartbeatTimer_effect ..) <| .cons (execRetransmitTimer_effect ..) <| .cons (execLinkTimeout_effect ..) <|
      .nil
  · exact fun _ _ _ _ => AllOnly.cons (execFrameReceived_effect ..) <| .cons (execHello_effect ..) <| .cons (execHb_effect ..)
      <|
      .cons (execMember_effect ..) <| .cons (execSafe_effect ..) <| .cons (execAck_effect ..) <|
      .cons (execMemberTimeout_effect ..) <| .cons (execPrepare_effect ..) <| .cons (execHeld_effect ..) <|
      .cons (execCutFrame_effect ..) <| .cons (execDone_effect ..) <| .cons (execAbort_effect ..) <|
      .cons (execCkreq_effect ..) <| .cons (execTxnTimeout_effect ..) <| .cons (execReport_effect ..) <|
      .cons (execRetire_effect ..) <| .cons (execRecon_effect ..) <| .cons (execReconDone_effect ..) <| .nil
  · exact fun _ => AllOnly.cons (execTrstN_effect ..) <| .nil
  · exact fun _ _ _ _ _ _ _ _ => AllOnly.consOf execExtest_only <| .cons (execIdcode_effect ..) <|
      .cons (execSamplePreload_effect ..) <| .consOf execClamp_only <| .cons (execNetwork_effect ..) <|
      .cons (execBypass_effect ..) <| .cons (execTapRegRead_effect ..) <| .nil
  · exact fun _ => AllOnly.cons (execTapKat_effect ..) <| .nil
  · exact fun _ => AllOnly.cons (execFpnResetRelease_effect ..) <| .nil
  · exact AllOnly.consQuiet hq (execPfWarn_effect ..) <| .nil
  · exact AllOnly.consQuiet hq (execPfWarnClear_effect ..) <| .nil
  · exact fun _ => AllOnly.consQuiet hq (execMcnRstN_effect ..) <| .nil
  · exact AllOnly.consQuiet hq (execHdmaRstN_effect ..) <| .nil
  · exact fun _ _ _ _ => AllOnly.consQuiet hq (execFrameReceived_effect ..) <| .consQuiet hq (execHello_effect ..) <|
      .consQuiet hq (execHb_effect ..) <| .consQuiet hq (execMember_effect ..) <| .consQuiet hq (execSafe_effect ..) <|
      .consQuiet hq (execAck_effect ..) <| .consQuiet hq (execMemberTimeout_effect ..) <|
      .consQuiet hq (execPrepare_effect ..) <| .consQuiet hq (execHeld_effect ..) <| .consQuiet hq (execCutFrame_effect ..) <|
      .consQuiet hq (execDone_effect ..) <| .consQuiet hq (execAbort_effect ..) <| .consQuiet hq (execCkreq_effect ..) <|
      .consQuiet hq (execTxnTimeout_effect ..) <| .consQuiet hq (execReport_effect ..) <|
      .consQuiet hq (execRetire_effect ..) <| .consQuiet hq (execRecon_effect ..) <|
      .consQuiet hq (execReconDone_effect ..) <| .nil

end

/-! O58 and O59 fail. A reseed that falls due with no entropy source OK turns the DRBG to ERROR, and a CAN_LFSR_RESEED that
waited for that reseed is then drawn without it: it loads the LFSRs of CAN (spec/11 R308, spec/09 R239). A write that lowers
KEY_DRBG_LIMIT can make the reseed due at once. So the REG_WRITE and the SET_FEATURE of that register change CAN as well as
KEY. -/

namespace Sys2Proof
namespace Machine

open Laws

-- each proof is small and there are many: elaborated one after the other they need one thread
set_option Elab.async false

/-- A table that is written a value that it lists is not empty. -/
theorem put_ne_nil {α : Type} [Inhabited α] [DecidableEq α] {t : Tab α} {i : Nat} {v : α} (hv : v ≠ default) : t.put i v ≠
    [] := by
  intro h
  have hg := Tab.get_put_listed (t := t) i hv
  rw [h] at hg
  exact hv hg.symm

theorem seedWord_ne_zero (b : Bytes) (i : Nat) : seedWord b i ≠ 0 := by
  unfold seedWord
  dsimp only
  split
  · decide
  · assumption

/-- No LFSR is loaded with 0. -/
theorem Dev.lfsr_loadLfsrs (d : Dev) (b : Bytes) : (d.loadLfsrs b).can.lfsr ≠ [] := by
  unfold Dev.loadLfsrs forAll
  rw [List.range_succ, List.foldl_append]
  simp only [List.foldl_cons, List.foldl_nil]
  exact put_ne_nil (seedWord_ne_zero b 31)

/-- A reseed of the LFSRs that waits is drawn when the reseed of the DRBG falls due with no source OK. -/
theorem Dev.lfsr_noteDue {d : Dev} (hr : d.key.drbg.st = .ready) (hd : d.reseedDue = true) (hs : d.sourceOk = false)
    (hw : d.key.lfsrWait = true) : d.noteDue.can.lfsr ≠ [] := by
  unfold Dev.noteDue Dev.drbgFails
  simp only [hr, hd, hs, hw, beq_self_eq_true, Bool.not_false, Bool.and_self, if_true, Bool.not_true, Bool.false_eq_true,
    if_false]
  exact Dev.lfsr_loadLfsrs _ _

/-- A SET_FEATURE of KEY_DRBG_LIMIT to 10. -/
def limitEntry : Exec := { (default : Exec) with
  entry := BitVec.ofNat 512 (cSetFeature + 9 * 2 ^ 64 + 10 * 2 ^ 96), st := .ready }

/-- The engine in service with the DRBG READY, 1,024 requests served, no source OK, a reseed of the LFSRs that waits, and
`limitEntry` at the head of queue 0. -/
def reseedWaits : State :=
  { State.reset with dev := { Dev.reset with
      mgt.ready := true, mgt.domReset := 0, mgt.fuse := [0, 0, 0, 0, 0, 0, 0, 0, 2]
      key.drbg := ⟨.ready, 0, 0, 1024, true⟩, key.lfsrWait := true
      qmg.queues := [(0, { (default : Queue) with st := .active, exec := [limitEntry] })] } }

/-- The write makes the reseed due. -/
theorem lfsr_featureWrite {d : Dev} (hk : d.key = reseedWaits.dev.key) :
    (d.featureWrite 0x100004 10).can.lfsr ≠ [] := by
  show (Dev.noteDue { d with key.reseedLog2 := clamp 10 20 (bits 10 4 0) }).can.lfsr ≠ []
  refine Dev.lfsr_noteDue ?_ ?_ ?_ ?_
  · rw [hk]; rfl
  · unfold Dev.reseedDue; rw [hk]; rfl
  · unfold Dev.sourceOk; rw [hk]; rfl
  · rw [hk]; rfl

/-- KEY_DRBG_LIMIT written through REG changes the LFSRs. -/
theorem regWrite_changes_can : ∃ t, exec (.regWrite (BitVec.ofNat 22 (0x100004 / 4)) 10) reseedWaits = .next t ∧
    t.dev.can.lfsr ≠ [] := by
  have h : exec (.regWrite (BitVec.ofNat 22 (0x100004 / 4)) 10) reseedWaits =
      reseedWaits.regPort 0x100004 fun t => t.plainWrite 0x100004 10 := rfl
  refine ⟨_, h.trans (regPort_acts (by decide) (by decide) rfl), ?_⟩
  rw [settle_can]
  exact lfsr_featureWrite (d := { reseedWaits.dev with drive := [] }) rfl

/-- A command row whose entry is in hand and in order: what it answers. -/
theorem serve_command {q : BitVec 14} {pos : BitVec 16} {op : Nat} {more : Dev → Exec → List (Nat × Bool)} {x : Exec}
    {s : State}
    {act : Exec → Dev → Dev} (h : Runs q pos op more x s) (hm : more { s.dev with drive := [] } x = more s.dev x := by rfl) :
    (s.serve fun d => d.command q.toNat pos op more act) = .next (settle
      { s with dev := act x { s.dev with drive := [] } }) := by
  rw [serve_acts h.1.1, State.act, command_runs act h hm]

/-- SET_FEATURE of a feature that exists. -/
theorem exec_setFeature_runs {q : BitVec 14} {pos : BitVec 16} {x : Exec} {s : State} {a : Nat} (h : Runs q pos cSetFeature
    noRules x s)
    (ha : featureReg (num x.entry 8 2) = some a) : ∃ e c, e = ({ s.dev with drive := [] } : Dev).featureWrite a (w32 (num
      x.entry 12 4)) ∧
      c = Cpl.ok (e.featureRead a) ∧ exec (.setFeature q pos) s = .next (settle { s with dev := e.finish q.toNat pos c }) := by
  refine ⟨_, _, rfl, rfl, ?_⟩
  rw [exec_setFeature, execSetFeature, serve_command h]
  simp only [ha]

theorem limitEntry_runs : Runs 0 0 cSetFeature noRules limitEntry reseedWaits :=
  ⟨⟨⟨rfl, rfl⟩, by decide +kernel, by decide +kernel, rfl⟩, by decide +kernel⟩

theorem limitEntry_operands : num limitEntry.entry 8 2 = 9 ∧ num limitEntry.entry 12 4 = 10 := by
  decide +kernel

/-- So does SET_FEATURE. -/
theorem setFeature_changes_can : ∃ t, exec (.setFeature 0 0) reseedWaits = .next t ∧ t.dev.can.lfsr ≠ [] := by
  obtain ⟨h8, h12⟩ := limitEntry_operands
  obtain ⟨e, c, he, -, hx⟩ := exec_setFeature_runs limitEntry_runs (a := 0x100004) (by rw [h8]; rfl)
  refine ⟨_, hx, ?_⟩
  have hf : (e.finish (0 : BitVec 14).toNat 0 c).can = e.can := (Dev.finish_touches e _ _ _).kept .can (by decide) (by decide)
  rw [settle_can]
  show (e.finish _ 0 c).can.lfsr ≠ []
  rw [hf, he, h12]
  exact lfsr_featureWrite rfl

end Machine
end Sys2Proof

section
open Sys2Proof Sys2Proof.Machine
set_option Elab.async false

/-- Refutes O58: in `reseedWaits` a REG_WRITE of KEY_DRBG_LIMIT loads the LFSRs, which are of CAN and not of KEY. -/
theorem not_hostAndRegisterFrames : ¬ Obligations.HostAndRegisterFrames := by
  unfold Obligations.HostAndRegisterFrames
  intro h
  obtain ⟨t, ht, hc⟩ := regWrite_changes_can
  obtain ⟨-, -, -, -, -, -, -, -, -, -, -, -, -, -, -, -, -, -, -, -, -, -, -, -, -, -, -, -, -, -, -, -, hreg, -⟩ := h
    reseedWaits t
  have hsame : Same reseedWaits t .can := hreg 10 (0x100004, .key) (by decide) ht .can (by decide)
  exact hc (congrArg Can.lfsr hsame)

/-- Refutes O59: in `reseedWaits` a SET_FEATURE of KEY_DRBG_LIMIT does the same. -/
theorem not_queueCommandFrames : ¬ Obligations.QueueCommandFrames := by
  unfold Obligations.QueueCommandFrames
  intro h
  obtain ⟨t, ht, hc⟩ := setFeature_changes_can
  obtain ⟨-, -, -, -, -, -, -, -, -, -, -, -, -, -, -, -, -, -, -, -, -, -, -, -, -, hset, -⟩ := h reseedWaits t
  have hsame : Same reseedWaits t .can := hset 0 0 limitEntry limitEntry_runs ht (9, .key) (by decide) limitEntry_operands.1
      .can (by decide)
  exact hc (congrArg Can.lfsr hsame)

end

namespace Sys2Proof
namespace Machine

open Laws

-- each proof is small and there are many: elaborated one after the other they need one thread
set_option Elab.async false

/-! ### The banks that a registration reaches -/

theorem settleBank_flt (s : State) (b : Nat) :
    (settleBank b s).flt.banks = s.flt.banks ∧ s.bankHeld b ∨
      (settleBank b s).flt.banks = s.flt.banks.put b (s.registered b).bank ∧ ¬s.bankHeld b := by
  by_cases h : s.bankHeld b
  · refine .inl ⟨?_, h⟩
    rw [settleBank_of_held h]
    (repeat' split) <;> simp only [enterSquall_flt]
  · refine .inr ⟨?_, h⟩
    obtain ⟨d, _, _, he⟩ := settleBank_served h
    rw [he]
    dsimp only
    split
    · rw [enterSquall_flt]
    · split <;> rfl

/-- A bank's registration leaves the other banks. -/
theorem settleBank_get_other {s : State} {b i : Nat} (h : i ≠ b) :
    (settleBank b s).flt.banks.get i = s.flt.banks.get i := by
  rcases settleBank_flt s b with ⟨he, -⟩ | ⟨he, -⟩ <;> rw [he]
  exact Tab.get_put_other _ h

theorem settleBank_get_self {s : State} {b : Nat} (hw : s.flt.banks.wf = true) (h : ¬s.bankHeld b) :
    (settleBank b s).flt.banks.get b = (s.registered b).bank := by
  rcases settleBank_flt s b with ⟨-, hh⟩ | ⟨he, -⟩
  · exact absurd hh h
  · rw [he, Tab.get_put_self _ _ hw]

/-- A bank's registration takes its own occurrences, and may report a drill to the FLT bank. -/
theorem settleBank_occs_other {s : State} {b i : Nat} (h : i ≠ b) (hi : i ≠ bFlt) : (settleBank b s).dev.occs i = s.dev.occs
    i := by
  suffices hf : (settleBank b s).dev.raised.filter (fun r => r.bank = i) = s.dev.raised.filter fun r => r.bank = i by
    unfold Dev.occs
    rw [hf]
  by_cases hb : s.bankHeld b
  · rw [settleBank_of_held hb]
    (repeat' split) <;> simp only [enterSquall_raised]
  · obtain ⟨d, _, hr, he⟩ := settleBank_served hb
    have hd : d.raised.filter (fun r => r.bank = i) = s.dev.raised.filter fun r => r.bank = i := by
      rw [hr, List.filter_filter]
      refine List.filter_congr fun r _ => ?_
      by_cases hri : r.bank = i
      · simp [hri, h]
      · simp [hri]
    rw [he]
    dsimp only
    split
    · rw [enterSquall_raised]
      exact hd
    · split
      · exact hd
      · have : ¬bFlt = i := fun hx => hi hx.symm
        simp [Dev.raise, List.filter_append, hd, this]

/-- The conditions that hold are the same in a block that registering reaches. -/
theorem Registers.holding {d e : Dev} (h : Registers d e) (b : Nat) : e.holding b = d.holding b := by
  have hdel := h.del
  have hin : e.del.inPool = d.del.inPool := (congrArg Del.inPool hdel :)
  have huse : e.del.linksUse = d.del.linksUse := (congrArg Del.linksUse hdel :)
  have hlinks : e.del.links = d.del.links := (congrArg Del.links hdel :)
  have hgroup : e.del.group = d.del.group := (congrArg Del.group hdel :)
  have hgst : e.del.gstate = d.del.gstate := (congrArg Del.gstate hdel :)
  have hlost : e.clockLostAt = d.clockLostAt := by
    funext k
    rw [Dev.clockLostAt, Dev.clockLostAt, h.mgt]
  unfold Dev.holding
  simp only [Dev.link, Dev.linkUsable, Dev.up, hlost, h.lan, h.can, h.med, h.key, h.mgt, hin, huse, hlinks, hgroup, hgst]

theorem Settled.drillOn {s t : State} (h : Settled s t) : t.drillOn = s.drillOn := by
  simp only [State.drillOn, Dev.lifecycle, h.drillEn, h.dev.mgt]

theorem Settled.stamp {s t : State} (h : Settled s t) : t.dev.stamp = s.dev.stamp := by
  simp only [Dev.stamp, h.dev.mgt]

theorem Settled.bankHeld {s t : State} (h : Settled s t) (b : Nat) : t.bankHeld b ↔ s.bankHeld b := by
  simp only [State.bankHeld, h.dev.mgt]

/-- What a bank makes of its occurrences does not hang on the banks that register before it. -/
theorem settleBank_registered_other {s : State} {b i : Nat} (h : i ≠ b) (hi : i ≠ bFlt) :
    (settleBank b s).registered i = s.registered i := by
  have hs := settleBank_settled b s
  simp only [State.registered, settleBank_get_other h, settleBank_occs_other h hi, hs.dev.holding, hs.drillOn, hs.stamp]

/-! ### All banks -/

theorem settled_forAll (bs : List Nat) (s : State) : Settled s (forAll bs settleBank s) := by
  unfold forAll
  induction bs generalizing s with
  | nil => exact .refl s
  | cons b r ih => exact (settleBank_settled b s).trans (ih _)

theorem forAll_get_other {bs : List Nat} {i : Nat} (h : i ∉ bs) (s : State) :
    (forAll bs settleBank s).flt.banks.get i = s.flt.banks.get i := by
  unfold forAll
  induction bs generalizing s with
  | nil => rfl
  | cons b r ih =>
    obtain ⟨hb, hr⟩ := not_or.mp (List.mem_cons.not.mp h)
    exact (ih hr _).trans (settleBank_get_other hb)

theorem forAll_registered_other {bs : List Nat} {i : Nat} (h : i ∉ bs) (hi : i ≠ bFlt) (s : State) :
    (forAll bs settleBank s).registered i = s.registered i := by
  unfold forAll
  induction bs generalizing s with
  | nil => rfl
  | cons b r ih =>
    obtain ⟨hb, hr⟩ := not_or.mp (List.mem_cons.not.mp h)
    exact (ih hr _).trans (settleBank_registered_other hb hi)

theorem forAll_append {α σ : Type} (xs ys : List α) (f : α → σ → σ) (s : σ) : forAll (xs ++ ys) f s = forAll ys f (forAll xs f
    s) :=
  List.foldl_append

/-- The banks in the order in which they register, before FLT. -/
def coreBanks : List Nat := [0, 1, 2, 3, 4, 5, 6, 7, 8, 9, 10, 12, 13]

theorem settle_eq (s : State) : settle s = forAll (coreBanks ++ [11, 11]) settleBank s := rfl

/-- The bank's turn: those before it leave alone what it registers, those after it leave it. -/
theorem coreBanks_split {b : Nat} (hb : b ∈ coreBanks) : ∃ l r, coreBanks ++ [11, 11] = l ++ b :: r ∧ b ∉ l ∧ b ∉ r ∧ b ≠
    bFlt := by
  obtain ⟨l, r, he⟩ := List.append_of_mem hb
  have hn : (l ++ b :: r).Nodup := he ▸ (by decide : coreBanks.Nodup)
  have hf : b ≠ 11 := fun h => absurd (h ▸ hb) (by decide)
  obtain ⟨-, hr, hd⟩ := List.nodup_append.mp hn
  refine ⟨l, r ++ [11, 11], by rw [he]; simp, fun h => hd b h b (by simp) rfl, ?_, hf⟩
  simp only [List.mem_append, List.mem_cons, List.not_mem_nil, or_false, or_self, not_or]
  exact ⟨(List.nodup_cons.mp hr).1, hf⟩

/-- A bank of CORE, after a step, is what it makes of what waits. -/
theorem settle_bank {s : State} {b : Nat} (hw : s.flt.banks.wf = true) (hb : b ∈ coreBanks)
    (hc : s.dev.mgt.domReset.getLsbD domCore = false) : (settle s).flt.banks.get b = (s.registered b).bank := by
  obtain ⟨l, r, he, hl, hr, hf⟩ := coreBanks_split hb
  have hs := settled_forAll l s
  rw [settle_eq, he, forAll_append]
  refine (forAll_get_other hr _).trans ?_
  rw [settleBank_get_self (hs.banks hw).1 ?_, forAll_registered_other hl hf]
  rw [hs.bankHeld]
  simp [State.bankHeld, hc]

/-- CORE out of reset is what its registers and banks need. -/
theorem Dev.core_of_up {d : Dev} (h : d.up domCore = true) : d.mgt.domReset.getLsbD domCore = false := by
  simp only [Dev.up, Bool.and_eq_true, Bool.not_eq_true'] at h
  exact h.1

/-! ### The registration of a bank -/

/-- An occurrence is among those of its cycle. -/
theorem mem_mergeOcc (o : Occ) (l : List Occ) : ∃ x ∈ mergeOcc o l, x.src = o.src ∧ (o.raw = true → x.raw = true) ∧
    (o.forced = true → x.forced = true) := by
  induction l with
  | nil => exact ⟨o, List.mem_singleton_self o, rfl, id, id⟩
  | cons y r ih =>
    unfold mergeOcc
    split
    · exact ⟨o, List.mem_cons_self, rfl, id, id⟩
    · split
      next hs => exact ⟨_, List.mem_cons_self, hs.symm, fun h => by simp [h], fun h => by simp [h]⟩
      · obtain ⟨x, hx, h⟩ := ih
        exact ⟨x, List.mem_cons_of_mem _ hx, h⟩

theorem mem_mergeOcc_of_mem (o : Occ) {l : List Occ} {y : Occ} (h : y ∈ l) : ∃ x ∈ mergeOcc o l, x.src = y.src ∧
    (y.raw = true → x.raw = true) ∧ (y.forced = true → x.forced = true) := by
  induction l with
  | nil => cases h
  | cons z r ih =>
    unfold mergeOcc
    split
    · exact ⟨y, List.mem_cons_of_mem _ h, rfl, id, id⟩
    · rcases List.mem_cons.mp h with rfl | h
      · split
        · exact ⟨_, List.mem_cons_self, rfl, fun h => by simp [h], fun h => by simp [h]⟩
        · exact ⟨y, List.mem_cons_self, rfl, id, id⟩
      · split
        · exact ⟨y, List.mem_cons_of_mem _ h, rfl, id, id⟩
        · obtain ⟨x, hx, hk⟩ := ih h
          exact ⟨x, List.mem_cons_of_mem _ hx, hk⟩

theorem mem_foldr_mergeOcc_of_mem {l : List Occ} {y : Occ} (h : y ∈ l) (os : List Occ) : ∃ x ∈ os.foldr mergeOcc l, x.src =
    y.src ∧
    (y.raw = true → x.raw = true) ∧ (y.forced = true → x.forced = true) := by
  induction os with
  | nil => exact ⟨y, h, rfl, id, id⟩
  | cons o r ih =>
    obtain ⟨x, hx, h1, h2, h3⟩ := ih
    obtain ⟨z, hz, k1, k2, k3⟩ := mem_mergeOcc_of_mem o hx
    exact ⟨z, hz, k1.trans h1, k2 ∘ h2, k3 ∘ h3⟩

theorem mem_foldr_mergeOcc {os : List Occ} {o : Occ} (h : o ∈ os) (l : List Occ) : ∃ x ∈ os.foldr mergeOcc l, x.src = o.src ∧
    (o.raw = true → x.raw = true) ∧ (o.forced = true → x.forced = true) := by
  induction os with
  | nil => cases h
  | cons y r ih =>
    rcases List.mem_cons.mp h with rfl | h
    · exact mem_mergeOcc ..
    · obtain ⟨x, hx, h1, h2, h3⟩ := ih h
      obtain ⟨z, hz, k1, k2, k3⟩ := mem_mergeOcc_of_mem y hx
      exact ⟨z, hz, k1.trans h1, k2 ∘ h2, k3 ∘ h3⟩

theorem subset_insSorted {x y : Nat} {l : List Nat} (h : y = x ∨ y ∈ l) : y ∈ insSorted x l := by
  induction l with
  | nil => simpa [insSorted] using h
  | cons z r ih =>
    unfold insSorted
    split
    · exact List.mem_cons.mpr h
    · split
      next hz => exact h.elim (fun h => by simp [h, hz]) id
      · rcases h with h | h
        · exact List.mem_cons_of_mem _ (ih (.inl h))
        · rcases List.mem_cons.mp h with rfl | h
          · exact List.mem_cons_self
          · exact List.mem_cons_of_mem _ (ih (.inr h))

theorem mem_foldr_insSorted {ks l : List Nat} {k : Nat} : k ∈ ks.foldr insSorted l ↔ k ∈ ks ∨ k ∈ l := by
  induction ks with
  | nil => simp
  | cons x r ih =>
    rw [List.foldr_cons]
    constructor
    · intro h
      rcases mem_insSorted h with rfl | h
      · simp
      · exact (ih.mp h).imp_left (List.mem_cons_of_mem _)
    · intro h
      refine subset_insSorted ?_
      rcases h with h | h
      · exact (List.mem_cons.mp h).imp_right fun h => ih.mpr (.inl h)
      · exact .inr (ih.mpr (.inr h))

/-- A condition that holds is in FLT_LIVE after the registration. -/
theorem Bank.mem_live_register {x : Bank} {b now : Nat} {occs : List Occ} {holds : List Nat} {drill : Bool} {k : Nat} (h : k ∈
    holds) :
    k ∈ (x.register b now occs holds drill).bank.live :=
  mem_foldr_insSorted.mpr (.inl (List.mem_append_right _ h))

/-- No condition of the bank rises. -/
theorem no_rises {x : Bank} {holds : List Nat} (h : ∀ k ∈ holds, k ∈ x.live) : (holds.filter fun k => k ∉ x.live) = [] :=
  List.filter_eq_nil_iff.mpr fun k hk => by simpa using h k hk

/-- An unmasked fault that is not live already is latched where no record is held. -/
theorem Bank.first_register_isSome {x : Bank} {b now : Nat} {occs : List Occ} {holds : List Nat} {drill : Bool} {o : Occ}
    (ho : o ∈ occs) (hc : x.cls b o.src ≠ 0) (hm : x.masked b o.src = false) (hl : o.src ∉ x.live) :
    (x.register b now occs holds drill).bank.first.isSome = true := by
  obtain ⟨y, hy, hs, -⟩ := mem_foldr_mergeOcc ho []
  unfold Bank.register
  extract_lets isCond rises os os' faults real forcedFt notes risen live latch first ovf
  obtain ⟨z, hz, hzs, -⟩ := mem_foldr_mergeOcc_of_mem hy (rises.map fun k => (⟨k, true, false⟩ : Occ))
  have hsrc : z.src = o.src := hzs.trans hs
  have hz' : z ∈ os' := by
    refine List.mem_filter.mpr ⟨hz, ?_⟩
    by_cases hh : o.src ∈ holds
    · have : o.src ∈ rises := List.mem_filter.mpr ⟨hh, by simpa using hl⟩
      simp [hsrc, this]
    · simp [isCond, hsrc, hh, hl]
  have hf : z ∈ faults := List.mem_filter.mpr ⟨hz', by simp [hsrc, hc, hm]⟩
  show first.isSome = true
  unfold first latch
  obtain ⟨a, l, hal⟩ := List.exists_cons_of_ne_nil (List.ne_nil_of_mem hf)
  cases hx : x.first <;> simp [hal]

/-- A real occurrence of an FT source that is not live already is detected. -/
theorem Bank.real_register_isSome {x : Bank} {b now : Nat} {occs : List Occ} {holds : List Nat} {drill : Bool} {o : Occ}
    (ho : o ∈ occs) (hc : x.cls b o.src = 3) (hr : o.raw = true) (hl : o.src ∉ x.live) :
    (x.register b now occs holds drill).real.isSome = true := by
  obtain ⟨y, hy, hs, hyr, -⟩ := mem_foldr_mergeOcc ho []
  unfold Bank.register
  extract_lets isCond rises os os' faults real forcedFt notes risen live latch first ovf
  obtain ⟨z, hz, hzs, hzr, -⟩ := mem_foldr_mergeOcc_of_mem hy (rises.map fun k => (⟨k, true, false⟩ : Occ))
  have hsrc : z.src = o.src := hzs.trans hs
  have hz' : z ∈ os' := by
    refine List.mem_filter.mpr ⟨hz, ?_⟩
    by_cases hh : o.src ∈ holds
    · have : o.src ∈ rises := List.mem_filter.mpr ⟨hh, by simpa using hl⟩
      simp [hsrc, this]
    · simp [isCond, hsrc, hh, hl]
  have hf : (os'.find? fun o => x.cls b o.src == 3 && o.raw).isSome = true :=
    List.find?_isSome.mpr ⟨z, hz', by simp [hsrc, hc, hzr (hyr hr)]⟩
  have hreal : real.isSome = true := by simpa [real] using hf
  obtain ⟨k, hk⟩ := Option.isSome_iff_exists.mp hreal
  cases drill <;> simp [hk]

/-- One occurrence and no condition that rises. -/
theorem Bank.register_one {x : Bank} {b now : Nat} {o : Occ} {holds : List Nat} {drill : Bool} (hh : ∀ k ∈ holds, k ∈ x.live)
    (ho : o.src ∉ x.live) :
    (x.register b now [o] holds drill).bank.first = (if x.first.isNone && (x.cls b o.src != 0 && !x.masked b o.src) then
      some ⟨o.raw, o.forced, x.cls b o.src, o.src, BitVec.ofNat 48 now⟩ else x.first) ∧
    (x.register b now [o] holds drill).real =
      (if x.cls b o.src == 3 then if o.raw then some o.src else if drill then none else some o.src else none) ∧
    (x.register b now [o] holds drill).drills = (if x.cls b o.src == 3 && !o.raw && drill then [o.src] else []) := by
  have hn : o.src ∉ holds := fun h => ho (hh _ h)
  have hos : (([o].foldr mergeOcc []).filter fun y => !((decide (y.src ∈ holds) || decide (y.src ∈ x.live ∧ baseClass b y.src ≠
      0)) &&
      !decide (y.src ∈ ([] : List Nat)) && !y.forced)) = [o] := by
    simp [mergeOcc, hn, ho]
  unfold Bank.register
  simp only [no_rises hh, List.map_nil, List.foldr_nil, hos]
  refine ⟨?_, ?_, ?_⟩
  · by_cases hf : (x.cls b o.src != 0 && !x.masked b o.src) = true
    · simp [hf]
    · simp [hf]
  · by_cases h3 : (x.cls b o.src == 3) = true <;> by_cases hr : o.raw = true <;> cases drill <;> simp [h3, hr]
  · by_cases h3 : (x.cls b o.src == 3) = true <;> by_cases hr : o.raw = true <;> cases drill <;> simp [h3, hr]

/-- Nothing to register. -/
theorem Bank.register_nothing {x : Bank} {b now : Nat} {holds : List Nat} {drill : Bool} (hh : ∀ k ∈ holds, k ∈ x.live) :
    (x.register b now [] holds drill).bank.first = x.first ∧ (x.register b now [] holds drill).bank.ovf = x.ovf ∧
      (x.register b now [] holds drill).real = none ∧ (x.register b now [] holds drill).drills = [] := by
  unfold Bank.register
  simp only [no_rises hh, List.map_nil, List.foldr_nil, List.filter_nil]
  cases drill <;> simp

end Machine
end Sys2Proof

/-! O9. A transfer without a credit: the side of the port stops, and FAB_CREDIT_OVF is raised (spec/02 R41, spec/15 R413). -/

namespace Sys2Proof
namespace Machine

open Laws

-- each proof is small and there are many: elaborated one after the other they need one thread
set_option Elab.async false

/-- FAB_CREDIT_OVF of a port is a UC source. -/
theorem baseClass_creditOvf (p : Fin 8) : baseClass bFab (512 + p) = 2 := by
  revert p
  decide

/-- FAB has no conditions: the overflow alone is registered, and it is the record. -/
theorem overflows_of_raise {p : Fin 8} {s : State} {d : Dev} (hc : d.mgt.domReset.getLsbD domCore = false) (hr : d.raised =
    s.dev.raised) :
    Overflows p s (settle { s with dev := d.raise bFab (512 + p) }) := by
  intro hw hnil hm hl hf
  rw [settle_bank (s := { s with dev := d.raise bFab (512 + p) }) hw (by decide) hc]
  have hoccs : (d.raise bFab (512 + p)).occs bFab = [⟨512 + p, true, false⟩] := by
    simp [Dev.occs, Dev.raise, hr, hnil]
  have hcls : (s.flt.banks.get bFab).cls bFab (512 + p) ≠ 0 := by
    unfold Bank.cls
    split
    · decide
    · rw [baseClass_creditOvf]
      decide
  have hmask : (s.flt.banks.get bFab).masked bFab (512 + p) = false := by
    simp [Bank.masked, hm]
  obtain ⟨hfirst, -⟩ := Bank.register_one (x := s.flt.banks.get bFab) (b := bFab) (now := (d.raise bFab (512 + p)).stamp)
    (drill := State.drillOn { s with dev := d.raise bFab (512 + p) }) (o := ⟨512 + p, true, false⟩) (holds := []) (by simp) hl
  rw [State.registered]
  simp only [hoccs]
  exact (congrArg _ hfirst).trans (by simp [hf, hcls, hmask])

/-- What a row answers, from what its effect makes of the block. -/
theorem act_eq {s : State} {f : Dev → Dev} {d : Dev} (h : f { s.dev with drive := [] } = d) :
    s.act f = .next (settle { s with dev := d }) := by
  rw [State.act, h]

/-- The branches of a row of a port: the port's domains are up, and the credit is used up. -/
theorem stopped {d x y e : Dev} {k : Nat} {c : Prop} [Decidable c] (h1 : d.up k = true) (h2 : d.up domCore = true) (h : c) :
    (if !d.up k || !d.up domCore then e else if c then x else y) = x :=
  (if_neg (by simp [h1, h2])).trans (if_pos h)

/-- A side of a port that stops: what the row leaves. -/
theorem stops_side {p : Fin 8} {s : State} {o : Host.Outcome State Fault Refusal} (x : Port) (hc : s.dev.up domCore = true)
    (ho : o = .next (settle { s with dev := ({ s.dev with drive := [] }.setPort p x).raise bFab (512 + p) })) :
    ∃ t, o = .next t ∧ t.dev.fab = (s.dev.setPort p x).fab ∧ OnlyChanges [.fab] s t ∧ Overflows p s t := by
  refine ⟨_, ho, ?_, ?_, ?_⟩
  · rw [settle_fab]
    rfl
  · have h : Touches [.ports] ({ s.dev with drive := [] } : Dev) _ := .after (Dev.raise_touches _ bFab (512 + p))
      (Dev.setPort_touches _ p x)
    exact onlyChanges_settle ((onlyChanges_undriven s).trans (.of_touches h))
  · exact overflows_of_raise (Dev.core_of_up hc) rfl

theorem wlpc_stops {p : Fin 8} {s : State} {f : Dev → Dev} {o : Host.Outcome State Fault Refusal} (ho : o = s.wlpc p f)
    (hf : s.dev.up (domFrx p) = true) (hc : s.dev.up domCore = true) (h0 : (s.dev.port p).wlpc = 0) :
    ∃ t, o = .next t ∧ t.dev.fab = (s.dev.setPort p { s.dev.port p with rxStop := true }).fab ∧ OnlyChanges [.fab] s t ∧
      Overflows p s t :=
  stops_side { s.dev.port p with rxStop := true } hc (ho.trans (act_eq (stopped hf hc h0)))

theorem rlpc_stops {p : Fin 8} {s : State} {f : Dev → Dev} {o : Host.Outcome State Fault Refusal} (ho : o = s.rlpc p f)
    (hf : s.dev.up (domFtx p) = true) (hc : s.dev.up domCore = true) (h0 : (s.dev.port p).rlpc = 0) :
    ∃ t, o = .next t ∧ t.dev.fab = (s.dev.setPort p { s.dev.port p with txStop := true }).fab ∧ OnlyChanges [.fab] s t ∧
      Overflows p s t :=
  stops_side { s.dev.port p with txStop := true } hc (ho.trans (act_eq (stopped hf hc h0)))

end Machine
end Sys2Proof

section
open Sys2Proof Sys2Proof.Machine Sys2Proof.Laws
set_option Elab.async false

/-- Settles O9: each row finds no credit of its channel, stops the side and raises the overflow. -/
theorem transferWithoutCreditStopsTheSide : Obligations.TransferWithoutCreditStopsTheSide := by
  unfold Obligations.TransferWithoutCreditStopsTheSide
  constructor
  · rintro p c s - ⟨hf, hc⟩ h
    rcases h with ⟨⟨op, tag, sid, kid, line, sess, chk, rfl⟩, h0⟩ | ⟨⟨data, mask, rfl⟩, h0⟩ | ⟨⟨ty, e, hrow⟩, h0⟩
    · refine stops_side (o := execFabricRequest p op tag sid kid line sess chk s) { s.dev.port p with rxStop := true } hc ?_
      exact act_eq (stopped hf hc h0)
    · refine stops_side (o := execWritePayload p data mask s) { s.dev.port p with rxStop := true } hc ?_
      exact act_eq (stopped hf hc h0)
    · rcases hrow with rfl | rfl | rfl | rfl
      · exact wlpc_stops (o := execWlpcOpen p e s) rfl hf hc h0
      · exact wlpc_stops (o := execWlpcAad p e s) rfl hf hc h0
      · exact wlpc_stops (o := execWlpcClose p e s) rfl hf hc h0
      · exact wlpc_stops (o := execWlpcReservedType p ty e s) rfl hf hc h0
  · rintro p c s - ⟨hf, hc⟩ ⟨ty, e, hrow⟩ h0
    rcases hrow with rfl | rfl | rfl
    · exact rlpc_stops (o := execRlpcOpen p e s) rfl hf hc h0
    · exact rlpc_stops (o := execRlpcAad p e s) rfl hf hc h0
    · exact rlpc_stops (o := execRlpcFormatError p ty e s) rfl hf hc h0

end

/-! O10. A request: received, brought to admission, admitted, parked or refused (spec/04 R104, R105, spec/05 R136-R138). -/

namespace Sys2Proof
namespace Machine

open Laws

-- each proof is small and there are many: elaborated one after the other they need one thread
set_option Elab.async false

/-! ### Accesses, ports and slots under the shared operations -/

theorem Dev.acc_congr {d e : Dev} (h : e.fab.accs = d.fab.accs) (id : Nat) : e.acc id = d.acc id := by
  rw [Dev.acc, h, Dev.acc]

/-- A new access under the id still to be given is found there. -/
theorem Dev.acc_append {d : Dev} (h : FreshIds d) {a : Access} (ha : a.id = d.seq) :
    ({ d with fab.accs := d.fab.accs ++ [a] } : Dev).acc d.seq = some a := by
  have hn : d.fab.accs.find? (fun b => b.id == d.seq) = none := by
    rw [List.find?_eq_none]
    intro b hb
    have := h b hb
    simp
    omega
  show (d.fab.accs ++ [a]).find? _ = _
  rw [List.find?_append, hn]
  simp [ha]

theorem Dev.port_setPort {d : Dev} (h : Tab.rising d.fab.ports) (p : Nat) (x : Port) : (d.setPort p x).port p = x :=
  get_put_self_rising p x h

theorem Dev.port_setPort_other {d : Dev} {p q : Nat} (x : Port) (h : q ≠ p) : (d.setPort p x).port q = d.port q :=
  Tab.get_put_other x h

/-- A STL slot that is written is read back. -/
theorem Dev.get_putSlot (d : Dev) (s i : Nat) (e : SEntry) : ((d.putSlot s i (some e)).stlSet s).tab.get i = some e := by
  have hg := Tab.get_put_listed (t := (d.stlSet s).tab) (v := some e) i (by simp [default])
  unfold Dev.putSlot Dev.putStlSet
  by_cases hs : s = 0 <;> simpa [hs, Dev.stlSet] using hg

theorem Dev.activeSet_eq {d e : Dev} (h : e.rmp = d.rmp) : e.activeSet = d.activeSet := by
  rw [Dev.activeSet, Dev.activeSet, h]

/-- What credits do to a port: credits come and go, everything else of it stays. -/
structure SamePort (x y : Port) : Prop where
  reqs : y.reqs = x.reqs
  wdats : y.wdats = x.wdats

theorem Dev.port_giveCredits {d : Dev} (h : Tab.rising d.fab.ports) (p a b c k q : Nat) :
    SamePort (d.port q) ((d.giveCredits p a b c k).port q) := by
  have hput (x : Port) (e : Dev) (he : e = d.setPort p x) (hx : SamePort (d.port p) x) : SamePort (d.port q) (e.port q) := by
    subst he
    by_cases hq : q = p
    · subst hq
      rwa [Dev.port_setPort h]
    · rw [Dev.port_setPort_other _ hq]
      exact ⟨rfl, rfl⟩
  unfold Dev.giveCredits
  extract_lets x y rx tx u w l r z e
  split
  · exact hput y _ rfl ⟨rfl, rfl⟩
  · split
    · exact hput z _ rfl ⟨rfl, rfl⟩
    · exact hput z e rfl ⟨rfl, rfl⟩

theorem SamePort.trans {x y z : Port} (h : SamePort x y) (k : SamePort y z) : SamePort x z :=
  ⟨k.reqs.trans h.reqs, k.wdats.trans h.wdats⟩

theorem Dev.giveCredits_rising {d : Dev} (h : Tab.rising d.fab.ports) (p a b c k : Nat) :
    Tab.rising (d.giveCredits p a b c k).fab.ports := by
  obtain ⟨x, dr, he⟩ := giveCredits_only d p a b c k
  rw [he]
  exact put_rising _ _ h

theorem Dev.port_noteHold {d : Dev} (h : Tab.rising d.fab.ports) (q : Nat) :
    SamePort (d.port q) (d.noteHold.port q) ∧ Tab.rising d.noteHold.fab.ports := by
  have hloop (ps : List Nat) (e : Dev) (he : Tab.rising e.fab.ports) :
      SamePort (e.port q) ((forAll ps (fun p e => e.giveCredits p 0 0 0 0) e).port q) ∧
        Tab.rising (forAll ps (fun p e => e.giveCredits p 0 0 0 0) e).fab.ports := by
    unfold forAll
    induction ps generalizing e with
    | nil => exact ⟨⟨rfl, rfl⟩, he⟩
    | cons p r ih =>
      obtain ⟨h1, h2⟩ := ih (e.giveCredits p 0 0 0 0) (Dev.giveCredits_rising he ..)
      exact ⟨(Dev.port_giveCredits he ..).trans h1, h2⟩
  unfold Dev.noteHold
  dsimp only
  split
  · exact ⟨⟨rfl, rfl⟩, h⟩
  · split
    · exact hloop _ { d with fab.holding := false } h
    · exact ⟨⟨rfl, rfl⟩, h⟩

/-! ### What admission decides -/

theorem RmpSet.seen_nil (t : RmpSet) : t.seen [] = t := by
  simp [RmpSet.seen]

theorem Dev.zoneRead_nil (d : Dev) (c : Bool) : d.zoneRead c [] = d := by
  simp [Dev.zoneRead, Dev.zenithRead]

theorem Dev.keyCheck_congr {d e : Dev} (hk : e.key = d.key) (hr : e.rmp = d.rmp) (i : Nat) (k : BitVec 16) :
    e.keyCheck i k = d.keyCheck i k := by
  unfold Dev.keyCheck Dev.slotLoaded Dev.kslot Dev.rekey
  rw [hk, hr]

/-- A request that passes takes its slot, generation, KSLOT, region and mode; the AGE of its stream is 0. -/
theorem Dev.admission_pass {d : Dev} {id p i first : Nat} {a : Access} {e : SEntry} {r : RegionCfg} (ha : d.acc id = some a)
    (ho : a.origin = .port p) (h : Passes d p a.sid a.kid a.line e i r) : ∃ x,
    d.admission id [] first =
      let e := (d.putSlot d.activeSet x (some { e with age := 0 })).updAcc id fun b => { b with
        inFlight := true, gen := d.rmp.gen, kslot := e.kslot, region := i, mode := r.mode, stage := if b.isWrite then .unbound
          else b.stage }
      if a.isWrite then e.tryArrive id else e.arrive id := by
  obtain ⟨⟨x, hx⟩, hp, hr, hk, hkey, hz⟩ := h
  refine ⟨x, ?_⟩
  have hl : d.lookups a.sid a.kid a.line [] = (d.putSlot d.activeSet x (some { e with age := 0 }), some { e with age := 0 },
      some (i, r)) := by
    have hr' : ((d.putSlot d.activeSet x (some { e with age := 0 })).rmpSet d.activeSet).lookup a.line = some (i, r) := by
      unfold Dev.putSlot Dev.putStlSet
      split <;> exact hr
    have hact : (d.putSlot d.activeSet x (some { e with age := 0 })).activeSet = d.activeSet := by
      unfold Dev.putSlot Dev.putStlSet
      split <;> rfl
    simp only [Dev.lookups, Dev.slotErrors, forAll, List.foldl_nil, hx, Dev.regionLookup, Dev.regionErrors, RmpSet.seen_nil,
      hact, hr']
  generalize hd : d.putSlot d.activeSet x (some { e with age := 0 }) = d' at hl ⊢
  have hsame : d'.key = d.key ∧ d'.rmp = d.rmp ∧ d'.frs = d.frs := by
    rw [← hd]
    unfold Dev.putSlot Dev.putStlSet
    split <;> exact ⟨rfl, rfl, rfl⟩
  obtain ⟨h1, h2, h3⟩ := hsame
  have hkey' : d'.keyCheck i e.kslot = true := (Dev.keyCheck_congr h1 h2 i e.kslot).trans hkey
  have hjk : d'.judgeKeys p a.kid (some { e with age := 0 }) (some (i, r)) = .pass e.kslot i r.mode := by
    have hk1 : ¬a.kid.toNat < r.kidLo.toNat := by omega
    have hk2 : ¬r.kidHi.toNat < a.kid.toNat := by omega
    simp [Dev.judgeKeys, hp, hk1, hk2, hkey']
  have hj : d'.judge p a.kid a.line (some { e with age := 0 }) (some (i, r)) = .pass e.kslot i r.mode := by
    have hzone : ¬((r.mode == .full && (d'.zone (zoneOf a.line)).st != .online) = true) := by
      intro hh
      rw [Bool.and_eq_true, beq_iff_eq] at hh
      have : (d'.zone (zoneOf a.line)).st = .online := by
        rw [← hz hh.1, Dev.zone, h3, Dev.zone]
      simp [this] at hh
    unfold Dev.judge
    rw [hjk]
    simp only [Verdict.zoned]
    exact if_neg hzone
  unfold Dev.admission
  simp only [ha, ho, hl, Dev.zoneRead_nil, hj, h2]

/-- A request of a stream that is not found. -/
theorem Dev.admission_miss {d : Dev} {id p first : Nat} {a : Access} (ha : d.acc id = some a) (ho : a.origin = .port p)
    (h : d.findStream d.activeSet a.sid a.kid = none) :
    d.admission id [] first = d.park id p a.sid a.kid false default first := by
  have hl : d.lookups a.sid a.kid a.line [] = (d, none, (d.rmpSet d.activeSet).lookup a.line) := by
    simp only [Dev.lookups, Dev.slotErrors, forAll, List.foldl_nil, h, Dev.regionLookup, Dev.regionErrors, RmpSet.seen_nil]
  unfold Dev.admission
  simp only [ha, ho, hl, Dev.zoneRead_nil, Dev.judge, Dev.judgeKeys, Verdict.zoned, Bool.false_and, Bool.false_eq_true,
    if_false]

/-- A write that is admitted without a window waits for one. -/
theorem Dev.tryArrive_unbound {d : Dev} {id : Nat} {a : Access} (ha : d.acc id = some a) (hw : a.win = .none) : d.tryArrive id =
    d := by
  unfold Dev.tryArrive
  simp [ha, hw]

/-- A request that does not have to wait is brought to admission; its credit goes back. -/
theorem Dev.process_admits {d : Dev} {id p : Nat} {a : Access} (ha : d.acc id = some a) (ho : a.origin = .port p)
    (hpf : d.mgt.pfWarn = false) (hfull : d.full a.isWrite = false) (hrel : d.releasing a.sid a.kid = false) :
    d.process id = ((d.admission id a.chk d.mgt.tref).noteHold).giveCredits p 1 0 0 0 := by
  unfold Dev.process
  simp [ha, ho, hpf, hfull, hrel]

/-- What a change keeps that touches none of an aspect. -/
theorem Touches.keeps {as bs : List Aspect} {d e : Dev} (h : Touches as d e bs) (a : Aspect) (h1 : a ∉ as := by decide)
    (h2 : a ∉ bs := by decide) : Kept d e a :=
  h.kept a h1 h2

/-- The end of an admission leaves accesses and stream table as the checks left them. -/
theorem Dev.credited_touches (d : Dev) (p : Nat) : Touches [.fabRest, .ports] d (d.noteHold.giveCredits p 1 0 0 0) :=
  .after (Dev.giveCredits_touches _ p 1 0 0 0) (Dev.noteHold_touches d)

theorem Dev.port_credited {d : Dev} (h : Tab.rising d.fab.ports) (p q : Nat) :
    ((d.noteHold.giveCredits p 1 0 0 0).port q).reqs = (d.port q).reqs := by
  obtain ⟨hsame, hr⟩ := Dev.port_noteHold h q
  exact (hsame.trans (Dev.port_giveCredits hr ..)).reqs

/-! ### The filter of parked streams (spec/05 R143, R144) -/

/-- The filter has an entry of the stream that names the port. -/
def Dev.Learnt (d : Dev) (p : Nat) (sid kid : BitVec 16) : Prop :=
  ∃ f ∈ d.stl.filter, f.sid = sid ∧ f.kid = kid ∧ f.ports.getLsbD p = true

theorem Dev.Learnt.of_stl {d e : Dev} {p : Nat} {sid kid : BitVec 16} (h : e.stl = d.stl) (k : d.Learnt p sid kid) : e.Learnt p
    sid kid := by
  unfold Dev.Learnt
  rwa [h]

theorem getLsbD_portBit (p : Fin 8) : (1#8 <<< p.val).getLsbD p = true := by
  revert p
  decide

/-- After the learning of a parked request the filter names its stream and port. -/
theorem Dev.learnt_learn (d : Dev) (p : Fin 8) (sid kid : BitVec 16) (isPort : Bool) (hit : SEntry) :
    (d.learn p sid kid isPort hit).Learnt p sid kid := by
  unfold Dev.learn
  cases hf : d.filterOf sid kid with
  | none =>
    refine Dev.Learnt.of_stl ((Dev.postLearn_touches _ _).keeps .stl) ?_
    exact ⟨_, List.mem_append_right _ (List.mem_singleton_self _), rfl, rfl, getLsbD_portBit p⟩
  | some f =>
    have hm : f ∈ d.stl.filter := List.mem_of_find?_eq_some hf
    have hk : (f.sid == sid && f.kid == kid) = true := List.find?_some (p := fun f : Filter => f.sid == sid && f.kid == kid) hf
    obtain ⟨hs, hkid⟩ : f.sid = sid ∧ f.kid = kid := by simpa using hk
    have hput (e : Dev) (g : Filter) (he : e.stl.filter = d.stl.filter) (hg : g.sid = f.sid ∧ g.kid = f.kid ∧ g.ports.getLsbD p
        = true) :
        ({ e with stl.filter := e.stl.filter.map fun x => if x.sid == sid && x.kid == kid then g else x } : Dev).Learnt p sid
          kid :=
      ⟨g, List.mem_map.mpr ⟨f, he ▸ hm, if_pos hk⟩, hg.1.trans hs, hg.2.1.trans hkid, hg.2.2⟩
    have hbit : (f.ports ||| 1#8 <<< p.val).getLsbD p = true := by
      rw [BitVec.getLsbD_or, getLsbD_portBit, Bool.or_true]
    dsimp only
    split
    · refine Dev.Learnt.of_stl ((Dev.postLearn_touches _ _).keeps .stl) (hput _ _ ?_ ⟨rfl, rfl, getLsbD_portBit p⟩)
      exact congrArg Stl.filter ((Dev.unpost_touches d .stl (isLearn sid kid)).keeps .stl)
    · split
      · next hb => exact ⟨f, hm, hs, hkid, hb⟩
      · split
        · exact Dev.Learnt.of_stl ((Dev.post_touches _ _ _).keeps .stl) (hput d _ rfl ⟨rfl, rfl, hbit⟩)
        · exact hput d _ rfl ⟨rfl, rfl, hbit⟩

/-- While a request of the stream is parked, its filter entry stays. -/
theorem Dev.learnt_syncFilter {d : Dev} {p : Nat} {sid kid : BitVec 16} {a : Access} (ha : a ∈ d.fab.accs) (hst : a.stage =
    .parked)
    (hs : a.sid = sid) (hk : a.kid = kid) (h : d.Learnt p sid kid) : (d.syncFilter sid kid).Learnt p sid kid := by
  have hne : (d.parked.filter fun a => a.sid == sid && a.kid == kid).length ≠ 0 := by
    refine Nat.ne_of_gt (List.length_pos_of_mem (a := a) ?_)
    simp [Dev.parked, ha, hst, hs, hk]
  unfold Dev.syncFilter
  dsimp only
  rw [if_neg hne]
  obtain ⟨f, hf, h1, h2, h3⟩ := h
  exact ⟨_, List.mem_map.mpr ⟨f, hf, if_pos (by simp [h1, h2])⟩, h1, h2, h3⟩

/-! ### What becomes of a request that misses -/

/-- A request that misses on a stream that may park. -/
theorem Dev.park_parks {d : Dev} {id first : Nat} {p : Fin 8} {sid kid : BitVec 16} {hit : SEntry} {a : Access} (ha : d.acc id =
    some a)
    (hr : d.rejected sid kid = false) (hq : d.stl.learnEvq.valid = true)
    (hl : (d.parked.filter fun a => a.id != id).length < 512) (hs : a.sid = sid) (hk : a.kid = kid) :
    (∃ b, (d.park id p sid kid false hit first).acc id = some b ∧ b.stage = .parked ∧ b.isWrite = a.isWrite ∧
      b.inFlight = a.inFlight ∧ b.parkedAt = first) ∧ (d.park id p sid kid false hit first).Learnt p sid kid := by
  unfold Dev.park
  rw [if_neg (by simp [hr, hq]), if_neg (c := Config.maxParked ≤ _) (Nat.not_le.mpr hl)]
  generalize hd : (d.updAcc id fun a =>
    { a with stage := .parked, parkedAt := first, released := false, parkNo := a.parkNo.orElse fun _ => some d.seq }) = e
  have hacc : e.acc id = some
      { a with stage := .parked, parkedAt := first, released := false, parkNo := a.parkNo.orElse fun _ => some d.seq } :=
    hd ▸ Dev.acc_updAcc (by intro; rfl) ha
  have hkept : ((e.bump.learn p sid kid false hit).syncFilter sid kid).fab.accs = e.fab.accs :=
    Kept.trans (a := .accs) ((Dev.learn_touches e.bump p sid kid false hit).keeps .accs) ((Dev.syncFilter_touches _ sid
      kid).keeps .accs)
  refine ⟨⟨_, (Dev.acc_congr hkept id).trans hacc, rfl, rfl, rfl, rfl⟩, ?_⟩
  refine Dev.learnt_syncFilter (List.mem_of_find?_eq_some ((Dev.acc_congr ?_ id).trans hacc)) rfl hs hk (Dev.learnt_learn _ p
    sid kid false hit)
  exact (Dev.learn_touches e.bump p sid kid false hit).keeps .accs

/-- A request that misses on a stream that may not park is refused. -/
theorem Dev.park_refuses {d : Dev} {id p first : Nat} {sid kid : BitVec 16} {hit : SEntry}
    (h : d.rejected sid kid = true ∨ d.stl.learnEvq.valid = false) : d.park id p sid kid false hit first = (d.countReject
      p).refuse id := by
  unfold Dev.park
  exact if_pos (by rcases h with h | h <;> simp [h])

/-- A refused request: a read is done, a write waits for its window's result. -/
theorem Dev.acc_refuse {d : Dev} {id : Nat} {a : Access} (ha : d.acc id = some a) (hw : a.win = .none) (hs : a.stage ≠ .done) :
    ∃ b, (d.refuse id).acc id = some b ∧ b.isWrite = a.isWrite ∧ b.inFlight = a.inFlight ∧
      if a.isWrite then b.stage = .refused else b.stage = .done ∧ b.status = .accessError := by
  unfold Dev.refuse
  simp only [ha, hw]
  cases hx : a.isWrite with
  | false =>
    rw [if_pos (by rfl)]
    exact ⟨_, Dev.acc_outcome .accessError ha hs, hx, rfl, rfl, rfl⟩
  | true =>
    rw [if_neg (by simp)]
    exact ⟨_, Dev.acc_updAcc (by intro; rfl) ha, hx, rfl, rfl⟩

/-! ### The row -/

/-- The request as it arrives. -/
def requestOf (d : Dev) (p : Fin 8) (op : BitVec 2) (tag : BitVec 12) (sid kid : BitVec 16) (line : LineNo) (sess : BitVec 5)
    (chk : List Chk) : Access :=
  { (default : Access) with
    id := d.seq, origin := .port p, isWrite := decide (op = 1), reserved := decide (2 ≤ op.toNat), tag := tag,
    sid := sid, kid := kid, line := line, sess := sessOf p sess.toNat, chk := chk }

/-- The block once it has received a request: its credit is used, and the access is there. -/
def Dev.receives (d : Dev) (p : Nat) (a : Access) : Dev :=
  ({ d.setPort p { d.port p with req := (d.port p).req - 1 } with fab.accs := d.fab.accs ++ [a] }).bump

/-- A write request joins those that wait for their payload. -/
def Dev.awaitsPayload (d : Dev) (p : Nat) (a : Access) : Dev :=
  d.setPort p { d.port p with reqs := (d.port p).reqs ++ [(a.id, a.sess)] }

/-- What the row does with a request that has a credit. -/
theorem fabricRequest_next {p : Fin 8} {op : BitVec 2} {tag : BitVec 12} {sid kid : BitVec 16} {line : LineNo} {sess : BitVec 5}
    {chk : List Chk} {s : State} (hrx : RxRuns p s) (hq : (s.dev.port p).req ≠ 0) :
    let a := requestOf s.dev p op tag sid kid line sess chk
    let d := ({ s.dev with drive := [] } : Dev).receives p a
    let e :=
      if s.safe.active then d.outcome s.dev.seq .poisoned
      else if a.reserved then (d.outcome s.dev.seq .accessError).giveCredits p 1 0 0 0
      else (if a.isWrite then (d.awaitsPayload p a).pair p else d).process s.dev.seq
    exec (.fabricRequest p op tag sid kid line sess chk) s = .next (settle { s with dev := e }) := by
  obtain ⟨hf, hc⟩ := hrx
  intro a d e
  refine (act_eq (d := e) (.trans (if_neg ?_) (if_neg (c := (({ s.dev with drive := [] } : Dev).port p).req = 0) hq)) :
    execFabricRequest p op tag sid kid line sess chk s = _)
  simp [show ({ s.dev with drive := [] } : Dev).up (domFrx p) = true from hf, show ({ s.dev with drive := [] } : Dev).up domCore
    = true from hc]

/-- A block to which one access, not yet admitted, has joined; its ports may differ. -/
structure Joined (d e : Dev) (a : Access) : Prop where
  accs : e.fab.accs = d.fab.accs ++ [a]
  acc : e.acc a.id = some a
  ports : Tab.rising e.fab.ports
  mgt : e.mgt = d.mgt
  stl : e.stl = d.stl
  rmp : e.rmp = d.rmp
  key : e.key = d.key
  frs : e.frs = d.frs

theorem Joined.parked {d e : Dev} {a : Access} (h : Joined d e a) (hs : a.stage = .received) : e.parked = d.parked := by
  simp [Dev.parked, h.accs, hs]

theorem Joined.full {d e : Dev} {a : Access} (h : Joined d e a) (hi : a.inFlight = false) (w : Bool) : e.full w = d.full w := by
  cases w <;> simp [Dev.full, Dev.writesInFlight, Dev.readsInFlight, h.accs, hi] <;> rfl

theorem Joined.releasing {d e : Dev} {a : Access} (h : Joined d e a) (hs : a.stage = .received) (sid kid : BitVec 16) :
    e.releasing sid kid = d.releasing sid kid := by
  rw [Dev.releasing, h.parked hs, Dev.releasing]

theorem Dev.findStream_congr {d e : Dev} (hs : e.stl = d.stl) (n : Nat) (sid kid : BitVec 16) : e.findStream n sid kid =
    d.findStream n sid kid := by
  unfold Dev.findStream Dev.stlSet
  rw [hs]

theorem Joined.passes {d e : Dev} {a : Access} (h : Joined d e a) {p i : Nat} {sid kid : BitVec 16} {line : LineNo} {x : SEntry}
    {r : RegionCfg}
    (k : Passes d p sid kid line x i r) : Passes e p sid kid line x i r where
  stream := by
    rw [Dev.findStream_congr h.stl, Dev.activeSet_eq h.rmp]
    exact k.stream
  port := k.port
  region := by
    unfold Dev.rmpSet
    rw [Dev.activeSet_eq h.rmp, h.rmp]
    exact k.region
  kid := k.kid
  key := (Dev.keyCheck_congr h.key h.rmp i _).trans k.key
  zone hm := by
    unfold Dev.zone
    rw [h.frs]
    exact k.zone hm

theorem joined_receives {d : Dev} (hc : Canonical d) (hf : FreshIds d) (p : Nat) {a : Access} (ha : a.id = d.seq) :
    Joined d (({ d with drive := [] } : Dev).receives p a) a where
  accs := rfl
  acc := ha ▸ Dev.acc_append (d := d) hf ha
  ports := put_rising _ _ hc.ports
  mgt := rfl
  stl := rfl
  rmp := rfl
  key := rfl
  frs := rfl

/-- The requests that a port with no waiting payload holds unpaired, once a write request has come. -/
theorem Dev.pair_none {d : Dev} {p : Nat} (h : (d.port p).wdats = []) : d.pair p = d := by
  unfold Dev.pair
  rw [h]
  rfl

theorem joined_awaitsPayload {d e : Dev} {a : Access} {p : Nat} (h : Joined d e a) (hw : (e.port p).wdats = []) :
    Joined d ((e.awaitsPayload p a).pair p) a ∧ (((e.awaitsPayload p a).pair p).port p).reqs = (e.port p).reqs ++ [(a.id,
      a.sess)] := by
  have hp : (e.awaitsPayload p a).port p = { e.port p with reqs := (e.port p).reqs ++ [(a.id, a.sess)] } := Dev.port_setPort
      h.ports ..
  rw [Dev.pair_none (hp ▸ hw), hp]
  exact ⟨⟨h.accs, h.acc, put_rising _ _ h.ports, h.mgt, h.stl, h.rmp, h.key, h.frs⟩, rfl⟩

/-- What the admission of a request leaves: as the checks leave it, in accesses, stream table and unpaired requests. -/
theorem Joined.process {d e : Dev} {a : Access} {p : Nat} (h : Joined d e a) (ho : a.origin = .port p) (hs : a.stage =
    .received)
    (hi : a.inFlight = false) (hpf : d.mgt.pfWarn = false) (hfull : d.full a.isWrite = false) (hrel : d.releasing a.sid a.kid =
      false) :
    let f := e.admission a.id a.chk d.mgt.tref
    (∀ id, (e.process a.id).acc id = f.acc id) ∧ (e.process a.id).stl = f.stl ∧ ((e.process a.id).port p).reqs = (e.port
      p).reqs := by
  have hpr : e.process a.id = (e.admission a.id a.chk e.mgt.tref).noteHold.giveCredits p 1 0 0 0 :=
    Dev.process_admits h.acc ho (h.mgt ▸ hpf) ((h.full hi _).trans hfull) ((h.releasing hs ..).trans hrel)
  rw [h.mgt] at hpr
  have ht := Dev.credited_touches (e.admission a.id a.chk d.mgt.tref) p
  have hports : (e.admission a.id a.chk d.mgt.tref).fab.ports = e.fab.ports := (Dev.admission_touches e a.id a.chk
      d.mgt.tref).keeps .ports
  refine ⟨fun id => ?_, ?_, ?_⟩ <;> rw [hpr]
  · exact Dev.acc_congr (ht.keeps .accs) id
  · exact ht.keeps .stl
  · rw [Dev.port_credited (hports ▸ h.ports), Dev.port, hports, Dev.port]

/-- A read that passes is gated, with what the checks decided. -/
theorem Joined.admits_read {d e : Dev} {a : Access} {p i : Nat} {x : SEntry} {r : RegionCfg} (h : Joined d e a) (ho : a.origin =
    .port p)
    (hk : Passes d p a.sid a.kid a.line x i r) (hr : a.isWrite = false) (first : Nat) :
    (∃ b, (e.admission a.id [] first).acc a.id = some b ∧ b.stage = .gated ∧ b.isWrite = false ∧ b.inFlight = true ∧ b.origin =
      a.origin ∧
      b.tag = a.tag ∧ b.line = a.line ∧ b.gen = d.rmp.gen ∧ b.kslot = x.kslot ∧ b.region = i ∧ b.mode = r.mode) ∧
    ∃ n, ((e.admission a.id [] first).stlSet d.activeSet).tab.get n = some { x with age := 0 } := by
  obtain ⟨n, hn⟩ := Dev.admission_pass h.acc ho (h.passes hk) (first := first)
  simp only [hr, Bool.false_eq_true, if_false, h.rmp, Dev.activeSet_eq h.rmp] at hn
  rw [hn]
  refine ⟨⟨_, Dev.acc_updAcc (by intro; rfl) (Dev.acc_updAcc (by intro; rfl) ((Dev.acc_congr ?_ _).trans h.acc)),
    rfl, hr, rfl, rfl, rfl, rfl, rfl, rfl, rfl, rfl⟩, n, e.get_putSlot d.activeSet n _⟩
  exact (Dev.putSlot_touches e _ n _).keeps .accs

/-- A write that passes waits for its payload, with what the checks decided. -/
theorem Joined.admits_write {d e : Dev} {a : Access} {p i : Nat} {x : SEntry} {r : RegionCfg} (h : Joined d e a) (ho : a.origin
    = .port p)
    (hk : Passes d p a.sid a.kid a.line x i r) (hr : a.isWrite = true) (hw : a.win = .none) (first : Nat) :
    (∃ b, (e.admission a.id [] first).acc a.id = some b ∧ b.stage = .unbound ∧ b.isWrite = true ∧ b.inFlight = true ∧ b.origin =
      a.origin ∧
      b.tag = a.tag ∧ b.line = a.line ∧ b.gen = d.rmp.gen ∧ b.kslot = x.kslot ∧ b.region = i ∧ b.mode = r.mode) ∧
    ∃ n, ((e.admission a.id [] first).stlSet d.activeSet).tab.get n = some { x with age := 0 } := by
  obtain ⟨n, hn⟩ := Dev.admission_pass h.acc ho (h.passes hk) (first := first)
  simp only [hr, if_true, h.rmp, Dev.activeSet_eq h.rmp] at hn
  rw [hn]
  have hacc := Dev.acc_updAcc (f := fun b =>
      { b with inFlight := true, gen := d.rmp.gen, kslot := x.kslot, region := i, mode := r.mode, stage := if b.isWrite then .unbound else b.stage })
    (by intro; rfl) ((Dev.acc_congr ((Dev.putSlot_touches e d.activeSet n (some { x with age := 0 })).keeps .accs) _).trans
      h.acc)
  rw [Dev.tryArrive_unbound hacc hw]
  exact ⟨⟨_, hacc, if_pos hr, hr, rfl, rfl, rfl, rfl, rfl, rfl, rfl, rfl⟩, n, e.get_putSlot d.activeSet n _⟩

/-- A request outside the safe state that need not wait goes through the checks, alone with those that came before it. -/
theorem request_processed {p : Fin 8} {tag : BitVec 12} {sid kid : BitVec 16} {line : LineNo} {sess : BitVec 5} {wr : Bool}
    {s : State}
    (hcan : Canonical s.dev) (hrx : RxRuns p s) (hsafe : s.safe.active = false) (hreq : (s.dev.port p).req ≠ 0)
    (hpf : s.dev.mgt.pfWarn = false) (hfull : s.dev.full wr = false) (hw : wr = true → (s.dev.port p).wdats = [])
    (hrel : s.dev.releasing sid kid = false) (hfresh : FreshIds s.dev) :
    let a := requestOf s.dev p (if wr then 1 else 0) tag sid kid line sess []
    ∃ e t, exec (.fabricRequest p (if wr then 1 else 0) tag sid kid line sess []) s = .next t ∧ Joined s.dev e a ∧
      (∀ id, t.dev.acc id = (e.admission a.id [] s.dev.mgt.tref).acc id) ∧ t.dev.stl = (e.admission a.id [] s.dev.mgt.tref).stl
        ∧
      (wr = true → (t.dev.port p).reqs = (s.dev.port p).reqs ++ [(a.id, a.sess)]) := by
  intro a
  have hwr : a.isWrite = wr := by
    cases wr <;> rfl
  have hj : Joined s.dev (({ s.dev with drive := [] } : Dev).receives p a) a := joined_receives hcan hfresh p rfl
  generalize hd : ({ s.dev with drive := [] } : Dev).receives p a = d at hj
  have hport : (d.port p).reqs = (s.dev.port p).reqs ∧ (d.port p).wdats = (s.dev.port p).wdats := by
    have : d.port p = { s.dev.port p with req := (s.dev.port p).req - 1 } := by
      rw [← hd]
      exact get_put_self_rising _ _ hcan.ports
    rw [this]
    exact ⟨rfl, rfl⟩
  have hrow := fabricRequest_next (op := if wr then 1 else 0) (tag := tag) (sid := sid) (kid := kid) (line := line) (sess :=
      sess)
    (chk := []) hrx hreq
  have hres : a.reserved = false := by
    cases wr <;> rfl
  change exec _ s = .next (settle { s with dev := if s.safe.active then _ else if a.reserved then _ else
    (if a.isWrite then ((({ s.dev with drive := [] } : Dev).receives p a).awaitsPayload p a).pair p
      else ({ s.dev with drive := [] } : Dev).receives p a).process a.id }) at hrow
  rw [hd, hsafe, hres, hwr] at hrow
  have hgo (e : Dev) (he : Joined s.dev e a) := he.process (p := p) rfl rfl rfl hpf (hwr ▸ hfull) hrel
  cases wr with
  | false =>
    obtain ⟨h1, h2, -⟩ := hgo d hj
    exact ⟨d, _, hrow, hj, fun id => (Dev.acc_congr (congrArg Fab.accs (settle_fab _)) id).trans (h1 id), (settle_stl _).trans
      h2, by simp⟩
  | true =>
    obtain ⟨he, hreqs⟩ := joined_awaitsPayload hj (hport.2.trans (hw rfl))
    obtain ⟨h1, h2, h3⟩ := hgo _ he
    refine ⟨_, _, hrow, he, fun id => (Dev.acc_congr (congrArg Fab.accs (settle_fab _)) id).trans (h1 id), (settle_stl _).trans
      h2, fun _ => ?_⟩
    have hp : (settle { s with dev := ((d.awaitsPayload p a).pair p).process a.id }).dev.port p = (((d.awaitsPayload p a).pair
        p).process a.id).port p := by
      rw [Dev.port, settle_fab, Dev.port]
    exact (congrArg Port.reqs hp).trans (h3.trans (hreqs.trans (by rw [hport.1])))

end Machine
end Sys2Proof

section
open Sys2Proof Sys2Proof.Machine Sys2Proof.Laws
set_option Elab.async false

/-- Settles O10: each request is followed from its arrival through the checks to its place. -/
theorem requestAdmission : Obligations.RequestAdmission := by
  unfold Obligations.RequestAdmission
  refine ⟨?_, ?_, ?_⟩
  · intro p tag sid kid line sess s x i r hcan hrx hsafe hreq hpf hrel hfresh hk
    constructor
    · intro hfull
      obtain ⟨e, t, hrow, hj, hacc, hstl, -⟩ := request_processed (wr := false) (tag := tag) (line := line) (sess := sess)
        hcan hrx hsafe hreq hpf hfull (by simp) hrel hfresh
      obtain ⟨⟨b, hb, hfields⟩, n, hn⟩ := hj.admits_read rfl hk rfl s.dev.mgt.tref
      refine ⟨t, hrow, ⟨b, (hacc _).trans hb, hfields⟩, n, ?_⟩
      unfold Dev.stlSet at hn ⊢
      rwa [hstl]
    · intro hfull hw
      obtain ⟨e, t, hrow, hj, hacc, hstl, hreqs⟩ := request_processed (wr := true) (tag := tag) (line := line) (sess := sess)
        hcan hrx hsafe hreq hpf hfull (fun _ => hw) hrel hfresh
      obtain ⟨⟨b, hb, hfields⟩, n, hn⟩ := hj.admits_write rfl hk rfl rfl s.dev.mgt.tref
      refine ⟨t, hrow, ⟨b, (hacc _).trans hb, hfields⟩, hreqs rfl, n, ?_⟩
      unfold Dev.stlSet at hn ⊢
      rwa [hstl]
  · intro p tag sid kid line sess wr s hcan hrx hsafe hreq hpf hfull hw hrel hfresh hmiss
    obtain ⟨e, t, hrow, hj, hacc, hstl, hreqs⟩ := request_processed (tag := tag) (line := line) (sess := sess)
      hcan hrx hsafe hreq hpf hfull hw hrel hfresh
    have hwr : (requestOf s.dev p (if wr then 1 else 0) tag sid kid line sess []).isWrite = wr := by
      cases wr <;> rfl
    have hadm := Dev.admission_miss (first := s.dev.mgt.tref) (p := p) hj.acc rfl
      ((Dev.findStream_congr hj.stl ..).trans (Dev.activeSet_eq hj.rmp ▸ hmiss))
    rw [hadm] at hacc hstl
    have hrej : e.rejected sid kid = s.dev.rejected sid kid := by
      rw [Dev.rejected, hj.stl, Dev.rejected]
    constructor
    · intro hr hq hl
      obtain ⟨⟨b, hb, h1, h2, h3, h4⟩, hlearnt⟩ := Dev.park_parks (first := s.dev.mgt.tref) (p := p) (sid := sid) (kid := kid)
        (hit := default) hj.acc
        (hrej.trans hr) (hj.stl ▸ hq) (Nat.lt_of_le_of_lt (List.length_filter_le ..) ((hj.parked rfl) ▸ hl)) rfl rfl
      exact ⟨t, hrow, hreqs, ⟨b, (hacc _).trans hb, h1, h2.trans hwr, h3, h4⟩, hlearnt.of_stl hstl⟩
    · intro hr
      have hpark := Dev.park_refuses (d := e) (id := s.dev.seq) (p := p) (first := s.dev.mgt.tref) (hit := default)
        (hr.imp (hrej.trans ·) (hj.stl ▸ ·))
      obtain ⟨b, hb, h1, h2, h3⟩ := Dev.acc_refuse (d := e.countReject p) ((Dev.acc_congr rfl _).trans hj.acc) rfl (show
        Stage.received ≠ .done by decide)
      exact ⟨t, hrow, b, (hacc _).trans ((congrArg (fun d : Dev => d.acc s.dev.seq) hpark).trans hb), h1.trans hwr, h2, hwr ▸
        h3⟩
  · intro p op tag sid kid line sess chk s hcan hrx hreq hfresh
    have hj := joined_receives hcan hfresh p (a := requestOf s.dev p op tag sid kid line sess chk) rfl
    have hrow := fabricRequest_next (op := op) (tag := tag) (sid := sid) (kid := kid) (line := line) (sess := sess) (chk := chk)
        hrx hreq
    have hdone (st : Status) : ∃ b, ((({ s.dev with drive := [] } : Dev).receives p (requestOf s.dev p op tag sid kid line sess
        chk)).outcome
        s.dev.seq st).acc s.dev.seq = some b ∧ b.stage = .done ∧ b.status = st :=
      ⟨_, Dev.acc_outcome st hj.acc (show Stage.received ≠ .done by decide), rfl, rfl⟩
    dsimp only at hrow
    generalize ({ s.dev with drive := [] } : Dev).receives p (requestOf s.dev p op tag sid kid line sess chk) = d at hrow hdone
    constructor
    · intro hsafe hop
      have hres : (requestOf s.dev p op tag sid kid line sess chk).reserved = true := decide_eq_true hop
      obtain ⟨b, hb, hfields⟩ := hdone .accessError
      rw [hsafe, hres] at hrow
      refine ⟨_, hrow, b, (Dev.acc_congr (congrArg Fab.accs (settle_fab _)) _).trans ?_, hfields⟩
      exact (Dev.acc_congr ((Dev.giveCredits_touches (d.outcome s.dev.seq .accessError) p 1 0 0 0).keeps .accs) _).trans hb
    · intro hsafe
      obtain ⟨b, hb, hfields⟩ := hdone .poisoned
      rw [hsafe] at hrow
      exact ⟨_, hrow, b, (Dev.acc_congr (congrArg Fab.accs (settle_fab _)) _).trans hb, hfields⟩

end

/-! O11. The write side of a port: payloads and the entries of WLPC (spec/02 R37, R42-R45). -/

namespace Sys2Proof
namespace Machine

open Laws

-- each proof is small and there are many: elaborated one after the other they need one thread
set_option Elab.async false

/-! ### Sessions under the shared operations -/

theorem Dev.session_updSession {d : Dev} (h : Tab.rising d.fab.sessions) (g : Nat) (f : Session → Session) :
    (d.updSession g f).session g = f (d.session g) :=
  get_put_self_rising g _ h

theorem Dev.session_updSession_other {d : Dev} {g i : Nat} (f : Session → Session) (h : i ≠ g) : (d.updSession g f).session i =
    d.session i :=
  Tab.get_put_other _ h

theorem Dev.session_congr {d e : Dev} (h : e.fab.sessions = d.fab.sessions) (g : Nat) : e.session g = d.session g := by
  rw [Dev.session, h, Dev.session]

theorem Dev.port_congr {d e : Dev} (h : e.fab.ports = d.fab.ports) (p : Nat) : e.port p = d.port p := by
  rw [Dev.port, h, Dev.port]

theorem settle_session (s : State) (g : Nat) : (settle s).dev.session g = s.dev.session g :=
  Dev.session_congr (congrArg Fab.sessions (settle_fab s)) g

theorem settle_port (s : State) (p : Nat) : (settle s).dev.port p = s.dev.port p :=
  Dev.port_congr (congrArg Fab.ports (settle_fab s)) p

theorem settle_acc (s : State) (id : Nat) : (settle s).dev.acc id = s.dev.acc id :=
  Dev.acc_congr (congrArg Fab.accs (settle_fab s)) id

/-- A window that may be complete leaves "open" exactly when it is. -/
theorem Dev.session_checkComplete {d : Dev} (h : Tab.rising d.fab.sessions) {g : Nat} {w : WWin} (hw : (d.session g).wwin = some
    w) :
    Filled { d.session g with wwin := none } ((d.checkComplete g).session g) w := by
  unfold Dev.checkComplete
  rw [hw]
  dsimp only
  split
  · next hf =>
    rw [Dev.session_updSession h]
    exact ⟨fun _ => ⟨rfl, rfl⟩, fun hn => absurd hf hn⟩
  · next hf => exact ⟨fun hn => absurd hn hf, fun _ => hw⟩

/-! ### The rows of WLPC -/

/-- The block once a WLPC entry has used its credit. -/
def Dev.takesWlpc (d : Dev) (p : Nat) : Dev := { d with drive := [] }.setPort p { d.port p with wlpc := (d.port p).wlpc - 1 }

/-- What an entry of WLPC leaves of the sessions. -/
theorem wlpc_sessions {p : Fin 8} {s : State} {f : Dev → Dev} {o : Host.Outcome State Fault Refusal} (ho : o = s.wlpc p f) (hrx
    : RxRuns p s) (hsafe : s.safe.active = false) (hw : (s.dev.port p).wlpc ≠ 0) :
    ∃ t, o = .next t ∧ ∀ g, t.dev.session g = (f (s.dev.takesWlpc p)).session g := by
  obtain ⟨hf, hc⟩ := hrx
  have hrow : s.wlpc p f = .next (settle { s with dev := (f (s.dev.takesWlpc p)).giveCredits p 0 0 1 0 }) := by
    refine act_eq (.trans (if_neg ?_) (.trans (if_neg (c := (({ s.dev with drive := [] } : Dev).port p).wlpc = 0) hw) (if_neg
      ?_)))
    · simp [show ({ s.dev with drive := [] } : Dev).up (domFrx p) = true from hf, show ({ s.dev with drive := [] } : Dev).up
        domCore = true from hc]
    · simp [hsafe]
  refine ⟨_, ho.trans hrow, fun g => (settle_session _ g).trans ?_⟩
  exact Dev.session_congr ((Dev.giveCredits_touches _ p 0 0 1 0).keeps .sessions) g

/-- A FORMAT error fails the receive direction and changes nothing else of the session it came from. -/
theorem Dev.session_deliver_format {d : Dev} (h : Tab.rising d.fab.sessions) (g : Nat) (w : WWin) :
    (d.deliver g w .format).session g = { d.session g with rxFailed := true } := by
  have hloop (e : Dev) : (forAll w.members (Dev.windowWrite .format) e).session g = e.session g :=
    Dev.session_congr (Touches.keeps (as := [.accs]) (.forAllAfter (fun id e => Dev.windowWrite_touches .format id e) (.refl e))
      .sessions) g
  have hsend : (d.sendWchk g .format).fab.sessions = d.fab.sessions := (Dev.sendWchk_touches d g .format).keeps .sessions
  unfold Dev.deliver
  rw [hloop]
  exact (Dev.session_updSession (hsend ▸ h) g _).trans (by rw [Dev.session_congr hsend])

/-- A FORMAT error of a session none of whose results is held back: no window is open, and the direction has failed. -/
theorem Dev.session_formatWrite {d : Dev} (h : Tab.rising d.fab.sessions) {g : Nat} (hd : (d.session g).wdone = []) :
    ((d.formatWrite g).session g).rxFailed = true ∧ ((d.formatWrite g).session g).wwin = none := by
  unfold Dev.formatWrite
  cases hw : (d.session g).wwin with
  | none =>
    have hs : ((d.updSession g fun s => { s with rxFailed := true }).raise bFab (256 + g)).session g =
        { d.session g with rxFailed := true } :=
      Dev.session_updSession h g _
    rw [if_neg (by simp), hs]
    exact ⟨rfl, hw⟩
  | some w =>
    have hs := Dev.session_updSession h g fun s =>
        { s with wwin := none, wdone := s.wdone ++ [{ w with forced := some .format }] }
    have hr : Tab.rising (d.updSession g fun s =>
        { s with wwin := none, wdone := s.wdone ++ [{ w with forced := some .format }] }).fab.sessions :=
      put_rising _ _ h
    rw [if_pos (by simp)]
    unfold Dev.endWindow
    rw [hw]
    dsimp only
    generalize (d.updSession g fun s => { s with wwin := none, wdone := s.wdone ++ [{ w with forced := some .format }] }) =
      e at hs hr
    rw [hd] at hs
    have hlen : (e.session g).wdone = [{ w with forced := some .format }] := by
      rw [hs]
      rfl
    rw [hlen]
    show ((Dev.flushForced 1 g e).session g).rxFailed = true ∧ ((Dev.flushForced 1 g e).session g).wwin = none
    unfold Dev.flushForced
    rw [hlen]
    show ((((e.updSession g _).deliver g _ .format)).session g).rxFailed = true ∧ ((((e.updSession g _).deliver g _
      .format)).session g).wwin = none
    rw [Dev.session_deliver_format (put_rising _ _ hr), Dev.session_updSession hr, hs]
    exact ⟨rfl, rfl⟩

/-! ### Payloads -/

/-- What the row of a payload does when it comes with a credit in service. -/
theorem writePayload_next {p : Fin 8} {data : Line} {mask : BitVec 64} {s : State} (hrx : RxRuns p s) (hsafe : s.safe.active =
    false)
    (hw : (s.dev.port p).wdat ≠ 0) :
    exec (.writePayload p data mask) s = .next (settle { s with dev :=
      (({ s.dev with drive := [] } : Dev).setPort p { s.dev.port p with
        wdat := (s.dev.port p).wdat - 1, wdats := (s.dev.port p).wdats ++ [(data, mask)] }).pair p }) := by
  obtain ⟨hf, hc⟩ := hrx
  refine (act_eq (.trans (if_neg ?_) (.trans (if_neg (c := (({ s.dev with drive := [] } : Dev).port p).wdat = 0) hw) (if_neg
    ?_))) :
    execWritePayload p data mask s = _)
  · simp [show ({ s.dev with drive := [] } : Dev).up (domFrx p) = true from hf, show ({ s.dev with drive := [] } : Dev).up
      domCore = true from hc]
  · simp [hsafe]

/-- A payload with nothing to pair waits. -/
theorem Dev.pair_unrequested {d : Dev} {p : Nat} (h : (d.port p).reqs = []) : d.pair p = d := by
  unfold Dev.pair
  cases (d.port p).wdats with
  | nil => rfl
  | cons x r =>
    show pairPort (r.length + 1) p d = d
    unfold pairPort
    dsimp only
    rw [h]

/-- A payload pairs with the first unpaired request. -/
theorem Dev.pair_one {d : Dev} {p id g : Nat} {rs : List (Nat × Nat)} {data : Line} {mask : BitVec 64} (hr : (d.port p).reqs =
    (id, g) :: rs)
    (hw : (d.port p).wdats = [(data, mask)]) :
    d.pair p = ((((d.setPort p { d.port p with reqs := rs, wdats := [] }).updAcc id fun a =>
      { a with paired := true, data := data, mask := mask }).takePayload id g data).giveCredits p 0 1 0 0) := by
  unfold Dev.pair
  rw [hw]
  show pairPort 1 p d = _
  unfold pairPort
  dsimp only
  rw [hr, hw]
  rfl

/-- A payload that is taken into a window with room: the access is bound at the next position. -/
theorem Dev.acc_takePayload {d : Dev} {id g : Nat} {data : Line} {a : Access} {w : WWin} (ha : d.acc id = some a)
    (hw : (d.session g).wwin = some w) (hroom : w.members.length < w.count) : (d.takePayload id g data).fab.ports = d.fab.ports
      ∧
    ∃ b, (d.takePayload id g data).acc id = some b ∧ b.paired = a.paired ∧ b.data = a.data ∧ b.mask = a.mask ∧ b.win = .waiting
      w.id ∧
      b.winK = w.k ∧ b.winIv = w.iv ∧ b.winPos = w.members.length := by
  unfold Dev.takePayload
  rw [hw]
  dsimp only
  rw [if_neg (Nat.not_le.mpr hroom)]
  have hacc := Dev.acc_updAcc (d := d.updSession g fun s =>
      { s with wwin := some { w with members := w.members ++ [id], cts := w.cts ++ [data] } })
    (f := fun a =>
      { a with win := .waiting w.id, skid := w.skid, winK := w.k, winIv := w.iv, winPos := w.members.length, winKey := d.sessKey g 0 w.k })
    (by intro; rfl) (id := id) ha
  generalize he : Dev.updAcc _ id _ = e at hacc ⊢
  have hports : e.fab.ports = d.fab.ports := he ▸ rfl
  have hkeep : ∃ b, (e.tryArrive id).acc id = some b ∧ b.paired = a.paired ∧ b.data = a.data ∧ b.mask = a.mask ∧ b.win =
      .waiting w.id ∧
      b.winK = w.k ∧ b.winIv = w.iv ∧ b.winPos = w.members.length := by
    unfold Dev.tryArrive
    rw [hacc]
    dsimp only
    split
    · exact ⟨_, hacc, rfl, rfl, rfl, rfl, rfl, rfl, rfl⟩
    · split
      · exact ⟨_, Dev.acc_updAcc (by intro; rfl) hacc, rfl, rfl, rfl, rfl, rfl, rfl, rfl⟩
      · exact ⟨_, hacc, rfl, rfl, rfl, rfl, rfl, rfl, rfl⟩
  obtain ⟨b, hb, hfields⟩ := hkeep
  have hc := Dev.checkComplete_touches (e.tryArrive id) g
  have hp : ((e.tryArrive id).checkComplete g).fab.ports = e.fab.ports :=
    Kept.trans (a := .ports) ((Dev.tryArrive_touches e id).keeps .ports) (hc.keeps .ports)
  exact ⟨hp.trans hports, b, (Dev.acc_congr (hc.keeps .accs) id).trans hb, hfields⟩

end Machine
end Sys2Proof

section
open Sys2Proof Sys2Proof.Machine Sys2Proof.Laws
set_option Elab.async false

/-- Settles O11: the payload by the pairing with the first unpaired request, the entries by what each makes of the session. -/
theorem writeSideTransfers : Obligations.WriteSideTransfers := by
  unfold Obligations.WriteSideTransfers
  constructor
  · intro p data mask s hcan hrx hsafe hcredit
    have hrow := writePayload_next (data := data) (mask := mask) hrx hsafe hcredit
    have hport (x : Port) : (({ s.dev with drive := [] } : Dev).setPort p x).port p = x := get_put_self_rising _ _ hcan.ports
    constructor
    · intro hreqs
      rw [Dev.pair_unrequested (by rw [hport]; exact hreqs)] at hrow
      exact ⟨_, hrow, (settle_port _ _).trans (hport _)⟩
    · intro id g rs a w hreqs hwdats ha hw hroom
      generalize hd : ({ s.dev with drive := [] } : Dev).setPort p _ = d at hrow
      have hp : d.port p =
          { s.dev.port p with wdat := (s.dev.port p).wdat - 1, wdats := (s.dev.port p).wdats ++ [(data, mask)] } :=
        hd ▸ hport _
      rw [Dev.pair_one (by rw [hp]; exact hreqs) (by rw [hp, hwdats]; rfl)] at hrow
      generalize hx : Dev.updAcc _ id _ = x at hrow
      have hxa : x.acc id = some { a with paired := true, data := data, mask := mask } :=
        hx ▸ Dev.acc_updAcc (by intro; rfl) ((Dev.acc_congr (by rw [← hd]; rfl) id).trans ha)
      have hxs : (x.session g).wwin = some w := by
        rw [← hx, ← hd]
        exact hw
      have hxp : (x.port p).reqs = rs := by
        rw [← hx]
        exact congrArg Port.reqs (Dev.port_setPort (by rw [← hd]; exact put_rising _ _ hcan.ports) p _)
      have hxr : Tab.rising x.fab.ports := by
        rw [← hx, ← hd]
        exact put_rising _ _ (put_rising _ _ hcan.ports)
      obtain ⟨hports, b, hb, h1, h2, h3, h4⟩ := Dev.acc_takePayload (data := data) hxa hxs hroom
      have hgive := Dev.giveCredits_touches (x.takePayload id g data) p 0 1 0 0
      refine ⟨_, hrow, ?_, b, ?_, h1, h2, h3, h4⟩
      · rw [settle_port]
        refine (Dev.port_giveCredits (hports ▸ hxr) p 0 1 0 0 p).reqs.trans ?_
        rw [Dev.port_congr hports, hxp]
      · exact (settle_acc _ _).trans ((Dev.acc_congr (hgive.keeps .accs) id).trans hb)
  · intro p e s hcan hrx hsafe hcredit
    have hrise : Tab.rising (s.dev.takesWlpc p).fab.sessions := hcan.sessions
    refine ⟨?_, ?_, ?_⟩
    · intro hok hnone
      obtain ⟨t, hrow, hsess⟩ := wlpc_sessions (o := execWlpcOpen p e s) rfl hrx hsafe hcredit
      have hcond : ¬((!openOk e || ((s.dev.takesWlpc p).session (lpcSess p e)).wwin.isSome) = true) := by
        rw [hok, show (s.dev.takesWlpc p).session (lpcSess p e) = s.dev.session (lpcSess p e) from rfl, hnone]
        decide
      have hlane := (Dev.windowLane_touches (s.dev.takesWlpc p)).keeps .sessions
      have ht := (hsess (lpcSess p e)).trans ((congrArg (Dev.session · (lpcSess p e)) (if_neg hcond)).trans
        ((Dev.session_updSession (d := (s.dev.takesWlpc p).windowLane.2.bump) (hlane ▸ hrise) _ _)))
      refine ⟨t, hrow, ?_⟩
      dsimp only
      rw [ht]
      refine ⟨_, rfl, rfl, rfl, rfl, rfl, rfl, rfl, rfl, rfl, rfl, rfl, fun k hk => ?_⟩
      have hk' : (s.dev.takesWlpc p).sessKey (lpcSess p e) 0 (flag (e.getLsbD 5)) = some k := hk
      refine ⟨by rw [hk']; rfl, fun hrx => ?_⟩
      rw [hk', show (s.dev.takesWlpc p).session (lpcSess p e) = s.dev.session (lpcSess p e) from rfl, hrx]
      rfl
    · intro w hok hw
      have hfill (x : WWin) : Filled (s.dev.session (lpcSess p e))
          ((((s.dev.takesWlpc p).updSession (lpcSess p e) fun y => { y with wwin := some x }).checkComplete (lpcSess p
            e)).session (lpcSess p e)) x := by
        have hx := Dev.session_updSession hrise (lpcSess p e) fun y => { y with wwin := some x }
        have := Dev.session_checkComplete (put_rising _ _ hrise) (congrArg Session.wwin hx)
        rw [hx] at this
        exact this
      constructor
      · intro hroom
        obtain ⟨t, hrow, hsess⟩ := wlpc_sessions (o := execWlpcAad p e s) rfl hrx hsafe hcredit
        refine ⟨t, hrow, ?_⟩
        dsimp only
        rw [hsess]
        dsimp only
        rw [show (s.dev.takesWlpc p).session (lpcSess p e) = s.dev.session (lpcSess p e) from rfl, hw]
        dsimp only
        rw [if_neg (by simp [hok, hroom])]
        exact hfill _
      · intro htag
        obtain ⟨t, hrow, hsess⟩ := wlpc_sessions (o := execWlpcClose p e s) rfl hrx hsafe hcredit
        refine ⟨t, hrow, ?_⟩
        dsimp only
        rw [hsess]
        dsimp only
        rw [show (s.dev.takesWlpc p).session (lpcSess p e) = s.dev.session (lpcSess p e) from rfl, hw]
        dsimp only
        rw [if_neg (by simp [hok, htag])]
        exact hfill _
    · intro ty hty hdone
      obtain ⟨t, hrow, hsess⟩ := wlpc_sessions (o := execWlpcReservedType p ty e s) rfl hrx hsafe hcredit
      refine ⟨t, hrow, ?_⟩
      dsimp only
      rw [hsess]
      have hbad : (ty = 3 || !(if ty = 0 then openOk e else aadOk e)) = true := by
        rcases hty with h | ⟨h, hok⟩ | ⟨h, hok⟩
        · simp [h]
        · simp [h, hok]
        · rw [if_neg h, hok]
          simp
      rw [if_pos hbad]
      exact Dev.session_formatWrite hrise hdone

end

/-! O12. The results of write windows and their timeout (spec/02 R43-R45, spec/07 R185, R186). -/

namespace Sys2Proof
namespace Machine

open Laws

-- each proof is small and there are many: elaborated one after the other they need one thread
set_option Elab.async false

/-! ### What a result does to the writes of its window -/

theorem Dev.acc_updAcc_other {d : Dev} {i id : Nat} {f : Access → Access} (hf : ∀ x, (f x).id = x.id) (h : id ≠ i) :
    (d.updAcc i f).acc id = d.acc id := by
  have hkeeps : ((fun b : Access => b.id == id) ∘ fun b => if b.id = i then f b else b) = fun b => b.id == id := by
    funext b
    by_cases hb : b.id = i <;> simp [hb, hf]
  show (d.fab.accs.map _).find? _ = d.fab.accs.find? _
  rw [List.find?_map, hkeeps]
  cases hx : d.fab.accs.find? fun b => b.id == id with
  | none => rfl
  | some a =>
    have ha : a.id = id := by simpa using List.find?_some hx
    simp [ha, h]

theorem Dev.acc_outcome_other {d : Dev} {i id : Nat} (st : Status) (h : id ≠ i) : (d.outcome i st).acc id = d.acc id :=
  Dev.acc_updAcc_other (by intro x; split <;> rfl) h

theorem Dev.acc_tryArrive_other {d : Dev} {i id : Nat} (h : id ≠ i) : (d.tryArrive i).acc id = d.acc id := by
  have hgo : (d.arrive i).acc id = d.acc id := Dev.acc_updAcc_other (by intro; rfl) h
  unfold Dev.tryArrive
  split
  · rfl
  · split
    · rfl
    · split
      · rfl
      · split
        · exact hgo
        · rfl
      · exact hgo
      · exact Dev.acc_outcome_other _ h

theorem Dev.id_of_acc {d : Dev} {id : Nat} {a : Access} (h : d.acc id = some a) : a.id = id := by
  simpa using List.find?_some h

theorem Dev.acc_windowLost_other {d : Dev} {a : Access} {id : Nat} (h : id ≠ a.id) : (d.windowLost a).acc id = d.acc id := by
  unfold Dev.windowLost
  split
  · rfl
  · rfl
  · exact Dev.acc_outcome_other _ h
  · exact Dev.acc_outcome_other _ h

/-- A result acts on one write at a time. -/
theorem Dev.acc_windowWrite_other {d : Dev} {i id : Nat} (r : WResult) (h : id ≠ i) : (d.windowWrite r i).acc id = d.acc
    id := by
  unfold Dev.windowWrite
  cases hi : d.acc i with
  | none => rfl
  | some a =>
    dsimp only
    split
    · split
      · exact (Dev.acc_outcome_other _ h).trans (Dev.acc_updAcc_other (by intro; rfl) h)
      · exact (Dev.acc_tryArrive_other h).trans (Dev.acc_updAcc_other (by intro; rfl) h)
    · exact (Dev.acc_windowLost_other (Dev.id_of_acc hi ▸ h)).trans (Dev.acc_updAcc_other (by intro; rfl) h)

/-- Neither an outcome nor an arrival changes what a write's window came to. -/
theorem Dev.win_outcome {d : Dev} {id : Nat} {a : Access} (st : Status) (h : d.acc id = some a) :
    ∃ b, (d.outcome id st).acc id = some b ∧ b.win = a.win :=
  ⟨_, Dev.acc_updAcc (by intro x; split <;> rfl) h, by split <;> rfl⟩

theorem Dev.win_tryArrive {d : Dev} {id : Nat} {a : Access} (h : d.acc id = some a) :
    ∃ b, (d.tryArrive id).acc id = some b ∧ b.win = a.win := by
  have hgo : ∃ b, (d.arrive id).acc id = some b ∧ b.win = a.win := ⟨_, Dev.acc_updAcc (by intro; rfl) h, rfl⟩
  unfold Dev.tryArrive
  rw [h]
  dsimp only
  split
  · exact ⟨a, h, rfl⟩
  · split
    · exact ⟨a, h, rfl⟩
    · split
      · exact hgo
      · exact ⟨a, h, rfl⟩
    · exact hgo
    · exact Dev.win_outcome _ h

/-- A write of a window that passes has passed. -/
theorem Dev.windowWrite_passes {d : Dev} {id : Nat} {a : Access} (h : d.acc id = some a) :
    ∃ b, (d.windowWrite .pass id).acc id = some b ∧ b.win = .passed := by
  have hp := Dev.acc_updAcc (f := fun a => { a with win := .passed }) (by intro; rfl) h
  unfold Dev.windowWrite
  rw [h]
  dsimp only
  rw [if_pos rfl]
  split
  · exact Dev.win_outcome _ hp
  · exact Dev.win_tryArrive hp

/-- Every write of the window passes, once it has had its turn. -/
theorem windowWrites_pass (ids : List Nat) {d : Dev} {id : Nat} {a : Access} (h : d.acc id = some a) (hp : id ∈ ids ∨ a.win =
    .passed) :
    ∃ b, (forAll ids (Dev.windowWrite .pass) d).acc id = some b ∧ b.win = .passed := by
  unfold forAll
  induction ids generalizing d a with
  | nil => exact ⟨a, h, hp.resolve_left (by simp)⟩
  | cons i r ih =>
    by_cases hi : id = i
    · subst hi
      obtain ⟨b, hb, hw⟩ := Dev.windowWrite_passes h
      exact ih hb (.inr hw)
    · exact ih ((Dev.acc_windowWrite_other .pass hi).trans h) (hp.imp_left fun hm => (List.mem_cons.mp hm).resolve_left hi)

/-- A write whose parking has timed out ends ACCESS_ERROR, any other LINK_ERROR (spec/05 R140). -/
def lostStatus (a : Access) : Status := if a.stage = .expired then .accessError else .linkError

/-- An outcome that is decided stays. -/
theorem Dev.outcome_decides {d : Dev} {id : Nat} {a : Access} {st : Status} (x : Status) (h : d.acc id = some a)
    (hs : a.stage = .done ∧ a.status = st ∨ a.stage ≠ .done ∧ x = st) :
    ∃ b, (d.outcome id x).acc id = some b ∧ b.stage = .done ∧ b.status = st := by
  rcases hs with ⟨hd, hst⟩ | ⟨hd, rfl⟩
  · refine ⟨_, Dev.acc_updAcc (by intro x; split <;> rfl) h, ?_⟩
    rw [if_pos hd]
    exact ⟨hd, hst⟩
  · exact ⟨_, Dev.acc_outcome x h hd, rfl, rfl⟩

/-- A write of a window that fails is lost, unless it is parked or not yet admitted. -/
theorem Dev.windowWrite_fails {d : Dev} {id : Nat} {a : Access} {st : Status} {r : WResult} (hr : r ≠ .pass) (h : d.acc id =
    some a)
    (hp : a.stage ≠ .parked) (hv : a.stage ≠ .received) (hs : a.stage = .done ∧ a.status = st ∨ a.stage ≠ .done ∧ lostStatus a =
      st) :
    ∃ b, (d.windowWrite r id).acc id = some b ∧ b.stage = .done ∧ b.status = st := by
  have hf := Dev.acc_updAcc (f := fun a => { a with win := .failed }) (by intro; rfl) h
  have hid := Dev.id_of_acc h
  unfold Dev.windowWrite
  rw [h]
  dsimp only
  rw [if_neg hr]
  unfold Dev.windowLost
  rw [hid]
  unfold lostStatus at hs
  split
  · next h' => exact absurd h' hp
  · next h' => exact absurd h' hv
  · next h' =>
    rw [if_pos h'] at hs
    exact Dev.outcome_decides _ hf hs
  · next h1 h2 h3 =>
    rw [if_neg h3] at hs
    exact Dev.outcome_decides _ hf hs

theorem windowWrites_fail (ids : List Nat) {d : Dev} {id : Nat} {a : Access} {st : Status} {r : WResult} (hr : r ≠ .pass) (h :
    d.acc id = some a)
    (hp : a.stage ≠ .parked) (hv : a.stage ≠ .received)
    (hs : a.stage = .done ∧ a.status = st ∨ (a.stage ≠ .done ∧ lostStatus a = st) ∧ id ∈ ids) :
    ∃ b, (forAll ids (Dev.windowWrite r) d).acc id = some b ∧ b.stage = .done ∧ b.status = st := by
  unfold forAll
  induction ids generalizing d a with
  | nil => exact ⟨a, h, hs.resolve_right (by simp)⟩
  | cons i l ih =>
    by_cases hi : id = i
    · subst hi
      obtain ⟨b, hb, hd, hst⟩ := Dev.windowWrite_fails hr h hp hv (hs.imp_right And.left)
      exact ih hb (by simp [hd]) (by simp [hd]) (.inl ⟨hd, hst⟩)
    · exact ih ((Dev.acc_windowWrite_other r hi).trans h) hp hv
        (hs.imp_right fun ⟨h1, hm⟩ => ⟨h1, (List.mem_cons.mp hm).resolve_left hi⟩)

/-! ### The row -/

/-- With nothing more held back, the flush of forced results is over. -/
theorem Dev.flushForced_nil {d : Dev} {g : Nat} (h : (d.session g).wdone = []) : Dev.flushForced (d.session g).wdone.length g d
    = d := by
  rw [h]
  rfl

/-- The block once the result of the one complete window is due. -/
def Dev.popsWindow (d : Dev) (g : Nat) : Dev := { d with drive := [] }.updSession g fun x => { x with wdone := [] }

theorem Dev.wdone_deliver {d : Dev} (h : Tab.rising d.fab.sessions) (g : Nat) (w : WWin) (r : WResult) :
    ((d.deliver g w r).session g).wdone = (d.session g).wdone ∧ (r = .tagFail → ((d.deliver g w r).session g).rxFailed =
      true) := by
  have hloop (e : Dev) : (forAll w.members (Dev.windowWrite r) e).session g = e.session g :=
    Dev.session_congr (Touches.keeps (as := [.accs]) (.forAllAfter (fun id e => Dev.windowWrite_touches r id e) (.refl e))
      .sessions) g
  have hsend : (d.sendWchk g r).fab.sessions = d.fab.sessions := (Dev.sendWchk_touches d g r).keeps .sessions
  have hfail (b k : Nat) : (((d.sendWchk g r).updSession g fun s => { s with rxFailed := true }).raise b k).session g =
      { d.session g with rxFailed := true } :=
    (Dev.session_updSession (hsend ▸ h) g _).trans (by rw [Dev.session_congr hsend])
  unfold Dev.deliver
  rw [hloop]
  cases r
  case tagFail => rw [hfail]; exact ⟨rfl, fun _ => rfl⟩
  case format => rw [hfail]; exact ⟨rfl, fun _ => rfl⟩
  all_goals exact ⟨congrArg Session.wdone (Dev.session_congr hsend g), nofun⟩

/-- The one complete window gives its result. -/
theorem windowResult_next {g : BitVec 8} {s : State} {w : WWin} {r : WResult} (hcan : Canonical s.dev) (hs : InService s)
    (hw : (s.dev.session g.toNat).wdone = [w]) (hf : w.forced = none) (hr : w.check = r) :
    exec (.windowResult g) s = .next (settle { s with dev := (s.dev.popsWindow g.toNat).deliver g.toNat w r }) := by
  have hrise : Tab.rising (s.dev.popsWindow g.toNat).fab.sessions := put_rising _ _ hcan.sessions
  have hnil : (((s.dev.popsWindow g.toNat).deliver g.toNat w r).session g.toNat).wdone = [] :=
    (Dev.wdone_deliver hrise ..).1.trans (congrArg Session.wdone (Dev.session_updSession hcan.sessions g.toNat _))
  refine ((serve_acts hs).trans (act_eq ?_) : execWindowResult g s = _)
  dsimp only
  rw [show (({ s.dev with drive := [] } : Dev).session g.toNat).wdone = [w] from hw]
  dsimp only
  rw [hf, Option.getD_none, hr]
  exact Dev.flushForced_nil hnil

/-- The result at the head of WCHK leaves when a credit is there. -/
theorem pumpWchk_sends {d : Dev} {p n i : Nat} {r : WResult} {q : List (Nat × WResult)} (hq : (d.port p).wchkq = (i, r) :: q)
    (hc : (d.port p).wchk ≠ 0) (hup : d.up (domFrx p) = true) : .wchk p i r ∈ (pumpWchk (n + 1) p d).drive := by
  unfold pumpWchk
  dsimp only
  rw [hq]
  dsimp only
  rw [if_neg (by simp [hc, hup])]
  exact (pumpWchk_touches n p _).drive.subset (List.mem_append_right _ (List.mem_singleton_self _))

/-- A result that finds a credit and nothing before it leaves at once. -/
theorem Dev.sendWchk_sends {d : Dev} {g : Nat} (hp : Tab.rising d.fab.ports) (hup : d.up (domFrx (g / 32)) = true) (hc : (d.port
    (g / 32)).wchk ≠ 0)
    (hq : (d.port (g / 32)).wchkq = []) (r : WResult) : .wchk (g / 32) (g % 32) r ∈ (d.sendWchk g r).drive := by
  have hport : (d.setPort (g / 32) { d.port (g / 32) with wchkq := (d.port (g / 32)).wchkq ++ [(g % 32, r)] }).port (g / 32) =
      { d.port (g / 32) with wchkq := [(g % 32, r)] } := by
    rw [hq]
    exact get_put_self_rising _ _ hp
  have hlen : ((d.setPort (g / 32) { d.port (g / 32) with wchkq := (d.port (g / 32)).wchkq ++ [(g % 32, r)] }).port (g /
      32)).wchkq.length = 1 := by
    rw [hport]
    rfl
  unfold Dev.sendWchk
  dsimp only
  rw [hlen]
  refine pumpWchk_sends (q := []) ?_ ?_ hup
  · rw [hport]
  · rw [hport]
    exact hc

end Machine
end Sys2Proof

section
open Sys2Proof Sys2Proof.Machine Sys2Proof.Laws
set_option Elab.async false

/-- Settles O12: the result by the tag check and what it does to each write, the timeout as a FORMAT error of the window. -/
theorem windowResults : Obligations.WindowResults := by
  unfold Obligations.WindowResults
  constructor
  · intro g s w k hcan hs hw hf husable htk
    have hrise : Tab.rising (s.dev.popsWindow g.toNat).fab.sessions := put_rising _ _ hcan.sessions
    constructor
    · intro htag
      have hcheck : w.check = .pass := by
        unfold WWin.check
        rw [husable, if_neg (by simp), if_pos (by rw [htag, htk]; rfl)]
      refine ⟨_, windowResult_next hcan hs hw hf hcheck, ?_, ?_⟩
      · intro id hid a ha
        rw [settle_acc]
        refine windowWrites_pass w.members (a := a) ?_ (.inl hid)
        exact (Dev.acc_congr ((Dev.sendWchk_touches (s.dev.popsWindow g.toNat) g.toNat .pass).keeps .accs) id).trans ha
      · intro hrx hc hq
        refine settle_drive ?_
        refine (Touches.forAllAfter (as := [.accs]) (fun id e => Dev.windowWrite_touches .pass id e) (.refl _)).drive.subset ?_
        exact Dev.sendWchk_sends (d := s.dev.popsWindow g.toNat) hcan.ports hrx.1 hc hq .pass
    · intro htag
      have hcheck : w.check = .tagFail := by
        unfold WWin.check
        rw [husable, if_neg (by simp), if_neg (by rw [htk]; exact htag)]
      refine ⟨_, windowResult_next hcan hs hw hf hcheck, ?_, ?_⟩
      · rw [settle_session]
        exact (Dev.wdone_deliver hrise ..).2 rfl
      · intro id hid a ha hp hv hd
        rw [settle_acc]
        refine windowWrites_fail w.members (by decide) (a := a) ?_ hp hv (.inr ⟨⟨hd, rfl⟩, hid⟩)
        exact (Dev.acc_congr ((Dev.sendWchk_touches (s.dev.popsWindow g.toNat) g.toNat .tagFail).keeps .accs) id).trans ha
  · intro g s w hcan hs hw hd ht
    have hrow : exec (.writeWindowTimeout g) s = .next (settle
        { s with dev := ({ s.dev with drive := [] } : Dev).formatWrite g.toNat }) := by
      refine ((serve_acts hs).trans (act_eq ?_) : execWriteWindowTimeout g s = _)
      unfold Dev.formatWrite
      simp only [show (({ s.dev with drive := [] } : Dev).session g.toNat).wwin = some w from hw]
      exact (if_pos ht).trans (if_pos rfl).symm
    refine ⟨_, hrow, ?_⟩
    dsimp only
    rw [settle_session]
    exact Dev.session_formatWrite (d := { s.dev with drive := [] }) hcan.sessions hd

end

/-! O13. The entries of RLPC, RTAG and the timeout of read windows (spec/02 R46, R47, spec/07 R185, R186). -/

namespace Sys2Proof
namespace Machine

open Laws

-- each proof is small and there are many: elaborated one after the other they need one thread
set_option Elab.async false

/-! ### The rows of RLPC -/

/-- The block once an RLPC entry has used its credit. -/
def Dev.takesRlpc (d : Dev) (p : Nat) : Dev := { d with drive := [] }.setPort p { d.port p with rlpc := (d.port p).rlpc - 1 }

/-- What an entry of RLPC leaves of the sessions and the accesses. -/
theorem rlpc_fabs {p : Fin 8} {s : State} {f : Dev → Dev} {o : Host.Outcome State Fault Refusal} (ho : o = s.rlpc p f) (htx :
    TxRuns p s)
    (hsafe : s.safe.active = false) (hw : (s.dev.port p).rlpc ≠ 0) :
    ∃ t, o = .next t ∧ (∀ g, t.dev.session g = (f (s.dev.takesRlpc p)).session g) ∧ ∀ id, t.dev.acc id = (f (s.dev.takesRlpc
      p)).acc id := by
  obtain ⟨hf, hc⟩ := htx
  have hrow : s.rlpc p f = .next (settle { s with dev := (f (s.dev.takesRlpc p)).giveCredits p 0 0 0 1 }) := by
    refine act_eq (.trans (if_neg ?_) (.trans (if_neg (c := (({ s.dev with drive := [] } : Dev).port p).rlpc = 0) hw) (if_neg
      ?_)))
    · simp [show ({ s.dev with drive := [] } : Dev).up (domFtx p) = true from hf, show ({ s.dev with drive := [] } : Dev).up
        domCore = true from hc]
    · simp [hsafe]
  have hgive := Dev.giveCredits_touches (f (s.dev.takesRlpc p)) p 0 0 0 1
  exact ⟨_, ho.trans hrow, fun g => (settle_session _ g).trans (Dev.session_congr (hgive.keeps .sessions) g),
    fun id => (settle_acc _ id).trans (Dev.acc_congr (hgive.keeps .accs) id)⟩

/-! ### A window takes effect -/

theorem Dev.sessKey_congr {d e : Dev} (h : e.key = d.key) (g dir k : Nat) : e.sessKey g dir k = d.sessKey g dir k := by
  rw [Dev.sessKey, Dev.regKey, h, Dev.sessKey, Dev.regKey]

theorem Dev.waitingReads_congr {d e : Dev} (h : e.fab.accs = d.fab.accs) (g : Nat) : e.waitingReads g = d.waitingReads g := by
  rw [Dev.waitingReads, h, Dev.waitingReads]

/-- The read window that an OPEN queues. -/
def openedRead (d : Dev) (e : BitVec 128) : RWin :=
  { id := d.seq, k := flag (e.getLsbD 5), aadn := (e.extractLsb' 8 2).toNat,
    count := (e.extractLsb' 16 8).toNat + 1, iv := lpcWord e, lane := d.windowLane.1, active := false, tk := default, aad := [],
    placed := 0, members := [], sent := 0, cts := [], fullAt := 0 }

/-- A window that is the only one takes effect at once when its key register holds a key. -/
theorem windowEffects_activates {d : Dev} (h : Tab.rising d.fab.sessions) {g n : Nat} {w : RWin} {key : BitVec 256}
    (hw : (d.session g).rwins = [w]) (hp : w.placed < w.count) (ha : w.active = false) (hk : d.sessKey g 1 w.k = some key) :
    ∃ e, Dev.windowEffects (n + 1) g d = Dev.windowEffects n g e ∧ Tab.rising e.fab.sessions ∧ e.key = d.key ∧ e.mgt = d.mgt ∧
      e.fab.accs = d.fab.accs ∧
      e.session g = { d.session g with txK := w.k, rwins := [{ w with active := true, tk := tagKey key w.iv }] } := by
  refine ⟨d.updSession g fun s => { s with txK := w.k, rwins := s.rwins.map fun x =>
      if x.id = w.id then { x with active := true, tk := tagKey key w.iv } else x }, ?_, put_rising _ _ h, rfl, rfl, rfl, ?_⟩
  · rw [Dev.windowEffects, hw]
    simp [hp, ha, hk]
  · rw [Dev.session_updSession h, hw]
    simp

/-- A window in effect with no read that waits. -/
theorem windowEffects_idle {d : Dev} {g n : Nat} (hw : ∀ w ∈ (d.session g).rwins, w.active = true) (hr : d.waitingReads g = [])
    :
    Dev.windowEffects n g d = d := by
  cases n with
  | zero => rfl
  | succ n =>
    rw [Dev.windowEffects]
    cases hf : (d.session g).rwins.find? fun w => decide (w.placed < w.count) with
    | none => rfl
    | some w => simp [hw w (List.mem_of_find?_eq_some hf), hr]

/-- The only read that waits is placed; none waits after it. -/
theorem windowEffects_places {d : Dev} (h : Tab.rising d.fab.sessions) {g n id : Nat} {w : RWin} {a : Access} {key : BitVec 256}
    (hw : (d.session g).rwins = [w]) (hp : w.placed < w.count) (ha : w.active = true) (hk : d.sessKey g 1 w.k = some key)
    (hr : d.waitingReads g = [id]) (hacc : d.acc id = some a) :
    ∃ b, (Dev.windowEffects (n + 1) g d).acc id = some b ∧ b.stage = .lane ∧ b.verified = true ∧
      b.rdata = linkCrypt key w.iv w.placed (if a.fresh then 0 else d.plain a.slot a.mode a.line a.ctr a.beat) := by
  have hstep : Dev.windowEffects (n + 1) g d = Dev.windowEffects n g (d.placeIn g w id) := by
    rw [Dev.windowEffects, hw]
    simp [hp, ha, hr]
  rw [hstep]
  unfold Dev.placeIn
  rw [hacc, hk]
  dsimp only
  have hb := Dev.acc_updAcc (d := d.updSession g fun s => { s with rwins := s.rwins.map fun x => if x.id = w.id then
      { w with placed := w.placed + 1, members := w.members ++ [id],
               cts := w.cts ++ [linkCrypt key w.iv w.placed (if a.fresh then 0 else d.plain a.slot a.mode a.line a.ctr a.beat)],
               fullAt := if w.placed + 1 = w.count then d.mgt.tref else w.fullAt } else x })
    (f := fun a' =>
      { a' with rwin := some w.id, rdata := linkCrypt key w.iv w.placed (if a.fresh then 0 else d.plain a.slot a.mode a.line a.ctr a.beat), stage := .lane, pass := if a'.fresh then .zeroRead else .read, verified := true }) (by intro; rfl) (id := id) hacc
  rw [windowEffects_idle]
  · exact ⟨_, hb, rfl, rfl, rfl⟩
  · intro x hx
    rw [show ∀ (e : Dev) f, ((e.updAcc id f).session g) = e.session g from fun _ _ => rfl, Dev.session_updSession h, hw] at hx
    simp only [List.map_singleton, List.mem_singleton] at hx
    exact hx ▸ ha
  · have hids : ∀ x ∈ d.fab.accs, x.stage = .waitWindow → x.sess = g → x.id = id := by
      intro x hx h1 h2
      have hm : x.id ∈ d.waitingReads g := List.mem_map.mpr ⟨x, List.mem_filter.mpr ⟨hx, by simp [h1, h2]⟩, rfl⟩
      rw [hr] at hm
      exact List.mem_singleton.mp hm
    refine List.map_eq_nil_iff.mpr (List.filter_eq_nil_iff.mpr fun x hx => ?_)
    obtain ⟨y, hy, rfl⟩ := List.mem_map.mp hx
    split
    · simp
    · next hne =>
      intro hc
      simp at hc
      exact hne (hids y hy hc.1 hc.2)

theorem Dev.windowLane_eq (d : Dev) : ∃ n, d.windowLane.2 = { d with fab.laneRot := n } := by
  unfold Dev.windowLane
  dsimp only
  split
  · exact ⟨_, rfl⟩
  · exact ⟨d.fab.laneRot, rfl⟩

/-- An OPEN of a session without windows puts its window in effect. -/
theorem opensRead {d : Dev} (h : Tab.rising d.fab.sessions) {g : Nat} {e : BitVec 128} {key : BitVec 256} (hnone : (d.session
    g).rwins = [])
    (hk : d.sessKey g 1 (flag (e.getLsbD 5)) = some key) :
    ∃ y n, ((d.windowLane.2.bump).updSession g fun x => { x with rwins := x.rwins ++ [openedRead d e] }).effects g =
      Dev.windowEffects (n + 1) g y ∧
      Tab.rising y.fab.sessions ∧ y.key = d.key ∧ y.fab.accs = d.fab.accs ∧ y.session g = { d.session g with
        txK := flag (e.getLsbD 5), rwins := [{ openedRead d e with active := true, tk := tagKey key (lpcWord e) }] } := by
  obtain ⟨n, hn⟩ := d.windowLane_eq
  generalize hx : (d.windowLane.2.bump).updSession g (fun x => { x with rwins := x.rwins ++ [openedRead d e] }) = x
  rw [hn] at hx
  have hs : x.session g = { d.session g with rwins := [openedRead d e] } := by
    rw [← hx]
    refine (Dev.session_updSession (d := ({ d with fab.laneRot := n } : Dev).bump) h g _).trans ?_
    show ({ d.session g with rwins := (d.session g).rwins ++ [openedRead d e] } : Session) = _
    rw [hnone]
    rfl
  have hr : Tab.rising x.fab.sessions := hx ▸ put_rising _ _ h
  have hkey : x.key = d.key := hx ▸ rfl
  unfold Dev.effects
  obtain ⟨y, hy, h1, h2, -, h3, h4⟩ := windowEffects_activates (n := (d.waitingReads g).length + 2) (w := openedRead d e) hr
    (by rw [hs]) (Nat.succ_pos _) rfl ((Dev.sessKey_congr hkey ..).trans hk)
  have hfuel : 2 * (x.session g).rwins.length + (x.waitingReads g).length + 1 = (d.waitingReads g).length + 2 + 1 := by
    rw [hs, Dev.waitingReads_congr (show x.fab.accs = d.fab.accs from hx ▸ rfl)]
    simp
    omega
  rw [hfuel]
  exact ⟨y, _, hy, h1, h2.trans hkey, h3.trans (hx ▸ rfl), h4.trans (by rw [hs]; rfl)⟩

/-! ### A FORMAT error on RLPC -/

theorem Dev.rwins_endReadWindow {d : Dev} (h : Tab.rising d.fab.sessions) (g : Nat) (w : RWin) (err : Bool) :
    (d.endReadWindow g w err).session g = { d.session g with rwins := (d.session g).rwins.filter fun x => x.id ≠ w.id } ∧
      Tab.rising (d.endReadWindow g w err).fab.sessions := by
  have hs := Dev.session_updSession h g fun s => { s with rwins := s.rwins.filter fun x => x.id ≠ w.id }
  unfold Dev.endReadWindow
  dsimp only
  generalize he : (d.updSession g fun s => { s with rwins := s.rwins.filter fun x => x.id ≠ w.id }) = e at hs
  have hr : Tab.rising e.fab.sessions := he ▸ put_rising _ _ h
  have hsend : (if ((!err || decide (0 < w.placed)) && !(e.mgt.pfWarn && decide (w.placed < w.count))) = true then e.sendRtag g
      0 else e).fab.sessions =
      e.fab.sessions := by
    split
    · exact (Dev.sendRtag_touches e g 0).keeps .sessions
    · rfl
  generalize (if ((!err || decide (0 < w.placed)) && !(e.mgt.pfWarn && decide (w.placed < w.count))) = true then e.sendRtag g 0
    else e) = x at hsend
  have hx : x.session g = _ := (Dev.session_congr hsend g).trans hs
  split <;> exact ⟨hx, hsend ▸ hr⟩

/-- Each window that is named ends; what else a session holds stays. -/
theorem rwins_endAll (ws : List RWin) {d : Dev} (h : Tab.rising d.fab.sessions) (g : Nat) (err : Bool) :
    (forAll ws (fun w e => e.endReadWindow g w err) d).session g =
      { d.session g with rwins := (d.session g).rwins.filter fun x => ws.all fun w => x.id ≠ w.id } := by
  unfold forAll
  induction ws generalizing d with
  | nil => simp
  | cons w r ih =>
    obtain ⟨h1, h2⟩ := Dev.rwins_endReadWindow h g w err
    rw [List.foldl_cons, ih h2, h1]
    simp only [List.filter_filter, List.all_cons, Bool.and_comm]

/-- A FORMAT error on RLPC fails the transmit direction and leaves it no window. -/
theorem Dev.session_formatRead {d : Dev} (h : Tab.rising d.fab.sessions) (g : Nat) :
    ((d.formatRead g).session g).txFailed = true ∧ ((d.formatRead g).session g).rwins = [] := by
  unfold Dev.formatRead
  dsimp only
  have hs : ((d.updSession g fun s => { s with txFailed := true }).raise bFab (256 + g)).session g =
      { d.session g with txFailed := true } :=
    Dev.session_updSession h g _
  generalize he : (d.updSession g fun s => { s with txFailed := true }).raise bFab (256 + g) = e at hs
  have hr : Tab.rising e.fab.sessions := he ▸ put_rising _ _ h
  have hend := rwins_endAll (e.session g).rwins hr g true
  generalize (forAll (e.session g).rwins fun w e => e.endReadWindow g w true) e = x at hend
  have hlast : (forAll (x.unplacedReads g) (fun id e => e.outcome id .linkError) x).session g = x.session g :=
    Dev.session_congr (Touches.keeps (as := [.accs]) (.forAllAfter (fun id e => Dev.outcome_touches e id .linkError) (.refl x))
      .sessions) g
  rw [hlast, hend]
  refine ⟨congrArg Session.txFailed hs, List.filter_eq_nil_iff.mpr fun w hw hall => ?_⟩
  simpa using List.all_eq_true.mp hall w hw

/-! ### RTAG -/

/-- The tag at the head of RTAG leaves when a credit is there. -/
theorem pumpRtag_sends {d : Dev} {p n i : Nat} {t : BitVec 96} {q : List (Nat × BitVec 96)} (hq : (d.port p).rtagq = (i, t) ::
    q)
    (hc : (d.port p).rtag ≠ 0) (hup : d.up (domFtx p) = true) : .rtag p i t ∈ (pumpRtag (n + 1) p d).drive := by
  unfold pumpRtag
  dsimp only
  rw [hq]
  dsimp only
  rw [if_neg (by simp [hc, hup])]
  exact (pumpRtag_touches n p _).drive.subset (List.mem_append_right _ (List.mem_singleton_self _))

/-- A tag that finds a credit and nothing before it leaves at once. -/
theorem Dev.sendRtag_sends {d : Dev} {g : Nat} (hp : Tab.rising d.fab.ports) (hup : d.up (domFtx (g / 32)) = true) (hc : (d.port
    (g / 32)).rtag ≠ 0)
    (hq : (d.port (g / 32)).rtagq = []) (t : BitVec 96) : .rtag (g / 32) (g % 32) t ∈ (d.sendRtag g t).drive := by
  have hport : (d.setPort (g / 32) { d.port (g / 32) with rtagq := (d.port (g / 32)).rtagq ++ [(g % 32, t)] }).port (g / 32) =
      { d.port (g / 32) with rtagq := [(g % 32, t)] } := by
    rw [hq]
    exact get_put_self_rising _ _ hp
  have hlen : ((d.setPort (g / 32) { d.port (g / 32) with rtagq := (d.port (g / 32)).rtagq ++ [(g % 32, t)] }).port (g /
      32)).rtagq.length = 1 := by
    rw [hport]
    rfl
  unfold Dev.sendRtag
  dsimp only
  rw [hlen]
  refine pumpRtag_sends (q := []) ?_ ?_ hup
  · rw [hport]
  · rw [hport]
    exact hc

end Machine
end Sys2Proof

section
open Sys2Proof Sys2Proof.Machine Sys2Proof.Laws
set_option Elab.async false

/-- Settles O13: each row by what it makes of the windows of its session and of the reads that wait. -/
theorem readWindowRows : Obligations.ReadWindowRows := by
  unfold Obligations.ReadWindowRows
  refine ⟨?_, ?_, ?_, ?_⟩
  · intro p e s key hcan htx hsafe hcredit hfail hok hnone hkey
    obtain ⟨t, hrow, hsess, hacc⟩ := rlpc_fabs (o := execRlpcOpen p e s) rfl htx hsafe hcredit
    obtain ⟨y, n, hy, hr, hk, haccs, hs⟩ := opensRead (d := s.dev.takesRlpc p) hcan.sessions (e := e) hnone hkey
    dsimp only at hsess hacc
    rw [show ((s.dev.takesRlpc p).session (lpcSess p e)).txFailed = false from hfail, hok, if_neg (by simp), if_neg
      (by simp)] at hsess hacc
    have hsess' := (hsess (lpcSess p e)).trans (congrArg (Dev.session · (lpcSess p e)) hy)
    constructor
    · intro hwait
      rw [windowEffects_idle (by rw [hs]; simp) ((Dev.waitingReads_congr haccs _).trans hwait), hs] at hsess'
      refine ⟨t, hrow, ?_⟩
      dsimp only
      rw [hsess']
      exact ⟨rfl, _, rfl, rfl, rfl, rfl, rfl, rfl, rfl, rfl⟩
    · intro id a hwait ha
      have hkey' : y.sessKey (lpcSess p e) 1 (flag (e.getLsbD 5)) = some key := (Dev.sessKey_congr hk ..).trans hkey
      obtain ⟨b, hb, h1, h2, h3⟩ := windowEffects_places (n := n) hr (by rw [hs]) (Nat.succ_pos _) rfl hkey'
        ((Dev.waitingReads_congr haccs _).trans hwait) ((Dev.acc_congr haccs _).trans ha)
      refine ⟨t, hrow, b, (hacc id).trans ((congrArg (Dev.acc · id) hy).trans hb), h1, h2, h3.trans ?_⟩
      simp only [Dev.plain, Dev.kslot, hk]
      rfl
  · intro p e s hcan htx hsafe hcredit hfail
    have hfail' : ((s.dev.takesRlpc p).session (lpcSess p e)).txFailed = false := hfail
    constructor
    · intro w hok hw
      obtain ⟨t, hrow, hsess, -⟩ := rlpc_fabs (o := execRlpcAad p e s) rfl htx hsafe hcredit
      refine ⟨t, hrow, ?_⟩
      have hw' : ((s.dev.takesRlpc p).session (lpcSess p e)).rwins.find? (fun w => decide (w.aad.length < w.aadn * w.count)) =
          some w := hw
      dsimp only at hsess ⊢
      rw [hsess, hfail', hok, hw']
      exact congrArg Session.rwins (Dev.session_updSession (d := s.dev.takesRlpc p) hcan.sessions (lpcSess p e) _)
    · intro ty hty
      obtain ⟨t, hrow, hsess, -⟩ := rlpc_fabs (o := execRlpcFormatError p ty e s) rfl htx hsafe hcredit
      refine ⟨t, hrow, ?_⟩
      dsimp only at hsess ⊢
      rw [hsess, hfail', if_neg (by simp), if_pos (by simp [hty])]
      exact Dev.session_formatRead (d := s.dev.takesRlpc p) hcan.sessions _
  · intro g s w k hcan hs htx hw hsent haad hpf htk hc hq
    refine ⟨_, ((serve_acts hs).trans (act_eq rfl) : execRtag g s = _), settle_drive ?_⟩
    have hw' : (({ s.dev with drive := [] } : Dev).session g.toNat).rwins = [w] := hw
    dsimp only
    rw [hw']
    dsimp only
    rw [if_pos ⟨hsent, haad, by simp [hpf]⟩, htk]
    refine (Dev.effects_touches _ g.toNat).drive.subset ?_
    exact Dev.sendRtag_sends (d := ({ s.dev with drive := [] } : Dev).updSession g.toNat _) hcan.ports htx.1 hc hq _
  · intro g s hcan hs
    constructor
    · intro id a ha hst hsess ht
      have ha' : ({ s.dev with drive := [] } : Dev).acc id = some a := ha
      have hrow : exec (.readWindowWaitTimeout g (some id)) s = .next (settle
          { s with dev := ({ s.dev with drive := [] } : Dev).outcome id .linkError }) := by
        refine ((serve_acts hs).trans (act_eq ?_) : execReadWindowWaitTimeout g (some id) s = _)
        dsimp only
        rw [ha']
        exact if_pos ⟨hst, hsess, ht⟩
      refine ⟨_, hrow, _, (settle_acc _ _).trans (Dev.acc_outcome .linkError ha' (by simp [hst])), rfl, rfl⟩
    · intro w hw hfull haad ht
      have hrow : exec (.readWindowWaitTimeout g none) s = .next (settle
          { s with dev := ({ s.dev with drive := [] } : Dev).formatRead g.toNat }) := by
        refine ((serve_acts hs).trans (act_eq (if_pos ?_)) : execReadWindowWaitTimeout g none s = _)
        refine List.any_eq_true.mpr ⟨w, hw, ?_⟩
        rw [Bool.and_eq_true]
        exact ⟨decide_eq_true ⟨hfull, haad⟩, ht⟩
      refine ⟨_, hrow, ?_⟩
      dsimp only
      rw [settle_session]
      exact Dev.session_formatRead (d := { s.dev with drive := [] }) hcan.sessions _

end

/-! O14. Completions that are driven, and credits that come back (spec/02 R32, R38-R40, R50, R57; spec/04 R119, R120). -/

namespace Sys2Proof
namespace Machine

open Laws

-- each proof is small and there are many: elaborated one after the other they need one thread
set_option Elab.async false

/-! ### The accesses that are there -/

/-- The ids of the accesses. -/
def Dev.ids (d : Dev) : List Nat := d.fab.accs.map (·.id)

theorem Dev.acc_eq_none {d : Dev} {id : Nat} : d.acc id = none ↔ id ∉ d.ids := by
  simp [Dev.acc, Dev.ids, List.find?_eq_none]

theorem Dev.ids_congr {d e : Dev} (h : e.fab.accs = d.fab.accs) : e.ids = d.ids := by
  rw [Dev.ids, h, Dev.ids]

theorem Dev.ids_updAcc {d : Dev} {i : Nat} {f : Access → Access} (hf : ∀ x, (f x).id = x.id) : (d.updAcc i f).ids = d.ids := by
  show (d.fab.accs.map _).map _ = d.fab.accs.map _
  rw [List.map_map]
  refine List.map_congr_left fun a _ => ?_
  dsimp only [Function.comp]
  split
  · exact hf a
  · rfl

theorem Dev.ids_outcome (d : Dev) (i : Nat) (st : Status) : (d.outcome i st).ids = d.ids :=
  Dev.ids_updAcc (by intro x; split <;> rfl)

theorem Dev.ids_arrive (d : Dev) (i : Nat) : (d.arrive i).ids = d.ids :=
  Dev.ids_updAcc (by intro x; rfl)

theorem Dev.ids_tryArrive (d : Dev) (i : Nat) : (d.tryArrive i).ids = d.ids := by
  unfold Dev.tryArrive
  split
  · rfl
  · split
    · rfl
    · split
      · rfl
      · split
        · exact d.ids_arrive i
        · rfl
      · exact d.ids_arrive i
      · exact d.ids_outcome i _

theorem Dev.ids_refuse (d : Dev) (i : Nat) : (d.refuse i).ids = d.ids := by
  unfold Dev.refuse
  split
  · rfl
  · split
    · exact d.ids_outcome i _
    · split
      · exact d.ids_outcome i _
      · exact d.ids_outcome i _
      · exact Dev.ids_updAcc (by intro x; rfl)

theorem Dev.ids_park (d : Dev) (i p : Nat) (sid kid : BitVec 16) (b : Bool) (hit : SEntry) (first : Nat) :
    (d.park i p sid kid b hit first).ids = d.ids := by
  unfold Dev.park
  split
  · exact Dev.ids_refuse _ i
  · split
    · exact Dev.ids_refuse _ i
    · generalize hd : (d.updAcc i fun a =>
        { a with stage := .parked, parkedAt := first, released := false, parkNo := a.parkNo.orElse fun _ => some d.seq }) = e
      have he : e.ids = d.ids := hd ▸ Dev.ids_updAcc (by intro x; rfl)
      refine (Dev.ids_congr ?_).trans he
      exact Kept.trans (a := .accs) ((Dev.learn_touches e.bump p sid kid b hit).keeps .accs) ((Dev.syncFilter_touches _ sid
        kid).keeps .accs)

theorem Dev.ids_admission (d : Dev) (i : Nat) (chk : List Chk) (first : Nat) : (d.admission i chk first).ids = d.ids := by
  unfold Dev.admission
  split
  · rfl
  · next a _ =>
    have hl : ((d.lookups a.sid a.kid a.line chk).1.zoneRead ((d.lookups a.sid a.kid a.line chk).1.judgeKeys
        (match a.origin with | .port p => p | .step _ => 0) a.kid (d.lookups a.sid a.kid a.line chk).2.1
        (d.lookups a.sid a.kid a.line chk).2.2).zoned chk).ids = d.ids :=
      Dev.ids_congr (Kept.trans (a := .accs) ((Dev.lookups_touches d a.sid a.kid a.line chk).keeps .accs) ((Dev.zoneRead_touches
        _ _ chk).keeps .accs))
    dsimp only
    split
    · exact (Dev.ids_refuse _ i).trans hl
    · exact (Dev.ids_park ..).trans hl
    · exact (Dev.ids_park ..).trans hl
    · split
      · exact (Dev.ids_tryArrive _ i).trans ((Dev.ids_updAcc (by intro x; rfl)).trans hl)
      · exact (Dev.ids_arrive _ i).trans ((Dev.ids_updAcc (by intro x; rfl)).trans hl)

/-- Bringing requests to admission makes no access and ends none. -/
theorem Dev.ids_process (d : Dev) (i : Nat) : (d.process i).ids = d.ids := by
  unfold Dev.process
  split
  · rfl
  · dsimp only
    split
    · exact (Dev.ids_congr ((Dev.giveCredits_touches ..).keeps .accs)).trans (Dev.ids_outcome ..)
    · split
      · exact Dev.ids_congr ((Dev.noteHold_touches d).keeps .accs)
      · exact (Dev.ids_congr ((Dev.credited_touches ..).keeps .accs)).trans (Dev.ids_admission ..)

theorem Dev.ids_retryReceived (d : Dev) : d.retryReceived.ids = d.ids := by
  have hloop (l : List Nat) (e : Dev) : (forAll l (fun id e => e.process id) e).ids = e.ids := by
    unfold forAll
    induction l generalizing e with
    | nil => rfl
    | cons i r ih => exact (ih _).trans (Dev.ids_process e i)
  exact hloop _ d

/-! ### A completion that is driven -/

/-- A completion is driven with its status, and its access leaves. -/
theorem Dev.respond_drives (d : Dev) (a : Access) (p : Nat) (st : Status) :
    (d.respond a p st).acc a.id = none ∧
      (if a.isWrite || a.reserved then .rsp p a.tag st else .rdat p a.tag st (if st = .ok then a.rdata else 0)) ∈ (d.respond a p
        st).drive := by
  unfold Dev.respond
  refine ⟨?_, ?_⟩
  · refine Dev.acc_eq_none.mpr fun h => ?_
    obtain ⟨b, hb, hid⟩ := List.mem_map.mp h
    simpa [hid] using (List.mem_filter.mp hb).2
  · dsimp only
    have hm (e : Dev) : (if a.isWrite || a.reserved then Transfer.rsp p a.tag st else .rdat p a.tag st (if st = .ok then a.rdata
        else 0)) ∈
        (e.emit (if a.isWrite || a.reserved then .rsp p a.tag st else .rdat p a.tag st (if st = .ok then a.rdata else 0))).drive
          :=
      List.mem_append_right _ (List.mem_singleton_self _)
    split <;> exact hm _

/-- What becomes of a completion of a port, in the safe state or outside it. -/
def Dev.completes (d : Dev) (safe : Bool) (a : Access) (p : Nat) : Dev :=
  if safe then
    if d.canRespond { a with stage := .done, rwin := none } p false then d.respond { a with rwin := none } p .poisoned else d
  else if !d.canRespond a p true then d else ((d.respond a p a.status).noteHold).retryReceived

/-- What the row does with an access of a port whose completion no reset has discarded. -/
theorem responseTransfer_next {id : Nat} (err : Bool) {s : State} {a : Access} {p : Nat} (ha : s.dev.acc id = some a)
    (ho : a.origin = .port p) (hd : a.dropped = false) : ∃ d : Dev, (∀ b l, d.canRespond b p l = s.dev.canRespond b p l) ∧
      exec (.responseTransfer id err) s = .next (settle { s with dev := d.completes s.safe.active a p }) := by
  generalize hx : (if err && (({ s.dev with drive := [] } : Dev).acc id).isSome then ({ s.dev with drive := [] } : Dev).raise
    bFab 520
    else ({ s.dev with drive := [] } : Dev)) = x
  have hacc : x.acc id = some a := by
    rw [← hx]
    split <;> exact ha
  refine ⟨x, fun b l => ?_, (act_eq ?_ : execResponseTransfer id err s = _)⟩
  · rw [← hx]
    split <;> rfl
  · dsimp only
    rw [hx, hacc]
    simp only [ho, hd, Bool.false_eq_true, if_false]
    rfl

/-! ### Credits of the fabric -/

/-- A tag that waits leaves with the credit that comes. -/
theorem pumpRtag_one {d : Dev} {p i : Nat} {t : BitVec 96} {q : List (Nat × BitVec 96)} (hq : (d.port p).rtagq = (i, t) :: q)
    (hc : (d.port p).rtag ≠ 0) (hup : d.up (domFtx p) = true) :
    pumpRtag 1 p d = (d.setPort p { d.port p with rtagq := q, rtag := (d.port p).rtag - 1 }).emit (.rtag p i t) := by
  unfold pumpRtag
  dsimp only
  rw [hq]
  dsimp only
  rw [if_neg (by simp [hc, hup])]
  rfl

theorem pumpWchk_one {d : Dev} {p i : Nat} {r : WResult} {q : List (Nat × WResult)} (hq : (d.port p).wchkq = (i, r) :: q)
    (hc : (d.port p).wchk ≠ 0) (hup : d.up (domFrx p) = true) :
    pumpWchk 1 p d = (d.setPort p { d.port p with wchkq := q, wchk := (d.port p).wchk - 1 }).emit (.wchk p i r) := by
  unfold pumpWchk
  dsimp only
  rw [hq]
  dsimp only
  rw [if_neg (by simp [hc, hup])]
  rfl

theorem pumpRtag_empty {d : Dev} {p n : Nat} (hq : (d.port p).rtagq = []) : pumpRtag n p d = d := by
  cases n with
  | zero => rfl
  | succ n =>
    unfold pumpRtag
    dsimp only
    rw [hq]

theorem pumpWchk_empty {d : Dev} {p n : Nat} (hq : (d.port p).wchkq = []) : pumpWchk n p d = d := by
  cases n with
  | zero => rfl
  | succ n =>
    unfold pumpWchk
    dsimp only
    rw [hq]

/-! ### Credits of a media channel -/

/-- A command that is outstanding stays so under its tag while others are issued. -/
theorem pumpChan_keeps_tag (ms : List MCmd) (n : Nat) (d : Dev) (hc : Tab.rising d.med.ch) {m : MCmd} {t : Nat}
    (h : (d.chan n).out.get t = some m) : ((pumpChan ms n d).chan n).out.get t = some m := by
  induction ms generalizing d with
  | nil => rwa [pumpChan, chan_setChan _ _ _ hc]
  | cons x r ih =>
    rw [pumpChan]
    split
    · next i hi =>
      obtain ⟨hc', hout⟩ := issueMedia_chan d n i x hc
      refine ih _ hc' ?_
      have hti : t ≠ i := by
        rintro rfl
        unfold Channel.mayIssue at hi
        split at hi
        · cases hi
        · exact absurd (h.symm.trans (get_unlisted (unused_not_listed hi))) (by simp [default])
      rw [hout, Tab.get_put_other _ hti]
      exact h
    · rwa [chan_setChan _ _ _ hc]

/-- The first command that waits goes out under the tag that is free, once the credits it takes are there. -/
theorem pumpMedia_sends {d : Dev} {n t : Nat} {m : MCmd} {ms : List MCmd} (hc : Tab.rising d.med.ch) (ho : Tab.rising (d.chan
    n).out)
    (hw : (d.chan n).waiting = m :: ms) (ht : (d.chan n).freeTag = some t) (hcmd : (d.chan n).mcmd ≠ 0)
    (hwd : m.isWrite = true → (d.chan n).mwd ≠ 0) :
    .mcmd n m.op t m.addr ∈ (d.pumpMedia n).drive ∧ ((d.pumpMedia n).chan n).out.get t = some m ∧
      (m.isWrite = true → .mwd n m.beat ∈ (d.pumpMedia n).drive) := by
  have hmay : (d.chan n).mayIssue m = some t := by
    unfold Channel.mayIssue
    rw [if_neg, ht]
    simpa [hcmd] using hwd
  have hstep : d.pumpMedia n = pumpChan ms n (d.issueMedia n t m) := by
    rw [Dev.pumpMedia, hw, pumpChan, hmay]
  obtain ⟨hc', hout⟩ := issueMedia_chan d n t m hc
  have hdrive := (pumpChan_touches ms n (d.issueMedia n t m)).drive
  rw [hstep]
  refine ⟨hdrive.subset ?_, ?_, fun h => hdrive.subset ?_⟩
  · unfold Dev.issueMedia
    dsimp only
    split
    · exact List.mem_append_left _ (List.mem_append_right _ (List.mem_singleton_self _))
    · exact List.mem_append_right _ (List.mem_singleton_self _)
  · refine pumpChan_keeps_tag ms n _ hc' ?_
    rw [hout]
    exact get_put_self_rising t _ ho
  · unfold Dev.issueMedia
    dsimp only
    rw [if_pos h]
    exact List.mem_append_right _ (List.mem_singleton_self _)

theorem pumpMedia_empty {d : Dev} {n : Nat} (hc : Tab.rising d.med.ch) (hw : (d.chan n).waiting = []) : (d.pumpMedia n).chan n =
    d.chan n := by
  rw [Dev.pumpMedia, hw, pumpChan, chan_setChan _ _ _ hc, ← hw]

theorem settle_chan (s : State) (n : Nat) : (settle s).dev.chan n = s.dev.chan n := by
  rw [Dev.chan, settle_med, Dev.chan]

/-! ### Credits of HDMA -/

theorem settle_wrCredit (s : State) : (settle s).dev.qmg.wrCredit = s.dev.qmg.wrCredit :=
  (settle_same s .hdma).1

theorem settle_rdCredit (s : State) : (settle s).dev.qmg.rdCredit = s.dev.qmg.rdCredit :=
  (settle_same s .hdma).2.1

/-- The first write that waits goes out under the tag that is free, stamped with its time. -/
theorem pumpHdma_sends_write {d : Dev} {w : HWr} {r : List HWr} {t : Nat} (hup : d.up domHdma = true) (hw : d.qmg.wrWait = w ::
    r)
    (ht : Tab.unused d.qmg.wrOut 256 = some t) (hc : d.qmg.wrCredit ≠ 0) : (d.stampWr w).transfer t ∈ d.pumpHdma.drive := by
  unfold Dev.pumpHdma
  rw [if_pos hup, hw]
  have hstep : pumpWr (w :: r) d = pumpWr r (d.driveWr t w) := by
    rw [pumpWr, ht]
    exact if_neg hc
  refine (pumpRd_touches _ _).drive.subset ?_
  rw [hstep]
  refine (pumpWr_touches r _).drive.subset ?_
  unfold Dev.driveWr
  exact (Dev.recordIssued_touches _ _).drive.subset (List.mem_append_right _ (List.mem_singleton_self _))

/-- Issuing writes leaves the reads as they are. -/
theorem pumpWr_reads (ws : List HWr) (d : Dev) : (pumpWr ws d).qmg.rdWait = d.qmg.rdWait ∧ (pumpWr ws d).qmg.rdOut = d.qmg.rdOut
    ∧
    (pumpWr ws d).qmg.rdCredit = d.qmg.rdCredit := by
  induction ws generalizing d with
  | nil => exact ⟨rfl, rfl, rfl⟩
  | cons w r ih =>
    have hdr (t : Nat) : (d.driveWr t w).qmg.rdWait = d.qmg.rdWait ∧ (d.driveWr t w).qmg.rdOut = d.qmg.rdOut ∧
        (d.driveWr t w).qmg.rdCredit = d.qmg.rdCredit := by
      unfold Dev.driveWr Dev.recordIssued
      dsimp only
      split <;> exact ⟨rfl, rfl, rfl⟩
    rw [pumpWr]
    split
    · next t _ =>
      split
      · exact ⟨rfl, rfl, rfl⟩
      · obtain ⟨h1, h2, h3⟩ := ih (d.driveWr t w)
        obtain ⟨k1, k2, k3⟩ := hdr t
        exact ⟨h1.trans k1, h2.trans k2, h3.trans k3⟩
    · exact ⟨rfl, rfl, rfl⟩

/-- The first read that waits goes out under the tag that is free. -/
theorem pumpHdma_sends_read {d : Dev} {w : HRd} {r : List HRd} {t : Nat} (hup : d.up domHdma = true) (hw : d.qmg.rdWait = w ::
    r)
    (ht : Tab.unused d.qmg.rdOut 256 = some t) (hc : d.qmg.rdCredit ≠ 0) : w.transfer t ∈ d.pumpHdma.drive := by
  obtain ⟨h1, h2, h3⟩ := pumpWr_reads d.qmg.wrWait d
  unfold Dev.pumpHdma
  rw [if_pos hup]
  dsimp only
  generalize pumpWr d.qmg.wrWait d = e at h1 h2 h3
  rw [h1, hw, pumpRd, h2, ht]
  dsimp only
  rw [if_neg (by rw [h3]; exact hc)]
  exact (pumpRd_touches r _).drive.subset (List.mem_append_right _ (List.mem_singleton_self _))

/-- With nothing that waits, nothing goes out. -/
theorem pumpHdma_empty {d : Dev} (hw : d.qmg.wrWait = []) (hr : d.qmg.rdWait = []) : d.pumpHdma = d := by
  have hd : ({ d with qmg.wrWait := [] } : Dev) = d := by
    rw [← hw]
  have hd' : ({ d with qmg.rdWait := [] } : Dev) = d := by
    rw [← hr]
  unfold Dev.pumpHdma
  rw [hw, pumpWr, hd]
  dsimp only
  rw [hr, pumpRd, hd', ite_self]

/-- With no pending vector, nothing due of a DRAIN, and every DRAIN waiting, no vector moves. -/
theorem pumpVecs_empty {d : Dev} (hw : d.qmg.wrWait = []) (hr : d.qmg.rdWait = []) (hp : ∀ p ∈ d.qmg.vecs, p.2.pend = false)
    (hdue : d.qmg.drainDue = []) (hb : ∀ o ∈ d.qmg.drains, d.writesBefore o = true) : d.pumpVecs.qmg.wrCredit =
      d.qmg.wrCredit := by
  have hwhich : Tab.which d.qmg.vecs (fun x => x.pend) = [] := by
    unfold Tab.which
    simpa using hp
  have hpend : d.sendPending = d := by
    unfold Dev.sendPending
    rw [hwhich]
    rfl
  unfold Dev.pumpVecs
  rw [pumpHdma_empty hw hr, hpend]
  unfold Dev.pumpDrains
  rw [if_pos (List.all_eq_true.mpr hb)]
  dsimp only
  rw [hdue]
  show (Dev.noteDrained d d).qmg.wrCredit = _
  unfold Dev.noteDrained
  split <;> rfl

end Machine
end Sys2Proof

section
open Sys2Proof Sys2Proof.Machine Sys2Proof.Laws
set_option Elab.async false

/-- Settles O14: a completion by what its drive leaves, a credit by its counter and the head of what waits for it. -/
theorem responsesAndCredits : Obligations.ResponsesAndCredits := by
  unfold Obligations.ResponsesAndCredits
  have hcredit (c : CreditCh) (s : State) : exec (.creditReturn c) s =
      .next (settle { s with dev := ({ s.dev with drive := [] } : Dev).credit (!s.safe.active) c }) := (act_eq rfl :
        execCreditReturn c s = _)
  have hne (k : Nat) : min 255 (k + 1) ≠ 0 := by omega
  have hne' (k : Nat) : min 1024 (k + 1) ≠ 0 := by omega
  refine ⟨?_, ?_, ?_, ?_⟩
  · intro id err s a p hcan ha ho hd
    obtain ⟨d, hcr, hrow⟩ := responseTransfer_next err ha ho hd
    have hid := Dev.id_of_acc ha
    constructor
    · intro hsafe hresp
      rw [hsafe, Dev.completes, if_neg (by simp), hcr, hresp, if_neg (by simp)] at hrow
      obtain ⟨h1, h2⟩ := d.respond_drives a p a.status
      refine ⟨_, hrow, ?_, settle_drive ?_⟩
      · rw [settle_acc, ← hid]
        refine Dev.acc_eq_none.mpr ?_
        show a.id ∉ ((d.respond a p a.status).noteHold.retryReceived).ids
        rw [Dev.ids_retryReceived, Dev.ids_congr ((Dev.noteHold_touches _).keeps .accs)]
        exact Dev.acc_eq_none.mp h1
      · exact ((Dev.noteHold_touches _).drive.trans (Dev.retryReceived_touches _).drive).subset h2
    · intro hsafe hresp
      rw [hsafe, Dev.completes, if_pos rfl, hcr, hresp, if_pos rfl] at hrow
      obtain ⟨h1, h2⟩ := d.respond_drives { a with rwin := none } p .poisoned
      refine ⟨_, hrow, ?_, settle_drive h2⟩
      rw [settle_acc, ← hid]
      exact h1
  · intro p s hcan
    have hport (x : Port) : (({ s.dev with drive := [] } : Dev).setPort p x).port p = x := get_put_self_rising _ _ hcan.ports
    have hput (x : Port) : Tab.rising (({ s.dev with drive := [] } : Dev).setPort p x).fab.ports := put_rising _ _ hcan.ports
    constructor
    · intro hup
      have hup0 : ({ s.dev with drive := [] } : Dev).up (domFtx p) = true := hup
      have hup1 : ¬(!({ s.dev with drive := [] } : Dev).up (domFtx p)) = true := by simp [hup0]
      refine ⟨⟨_, hcredit _ s, ?_⟩, ⟨_, hcredit _ s, ?_⟩, fun hq => ⟨_, hcredit _ s, ?_⟩, fun g x r hsafe hq => ⟨_, hcredit _ s,
        ?_⟩⟩
      · exact (settle_port _ _).trans ((congrArg (Dev.port · p) (if_neg hup1)).trans (hport _))
      · exact (settle_port _ _).trans ((congrArg (Dev.port · p) (if_neg hup1)).trans (hport _))
      · refine (settle_port _ _).trans ((congrArg (Dev.port · p) (if_neg hup1)).trans ?_)
        dsimp only
        rw [pumpRtag_empty (by rw [hport]; exact hq), ite_self]
        exact hport _
      · have hpump := pumpRtag_one (d := ({ s.dev with drive := [] } : Dev).setPort p
          { s.dev.port p with rtag := min 255 ((s.dev.port p).rtag + 1) })
          (by rw [hport]; exact hq) (by rw [hport]; exact hne _) hup0
        have hdev : ({ s.dev with drive := [] } : Dev).credit (!s.safe.active) (.rtag p) = _ :=
          (if_neg hup1).trans ((if_pos (by rw [hsafe]; rfl)).trans hpump)
        rw [hdev]
        refine ⟨settle_drive (List.mem_append_right _ (List.mem_singleton_self _)), (settle_port _ _).trans ?_⟩
        exact (get_put_self_rising _ _ (hput _)).trans (by rw [hport])
    · intro hup
      have hup0 : ({ s.dev with drive := [] } : Dev).up (domFrx p) = true := hup
      have hup1 : ¬(!({ s.dev with drive := [] } : Dev).up (domFrx p)) = true := by simp [hup0]
      refine ⟨fun hq => ⟨_, hcredit _ s, ?_⟩, fun g x r hsafe hq => ⟨_, hcredit _ s, ?_⟩⟩
      · refine (settle_port _ _).trans ((congrArg (Dev.port · p) (if_neg hup1)).trans ?_)
        dsimp only
        rw [pumpWchk_empty (by rw [hport]; exact hq), ite_self]
        exact hport _
      · have hpump := pumpWchk_one (d := ({ s.dev with drive := [] } : Dev).setPort p
          { s.dev.port p with wchk := min 255 ((s.dev.port p).wchk + 1) })
          (by rw [hport]; exact hq) (by rw [hport]; exact hne _) hup0
        have hdev : ({ s.dev with drive := [] } : Dev).credit (!s.safe.active) (.wchk p) = _ :=
          (if_neg hup1).trans ((if_pos (by rw [hsafe]; rfl)).trans hpump)
        rw [hdev]
        refine ⟨settle_drive (List.mem_append_right _ (List.mem_singleton_self _)), (settle_port _ _).trans ?_⟩
        exact (get_put_self_rising _ _ (hput _)).trans (by rw [hport])
  · intro n s hcan hup
    have hchan (c : Channel) : (({ s.dev with drive := [] } : Dev).setChan n c).chan n = c := chan_setChan _ n c hcan.channels
    have hput (c : Channel) : Tab.rising (({ s.dev with drive := [] } : Dev).setChan n c).med.ch := put_rising _ _ hcan.channels
    have hup1 : ¬(!({ s.dev with drive := [] } : Dev).up (domMch n)) = true := by
      simp [show ({ s.dev with drive := [] } : Dev).up (domMch n) = true from hup]
    have hout : Tab.rising (s.dev.chan n).out := hcan.out n
    constructor
    · intro hw
      refine ⟨⟨_, hcredit _ s, ?_⟩, ⟨_, hcredit _ s, ?_⟩⟩
      · refine (settle_chan _ _).trans ((congrArg (Dev.chan · n) (if_neg hup1)).trans ?_)
        dsimp only
        split
        · rw [pumpMedia_empty (hput _) (by rw [hchan]; exact hw)]
          exact hchan _
        · exact hchan _
      · refine (settle_chan _ _).trans ((congrArg (Dev.chan · n) (if_neg hup1)).trans ?_)
        dsimp only
        split
        · rw [pumpMedia_empty (hput _) (by rw [hchan]; exact hw)]
          exact hchan _
        · exact hchan _
    · intro m ms tag hsafe hret hw ht
      have hsend (c : Channel) (hc : c.waiting = (s.dev.chan n).waiting ∧ c.out = (s.dev.chan n).out ∧ c.retired = (s.dev.chan
          n).retired)
          (hcmd : c.mcmd ≠ 0) (hwd : m.isWrite = true → c.mwd ≠ 0) (x : CreditCh) (hx : ({ s.dev with drive := [] } :
            Dev).credit (!s.safe.active) x =
            if (!s.safe.active && !(({ s.dev with drive := [] } : Dev).setChan n c).retired n) then
              (({ s.dev with drive := [] } : Dev).setChan n c).pumpMedia n else ({ s.dev with drive := [] } : Dev).setChan n c)
                :
          Completes (.creditReturn x) s fun t => .mcmd n m.op tag m.addr ∈ t.dev.drive ∧ (t.dev.chan n).out.get tag = some m ∧
            (m.isWrite = true → .mwd n m.beat ∈ t.dev.drive) := by
        obtain ⟨hwait, hcout, hcret⟩ := hc
        have hlive : (!s.safe.active && !(({ s.dev with drive := [] } : Dev).setChan n c).retired n) = true := by
          rw [hsafe, Dev.retired, hchan, hcret]
          simpa [Dev.retired] using hret
        obtain ⟨h1, h2, h3⟩ := pumpMedia_sends (d := ({ s.dev with drive := [] } : Dev).setChan n c) (m := m) (ms := ms) (t :=
          tag) (hput c)
          (by rw [hchan, hcout]; exact hout) (by rw [hchan, hwait]; exact hw)
          (by rw [hchan, Channel.freeTag, hcout]; exact ht) (by rw [hchan]; exact hcmd) (by rw [hchan]; exact hwd)
        refine ⟨_, hcredit x s, ?_⟩
        rw [hx, if_pos hlive]
        exact ⟨settle_drive h1, (congrArg (fun c : Channel => c.out.get tag) (settle_chan _ _)).trans h2, fun h => settle_drive
          (h3 h)⟩
      constructor
      · intro hwd
        exact hsend { s.dev.chan n with mcmd := min 1024 ((s.dev.chan n).mcmd + 1) } ⟨rfl, rfl, rfl⟩ (hne' _) hwd (.mcmd n)
          (if_neg hup1)
      · intro hcmd
        exact hsend { s.dev.chan n with mwd := min 1024 ((s.dev.chan n).mwd + 1) } ⟨rfl, rfl, rfl⟩ hcmd (fun _ => hne' _) (.mwd
          n) (if_neg hup1)
  · intro s hcan hup
    have hup1 : ¬(!({ s.dev with drive := [] } : Dev).up domHdma) = true := by
      simp [show ({ s.dev with drive := [] } : Dev).up domHdma = true from hup]
    have hwr : ({ s.dev with drive := [] } : Dev).credit (!s.safe.active) .hdmaWr = _ := if_neg hup1
    have hrd : ({ s.dev with drive := [] } : Dev).credit (!s.safe.active) .hdmaRd = _ := if_neg hup1
    refine ⟨fun hw hr => ⟨fun hp hdue hb => ⟨_, hcredit _ s, ?_⟩, ⟨_, hcredit _ s, ?_⟩⟩, fun w r tag hsafe hw ht => ⟨_, hcredit
      _ s, settle_drive ?_⟩,
      fun w r tag hsafe hw ht => ⟨_, hcredit _ s, settle_drive ?_⟩⟩
    · rw [hwr]
      refine (settle_wrCredit _).trans ?_
      dsimp only
      split
      · exact pumpVecs_empty hw hr hp hdue hb
      · rfl
    · rw [hrd]
      refine (settle_rdCredit _).trans ?_
      dsimp only
      split
      · rw [pumpHdma_empty (by exact hw) (by exact hr)]
      · rfl
    · rw [hwr, hsafe]
      exact (Touches.after (as := [.hdma, .queues, .qmg]) (Dev.pumpDrains_touches _) (Dev.sendPending_touches _)).drive.subset
        (pumpHdma_sends_write (w := w) hup hw ht (hne _))
    · rw [hrd, hsafe]
      exact pumpHdma_sends_read (w := w) hup hw ht (hne _)

end

/-! O28. The clauses for the FLT bank, which lies in SAFE, do not ask that CORE is out of reset (spec/15 R404, R422). -/

namespace Sys2Proof
namespace Machine

open Laws

-- each proof is small and there are many: elaborated one after the other they need one thread
set_option Elab.async false

/-- `trefLost` in service, with drills on: CORE is in reset, the REG port and SAFE run. -/
def drilledTrefLost : State := { trefLost with dev.mgt.ready := true, safe.drillEn := true }

theorem quiet_drilledTrefLost (b : Nat) : Quiet b drilledTrefLost := by
  have hholding : drilledTrefLost.dev.holding b = trefLost.dev.holding b := by
    unfold Dev.holding
    split <;> rfl
  obtain ⟨hr, hl⟩ := quiet_trefLost b
  exact ⟨hr, fun k hk => hl k (hholding ▸ hk)⟩

/-- A drill of FLT source 0 there ends in the safe state: SAFE's monitor sees the lost clock of TREF in the same step. -/
theorem drill_drilledTrefLost_active {t : State} (h : exec (.fltForce 11 0 1) drilledTrefLost = .next t) : t.safe.active =
    true := by
  have hrow : exec (.fltForce 11 0 1) drilledTrefLost = drilledTrefLost.regPort (bankBase 11 + 0x200 + 4 * 0)
      fun t => { t with dev := t.dev.force 11 (namedBy 11 0 1) } := rfl
  rw [hrow, State.regPort] at h
  obtain rfl := Host.Outcome.next.inj h
  exact settle_active_of_tref_lost (by rfl) (by rfl)

end Machine
end Sys2Proof

section
open Sys2Proof Sys2Proof.Machine Sys2Proof.Laws
set_option Elab.async false

/-- Refutes O28: in `drilledTrefLost` a drill of FLT source 0 ends in the safe state. The FLT bank answers, because SAFE runs,
every bank is quiet, and drills are on; but CORE is in reset, so SAFE's monitor acts on the lost clock of TREF, whether or not
FLT_LIVE of the MGT bank has it. -/
theorem not_faultRegisterRows : ¬ Obligations.FaultRegisterRows := by
  unfold Obligations.FaultRegisterRows
  rintro ⟨-, -, h⟩
  obtain ⟨t, ht, hactive, -⟩ := (h 11 0 1 drilledTrefLost 0 (by constructor <;> decide) (by decide) quiet_drilledTrefLost
    (by decide) (by decide)).1
    (by decide) (by decide)
  rw [drill_drilledTrefLost_active ht] at hactive
  cases hactive

end

/-! O23. The registers that clear counters (spec/04 R126, spec/05 R151, spec/08 R232, spec/09 R256, spec/10 R283, spec/11
R315, spec/14 R403, spec/15 R432). -/

namespace Sys2Proof
namespace Machine

open Laws

-- each proof is small and there are many: elaborated one after the other they need one thread
set_option Elab.async false

/-- A register row of CORE, served: what its effect leaves, with the answer. -/
theorem core_next {f : Dev → Dev} {s : State} {o : Host.Outcome State Fault Refusal} (ho : o = s.core f) (hs : CoreServed s) :
    o = .next (settle { s with dev := (f { s.dev with drive := [] }).emit (.regRsp 0 false) }) :=
  ho.trans (core_acts hs)

theorem answersReg_emit (s : State) (d : Dev) : AnswersReg (settle { s with dev := d.emit (.regRsp 0 false) }) :=
  settle_drive (List.mem_append_right _ (List.mem_singleton_self _))

/-- A loop that changes some entries of a table, each index at most once. -/
theorem forAll_entries {σ α : Type} {get : σ → Nat → α} {set : σ → Nat → α → σ} {good : σ → Prop} (hgood : ∀ s i x, good s →
    good (set s i x))
    (hsame : ∀ s i x, good s → get (set s i x) i = x) (hother : ∀ s i j x, j ≠ i → get (set s i x) j = get s j) (c : Nat → Bool)
      (g : α → α)
    {is : List Nat} (hnd : is.Nodup) {s : σ} (hs : good s) (j : Nat) :
    get (forAll is (fun i e => if c i then set e i (g (get e i)) else e) s) j = if j ∈ is ∧ c j = true then g (get s j) else get
      s j := by
  induction is generalizing s with
  | nil => simp [forAll]
  | cons i r ih =>
    obtain ⟨hi, hr⟩ := List.nodup_cons.mp hnd
    show get (forAll r _ (if c i then set s i (g (get s i)) else s)) j = _
    by_cases hc : c i = true
    · rw [if_pos hc, ih hr (hgood _ _ _ hs)]
      by_cases hj : j = i
      · subst hj
        simp [hi, hc, hsame _ _ _ hs]
      · simp [hj, hother _ _ _ _ hj]
    · rw [if_neg hc, ih hr hs]
      by_cases hj : j = i
      · subst hj
        simp [hi, hc]
      · simp [hj]

/-- The counters of the ports that a clear selects. -/
theorem get_clearPorts {v : Word32} {t : Tab Nat} {p : Nat} (hv : bit v p = true) : (clearPorts v t).get p = 0 := by
  rw [clearPorts, get_filter_key fun i => !bit v i, hv]
  rfl

end Machine
end Sys2Proof

section
open Sys2Proof Sys2Proof.Machine Sys2Proof.Laws
set_option Elab.async false

/-- Settles O23: each row by its effect on the counters, which registering leaves alone. -/
theorem counterClears : Obligations.CounterClears := by
  unfold Obligations.CounterClears
  intro v s hcan hs
  refine ⟨⟨_, core_next (o := execFabCntClr v s) rfl hs, answersReg_emit .., fun p hp hv => ?_⟩,
    ⟨_, core_next (o := execStlCntClr v s) rfl hs, answersReg_emit .., fun hv => ?_, fun p hp hv => ?_⟩,
    ⟨_, core_next (o := execMedCntClr v s) rfl hs, answersReg_emit .., fun n hn hv => ?_⟩, fun hv =>
    ⟨⟨_, core_next (o := execFrsCntClr v s) rfl hs, answersReg_emit .., (settle_frs _).trans ?_⟩,
     ⟨_, core_next (o := execCanCntClr v s) rfl hs, answersReg_emit .., (settle_can _).trans ?_⟩,
     ⟨_, core_next (o := execKeyCntClr v s) rfl hs, answersReg_emit .., (settle_key _).trans ?_⟩,
     ⟨_, core_next (o := execPerCntClr v s) rfl hs, answersReg_emit .., (settle_per _).trans ?_⟩,
     ⟨_, core_next (o := execSvcCntClr v s) rfl hs, answersReg_emit .., (settle_svc _).trans ?_⟩⟩⟩
  · rw [settle_port]
    refine (forAll_entries (get := Dev.port) (set := Dev.setPort) (good := fun d => Tab.rising d.fab.ports) (fun d i x h =>
      put_rising _ _ h)
      (fun d i x h => Dev.port_setPort h i x) (fun d i j x h => Dev.port_setPort_other x h) (bit v ·)
      (fun x => { x with accErr := 0, poison := 0, linkErr := 0, ktag := 0 }) List.nodup_range (s := ({ s.dev with drive := [] }
        : Dev)) hcan.ports p).trans ?_
    exact if_pos ⟨List.mem_range.mpr hp, hv⟩
  · rw [settle_stl]
    exact if_neg hv
  · rw [settle_stl]
    exact ⟨get_clearPorts hv, get_clearPorts hv, get_clearPorts hv⟩
  · rw [settle_chan]
    refine (forAll_entries (get := Dev.chan) (set := Dev.setChan) (good := fun d => Tab.rising d.med.ch) (fun d i x h =>
      put_rising _ _ h)
      (fun d i x h => chan_setChan d i x h) (fun d i j x h => Tab.get_put_other x h) (bit v ·)
      (fun x => { x with transients := 0 }) List.nodup_range (s := ({ s.dev with drive := [] } : Dev)) hcan.channels n).trans ?_
    exact if_pos ⟨List.mem_range.mpr hn, hv⟩
  all_goals simp only [hv, if_true, Dev.emit]

end

/-! O25. Reads of registers: the live value, and the pair held for its second word (spec/00 R9). -/

namespace Sys2Proof
namespace Machine

open Laws

-- each proof is small and there are many: elaborated one after the other they need one thread
set_option Elab.async false

/-- What a read that is served leaves: the holding registers, the error of the Zenith store, the answer. -/
def Dev.answersRead (d : Dev) (held : List (Nat × Word32)) (zen : Bool) (x : Word32) : Dev :=
  (({ d with mgt.hiHeld := held } : Dev).zenithRead zen).emit (.regRsp x false)

/-- A REG read that is answered without error. -/
theorem regRead_next {woff : BitVec 22} {s : State} (zen : Bool) (hup : s.dev.up domReg = true) (herr : s.regErr (4 *
    woff.toNat) = false) :
    ∃ t, exec (.regReadPairLo woff zen) s = .next t ∧ .regRsp (s.readHeld s.dev.mgt.hiHeld (4 * woff.toNat)).1 false ∈
      t.dev.drive ∧
      t.dev.mgt.hiHeld = (s.readHeld s.dev.mgt.hiHeld (4 * woff.toNat)).2 := by
  generalize hr : s.readHeld s.dev.mgt.hiHeld (4 * woff.toNat) = r
  have hrow : exec (.regReadPairLo woff zen) s = .next (settle { s with
      dev := ({ s.dev with drive := [] } : Dev).answersRead r.2 (zen && zenithOffset s.dev.mgt.hiHeld (4 * woff.toNat)) r.1
        }) := by
    rw [exec_regReadPairLo, execRegReadPairLo, hr]
    refine act_eq ?_
    rw [if_neg (by simp [show ({ s.dev with drive := [] } : Dev).up domReg = true from hup]), if_neg (by simp [herr])]
    rfl
  refine ⟨_, hrow, settle_drive (List.mem_append_right _ (List.mem_singleton_self _)), ?_⟩
  rw [settle_mgt]
  exact congrArg Mgt.hiHeld (Registers.zenithRead _ _).mgt

/-- The first word of a pair gives its live value and holds the second. -/
theorem readHeld_lo {s : State} {held : List (Nat × Word32)} {a : Nat} (h : pairLo a = true) :
    s.readHeld held a = (s.live a, held.filter (fun p => p.1 ≠ a + 4) ++ [(a + 4, s.live (a + 4))]) := by
  rw [State.readHeld, if_pos h]

/-- An offset that is not held gives its live value. -/
theorem readHeld_live {s : State} {held : List (Nat × Word32)} {a : Nat} (h : ∀ p ∈ held, p.1 ≠ a) : (s.readHeld held a).1 =
    s.live a := by
  have hnone : held.find? (fun p => p.1 = a) = none := List.find?_eq_none.mpr fun p hp => by simpa using h p hp
  rw [State.readHeld]
  split
  · rfl
  · rw [hnone]

/-- A second word that is held is given once. -/
theorem readHeld_held {s : State} {held : List (Nat × Word32)} {a : Nat} {v : Word32} (hlo : pairLo a = false)
    (h : held.find? (fun p => p.1 = a) = some (a, v)) : s.readHeld held a = (v, held.filter fun q => q.1 ≠ a) := by
  rw [State.readHeld, if_neg (by simp [hlo]), h]

end Machine
end Sys2Proof

section
open Sys2Proof Sys2Proof.Machine Sys2Proof.Laws
set_option Elab.async false

/-- Settles O25: by what the holding registers give and keep. -/
theorem registerReads : Obligations.RegisterReads := by
  unfold Obligations.RegisterReads
  constructor
  · intro woff zen s _ hup herr hfree
    obtain ⟨t, hrow, hans, hheld⟩ := regRead_next zen hup herr
    refine ⟨t, hrow, by rwa [readHeld_live hfree] at hans, fun hlo => ?_⟩
    rw [hheld, readHeld_lo hlo]
    exact List.mem_append_right _ (List.mem_singleton_self _)
  · intro woff zen v s hup herr hlo hv
    obtain ⟨t, hrow, hans, hheld⟩ := regRead_next zen hup herr
    rw [readHeld_held hlo hv] at hans hheld
    refine ⟨t, hrow, hans, fun p hp => ?_⟩
    rw [hheld] at hp
    simpa using (List.mem_filter.mp hp).2

end

/-! O29. The registers of the stream table and the region map (spec/05 R128, R136, R146, spec/06 R154, R164). -/

namespace Sys2Proof
namespace Machine

open Laws

-- each proof is small and there are many: elaborated one after the other they need one thread
set_option Elab.async false

/-! ### The two configuration sets -/

theorem Dev.stlSet_putStlSet (d : Dev) (k : Nat) (x : StlSet) : (d.putStlSet k x).stlSet k = x := by
  unfold Dev.putStlSet Dev.stlSet
  by_cases hk : k = 0 <;> simp [hk]

theorem Dev.rmpSet_putRmpSet (d : Dev) (k : Nat) (x : RmpSet) : (d.putRmpSet k x).rmpSet k = x := by
  unfold Dev.putRmpSet Dev.rmpSet
  by_cases hk : k = 0 <;> simp [hk]

theorem Dev.cfgIgn_putStlSet (d : Dev) (k : Nat) (x : StlSet) : (d.putStlSet k x).stl.cfgIgn = d.stl.cfgIgn := by
  unfold Dev.putStlSet
  split <;> rfl

theorem Dev.cfgIgn_putRmpSet (d : Dev) (k : Nat) (x : RmpSet) : (d.putRmpSet k x).rmp.cfgIgn = d.rmp.cfgIgn := by
  unfold Dev.putRmpSet
  split <;> rfl

theorem Dev.stlCmds_putStlSet (d : Dev) (k : Nat) (x : StlSet) : (d.putStlSet k x).stl.cmds = d.stl.cmds := by
  unfold Dev.putStlSet
  split <;> rfl

theorem Dev.rmpCmds_putRmpSet (d : Dev) (k : Nat) (x : RmpSet) : (d.putRmpSet k x).rmp.cmds = d.rmp.cmds := by
  unfold Dev.putRmpSet
  split <;> rfl

theorem settle_stlSet (s : State) (k : Nat) : (settle s).dev.stlSet k = s.dev.stlSet k := by
  unfold Dev.stlSet
  rw [settle_stl]

theorem settle_rmpSet (s : State) (k : Nat) : (settle s).dev.rmpSet k = s.dev.rmpSet k := by
  unfold Dev.rmpSet
  rw [settle_rmp]

/-- With no command that waits for its table, none is executed. -/
theorem Dev.pumpStreams_empty {d : Dev} (h : d.stl.cmds = []) : d.pumpStreams = d := by
  rw [Dev.pumpStreams, h]
  show Dev.pumpStream 1 d = d
  rw [Dev.pumpStream, h]

theorem Dev.pumpRegions_empty {d : Dev} (h : d.rmp.cmds = []) : d.pumpRegions = d := by
  rw [Dev.pumpRegions, h]
  show Dev.pumpRegion 1 d = d
  rw [Dev.pumpRegion, h]

/-- The effect of STL_CLEAR: CFG_IGN for the active set, a clear that starts for the shadow set. -/
def Dev.clearsStreams (d : Dev) (v : Word32) : Dev :=
  let d := if bit v d.activeSet then { d with stl.cfgIgn := true } else d
  if bit v d.shadowSet then d.putStlSet d.shadowSet { d.stlSet d.shadowSet with clearing := true } else d

/-- The effect of RMP_CLEAR. -/
def Dev.clearsRegions (d : Dev) (v : Word32) : Dev :=
  let d := if bit v d.activeSet then { d with rmp.cfgIgn := true } else d
  if bit v d.shadowSet then d.putRmpSet d.shadowSet { d.rmpSet d.shadowSet with clearing := true } else d

theorem Dev.clearsStreams_shadow {d : Dev} {v : Word32} (h : bit v d.shadowSet = true) : ((d.clearsStreams v).stlSet
    d.shadowSet).clearing = true := by
  unfold Dev.clearsStreams
  by_cases ha : bit v d.activeSet = true
  · rw [if_pos ha]
    refine (congrArg (fun e : Dev => (e.stlSet d.shadowSet).clearing) (if_pos h)).trans ?_
    exact congrArg StlSet.clearing (Dev.stlSet_putStlSet ..)
  · rw [if_neg ha]
    refine (congrArg (fun e : Dev => (e.stlSet d.shadowSet).clearing) (if_pos h)).trans ?_
    exact congrArg StlSet.clearing (Dev.stlSet_putStlSet ..)

theorem Dev.clearsRegions_shadow {d : Dev} {v : Word32} (h : bit v d.shadowSet = true) : ((d.clearsRegions v).rmpSet
    d.shadowSet).clearing = true := by
  unfold Dev.clearsRegions
  by_cases ha : bit v d.activeSet = true
  · rw [if_pos ha]
    refine (congrArg (fun e : Dev => (e.rmpSet d.shadowSet).clearing) (if_pos h)).trans ?_
    exact congrArg RmpSet.clearing (Dev.rmpSet_putRmpSet ..)
  · rw [if_neg ha]
    refine (congrArg (fun e : Dev => (e.rmpSet d.shadowSet).clearing) (if_pos h)).trans ?_
    exact congrArg RmpSet.clearing (Dev.rmpSet_putRmpSet ..)

theorem Dev.clearsStreams_active {d : Dev} {v : Word32} (h : bit v d.activeSet = true) : (d.clearsStreams v).stl.cfgIgn =
    true := by
  unfold Dev.clearsStreams
  rw [if_pos h]
  dsimp only
  split
  · exact Dev.cfgIgn_putStlSet ..
  · rfl

theorem Dev.clearsRegions_active {d : Dev} {v : Word32} (h : bit v d.activeSet = true) : (d.clearsRegions v).rmp.cfgIgn =
    true := by
  unfold Dev.clearsRegions
  rw [if_pos h]
  dsimp only
  split
  · exact Dev.cfgIgn_putRmpSet ..
  · rfl

/-- A write to the geometry of a set that may change. -/
theorem geomWrite_sets {g : GeomReg} {k : Fin 2} {v : Word32} {s : State} (hs : CoreServed s) (ht : (s.dev.stlSet k).tab = [])
    (ha : s.dev.stl.setA.clearing = false) (hb : s.dev.stl.setB.clearing = false) (hbusy : s.dev.streamBusy k = false) :
    Completes (.stlGeomSeedWrite g k v) s fun t => AnswersReg t ∧ t.dev.stlSet k = match g with
      | .geom => { s.dev.stlSet k with size := v.extractLsb' 0 2 }
      | .seed0 => { s.dev.stlSet k with seed0 := v }
      | .seed1 => { s.dev.stlSet k with seed1 := v } := by
  refine ⟨_, core_next (o := execStlGeomSeedWrite g k v s) rfl hs, answersReg_emit .., ?_⟩
  rw [settle_stlSet]
  have hcond : (({ s.dev with drive := [] } : Dev).stlSet k).tab = [] ∧ (({ s.dev with drive := [] } : Dev).stl.setA.clearing ||
      ({ s.dev with drive := [] } : Dev).stl.setB.clearing) = false ∧ ({ s.dev with drive := [] } : Dev).streamBusy k = false :=
    ⟨ht, by simp [ha, hb], hbusy⟩
  dsimp only
  rw [if_pos hcond]
  exact Dev.stlSet_putStlSet ..

end Machine
end Sys2Proof

section
open Sys2Proof Sys2Proof.Machine Sys2Proof.Laws
set_option Elab.async false

/-- Settles O29: each row by the branch of its effect that the conditions name. -/
theorem streamTableRegisters : Obligations.StreamTableRegisters := by
  unfold Obligations.StreamTableRegisters
  constructor
  · intro v s hcan hs
    refine ⟨fun hv => ⟨⟨_, core_next (o := execStlClear v s) rfl hs, answersReg_emit .., ?_⟩,
      ⟨_, core_next (o := execRmpClear v s) rfl hs, answersReg_emit .., ?_⟩⟩,
      fun hv => ⟨⟨_, core_next (o := execStlClear v s) rfl hs, answersReg_emit .., ?_⟩,
      ⟨_, core_next (o := execRmpClear v s) rfl hs, answersReg_emit .., ?_⟩⟩,
      fun hv => ⟨_, core_next (o := execStlRejectClr v s) rfl hs, answersReg_emit .., ?_⟩,
      fun k ht ha hb hbusy => ⟨geomWrite_sets hs ht ha hb hbusy, geomWrite_sets hs ht ha hb hbusy, geomWrite_sets hs ht ha hb
        hbusy⟩,
      fun g k h => ⟨_, core_next (o := execStlGeomSeedWrite g k v s) rfl hs, answersReg_emit .., ?_⟩,
      fun k hk ht ha hb hbusy hf => ⟨_, core_next (o := execRmpSetCfg k v s) rfl hs, answersReg_emit .., ?_⟩,
      fun k h => ⟨_, core_next (o := execRmpSetCfg k v s) rfl hs, answersReg_emit .., ?_⟩⟩
    · rw [settle_stlSet]
      exact Dev.clearsStreams_shadow (d := { s.dev with drive := [] }) hv
    · rw [settle_rmpSet]
      exact Dev.clearsRegions_shadow (d := { s.dev with drive := [] }) hv
    · rw [settle_stl]
      exact Dev.clearsStreams_active (d := { s.dev with drive := [] }) hv
    · rw [settle_rmp]
      exact Dev.clearsRegions_active (d := { s.dev with drive := [] }) hv
    · rw [settle_stl]
      exact congrArg Dev.stl (if_pos hv)
    · rw [settle_stl]
      refine congrArg Dev.stl (if_neg ?_)
      rintro ⟨h1, h2, h3⟩
      rw [Bool.or_eq_false_iff] at h2
      rcases h with h | h | h | h
      · exact h h1
      · exact absurd (h.symm.trans h2.1) (by decide)
      · exact absurd (h.symm.trans h2.2) (by decide)
      · exact absurd (h.symm.trans h3) (by decide)
    · rw [settle_rmpSet]
      refine (congrArg (fun e : Dev => e.rmpSet k) (if_pos ⟨hk, ht, ?_, hbusy, hf⟩)).trans (Dev.rmpSet_putRmpSet ..)
      rw [Bool.or_eq_false_iff]
      exact ⟨ha, hb⟩
    · rw [settle_rmp]
      refine congrArg Dev.rmp (if_neg ?_)
      rintro ⟨h1, h2, h3, h4, h5⟩
      rw [Bool.or_eq_false_iff] at h3
      rcases h with h | h | h | h | h | h | h
      · exact h h1
      · exact h h2
      · omega
      · omega
      · exact absurd (h.symm.trans h3.1) (by decide)
      · exact absurd (h.symm.trans h3.2) (by decide)
      · exact absurd (h.symm.trans h4) (by decide)
  · intro s hcan hs hold
    constructor
    · intro hclr hcmds
      refine ⟨_, (serve_acts hs).trans (act_eq (if_pos ?_)), ?_⟩
      · simp [show (({ s.dev with drive := [] } : Dev).stlSet ({ s.dev with drive := [] } : Dev).shadowSet).clearing = true from
          hclr,
          show ({ s.dev with drive := [] } : Dev).oldInFlight = 0 from hold]
      · dsimp only
        rw [settle_stlSet, Dev.pumpStreams_empty (by exact (Dev.stlCmds_putStlSet ..).trans hcmds)]
        exact Dev.stlSet_putStlSet ..
    · intro hclr hcmds
      refine ⟨_, (serve_acts hs).trans (act_eq (if_pos ?_)), ?_⟩
      · simp [show (({ s.dev with drive := [] } : Dev).rmpSet ({ s.dev with drive := [] } : Dev).shadowSet).clearing = true from
          hclr,
          show ({ s.dev with drive := [] } : Dev).oldInFlight = 0 from hold]
      · dsimp only
        rw [settle_rmpSet, Dev.pumpRegions_empty (by exact (Dev.rmpCmds_putRmpSet ..).trans hcmds)]
        exact Dev.rmpSet_putRmpSet ..

end

/-! O30. Registers that take effect only in the right state (spec/04 R123, spec/07 R191, spec/08 R211, R232, spec/09 R244,
R251-R253, spec/10 R264, R283). -/

namespace Sys2Proof
namespace Machine

open Laws

-- each proof is small and there are many: elaborated one after the other they need one thread
set_option Elab.async false

/-- A change of every entry of a table that leaves the default alone. -/
theorem get_mapAll {α : Type} [Inhabited α] [DecidableEq α] {t : Tab α} (h : Tab.rising t) {f : Nat → α → α} {k : Nat}
    (hf : f k default = default) : (t.mapAll f).get k = f k (t.get k) := by
  unfold Tab.mapAll
  induction t with
  | nil => exact hf.symm
  | cons p r ih =>
    obtain ⟨hp, hr⟩ := List.pairwise_cons.mp h
    have hih := ih hr
    rw [List.map_cons]
    by_cases hk : p.1 = k
    · subst hk
      have hrest : Tab.get ((r.map fun q => (q.1, f q.1 q.2)).filter fun q => q.2 ≠ default) p.1 = default := by
        refine get_unlisted fun q hq => ?_
        obtain ⟨x, hx, rfl⟩ := List.mem_map.mp (List.mem_filter.mp hq).1
        exact Nat.ne_of_gt (hp x hx)
      by_cases hd : f p.1 p.2 = default
      · rw [List.filter_cons_of_neg (by simp [hd]), hrest]
        simp [Tab.get, hd]
      · rw [List.filter_cons_of_pos (by simp [hd])]
        simp [Tab.get]
    · by_cases hd : f p.1 p.2 = default
      · rw [List.filter_cons_of_neg (by simp [hd]), hih]
        simp [Tab.get, hk]
      · rw [List.filter_cons_of_pos (by simp [hd])]
        simpa [Tab.get, hk] using hih

/-- What a table gives at an index is the default or listed there. -/
theorem Tab.get_default_or_mem {α : Type} [Inhabited α] (t : Tab α) (i : Nat) : t.get i = default ∨ (i, t.get i) ∈ t := by
  induction t with
  | nil => exact .inl rfl
  | cons p r ih =>
    by_cases hp : p.1 = i
    · subst hp
      exact .inr (by simp [Tab.get])
    · rw [Tab.get, if_neg hp]
      exact ih.imp_right (List.mem_cons_of_mem _)

/-! ### The Canopy: drain and bypass -/

theorem Dev.can1_setLine {d : Dev} (h : Tab.rising d.can.lines) (k : Nat) (c : CanLine) : (d.setLine k c).can1 k = c :=
  get_put_self_rising k c h

theorem Dev.can1_setLine_other {d : Dev} {k j : Nat} (c : CanLine) (h : j ≠ k) : (d.setLine k c).can1 j = d.can1 j :=
  Tab.get_put_other c h

/-- A valid line is not filled, and its fill is not given up. -/
theorem Dev.can1_dropFills {d : Dev} (h : Tab.rising d.can.lines) (g : Nat → CanLine → Bool) {k : Nat} (hv : (d.can1 k).valid =
    true) :
    (d.dropFills g).can1 k = d.can1 k := by
  have hfill : (d.can.lines.get k).fill = false := by
    simp only [Dev.can1, CanLine.valid, Bool.and_eq_true, Bool.not_eq_true'] at hv
    exact hv.2
  have hm := get_mapAll (k := k) h (f := fun k c => if !(c.fill && g k c) then c else if c.pinned then
      { (default : CanLine) with written := c.written, ctr := c.ctr } else default)
    (by simp [show (default : CanLine).fill = false from rfl])
  exact hm.trans (by simp [hfill, Dev.can1])

theorem Dev.dropFills_rising {d : Dev} (h : Tab.rising d.can.lines) (g : Nat → CanLine → Bool) : Tab.rising (d.dropFills
    g).can.lines := by
  unfold Dev.dropFills
  dsimp only
  exact mapAll_rising _ h

theorem Dev.dropFills_nil {d : Dev} (h : d.can.lines = []) (g : Nat → CanLine → Bool) : d.dropFills g =
    { d with can.lines := [] } := by
  unfold Dev.dropFills
  rw [h]
  rfl

theorem sweepWay_keeps (i : Nat) (e : Dev) :
    { (if e.can.lines.any fun p => decide (p.1 < staging) && decide (wayOf p.1 = i) && p.2.valid then e else
        let e1 := { e with can.ways := e.can.ways.put i { e.can.ways.get i with disabled := true } }
        let b := i / 16
        if (List.range (16 - e1.can.pinWays)).all fun w => (e1.can.ways.get (16 * b + w)).disabled
        then e1.raise bCan (68 + b) else e1).can with ways := [] } = { e.can with ways := [] } := by
  dsimp only
  split
  · rfl
  · split <;> rfl

/-- A way that is swept changes no line and neither EN nor the drain. -/
theorem Dev.sweepWays_keeps (d : Dev) : d.sweepWays.can = { d.can with ways := d.sweepWays.can.ways } := by
  unfold Dev.sweepWays
  generalize Tab.which d.can.ways (fun w => w.disabling && !w.disabled) = is
  have h := forAll_keeps (fun e : Dev => { e.can with ways := [] }) _ sweepWay_keeps is d
  generalize forAll is _ d = e at h ⊢
  exact (congrArg (fun c : Can => { c with ways := e.can.ways }) h : _)

theorem forAll_cons {α σ : Type} (x : α) (xs : List α) (f : α → σ → σ) (s : σ) : forAll (x :: xs) f s = forAll xs f (f x s) :=
  rfl

/-- What a drain does with a valid line: a dirty one is asked for unless STUCK, a clean one leaves. -/
def drainLine (p : Nat × CanLine) (e : Dev) : Dev :=
  if p.2.dirty then (if p.2.stuck then e else e.wantLine p.1) else e.dropLine p.1

theorem drainLine_rising {d : Dev} (h : Tab.rising d.can.lines) (p : Nat × CanLine) : Tab.rising (drainLine p d).can.lines := by
  unfold drainLine
  split
  · split
    · exact h
    · exact put_rising _ _ h
  · exact put_rising _ _ h

theorem drainLine_other (d : Dev) {p : Nat × CanLine} {k : Nat} (h : p.1 ≠ k) : (drainLine p d).can1 k = d.can1 k := by
  unfold drainLine
  split
  · split
    · rfl
    · exact Tab.get_put_other _ (Ne.symm h)
  · exact Tab.get_put_other _ (Ne.symm h)

theorem drainLine_wants {d : Dev} (h : Tab.rising d.can.lines) {p : Nat × CanLine} (hd : p.2.dirty = true) (hs : p.2.stuck =
    false) :
    (drainLine p d).can1 p.1 = { d.can1 p.1 with want := true } := by
  rw [drainLine, if_pos hd, if_neg (by simp [hs])]
  exact get_put_self_rising _ _ h

/-- The lines of a drain do not change EN, the drain or the maintenance operations. -/
theorem drainLines_keep (ps : List (Nat × CanLine)) (d : Dev) : (forAll ps drainLine d).can.en = d.can.en ∧
    (forAll ps drainLine d).can.draining = d.can.draining ∧ (forAll ps drainLine d).can.maint = d.can.maint := by
  have h := forAll_keeps (fun e : Dev => { e.can with lines := [] }) drainLine (fun p e => by
    unfold drainLine
    split
    · split <;> rfl
    · rfl) ps d
  exact ⟨(congrArg Can.en h :), (congrArg Can.draining h :), (congrArg Can.maint h :)⟩

/-- A dirty line that is not STUCK is wanted, once the drain has come to it. -/
theorem drain_wants (ps : List (Nat × CanLine)) {d : Dev} {k : Nat} (h : Tab.rising d.can.lines)
    (hk : ∀ p ∈ ps, p.1 = k → p.2.dirty = true ∧ p.2.stuck = false) :
    (forAll ps drainLine d).can1 k = { d.can1 k with want := (d.can1 k).want || ps.any fun p => p.1 == k } ∧
      Tab.rising (forAll ps drainLine d).can.lines := by
  induction ps generalizing d with
  | nil => simp [forAll, h]
  | cons p r ih =>
    obtain ⟨h1, h2⟩ := ih (drainLine_rising h p) fun q hq => hk q (List.mem_cons_of_mem _ hq)
    rw [forAll_cons]
    refine ⟨h1.trans ?_, h2⟩
    by_cases hp : p.1 = k
    · obtain ⟨hd, hs⟩ := hk p List.mem_cons_self hp
      have hw : (drainLine p d).can1 k = { d.can1 k with want := true } := hp ▸ drainLine_wants h hd hs
      rw [hw]
      simp [hp]
    · rw [drainLine_other d hp]
      simp [show (p.1 == k) = false by simpa using hp]

theorem pumpMaint_empty {d : Dev} (h : d.can.maint = []) : d.pumpMaint = d := by
  rw [Dev.pumpMaint, h]
  rfl

/-! ### Known-answer sets -/

theorem Dev.lane_updLane {d : Dev} (h : Tab.rising d.lan.lanes) (i : Nat) (f : Lane → Lane) : (d.updLane i f).lane i = f (d.lane
    i) :=
  get_put_self_rising i _ h

theorem Dev.lane_updLane_other {d : Dev} {i j : Nat} (f : Lane → Lane) (h : j ≠ i) : (d.updLane i f).lane j = d.lane j :=
  Tab.get_put_other _ h

theorem settle_lane (s : State) (i : Nat) : (settle s).dev.lane i = s.dev.lane i := by
  rw [Dev.lane, settle_lan, Dev.lane]

/-- A set that starts changes no state of a lane, and stops no set. -/
theorem Dev.lane_startKat {d : Dev} (h : Tab.rising d.lan.lanes) (i j : Nat) :
    ((d.startKat i).lane j).st = (d.lane j).st ∧ ((d.lane j).katRun = true ∨ j = i → ((d.startKat i).lane j).katRun =
      true) := by
  by_cases hj : j = i
  · subst hj
    have hl : (d.startKat j).lane j = { d.lane j with katRun := true, vec := katVec } := Dev.lane_updLane h j _
    rw [hl]
    exact ⟨rfl, fun _ => rfl⟩
  · have hl : (d.startKat i).lane j = d.lane j := Dev.lane_updLane_other _ hj
    rw [hl]
    exact ⟨rfl, fun h => h.resolve_right hj⟩

/-- Each lane of a list that is chosen and may run a set runs one. -/
theorem startKats_run (c : Nat → Bool) (is : List Nat) {d : Dev} (h : Tab.rising d.lan.lanes) {j : Nat} (hs : (d.lane
    j).st.startable = true)
    (hj : (d.lane j).katRun = true ∨ j ∈ is ∧ c j = true) :
    ((forAll is (fun i e => if c i && (e.lane i).st.startable then e.startKat i else e) d).lane j).katRun = true := by
  unfold forAll
  induction is generalizing d with
  | nil => exact hj.resolve_right (by simp)
  | cons i r ih =>
    show ((r.foldl _ (if c i && (d.lane i).st.startable then d.startKat i else d)).lane j).katRun = true
    obtain ⟨h1, h2⟩ := Dev.lane_startKat h i j
    split
    · refine ih (put_rising _ _ h) (h1 ▸ hs) ?_
      by_cases hji : j = i
      · exact .inl (h2 (.inr hji))
      · exact hj.imp (fun hr => h2 (.inl hr)) fun ⟨hm, hc⟩ => ⟨(List.mem_cons.mp hm).resolve_left hji, hc⟩
    · next hn =>
      refine ih h hs (hj.imp_right fun ⟨hm, hc⟩ => ⟨(List.mem_cons.mp hm).resolve_left ?_, hc⟩)
      rintro rfl
      exact hn (by simp [hc, hs])

/-! ### Arming -/

/-- Issuing the open map's first lines changes nothing of an arming that runs, but for ARM_BAD. -/
theorem issueMap_keeps (rs : List Nat) (d : Dev) :
    { (Dev.issueMap rs d).per with armBad := false, evtLost := false } = { d.per with armBad := false, evtLost := false } := by
  induction rs generalizing d with
  | nil => rfl
  | cons r rs ih =>
    unfold Dev.issueMap
    dsimp only
    split
    · rfl
    · exact (ih _).trans (congrArg (fun x : Per => { x with armBad := false }) ((Dev.media_touches d 3 _ _ _).keeps .per))

/-- The arming that starts. -/
theorem Dev.startArm_starts {d : Dev} {x : Per} (hx : x = d.startArm.per) : x.arming = some 1024 ∧ x.epoch = 1 ∧ x.openMap =
    [] := by
  rw [hx]
  unfold Dev.startArm
  generalize List.range 1024 = rs
  have h := issueMap_keeps rs
    { d with per.openMap := [], per.epoch := 1, per.opened := [], per.opening := [], per.openSkip := []
             per.arming := some 1024, per.armBad := false, per.armHeld := false }
  exact ⟨(congrArg Per.arming h :), (congrArg Per.epoch h :), (congrArg Per.openMap h :)⟩

/-- The effect of a write to EN. -/
def Dev.setsEn (d : Dev) (v : Word32) : Dev :=
  if bit v 0 then (if d.can.en then d else d.endDrain.pumpMaint) else if d.can.en then d.startDrain.pumpMaint else d

theorem canCtrlEn_next {v : Word32} {s : State} (hs : CoreServed s) : ∃ t, exec (.canCtrlEn v) s = .next t ∧ AnswersReg t ∧
    t.dev.can = (({ s.dev with drive := [] } : Dev).setsEn v).can :=
  ⟨_, core_next (o := execCanCtrlEn v s) rfl hs, answersReg_emit .., (settle_can _).trans rfl⟩

/-! ### The placement of the metadata -/

/-- With every zone OFFLINE and no MEASURE, a placement that fits is taken. -/
theorem frsFits {d : Dev} {b z : Nat} (hm : d.measuring = false) (hz : ∀ p ∈ d.frs.zones, p.2.st = .offline)
    (h : z ≤ 8192 ∧ z * 2 ^ 33 ≤ b ∧ b + z * 0x50000000 ≤ 2 ^ 47) :
    (!d.measuring && d.frs.zones.all (fun p => p.2.st == .offline) && decide (z ≤ 8192 ∧ z * 2 ^ 33 ≤ b ∧ b + z * 0x50000000 ≤ 2
      ^ 47)) = true := by
  rw [hm, decide_eq_true h, List.all_eq_true.mpr fun p hp => by simp [hz p hp]]
  rfl

/-- The effect of PER_ARM. -/
def Dev.arms (d : Dev) (v : Word32) : Dev :=
  if !bit v 0 then d
  else if d.per.armed || d.restoring then { d with per.cfgIgn := true }
  else if !d.key.drbg.instantiated then { d with per.armHeld := true }
  else d.startArm

theorem perArm_next {v : Word32} {s : State} (hs : CoreServed s) : ∃ t, exec (.perArm v) s = .next t ∧ AnswersReg t ∧
    t.dev.per = (({ s.dev with drive := [] } : Dev).arms v).per :=
  ⟨_, core_next (o := execPerArm v s) rfl hs, answersReg_emit .., (settle_per _).trans rfl⟩

/-! ### EN of CAN_CTRL -/

theorem Dev.drainEnd_ends {d : Dev} (h : d.can.lines = []) : d.drainEnd.can.en = d.can.en ∧ d.drainEnd.can.draining = false ∧
    d.drainEnd.can.maint = d.can.maint := by
  unfold Dev.drainEnd
  rw [h]
  cases hd : d.can.draining with
  | false => exact ⟨rfl, hd, rfl⟩
  | true => exact ⟨rfl, rfl, rfl⟩

/-- A line that is valid is listed. -/
theorem Dev.mem_of_valid {d : Dev} {k : Nat} (hv : (d.can1 k).valid = true) : (k, d.can1 k) ∈ d.can.lines := by
  by_contra hn
  have hd : d.can.lines.get k = default ∨ (k, d.can.lines.get k) ∈ d.can.lines := Tab.get_default_or_mem _ k
  rcases hd with hd | hd
  · rw [Dev.can1, hd] at hv
    exact absurd hv (by decide)
  · exact hn hd

theorem Dev.drainEnd_waits {d : Dev} {k : Nat} (hk : k < staging) (hv : (d.can1 k).valid = true) : d.drainEnd = d := by
  unfold Dev.drainEnd
  have hany : (d.can.lines.any fun p => decide (p.1 < staging) && p.2.valid) = true :=
    List.any_eq_true.mpr ⟨_, Dev.mem_of_valid hv, by simp [hk, hv]⟩
  rw [hany]
  simp

/-- A drain of a Canopy with no line is over at once. -/
theorem Dev.startDrain_empty {d : Dev} (h : d.can.lines = []) : d.startDrain.can.en = false ∧ d.startDrain.can.draining = false
    ∧
    d.startDrain.can.maint = d.can.maint := by
  let ks := d.can.lines.filter fun p => decide (p.1 < staging) && p.2.valid
  have hks : ks = [] := by simp [ks, h]
  let d1 : Dev := { d with can.en := false, can.draining := true, can.drainStopped := false }
  have hfinal : d.startDrain = (if ks.any fun p => p.2.stuck then
      ({ forAll ks drainLine (d1.dropFills fun _ _ => true) with can.drainStopped := true } : Dev).raise bCan 102
      else forAll ks drainLine (d1.dropFills fun _ _ => true)).sweepWays.drainEnd := rfl
  rw [hks] at hfinal
  have he : (d1.dropFills fun _ _ => true).can =
      { d.can with en := false, draining := true, drainStopped := false, lines := [] } := by
    rw [Dev.dropFills_nil (show d1.can.lines = [] from h)]
  generalize d1.dropFills (fun _ _ => true) = e at hfinal he
  replace hfinal : d.startDrain = e.sweepWays.drainEnd := hfinal
  rw [hfinal]
  have hs := e.sweepWays_keeps
  rw [he] at hs
  obtain ⟨h1, h2, h3⟩ := Dev.drainEnd_ends (d := e.sweepWays) (by rw [hs])
  exact ⟨h1.trans (by rw [hs]), h2, h3.trans (by rw [hs])⟩

/-- A drain that starts with a dirty line to be written back waits for it, and wants every such line. -/
theorem Dev.startDrain_wants {d : Dev} (hr : Tab.rising d.can.lines) {k : Nat} (hk : k < staging) (hv : (d.can1 k).valid = true)
    (hd : (d.can1 k).dirty = true) (hs : (d.can1 k).stuck = false) : d.startDrain.can.en = false ∧ d.startDrain.can.draining =
      true ∧
    d.startDrain.can.maint = d.can.maint ∧ ∀ j, j < staging → (d.can1 j).valid = true → (d.can1 j).dirty = true → (d.can1
      j).stuck = false →
      (d.startDrain.can1 j).want = true := by
  let d1 : Dev := { d with can.en := false, can.draining := true, can.drainStopped := false }
  let d2 := d1.dropFills fun _ _ => true
  have hr2 : Tab.rising d2.can.lines := Dev.dropFills_rising (d := d1) hr _
  let ks := d.can.lines.filter fun p => decide (p.1 < staging) && p.2.valid
  let d3 := forAll ks drainLine d2
  have hline (j : Nat) (hj : j < staging) (hvj : (d.can1 j).valid = true) (hdj : (d.can1 j).dirty = true) (hsj : (d.can1
      j).stuck = false) :
      d3.can1 j = { d.can1 j with want := true } ∧ Tab.rising d3.can.lines := by
    have hks : ∀ p ∈ ks, p.1 = j → p.2.dirty = true ∧ p.2.stuck = false := by
      rintro p hp rfl
      have hget : d.can1 p.1 = p.2 := get_of_mem hr (List.mem_filter.mp hp).1
      rw [← hget]
      exact ⟨hdj, hsj⟩
    obtain ⟨h1, h2⟩ := drain_wants ks hr2 hks
    have hmem : ks.any (fun p => p.1 == j) = true :=
      List.any_eq_true.mpr ⟨(j, d.can1 j), List.mem_filter.mpr ⟨Dev.mem_of_valid hvj, by simp [hj, hvj]⟩, by simp⟩
    have hd2 : d2.can1 j = d.can1 j := Dev.can1_dropFills (d := d1) hr _ hvj
    rw [hmem, Bool.or_true, hd2] at h1
    exact ⟨h1, h2⟩
  have hkeep : d3.can.en = false ∧ d3.can.draining = true ∧ d3.can.maint = d.can.maint := drainLines_keep ks d2
  have hfinal : d.startDrain = (if ks.any fun p => p.2.stuck then ({ d3 with can.drainStopped := true } : Dev).raise bCan 102
      else d3).sweepWays.drainEnd := rfl
  generalize hd4 : (if ks.any fun p => p.2.stuck then ({ d3 with can.drainStopped := true } : Dev).raise bCan 102 else d3) =
    d4 at hfinal
  have hcan4 : d4.can = { d3.can with drainStopped := d4.can.drainStopped } := by
    rw [← hd4]
    split <;> rfl
  have hsweep := d4.sweepWays_keeps
  rw [hcan4] at hsweep
  have hcan1 (j : Nat) : d4.sweepWays.can1 j = d3.can1 j := by
    rw [Dev.can1, hsweep, Dev.can1]
  have hvk : (d4.sweepWays.can1 k).valid = true := by
    rw [hcan1, (hline k hk hv hd hs).1]
    exact hv
  rw [Dev.drainEnd_waits hk hvk] at hfinal
  rw [hfinal, hsweep]
  obtain ⟨h1, h2, h3⟩ := hkeep
  refine ⟨h1, h2, h3, fun j hj hvj hdj hsj => ?_⟩
  rw [hcan1, (hline j hj hvj hdj hsj).1]

/-- With EN at 1 again the drain is over. -/
theorem Dev.endDrain_ends (d : Dev) : d.endDrain.can.en = true ∧ d.endDrain.can.draining = false ∧ d.endDrain.can.maint =
    d.can.maint :=
  ⟨rfl, rfl, rfl⟩

end Machine
end Sys2Proof

section
open Sys2Proof Sys2Proof.Machine Sys2Proof.Laws
set_option Elab.async false

/-- Settles O30: each register by the branch of its effect that the state names. -/
theorem configurationRegisters : Obligations.ConfigurationRegisters := by
  unfold Obligations.ConfigurationRegisters
  intro v s hcan hs
  refine ⟨fun hm hz => ⟨?_, ?_⟩, ?_, ?_, ?_, ?_, ?_, ?_, ?_, ?_, ?_, ?_, ?_⟩
  · rintro z rfl h1 h2 h3
    refine ⟨_, core_next (o := execFrsMetaBaseWrite true v s) rfl hs, answersReg_emit .., (settle_frs _).trans ?_⟩
    exact congrArg Dev.frs (if_pos (frsFits (d := { s.dev with drive := [] }) hm hz ⟨h1, h2, h3⟩))
  · rintro b rfl h1 h2 h3
    refine ⟨_, core_next (o := execFrsMetaBaseWrite false v s) rfl hs, answersReg_emit .., (settle_frs _).trans ?_⟩
    exact congrArg Dev.frs (if_pos (frsFits (d := { s.dev with drive := [] }) hm hz ⟨h1, h2, h3⟩))
  · rintro limit b z rfl rfl h
    refine ⟨_, core_next (o := execFrsMetaBaseWrite limit v s) rfl hs, answersReg_emit .., (settle_frs _).trans ?_⟩
    refine congrArg Dev.frs (if_neg fun hc => ?_)
    simp only [Bool.and_eq_true, Bool.not_eq_true', List.all_eq_true, beq_iff_eq, decide_eq_true_eq] at hc
    obtain ⟨⟨hm, hz⟩, h1, h2, h3⟩ := hc
    rcases h with h | ⟨p, hp, hne⟩ | h | h | h
    · exact absurd (h.symm.trans hm) (by decide)
    · exact hne (hz p hp)
    · exact absurd h1 (Nat.not_le.mpr h)
    · exact absurd h2 (Nat.not_le.mpr h)
    · exact absurd h3 (Nat.not_le.mpr h)
  · intro hen hdr
    refine ⟨_, core_next (o := execCanPinCfg v s) rfl hs, answersReg_emit .., ?_⟩
    rw [settle_can]
    have hcond : ¬(({ s.dev with drive := [] } : Dev).can.en || ({ s.dev with drive := [] } : Dev).can.draining) =
        true := by simp [hen, hdr]
    refine (congrArg (fun d : Dev => d.can.pinWays) (if_neg hcond)).trans ?_
    exact forAll_keeps (fun d : Dev => d.can.pinWays) _ (fun b x => by split <;> rfl) _ _
  · intro h
    refine ⟨_, core_next (o := execCanPinCfg v s) rfl hs, answersReg_emit .., (settle_can _).trans ?_⟩
    exact congrArg Dev.can (if_pos (by simpa using h))
  · intro hv hen hm
    obtain ⟨t, hrow, hans, ht⟩ := canCtrlEn_next (v := v) hs
    rw [Dev.setsEn, if_neg (by simp [hv]), if_pos (by exact hen)] at ht
    refine ⟨fun hl => ⟨t, hrow, hans, ?_⟩, ?_⟩
    · obtain ⟨h1, h2, h3⟩ := Dev.startDrain_empty (d := { s.dev with drive := [] }) hl
      rw [pumpMaint_empty (h3.trans hm)] at ht
      exact ⟨ht ▸ h1, ht ▸ h2⟩
    · rintro ⟨k, hk, hval, hd, hst⟩
      obtain ⟨h1, h2, h3, h4⟩ := Dev.startDrain_wants (d := { s.dev with drive := [] }) hcan.lines hk hval hd hst
      rw [pumpMaint_empty (h3.trans hm)] at ht
      refine ⟨t, hrow, hans, ht ▸ h1, ht ▸ h2, fun j hj hvj hdj hsj => ?_⟩
      rw [Dev.can1, ht]
      exact h4 j hj hvj hdj hsj
  · intro hv hen hm
    obtain ⟨t, hrow, hans, ht⟩ := canCtrlEn_next (v := v) hs
    obtain ⟨h1, h2, h3⟩ := Dev.endDrain_ends { s.dev with drive := [] }
    rw [Dev.setsEn, if_pos hv, if_neg (by exact (Bool.not_eq_true _).mpr hen), pumpMaint_empty (h3.trans hm)] at ht
    exact ⟨t, hrow, hans, ht ▸ h1, ht ▸ h2⟩
  · intro harm hph
    refine ⟨_, core_next (o := execPerAnchorBaseWrite v s) rfl hs, answersReg_emit .., ?_⟩
    rw [settle_per]
    have hph0 : ({ s.dev with drive := [] } : Dev).perPhase = 0 := hph
    exact congrArg (fun d : Dev => d.per.anchorBase) (if_neg (by simp [harm, hph0]))
  · intro h
    refine ⟨_, core_next (o := execPerAnchorBaseWrite v s) rfl hs, answersReg_emit .., (settle_per _).trans ?_⟩
    have h0 : s.dev.per.armed = true ∨ ({ s.dev with drive := [] } : Dev).perPhase ≠ 0 := h
    exact congrArg Dev.per (if_pos (by simpa using h0))
  · intro hl
    refine ⟨_, core_next (o := execFabPortEn v s) rfl hs, answersReg_emit .., ?_⟩
    rw [settle_fab]
    have hl0 : ({ s.dev with drive := [] } : Dev).lifecycle ≠ 0 := hl
    refine (congrArg (fun d : Dev => d.fab.portEn) (if_neg hl0)).trans ?_
    have ht : Touches [.ports] _ (forAll (List.range Config.ports) (fun p e => e.initialCredits p)
        ({ s.dev with drive := [], fab.portEn := v.extractLsb' 0 8 } : Dev)) := .forAllAfter (fun p e =>
          Dev.initialCredits_touches e p) (.refl _)
    exact congrArg Fab.portEn (ht.keeps .fabRest)
  · refine ⟨_, core_next (o := execLanKatRun v s) rfl hs, answersReg_emit .., fun i hi hst hbit => ?_⟩
    rw [settle_lane]
    exact startKats_run (fun i => if i < 32 then bit (s.dev.mgt.loHeld.get 0x20004) i else bit v (i - 32)) (List.range
      Config.lanes)
      (d := { s.dev with drive := [] }) hcan.lanes hst (.inr ⟨List.mem_range.mpr hi, hbit⟩)
  · intro hv harm hres
    obtain ⟨t, hrow, hans, ht⟩ := perArm_next (v := v) hs
    have hbusy : ¬(({ s.dev with drive := [] } : Dev).per.armed || ({ s.dev with drive := [] } : Dev).restoring) = true := by
      rw [Bool.or_eq_true, not_or]
      exact ⟨(Bool.not_eq_true _).mpr harm, (Bool.not_eq_true _).mpr hres⟩
    rw [Dev.arms, if_neg (by simp [hv]), if_neg hbusy] at ht
    refine ⟨fun hi => ?_, fun hi => ?_⟩
    · rw [if_pos ((Bool.not_eq_true' _).mpr hi)] at ht
      exact ⟨t, hrow, hans, ht⟩
    · have hinst : ¬(!({ s.dev with drive := [] } : Dev).key.drbg.instantiated) = true := by
        rw [Bool.not_eq_true', Bool.not_eq_false]
        exact hi
      rw [if_neg hinst] at ht
      exact ⟨t, hrow, hans, Dev.startArm_starts ht⟩
  · intro hv h
    obtain ⟨t, hrow, hans, ht⟩ := perArm_next (v := v) hs
    have hbusy : (({ s.dev with drive := [] } : Dev).per.armed || ({ s.dev with drive := [] } : Dev).restoring) = true := by
      rw [Bool.or_eq_true]
      exact h
    rw [Dev.arms, if_neg (by simp [hv]), if_pos hbusy] at ht
    exact ⟨t, hrow, hans, ht⟩

end

/-! O51. The test access port (spec/17 R457-R464, spec/02 R80). -/

namespace Sys2Proof
namespace Machine

open Laws

-- each proof is small and there are many: elaborated one after the other they need one thread
set_option Elab.async false

/-! ### A domain and its reset -/

theorem domBit_self {k : Nat} (h : k < 60) : (domBit k).getLsbD k = true := by
  rw [domBit, BitVec.getLsbD_ofNat, Nat.testBit_two_pow_self, Bool.and_true]
  exact decide_eq_true h

theorem domBit_other {j k : Nat} (h : j ≠ k) : (domBit k).getLsbD j = false := by
  rw [domBit, BitVec.getLsbD_ofNat, Nat.testBit_two_pow_of_ne (Ne.symm h), Bool.and_false]

@[simp] theorem Dev.inReset_intoReset {k : Nat} (d : Dev) (h : k < 60) : (d.intoReset k).inReset k = true := by
  simp [Dev.intoReset, Dev.inReset, domBit_self h]

@[simp] theorem Dev.inReset_outOfReset {k : Nat} (d : Dev) (h : k < 60) : (d.outOfReset k).inReset k = false := by
  simp [Dev.outOfReset, Dev.inReset, domBit_self h]

theorem Dev.inReset_intoReset_other {j k : Nat} (d : Dev) (h : j ≠ k) : (d.intoReset k).inReset j = d.inReset j := by
  simp [Dev.intoReset, Dev.inReset, domBit_other h]

theorem Dev.inReset_outOfReset_other {j k : Nat} (d : Dev) (h : j ≠ k) (hj : j < 60) : (d.outOfReset k).inReset j = d.inReset
    j := by
  have hb := domBit_other h
  rw [BitVec.getLsbD_eq_getElem hj] at hb
  simp [Dev.outOfReset, Dev.inReset, hj, hb]

theorem settle_inReset (s : State) (k : Nat) : (settle s).dev.inReset k = s.dev.inReset k := by
  rw [Dev.inReset, settle_mgt, Dev.inReset]

/-! ### The rows of the TAP -/

/-- A scan that the TAP takes acts. -/
theorem onTap_next {s : State} {f : Dev → Dev} {d : Dev} (h : s.dev.tapOn = true) (hf : f { s.dev with drive := [] } = d) :
    s.onTap f = .next (settle { s with dev := d }) :=
  (onTap_acts h).trans (act_eq hf)

/-- EXTEST and CLAMP are taken while SYS_RST_N is 0. -/
theorem scan_taken {s : State} {o : Host.Outcome State Fault Refusal} (h : s.dev.mgt.sysRstN = false) :
    (if s.dev.tapOn && s.dev.mgt.sysRstN then .fault .boundaryScanWithoutReset else o) = o :=
  if_neg (by simp [h])

/-- What Capture-IR loads leaves first. -/
theorem Dev.drive_select (d : Dev) (i : BitVec 8) : (d.select i).drive = d.drive ++ [.tdo 8 1] := rfl

theorem Dev.mem_drive_emit (d : Dev) (x : Transfer) : x ∈ (d.emit x).drive :=
  List.mem_append_right _ (List.mem_singleton_self x)

theorem Dev.mem_emit_of_mem {d : Dev} {x : Transfer} (y : Transfer) (h : x ∈ d.drive) : x ∈ (d.emit y).drive :=
  List.mem_append_left _ h

/-- A read through the network, when its segment is in the path: what GO leaves. -/
def Dev.tapReads (d : Dev) (woff : BitVec 22) : Dev :=
  let d := d.shiftOut d.tap.path
  { d with tap.rDone := true, tap.rWaddr := woff, tap.rDenied := false, tap.rErr := false, tap.rData := 0 }

/-- What a read through the network answers: DENIED, ERR or the value. -/
def Dev.tapAnswers (d : Dev) (s : State) (a : Nat) (zenith : Bool) : Dev :=
  let r := s.readHeld s.dev.tap.rHeld a
  if d.lifecycle = 3 && tapRefused a then { d with tap.rDenied := true, tap.denied := satAdd 0xFFFF d.tap.denied 1 }.raise bMgt
    60
  else if s.tapErr a then { d with tap.rErr := true }
  else { d with tap.rData := r.1, tap.rHeld := r.2 }.zenithRead (zenith && zenithOffset s.dev.tap.rHeld a)

/-- A known-answer set through the network, when its segment is in the path: what GO leaves before the set. -/
def Dev.tapKats (d : Dev) (lane : BitVec 6) : Dev :=
  let d := d.shiftOut d.tap.path
  { d with tap.kLane := lane, tap.kPass := false, tap.kRefused := false, tap.kDone := false, tap.kBusy := false }

/-- The set that GO starts, or its refusal. -/
def Dev.tapSet (d : Dev) (i : Nat) : Dev :=
  if i < Config.lanes && (d.lane i).st.startable then ({ d with tap.kBusy := true } : Dev).startKat i
  else { d with tap.kRefused := true, tap.kDone := true }

theorem tapRegRead_next {s : State} {w : BitVec 22} {zenith : Bool} (hon : s.dev.tapOn = true) (hir : s.dev.tap.ir = 0x10)
    (hdbg : s.dev.dbgDisabled = false) (hsib : s.dev.tap.sibReg = true) :
    exec (.tapRegRead w zenith) s =
      .next (settle { s with dev := (({ s.dev with drive := [] } : Dev).tapReads w).tapAnswers s (4 * w.toNat) zenith }) := by
  refine (exec_tapRegRead ..).trans (onTap_next hon ?_)
  have hnet : ({ s.dev with drive := [] } : Dev).networkOn = true := by
    simp only [Dev.networkOn, hir, Bool.and_eq_true, Bool.not_eq_true']
    exact ⟨rfl, hdbg⟩
  rw [if_neg (by simp [hnet, hsib])]
  rfl

theorem tapKat_next {s : State} {l : BitVec 6} (hon : s.dev.tapOn = true) (hir : s.dev.tap.ir = 0x10)
    (hdbg : s.dev.dbgDisabled = false) (hsib : s.dev.tap.sibKat = true) :
    exec (.tapKat l) s = .next (settle { s with dev := (({ s.dev with drive := [] } : Dev).tapKats l).tapSet l.toNat }) := by
  refine (exec_tapKat ..).trans (onTap_next hon ?_)
  have hnet : ({ s.dev with drive := [] } : Dev).networkOn = true := by
    simp only [Dev.networkOn, hir, Bool.and_eq_true, Bool.not_eq_true']
    exact ⟨rfl, hdbg⟩
  rw [if_neg (by simp [hnet, hsib])]
  rfl

theorem Dev.tap_zenithRead (d : Dev) (z : Bool) : (d.zenithRead z).tap = d.tap := by
  cases z <;> rfl

/-- A set that starts runs, whatever the table of lanes. -/
theorem Dev.katRun_startKat (d : Dev) (i : Nat) : ((d.startKat i).lane i).katRun = true := by
  have hne : ({ d.lane i with katRun := true, vec := katVec } : Lane) ≠ default := fun h => Bool.noConfusion (congrArg
      Lane.katRun h)
  exact congrArg Lane.katRun (Tab.get_put_listed i hne)

end Machine
end Sys2Proof

section
open Sys2Proof Sys2Proof.Machine Sys2Proof.Laws
set_option Elab.async false

/-- Settles O51: by what each scan shifts and leaves in the TAP. -/
theorem testAccessPort : Obligations.TestAccessPort := by
  unfold Obligations.TestAccessPort
  refine ⟨fun s => ⟨?_, fun h => ?_, fun h => ?_⟩, fun s hon => ⟨fun hrst => ⟨fun x y => ?_, ?_⟩, ?_, ?_, fun x y => ?_, fun c
    hc => ?_,
    fun x y => ⟨fun hdbg => ?_, fun hdbg => ?_⟩, fun w zenith hir hdbg hsib => ⟨fun hopen => ⟨fun hreg hup hheld => ?_, fun
      hsome hdown => ?_⟩,
      fun hlc href => ?_⟩, fun l hir hdbg hsib => ⟨fun hl hst => ?_, fun href => ?_⟩⟩⟩
  · refine ⟨_, (exec_trstN ..).trans (act_eq (if_pos (by decide))), settle_tap _, (settle_inReset _ _).trans ?_⟩
    exact Dev.inReset_intoReset _ (by decide)
  · refine ⟨_, (exec_trstN ..).trans (act_eq ((if_neg (by decide)).trans (if_neg (by simp [h])))), settle_tap _, (settle_inReset
      _ _).trans ?_⟩
    exact Dev.inReset_outOfReset _ (by decide)
  · exact ⟨_, (exec_trstN ..).trans (act_eq ((if_neg (by decide)).trans (if_pos h))), settle_tap _, settle_mgt _⟩
  · refine ⟨_, (exec_extest ..).trans ((scan_taken hrst).trans (onTap_next hon rfl)), settle_tap _, settle_drive ?_,
      settle_drive ?_, settle_drive ?_,
      settle_drive ?_⟩
    all_goals simp [Dev.emit, Dev.shiftOut, Dev.select]
  · refine ⟨_, (exec_clamp ..).trans ((scan_taken hrst).trans (onTap_next hon rfl)), settle_tap _, settle_drive ?_, settle_drive
      ?_, settle_drive ?_⟩
    all_goals simp [Dev.emit, Dev.shiftOut, Dev.select, bypassBit]
  · refine ⟨_, (exec_idcode ..).trans (onTap_next hon rfl), settle_tap _, settle_drive ?_, settle_drive ?_⟩
    all_goals simp [Dev.emit, Dev.shiftOut, Dev.select, idcode]
  · refine ⟨_, (exec_idcode ..).trans (onTap_next hon rfl), settle_tap _, settle_drive ?_⟩
    simp [Dev.emit, Dev.shiftOut, idcode]
  · refine ⟨_, (exec_samplePreload ..).trans (onTap_next hon rfl), settle_tap _, settle_drive ?_, settle_drive ?_⟩
    all_goals simp [Dev.emit, Dev.shiftOut, Dev.select]
  · refine ⟨_, (exec_bypass ..).trans (onTap_next hon (if_neg hc)), settle_tap _, settle_drive ?_, settle_drive ?_⟩
    all_goals simp [Dev.emit, Dev.shiftOut, Dev.select, bypassBit]
  · refine ⟨_, (exec_network ..).trans (onTap_next hon (if_neg (by exact (Bool.not_eq_true _).mpr hdbg))), settle_tap _,
      settle_drive ?_, settle_drive ?_⟩
    · exact List.mem_append_left _ (Dev.mem_drive_emit _ _)
    · exact Dev.mem_drive_emit _ _
  · refine ⟨_, (exec_network ..).trans (onTap_next hon (if_pos hdbg)), settle_drive ?_, settle_drive ?_, settle_tap _⟩
    · exact List.mem_append_left _ (Dev.mem_drive_emit _ _)
    · exact Dev.mem_drive_emit _ _
  · have hlc : ¬((({ s.dev with drive := [] } : Dev).tapReads w).lifecycle = 3 && tapRefused (4 * w.toNat)) = true := by
      have hlc0 : (({ s.dev with drive := [] } : Dev).tapReads w).lifecycle = s.dev.lifecycle := rfl
      rw [hlc0]
      rcases hopen with h | h <;> simp [h]
    have herr : ¬s.tapErr (4 * w.toNat) = true := by
      rw [State.tapErr, Bool.and_eq_true, not_and, Bool.not_eq_true]
      intro _
      split
      · simp [hreg]
      · simpa using hup
    refine ⟨_, tapRegRead_next hon hir hdbg hsib, ?_⟩
    dsimp only
    rw [Dev.tapAnswers, if_neg hlc, if_neg herr]
    rw [settle_tap, Dev.tap_zenithRead]
    refine ⟨rfl, rfl, rfl, ?_⟩
    exact readHeld_live (by simp [hheld])
  · have hlc : ¬((({ s.dev with drive := [] } : Dev).tapReads w).lifecycle = 3 && tapRefused (4 * w.toNat)) = true := by
      have hlc0 : (({ s.dev with drive := [] } : Dev).tapReads w).lifecycle = s.dev.lifecycle := rfl
      rw [hlc0]
      rcases hopen with h | h <;> simp [h]
    have herr : s.tapErr (4 * w.toNat) = true := by
      rw [State.tapErr, hsome, Bool.true_and]
      rcases hdown with ⟨k, hk, hd⟩ | ⟨hnil, hd⟩
      · split
        case h_1 h => rw [h] at hk; exact absurd hk List.not_mem_nil
        case h_2 => exact List.any_eq_true.mpr ⟨k, hk, by simp [hd]⟩
      · rw [hnil]
        simp [hd]
    refine ⟨_, tapRegRead_next hon hir hdbg hsib, ?_⟩
    dsimp only
    rw [Dev.tapAnswers, if_neg hlc, if_pos herr]
    rw [settle_tap]
    exact ⟨rfl, rfl, rfl⟩
  · refine ⟨_, tapRegRead_next hon hir hdbg hsib, ?_⟩
    dsimp only
    rw [Dev.tapAnswers, if_pos (by rw [Bool.and_eq_true]; exact ⟨decide_eq_true hlc, href⟩)]
    rw [settle_tap]
    exact ⟨rfl, rfl, rfl, rfl⟩
  · refine ⟨_, tapKat_next hon hir hdbg hsib, ?_⟩
    dsimp only
    rw [Dev.tapSet, if_pos (by rw [Bool.and_eq_true]; exact ⟨decide_eq_true hl, hst⟩), settle_tap, settle_lane]
    exact ⟨rfl, rfl, rfl, Dev.katRun_startKat _ _⟩
  · refine ⟨_, tapKat_next hon hir hdbg hsib, ?_⟩
    have hno : ¬(decide (l.toNat < Config.lanes) && ((({ s.dev with drive := [] } : Dev).tapKats l).lane l.toNat).st.startable)
        = true := by
      rw [Bool.and_eq_true, not_and, Bool.not_eq_true]
      intro hl
      exact href.resolve_left fun h36 => absurd (of_decide_eq_true hl) (Nat.not_lt.mpr h36)
    dsimp only
    rw [Dev.tapSet, if_neg hno, settle_tap, settle_lan]
    exact ⟨rfl, rfl, rfl, rfl⟩

end

/-! O46. The reset inputs of ports, channels, HDMA and links (spec/03 R93, R94, spec/02 R35). -/

namespace Sys2Proof
namespace Machine

open Laws

-- each proof is small and there are many: elaborated one after the other they need one thread
set_option Elab.async false

/-! ### Domains that are up -/

theorem Dev.up_of_inReset {d : Dev} {k : Nat} (h : d.inReset k = true) : d.up k = false := by
  have hr : d.mgt.domReset.getLsbD k = true := h
  simp [Dev.up, hr]

/-- Whether a domain is up is decided by MGT. -/
theorem Dev.up_congr {d e : Dev} (h : e.mgt = d.mgt) (k : Nat) : e.up k = d.up k := by
  unfold Dev.up Dev.clockLostAt
  rw [h]

theorem Dev.up_single {d : Dev} {k : Nat} (hk : domGroup k = [k]) (hr : d.inReset k = false) (hl : (d.mgt.clkMeas.get k).lost =
    false) :
    d.up k = true := by
  have hr0 : d.mgt.domReset.getLsbD k = false := hr
  simp [Dev.up, hk, hr0, Dev.clockLostAt, hl]

theorem Dev.up_frx {d : Dev} {p : Nat} (hp : p < 8) (hr : d.inReset (domFrx p) = false) (hx : (d.mgt.clkMeas.get (domFrx
    p)).lost = false)
    (hy : (d.mgt.clkMeas.get (domFtx p)).lost = false) : d.up (domFrx p) = true := by
  have hr0 : d.mgt.domReset.getLsbD (domFrx p) = false := hr
  have hg : domGroup (domFrx p) = [domFrx p, domFtx p] := by
    rw [domGroup, if_pos ⟨by unfold domFrx; omega, by unfold domFrx; omega⟩]
    unfold domFrx domFtx
    rw [show 10 + p + 8 = 18 + p by omega]
  simp [Dev.up, hg, hr0, Dev.clockLostAt, hx, hy]

theorem Dev.up_ftx {d : Dev} {p : Nat} (hp : p < 8) (hr : d.inReset (domFtx p) = false) (hx : (d.mgt.clkMeas.get (domFrx
    p)).lost = false)
    (hy : (d.mgt.clkMeas.get (domFtx p)).lost = false) : d.up (domFtx p) = true := by
  have hr0 : d.mgt.domReset.getLsbD (domFtx p) = false := hr
  have hg : domGroup (domFtx p) = [domFtx p, domFrx p] := by
    rw [domGroup, if_neg (by unfold domFtx; omega), if_pos ⟨by unfold domFtx; omega, by unfold domFtx; omega⟩]
    unfold domFrx domFtx
    rw [show 18 + p - 8 = 10 + p by omega]
  simp [Dev.up, hg, hr0, Dev.clockLostAt, hx, hy]

/-! ### A port whose domains are down -/

/-- Two states of a port with the same credits of the channels that the engine receives on. -/
structure SameCredits (x y : Port) : Prop where
  req : y.req = x.req
  wdat : y.wdat = x.wdat
  wlpc : y.wlpc = x.wlpc
  rlpc : y.rlpc = x.rlpc

theorem SameCredits.trans {x y z : Port} (h : SameCredits x y) (k : SameCredits y z) : SameCredits x z :=
  ⟨k.req.trans h.req, k.wdat.trans h.wdat, k.wlpc.trans h.wlpc, k.rlpc.trans h.rlpc⟩

/-- Ports in order, and both domains of port q down. -/
structure PortDown (q : Nat) (d : Dev) : Prop where
  ports : Tab.rising d.fab.ports
  rx : d.up (domFrx q) = false
  tx : d.up (domFtx q) = false

theorem PortDown.congr {q : Nat} {d e : Dev} (h : PortDown q d) (hp : e.fab.ports = d.fab.ports) (hm : e.mgt = d.mgt) : PortDown
    q e :=
  ⟨hp ▸ h.ports, (Dev.up_congr hm _).trans h.rx, (Dev.up_congr hm _).trans h.tx⟩

/-- A step that keeps the credits of a port whose domains are down, and leaves them down. -/
def KeepsDown (q : Nat) (f : Dev → Dev) : Prop :=
  ∀ d, PortDown q d → SameCredits (d.port q) ((f d).port q) ∧ PortDown q (f d)

theorem KeepsDown.of_touches {q : Nat} {as : List Aspect} {f : Dev → Dev} (h : ∀ d, Touches as d (f d)) (hm : .mgt ∉ as) (hp :
    .ports ∉ as) :
    KeepsDown q f := by
  intro d hd
  have hports : (f d).fab.ports = d.fab.ports := (h d).kept .ports hp (by simp)
  have hport : (f d).port q = d.port q := congrArg (Tab.get · q) hports
  exact ⟨hport ▸ ⟨rfl, rfl, rfl, rfl⟩, hd.congr hports ((h d).kept .mgt hm (by simp))⟩

theorem KeepsDown.comp {q : Nat} {f g : Dev → Dev} (hg : KeepsDown q g) (hf : KeepsDown q f) : KeepsDown q fun d => g (f
    d) := by
  intro d hd
  obtain ⟨h1, h2⟩ := hf d hd
  obtain ⟨k1, k2⟩ := hg (f d) h2
  exact ⟨h1.trans k1, k2⟩

theorem KeepsDown.forAll {α : Type} {q : Nat} {g : α → Dev → Dev} (h : ∀ x, KeepsDown q (g x)) (xs : List α) : KeepsDown q
    (Machine.forAll xs g) := by
  unfold Machine.forAll
  induction xs with
  | nil => exact fun d hd => ⟨⟨rfl, rfl, rfl, rfl⟩, hd⟩
  | cons x r ih => exact KeepsDown.comp (f := g x) ih (h x)

/-- No credit goes out on a port whose domains are down. -/
theorem giveCredits_keepsDown (q p a b c k : Nat) : KeepsDown q (·.giveCredits p a b c k) := by
  intro d hd
  have hm : (d.giveCredits p a b c k).mgt = d.mgt := (Dev.giveCredits_touches d p a b c k).keeps .mgt
  refine ⟨?_, Dev.giveCredits_rising hd.ports .., (Dev.up_congr hm _).trans hd.rx, (Dev.up_congr hm _).trans hd.tx⟩
  by_cases hq : q = p
  · subst hq
    have hput {x : Port} (h : SameCredits (d.port q) x) : SameCredits (d.port q) ((d.setPort q x).port q) := by
      rwa [Dev.port_setPort hd.ports]
    unfold Dev.giveCredits
    dsimp only
    split
    · exact hput ⟨rfl, rfl, rfl, rfl⟩
    · simp only [hd.rx, hd.tx, Bool.and_false, Bool.false_and, Bool.false_eq_true, if_false, Nat.add_zero, Nat.sub_zero,
        if_true]
      exact hput ⟨rfl, rfl, rfl, rfl⟩
  · obtain ⟨x, dr, he⟩ := giveCredits_only d p a b c k
    have hport : (d.giveCredits p a b c k).port q = d.port q := by
      rw [he]
      exact Tab.get_put_other x hq
    exact hport ▸ ⟨rfl, rfl, rfl, rfl⟩

theorem noteHold_keepsDown (q : Nat) : KeepsDown q Dev.noteHold := by
  intro d hd
  unfold Dev.noteHold
  dsimp only
  split
  · exact ⟨⟨rfl, rfl, rfl, rfl⟩, hd.congr rfl rfl⟩
  · split
    · exact KeepsDown.forAll (fun p => giveCredits_keepsDown q p 0 0 0 0) _ { d with fab.holding := false } (hd.congr rfl rfl)
    · exact ⟨⟨rfl, rfl, rfl, rfl⟩, hd⟩

theorem process_keepsDown (q id : Nat) : KeepsDown q (·.process id) := by
  intro d hd
  dsimp only
  unfold Dev.process
  split
  · exact ⟨⟨rfl, rfl, rfl, rfl⟩, hd⟩
  · dsimp only
    split
    · exact KeepsDown.comp (giveCredits_keepsDown q _ 1 0 0 0) (.of_touches (fun d => Dev.outcome_touches d id .accessError)
        (by decide) (by decide)) d hd
    · split
      · exact noteHold_keepsDown q d hd
      · exact KeepsDown.comp (giveCredits_keepsDown q _ 1 0 0 0) (.comp (noteHold_keepsDown q)
          (.of_touches (fun d => Dev.admission_touches d id _ d.mgt.tref) (by decide) (by decide))) d hd

theorem retryReceived_keepsDown (q : Nat) : KeepsDown q Dev.retryReceived :=
  fun d hd => KeepsDown.forAll (fun id => process_keepsDown q id) _ d hd

/-- A reset of a port leaves it without a credit. -/
theorem Dev.portReset_credits {d : Dev} {p : Nat} (hd : PortDown p d) (squall : Bool) :
    SameCredits default ((d.portReset p squall).port p) := by
  unfold Dev.portReset
  extract_lets mine gone parked _ d1 d2 d3 x y d4
  have h2 : Touches [.stl] d1 d2 := .forAllAfter (fun _ _ => .mono (Dev.syncFilter_touches ..)) (.refl _)
  have h3 : Touches [.stl, .sessions] d2 d3 := .forAllAfter (fun _ _ => .mono (Dev.updSession_touches ..)) (.refl _)
  have hp2 : d2.fab.ports = d.fab.ports := h2.keeps .ports
  have hm2 : d2.mgt = d.mgt := h2.keeps .mgt
  have hp : d3.fab.ports = d.fab.ports := Eq.trans (h3.keeps .ports) hp2
  have hm : d3.mgt = d.mgt := Eq.trans (h3.keeps .mgt) hm2
  clear_value d3
  have h4 : SameCredits default (d4.port p) := by
    rw [Dev.port_setPort (hp ▸ hd.ports)]
    exact ⟨rfl, rfl, rfl, rfl⟩
  have hd4 : PortDown p d4 := ⟨put_rising _ _ (hp ▸ hd.ports), (Dev.up_congr hm _).trans hd.rx, (Dev.up_congr hm _).trans hd.tx⟩
  split
  · exact h4
  · exact h4.trans (KeepsDown.comp (retryReceived_keepsDown p) (noteHold_keepsDown p) d4 hd4).1

/-- A port that is open, new and up gets its initial credits. -/
theorem Dev.initialCredits_go {d : Dev} {p : Nat} (ho : d.portOpen p = true) (hx : d.port p = default) (hh : d.fab.holding =
    false)
    (hr : d.up (domFrx p) = true) (ht : d.up (domFtx p) = true) (hports : Tab.rising d.fab.ports) :
    .credits p 32 32 16 16 ∈ (d.initialCredits p).drive := by
  unfold Dev.initialCredits
  rw [if_pos (by simp only [ho, hr, ht, hx, Bool.true_and, Bool.and_true]; decide)]
  generalize hy : ({ d.port p with granted := true } : Port) = y
  have hport : (d.setPort p y).port p = y := Dev.port_setPort hports p y
  have hopen : (d.setPort p y).portOpen p = true := ho
  have hup (k : Nat) : (d.setPort p y).up k = d.up k := rfl
  have hhold : (d.setPort p y).fab.holding = false := hh
  unfold Dev.giveCredits
  simp only [hport, hopen, hup, hr, ht, hhold]
  rw [← hy, hx]
  exact Dev.mem_drive_emit _ _

/-! ### Channels -/

/-- A channel in service that is retired stays so, with the cause given. -/
theorem Dev.retireChannel_retires {d : Dev} (n cause : Nat) (h : (d.chan n).retired = false) :
    ((d.retireChannel n cause).chan n).retired = true ∧ ((d.retireChannel n cause).chan n).cause = cause := by
  unfold Dev.retireChannel
  extract_lets c why d1 d2 d3
  rw [if_neg (by simp [c, h])]
  have hne : ({ c with retired := true, cause := cause, waiting := [], out := [] } : Channel) ≠ default :=
    fun h => Bool.noConfusion (congrArg Channel.retired h)
  have h2 : d2.med.ch.get n = { c with retired := true, cause := cause, waiting := [], out := [] } := Tab.get_put_listed n hne
  have h3 : Touches [] d2 d3 := Dev.event_touches ..
  have h4 : Touches [.accs, .svc, .ports, .fabRest, .stl, .frs, .queues, .hdma, .can, .med, .per, .del, .rmp, .decided, .record]
      d2
      (forAll why (fun w e => e.commandGone w) d3).pumpAdopt [.key, .adopt] :=
    .after (Dev.pumpAdopt_touches ..) (.forAllAfter (fun _ _ => .mono (Dev.commandGone_touches ..)) (.mono h3))
  have hr : Kept d2 _ .retired := h4.keeps .retired
  have hk := hr n (congrArg Channel.retired h2)
  rw [h2] at hk
  exact hk

theorem Dev.retireSafe_retires {d : Dev} (n cause : Nat) (h : (d.chan n).retired = false) :
    ((d.retireSafe n cause).chan n).retired = true ∧ ((d.retireSafe n cause).chan n).cause = cause := by
  unfold Dev.retireSafe
  extract_lets c
  rw [if_neg (by simp [c, h])]
  have hne : ({ c with retired := true, cause := cause, waiting := [], out := [] } : Channel) ≠ default :=
    fun h => Bool.noConfusion (congrArg Channel.retired h)
  have h2 : (d.setChan n { c with retired := true, cause := cause, waiting := [], out := [] }).med.ch.get n =
      { c with retired := true, cause := cause, waiting := [], out := [] } := Tab.get_put_listed n hne
  have hr : Kept (d.setChan n { c with retired := true, cause := cause, waiting := [], out := [] }) _ .retired :=
    (Dev.event_touches _ .flt 0x0041 bMed .plain [(8, 1, n), (9, 1, cause), (12, 4, c.bucket)]).keeps .retired
  have hk := hr n (congrArg Channel.retired h2)
  rw [h2] at hk
  exact hk

/-! ### HDMA, doorbells and links -/

theorem settle_hdma (s : State) : Kept s.dev (settle s).dev .hdma := (settle_touches s).keeps .hdma

theorem settle_links (s : State) : (settle s).dev.del.links = s.dev.del.links := by
  have h : { (settle s).dev.del with evtLost := false, oseq := 0 } = { s.dev.del with evtLost := false, oseq := 0 } :=
      (settle_touches s).keeps .del
  have hl := congrArg (·.links) h
  exact hl

theorem settle_link (s : State) (n : Nat) : (settle s).dev.link n = s.dev.link n :=
  congrArg (Tab.get · n) (settle_links s)

/-- The failure of every transfer leaves a host port in reset idle. -/
theorem Dev.hostLost_idle {d : Dev} (h : d.inReset domHdma = true) (squall : Bool) :
    HostIdle (d.hostLost squall).mgt.domReset (d.hostLost squall).qmg.wrOut (d.hostLost squall).qmg.rdOut
      (d.hostLost squall).qmg.wrCredit (d.hostLost squall).qmg.rdCredit := by
  have hfail : Kept { d with qmg.wrOut := [], qmg.rdOut := [], qmg.wrCredit := 0, qmg.rdCredit := 0 } (d.hdmaFail squall)
      .host := by
    unfold Dev.hdmaFail
    extract_lets _ ws rs d0
    have h0 : Touches [.hdma, .queues, .rmp, .accs, .stl, .qmg, .svc, .frs, .key, .fabRest, .decided] d0
        (forAll rs (fun (r : HRd) e => e.readEnds { r with err := true }) (forAll ws (fun w e => e.writeEnds w true)
          d0)).pumpDrains.pumpTables :=
      .after (Dev.pumpTables_touches ..) (.after (Dev.pumpDrains_touches ..) (.forAllAfter (fun _ _ => .mono
        (Dev.readEnds_touches ..))
        (.forAllAfter (fun _ _ => .mono (Dev.writeEnds_touches ..)) (.refl _))))
    split
    · exact id
    · exact h0.keeps .host
  have hidle := hfail ⟨h, rfl, rfl, rfl, rfl⟩
  unfold Dev.hostLost
  dsimp only
  split
  · exact hidle
  · have hk : Kept _ (d.afterMeasure (d.hdmaFail squall)) .host := (Dev.afterMeasure_touches d (d.hdmaFail squall)).keeps .host
    exact hk hidle

/-- The doorbell port gets its initial credits. -/
theorem Dev.dbCredits_go (d : Dev) : .dbCredit ∈ d.dbCredits.drive := by
  unfold Dev.dbCredits forAll
  rw [show Config.initDb = 15 + 1 from rfl, List.range_succ, List.foldl_append]
  exact Dev.mem_drive_emit _ _

theorem Dev.link_setLink {d : Dev} (h : Tab.rising d.del.links) (n : Nat) (x : Link) : (d.setLink n x).link n = x :=
  get_put_self_rising n x h

/-- A link goes DOWN, or back to HELLO while it can be brought up. -/
theorem Dev.link_linkDown {d : Dev} (h : Tab.rising d.del.links) (n : Nat) : (d.linkDown n).link n = { d.link n with
    st := if d.linkNamed n then .hello else .down, version := 0, heard := false, lastAt := d.mgt.tref, silent := false,
    helloAt := d.mgt.tref, unacked := [] } :=
  Dev.link_setLink h n _

/-! ### The rows -/

/-- FPn_RST_N puts both domains of the port into reset. -/
def Dev.portIntoReset (d : Dev) (p : Nat) : Dev :=
  (Dev.intoReset { d with mgt.fpRst := d.mgt.fpRst ||| BitVec.ofNat 8 (2 ^ p) } (domFrx p)).intoReset (domFtx p)

theorem Dev.portIntoReset_inReset (d : Dev) {p : Nat} (hp : p < 8) :
    (d.portIntoReset p).inReset (domFrx p) = true ∧ (d.portIntoReset p).inReset (domFtx p) = true ∧
      (d.portIntoReset p).mgt.fpRst.getLsbD p = true := by
  refine ⟨?_, Dev.inReset_intoReset _ (by unfold domFtx; omega), ?_⟩
  · rw [Dev.portIntoReset, Dev.inReset_intoReset_other _ (by unfold domFrx domFtx; omega)]
    exact Dev.inReset_intoReset _ (by unfold domFrx; omega)
  · show (d.mgt.fpRst ||| BitVec.ofNat 8 (2 ^ p)).getLsbD p = true
    rw [BitVec.getLsbD_or, BitVec.getLsbD_ofNat, Nat.testBit_two_pow_self]
    simp [hp]

theorem fpnRstN_next {p : Fin 8} {s : State} (h : s.dev.up (domFrx p) = true) : exec (.fpnRstN p) s =
    .next (settle { s with dev := (Dev.portIntoReset { s.dev with drive := [] } p).portReset p s.safe.active }) := by
  refine (exec_fpnRstN p s).trans (act_eq (if_pos ?_))
  rw [Bool.or_eq_true]
  exact .inl h

/-- The release of FPn_RST_N takes both domains of the port out of reset. -/
def Dev.portOutOfReset (d : Dev) (p : Nat) : Dev :=
  (Dev.outOfReset { d with mgt.fpRst := d.mgt.fpRst &&& ~~~ BitVec.ofNat 8 (2 ^ p) } (domFrx p)).outOfReset (domFtx p)

theorem Dev.portOutOfReset_inReset (d : Dev) {p : Nat} (hp : p < 8) :
    (d.portOutOfReset p).inReset (domFrx p) = false ∧ (d.portOutOfReset p).inReset (domFtx p) = false := by
  refine ⟨?_, Dev.inReset_outOfReset _ (by unfold domFtx; omega)⟩
  rw [Dev.portOutOfReset, Dev.inReset_outOfReset_other _ (by unfold domFrx domFtx; omega) (by unfold domFrx; omega)]
  exact Dev.inReset_outOfReset _ (by unfold domFrx; omega)

/-- The domains of a port run again, and outside the safe state its credits start. -/
def Dev.portReleased (d : Dev) (p : Nat) (squall : Bool) : Dev :=
  let e := d.portOutOfReset p
  if squall then e else e.initialCredits p

theorem fpnResetRelease_next {p : Fin 8} {s : State} (hr : s.dev.mgt.fpRst.getLsbD p = true) (h5 : s.dev.stepFive = true)
    (hx : s.dev.clocked (domFrx p) = true) (hy : s.dev.clocked (domFtx p) = true) : exec (.fpnResetRelease p) s =
      .next (settle { s with dev := Dev.portReleased { s.dev with drive := [] } p s.safe.active }) := by
  refine (exec_fpnResetRelease p s).trans (act_eq ?_)
  rw [if_neg (by simp [hr])]
  refine if_pos ?_
  rw [Bool.and_eq_true, Bool.and_eq_true]
  exact ⟨⟨h5, hx⟩, hy⟩

/-- The credits of the services accrue while the engine serves. -/
def Dev.accrued (d : Dev) : Dev := if d.mgt.ready then d.accrue else d

theorem Dev.accrued_touches (d : Dev) : Touches [.svc] d d.accrued := .ite (Dev.accrue_touches d) (.refl d)

/-- MCn_RST_N puts the domain of the channel into reset. -/
def Dev.chanIntoReset (d : Dev) (n : Nat) : Dev :=
  Dev.intoReset { d with mgt.mcRst := d.mgt.mcRst ||| BitVec.ofNat 16 (2 ^ n) } (domMch n)

/-- The channel is retired with cause 2, and its credits restart. -/
def Dev.chanReset (d : Dev) (n : Nat) (squall : Bool) : Dev :=
  let e := if squall then d.retireSafe n 2 else d.retireChannel n 2
  e.setChan n { e.chan n with mcmd := 0, mwd := 0 }

theorem mcnRstN_next {ch : Fin 16} {s : State} (hr : s.dev.mgt.mcRst.getLsbD ch = false)
    (hs : s.dev.mgt.sysRstN = true ∨ s.dev.mgt.rstDeferred = true) : exec (.mcnRstN ch) s =
      .next (settle
        { s with dev := ((Dev.accrued { s.dev with drive := [] }).chanIntoReset ch).chanReset ch s.safe.active }) := by
  refine (exec_mcnRstN ch s).trans (act_eq (if_neg ?_))
  have hm : (Dev.accrued { s.dev with drive := [] }).mgt = s.dev.mgt := (Dev.accrued_touches _).keeps .mgt
  show ¬(s.dev.mgt.mcRst.getLsbD ch || !((Dev.accrued { s.dev with drive := [] }).mgt.sysRstN ||
    (Dev.accrued { s.dev with drive := [] }).mgt.rstDeferred)) = true
  rw [hm]
  rw [hr, Bool.false_or, Bool.not_eq_true', Bool.not_eq_false, Bool.or_eq_true]
  exact hs

/-- The reset of a channel retires it, whether in service or in the safe state. -/
theorem Dev.chanReset_retires {d : Dev} {n : Nat} (h : (d.chan n).retired = false) (squall : Bool) :
    ((d.chanReset n squall).chan n).retired = true ∧ ((d.chanReset n squall).chan n).cause = 2 ∧
      ((d.chanReset n squall).chan n).mcmd = 0 ∧ ((d.chanReset n squall).chan n).mwd = 0 := by
  unfold Dev.chanReset
  extract_lets e
  have he : (e.chan n).retired = true ∧ (e.chan n).cause = 2 := by
    simp only [e]
    split
    · exact Dev.retireSafe_retires n 2 h
    · exact Dev.retireChannel_retires n 2 h
  clear_value e
  obtain ⟨h1, h2⟩ := he
  have hne : ({ e.chan n with mcmd := 0, mwd := 0 } : Channel) ≠ default := fun hd => by
    have := congrArg Channel.retired hd
    rw [h1] at this
    exact Bool.noConfusion this
  have hc : (e.setChan n { e.chan n with mcmd := 0, mwd := 0 }).chan n = { e.chan n with mcmd := 0, mwd := 0 } :=
      Tab.get_put_listed n hne
  rw [hc]
  exact ⟨h1, h2, rfl, rfl⟩

theorem Dev.chanReset_mgt (d : Dev) (n : Nat) (squall : Bool) : (d.chanReset n squall).mgt = d.mgt := by
  unfold Dev.chanReset
  cases squall
  · exact (Dev.retireChannel_touches d n 2).keeps .mgt
  · exact (Dev.retireSafe_touches d n 2).keeps .mgt

theorem hdmaRstN_next {s : State} (h : s.dev.inReset domHdma = false) : exec .hdmaRstN s =
    .next (settle
      { s with dev := (Dev.intoReset { s.dev with drive := [], mgt.hdmaRst := true } domHdma).hostLost s.safe.active }) := by
  refine (exec_hdmaRstN s).trans (act_eq (if_pos ?_))
  rw [Bool.not_eq_true']
  exact h

/-- The host port runs again, and outside the safe state the doorbell port gets its credits and pending vectors go. -/
def Dev.hostReleased (d : Dev) (squall : Bool) : Dev :=
  let e := Dev.outOfReset { d with mgt.hdmaRst := false } domHdma
  if squall then e else e.dbCredits.pumpVecs

theorem hdmaResetRelease_next {s : State} (h : s.dev.mgt.hdmaRst = true) (h5 : s.dev.stepFive = true) (hc : s.dev.clocked
    domHdma = true) :
    exec .hdmaResetRelease s = .next (settle { s with dev := Dev.hostReleased { s.dev with drive := [] } s.safe.active }) := by
  refine (exec_hdmaResetRelease s).trans (act_eq ?_)
  rw [if_neg (by simp [h])]
  refine if_pos ?_
  rw [Bool.and_eq_true]
  exact ⟨h5, hc⟩

/-- The domain of a link runs again when its reset input is released. -/
def Dev.linkReleased (d : Dev) (n : Nat) : Dev :=
  Dev.outOfReset { d with mgt.pelRst := d.mgt.pelRst &&& ~~~ BitVec.ofNat 4 (2 ^ n) } (domPel n)

theorem pelnResetRelease_next {n : Fin 4} {s : State} (h5 : s.dev.stepFive = true) (hr : s.dev.inReset (domPel n) = true) :
    exec (.pelnResetRelease n) s =
      .next (settle { s with dev := (Dev.linkReleased { s.dev with drive := [] } n).linkDown n }) := by
  refine (exec_pelnResetRelease n s).trans (act_eq (if_pos ?_))
  rw [Bool.and_eq_true]
  exact ⟨h5, hr⟩

end Machine
end Sys2Proof

section
open Sys2Proof Sys2Proof.Machine Sys2Proof.Laws
set_option Elab.async false

/-- Settles O46: each reset puts its domain into reset and clears what the domain held; each release takes it out again. -/
theorem domainResets : Obligations.DomainResets := by
  unfold Obligations.DomainResets
  refine ⟨fun p s hcan hup => ?_, fun p s hcan hrst h5 hx hy => ?_, fun ch s hcan hrst hsys hret => ?_, fun ch s hcan h5 hin =>
    ?_,
    fun s hcan hin => ?_, fun s hcan hrst h5 hclk => ?_, fun n s hcan => ?_, fun n s hcan h5 hin hpool huse hlink hlost => ?_⟩
  · obtain ⟨hx, hy, hbit⟩ := Dev.portIntoReset_inReset { s.dev with drive := [] } p.isLt
    refine ⟨_, fpnRstN_next hup, ?_⟩
    have hports : (Dev.portIntoReset { s.dev with drive := [] } p).fab.ports = s.dev.fab.ports := rfl
    generalize Dev.portIntoReset { s.dev with drive := [] } p = e at hx hy hbit hports
    have hm : (e.portReset p s.safe.active).mgt = e.mgt := (Dev.portReset_touches e p s.safe.active).keeps .mgt
    have hcr := Dev.portReset_credits (d := e) (p := p) ⟨hports ▸ hcan.ports, Dev.up_of_inReset hx, Dev.up_of_inReset hy⟩
        s.safe.active
    dsimp only
    rw [settle_inReset, settle_inReset, settle_mgt, settle_port]
    exact ⟨(congrArg (·.domReset.getLsbD (domFrx p)) hm).trans hx, (congrArg (·.domReset.getLsbD (domFtx p)) hm).trans hy,
      (congrArg (·.fpRst.getLsbD p) hm).trans hbit, hcr.req, hcr.wdat, hcr.wlpc, hcr.rlpc⟩
  · obtain ⟨hrx, htx⟩ := Dev.portOutOfReset_inReset { s.dev with drive := [] } p.isLt
    refine ⟨_, fpnResetRelease_next hrst h5 hx hy, ?_⟩
    unfold Dev.portReleased
    have hports : (Dev.portOutOfReset { s.dev with drive := [] } p).fab = s.dev.fab := rfl
    have hmeas : (Dev.portOutOfReset { s.dev with drive := [] } p).mgt.clkMeas = s.dev.mgt.clkMeas := rfl
    have hopen : (Dev.portOutOfReset { s.dev with drive := [] } p).portOpen p = s.dev.portOpen p := rfl
    generalize Dev.portOutOfReset { s.dev with drive := [] } p = e at hrx htx hports hmeas hopen
    have hm : (if s.safe.active then e else e.initialCredits p).mgt = e.mgt := by
      split
      · rfl
      · exact (Dev.initialCredits_touches e p).keeps .mgt
    dsimp only
    rw [settle_inReset, settle_inReset]
    refine ⟨(congrArg (·.domReset.getLsbD (domFrx p)) hm).trans hrx, (congrArg (·.domReset.getLsbD (domFtx p)) hm).trans htx,
      ?_⟩
    intro hsafe ho hp hh hlx hly
    refine settle_drive ?_
    dsimp only
    rw [if_neg (by simp [hsafe])]
    rw [← hmeas] at hlx hly
    exact Dev.initialCredits_go (hopen.trans ho) ((congrArg (·.ports.get p) hports).trans hp) ((congrArg (·.holding)
      hports).trans hh)
      (Dev.up_frx p.isLt hrx hlx hly) (Dev.up_ftx p.isLt htx hlx hly) (hports ▸ hcan.ports)
  · refine ⟨_, mcnRstN_next hrst hsys, ?_⟩
    dsimp only
    rw [settle_inReset, settle_chan]
    have hmed : (Dev.accrued { s.dev with drive := [] }).med = s.dev.med := (Dev.accrued_touches _).keeps .med
    generalize Dev.accrued { s.dev with drive := [] } = e at hmed
    have hret0 : ((e.chanIntoReset ch).chan ch).retired = false := (congrArg (fun m : Med => (m.ch.get ch).retired) hmed).trans
        hret
    refine ⟨?_, Dev.chanReset_retires hret0 s.safe.active⟩
    rw [Dev.inReset, Dev.chanReset_mgt]
    exact Dev.inReset_intoReset _ (by unfold domMch; omega)
  · refine ⟨_, (exec_mcnResetRelease ch s).trans (act_eq (if_pos ?_)), ?_⟩
    · rw [Bool.and_eq_true]
      exact ⟨h5, hin⟩
    · dsimp only
      rw [settle_inReset, settle_med]
      exact ⟨Dev.inReset_outOfReset _ (by unfold domMch; omega), rfl⟩
  · refine ⟨_, hdmaRstN_next hin, ?_⟩
    have hin1 : (Dev.intoReset { s.dev with drive := [], mgt.hdmaRst := true } domHdma).inReset domHdma = true :=
        Dev.inReset_intoReset _ (by decide)
    generalize Dev.intoReset { s.dev with drive := [], mgt.hdmaRst := true } domHdma = e at hin1
    obtain ⟨h1, h2, h3, h4, h5⟩ := Dev.hostLost_idle hin1 s.safe.active
    dsimp only
    obtain ⟨k1, k2, -, k3, -, k4, -⟩ := settle_hdma { s with dev := e.hostLost s.safe.active }
    rw [settle_inReset, k1, k2, k3, k4]
    exact ⟨h1, h2, h3, h4, h5⟩
  · refine ⟨_, hdmaResetRelease_next hrst h5 hclk, ?_⟩
    unfold Dev.hostReleased
    dsimp only
    generalize he : Dev.outOfReset _ domHdma = e
    have hout : e.inReset domHdma = false := he ▸ Dev.inReset_outOfReset _ (by decide)
    have hrst1 : e.mgt.hdmaRst = false := he ▸ rfl
    have ht : Touches [.hdma, .queues, .qmg] e e.dbCredits.pumpVecs := .after (Dev.pumpVecs_touches _) (.mono
        (Dev.dbCredits_touches e))
    have hm : (if s.safe.active then e else e.dbCredits.pumpVecs).mgt = e.mgt := by
      split
      · rfl
      · exact ht.keeps .mgt
    rw [settle_inReset, settle_mgt]
    refine ⟨(congrArg (·.domReset.getLsbD domHdma) hm).trans hout, (congrArg (·.hdmaRst) hm).trans hrst1, fun hsafe =>
      settle_drive ?_⟩
    dsimp only
    rw [if_neg (by simp [hsafe])]
    exact (Dev.pumpVecs_touches e.dbCredits).drive.subset (Dev.dbCredits_go e)
  · refine ⟨_, (exec_pelnRstN n s).trans (act_eq rfl), ?_⟩
    dsimp only
    rw [settle_inReset, settle_link]
    generalize he : Dev.intoReset _ (domPel n) = e
    have hin : e.inReset (domPel n) = true := he ▸ Dev.inReset_intoReset _ (by unfold domPel; omega)
    have hlinks : Tab.rising e.del.links := by rw [← he]; exact hcan.links
    have hnamed : (e.setLink n { (default : Link) with up := (e.link n).up }).linkNamed n = false := by
      have hup : (e.setLink n { (default : Link) with up := (e.link n).up }).up (domPel n) = false := Dev.up_of_inReset hin
      simp [Dev.linkNamed, Dev.linkUsable, hup]
    refine ⟨hin, ?_⟩
    rw [Dev.link_linkDown (put_rising _ _ hlinks), Dev.link_setLink hlinks, hnamed]
    exact ⟨rfl, rfl, rfl⟩
  · refine ⟨_, pelnResetRelease_next h5 hin, ?_⟩
    dsimp only
    rw [settle_inReset, settle_link]
    generalize he : Dev.linkReleased _ n = e
    have hout : e.inReset (domPel n) = false := he ▸ Dev.inReset_outOfReset _ (by unfold domPel; omega)
    have hdel : e.del = s.dev.del := he ▸ rfl
    have hmeas : e.mgt.clkMeas = s.dev.mgt.clkMeas := he ▸ rfl
    have hup : e.up (domPel n) = true :=
      Dev.up_single (by rw [domGroup, if_neg (by unfold domPel; omega), if_neg (by unfold domPel; omega)]) hout (hmeas ▸ hlost)
    have hnamed : e.linkNamed n = true := by
      simp [Dev.linkNamed, Dev.linkUsable, hup, hdel, Dev.link, hpool, huse]
      exact hlink
    refine ⟨hout, ?_⟩
    rw [Dev.link_linkDown (hdel ▸ hcan.links), hnamed]
    rfl

end

/-! O47. The loss of a clock, clock measurements and the fuse load (spec/03 R88, R98, spec/15 R415, R422, spec/02 R76). -/

namespace Sys2Proof
namespace Machine

open Laws

-- each proof is small and there are many: elaborated one after the other they need one thread
set_option Elab.async false

/-! ### Conditions of the banks -/

/-- An entry that differs from the default is among those that a table lists. -/
theorem mem_which {α : Type} [Inhabited α] {t : Tab α} {f : α → Bool} {k : Nat} (hd : f default = false) (h : f (t.get k) =
    true) :
    k ∈ Tab.which t f := by
  rcases Tab.get_default_or_mem t k with hg | hm
  · rw [hg, hd] at h
    exact Bool.noConfusion h
  · exact List.mem_map.mpr ⟨(k, t.get k), List.mem_filter.mpr ⟨hm, h⟩, rfl⟩

/-- A condition that holds when its bank registers is live then. -/
theorem settleBank_live {s : State} {b k : Nat} (hb : ¬s.bankHeld b) (h : k ∈ s.dev.holding b) :
    k ∈ ((settleBank b s).flt.banks.get b).live := by
  have hl : k ∈ (s.registered b).bank.live := Bank.mem_live_register h
  rcases settleBank_flt s b with ⟨-, hh⟩ | ⟨he, -⟩
  · exact absurd hh hb
  · rw [he, Tab.get_put_listed b fun hd => by rw [hd] at hl; exact absurd hl List.not_mem_nil]
    exact hl

/-- A condition of a bank of CORE that holds after a command is live, with CORE out of reset. -/
theorem settle_live {s : State} {b k : Nat} (hb : b ∈ coreBanks) (hc : s.dev.mgt.domReset.getLsbD domCore = false)
    (h : k ∈ s.dev.holding b) : k ∈ ((settle s).flt.banks.get b).live := by
  obtain ⟨l, r, he, -, hr, -⟩ := coreBanks_split hb
  have hs := settled_forAll l s
  rw [settle_eq, he, forAll_append]
  show k ∈ ((forAll r settleBank (settleBank b (forAll l settleBank s))).flt.banks.get b).live
  rw [forAll_get_other hr]
  refine settleBank_live ?_ (hs.dev.holding b ▸ h)
  rw [hs.bankHeld]
  simp [State.bankHeld, hc]

/-! ### Clocks -/

/-- What leaves MGT but for idle clusters leaves resets and clocks. -/
theorem Kept.clocks {d e : Dev} (h : Kept d e .mgtRest) :
    e.mgt.clkOk = d.mgt.clkOk ∧ e.mgt.clkMeas = d.mgt.clkMeas ∧ e.mgt.domReset = d.mgt.domReset := by
  have h' : { e.mgt with clusterIdle := 0 } = { d.mgt with clusterIdle := 0 } := h
  have h1 := congrArg (·.clkOk) h'
  have h2 := congrArg (·.clkMeas) h'
  have h3 := congrArg (·.domReset) h'
  exact ⟨h1, h2, h3⟩

/-- What a monitor that finds a clock lost writes. -/
def Dev.marksLost (d : Dev) (k : Nat) : Dev :=
  { d with mgt.clkOk := d.mgt.clkOk &&& ~~~ domBit k, mgt.clkMeas := d.mgt.clkMeas.upd k fun m => { m with lost := true } }

/-- The monitor's finding stands, whatever follows from it. -/
theorem Dev.clockLost_marks {d : Dev} {k : Nat} (squall : Bool) (h58 : k ≠ 58) (hr : d.inReset k = false) (hl : d.clockLostAt k
    = false) :
    Kept (d.marksLost k) (d.clockLost k squall) .mgtRest := by
  unfold Dev.clockLost
  rw [if_neg (by simp [hr, hl, domSafe, h58])]
  show Kept (d.marksLost k) (if k = domDbg then { d.marksLost k with tap := { (d.marksLost k).tap.home with held := true } }
    else if squall then (d.marksLost k).clockGoneSafe k else if (d.marksLost k).up domCore then (d.marksLost k).clockGone k
    else d.marksLost k) .mgtRest
  split
  · exact Touches.setTap.keeps .mgtRest
  · split
    · exact (Dev.clockGoneSafe_touches ..).keeps .mgtRest
    · split
      · exact (Dev.clockGone_touches ..).keeps .mgtRest
      · exact .refl _ _

theorem Dev.marksLost_get (d : Dev) (k : Nat) : (d.marksLost k).mgt.clkMeas.get k = { d.mgt.clkMeas.get k with lost := true } :=
  Tab.get_put_listed k fun h => Bool.noConfusion (congrArg ClkMeas.lost h)

theorem Dev.marksLost_clocked (d : Dev) {k : Nat} (hk : k < 60) : (d.marksLost k).clocked k = false := by
  simp [Dev.marksLost, Dev.clocked, domBit_self hk]

/-- A domain that is up is out of reset, and its clock is not lost. -/
theorem Dev.of_up {d : Dev} {k : Nat} (h : d.up k = true) : d.inReset k = false ∧ d.clockLostAt k = false := by
  unfold Dev.up at h
  rw [Bool.and_eq_true, Bool.not_eq_true', Bool.not_eq_true', List.any_eq_false] at h
  obtain ⟨hr, hl⟩ := h
  refine ⟨hr, (Bool.not_eq_true _).mp (hl k ?_)⟩
  unfold domGroup
  split
  · simp
  · split <;> simp

/-- A domain whose clock is measured: the measurement is noted, and the credits accrue until now. -/
def Dev.measured (d : Dev) (k : Nat) (f : BitVec 16) : Dev :=
  let d := d.accrued
  { d with mgt.clkMeas := d.mgt.clkMeas.upd k fun m => { m with valid := true, freq := f } }

theorem Dev.measured_get (d : Dev) (k : Nat) (f : BitVec 16) :
    (d.measured k f).mgt.clkMeas.get k = { d.mgt.clkMeas.get k with valid := true, freq := f } := by
  have hm : d.accrued.mgt = d.mgt := (Dev.accrued_touches d).keeps .mgt
  refine (Tab.get_put_listed k fun h => Bool.noConfusion (congrArg ClkMeas.valid h)).trans ?_
  rw [hm]

theorem Dev.measured_kept (d : Dev) (k : Nat) (f : BitVec 16) :
    (d.measured k f).mgt.clkOk = d.mgt.clkOk ∧ (d.measured k f).mgt.domReset = d.mgt.domReset := by
  have hm : d.accrued.mgt = d.mgt := (Dev.accrued_touches d).keeps .mgt
  exact ⟨congrArg (·.clkOk) hm, congrArg (·.domReset) hm⟩

/-- A frequency beyond the limit is the loss of the clock. -/
def Dev.measures (d : Dev) (k : Nat) (f : BitVec 16) (squall : Bool) : Dev :=
  if freqLimit k < f.toNat then (d.measured k f).clockLost k squall else d.measured k f

theorem clockMeasurement_next {k : Fin 60} {f : BitVec 16} {s : State} (hr : s.dev.inReset k = false) (ht : s.dev.inReset
    domTref = false) :
    exec (.clockMeasurement k f) s = .next (settle
      { s with dev := Dev.measures { s.dev with drive := [] } k f s.safe.active }) := by
  refine (exec_clockMeasurement k f s).trans (act_eq (if_neg ?_))
  rw [Bool.or_eq_true, not_or]
  exact ⟨(Bool.not_eq_true _).mpr hr, (Bool.not_eq_true _).mpr ht⟩

/-! ### Squall is reached from SAFE directly -/

/-- With CORE in reset the banks but those of MGT and FLT register nothing. -/
theorem forAll_held {s : State} {bs : List Nat} (hc : s.dev.mgt.domReset.getLsbD domCore = true) (hb : ∀ b ∈ bs, b ≠ bFlt ∧ b ≠
    bMgt) :
    forAll bs settleBank s = s := by
  unfold forAll
  induction bs with
  | nil => rfl
  | cons b r ih =>
    obtain ⟨hf, hm⟩ := hb b List.mem_cons_self
    have hheld : s.bankHeld b := by simp [State.bankHeld, hc, hf]
    rw [List.foldl_cons, settleBank_of_held hheld, if_pos (by simpa using hm)]
    exact ih fun b h => hb b (List.mem_cons_of_mem _ h)

/-- With CORE in reset a fuse-load failure reaches Squall from SAFE directly. -/
theorem settle_fuseFails {s : State} (hc : s.dev.mgt.domReset.getLsbD domCore = true) (ha : s.safe.active = false)
    (hr : ⟨bMgt, 59, false⟩ ∈ s.dev.raised) : (settle s).safe = { s.safe with
      active := true, cls := 3, bank := 15, src := 59, time := BitVec.ofNat 48 s.dev.mgt.tref } := by
  have hheld : s.bankHeld bMgt := by simp [State.bankHeld, hc, bMgt, bFlt]
  have hany : (s.dev.raised.any fun r => r.bank == bMgt && r.src == 59 && !r.forced) = true :=
    List.any_eq_true.mpr ⟨_, hr, rfl⟩
  have hm : settleBank bMgt s = enterSquall bMgt 59 true s := by
    rw [settleBank_of_held hheld, if_neg (by decide), if_pos hany]
  have he : (enterSquall bMgt 59 true s).safe = { s.safe with
      active := true, cls := 3, bank := 15, src := 59, time := BitVec.ofNat 48 s.dev.mgt.tref } := by
    rw [enterSquall, if_neg (by simp [ha])]
    rfl
  rw [settle_eq, show coreBanks ++ [11, 11] = [0, 1, 2, 3, 4, 5, 6, 7, 8, 9, 10, 12] ++ bMgt :: [11, 11] from rfl,
    forAll_append,
    forAll_held hc (by decide)]
  show (forAll [11, 11] settleBank (settleBank bMgt s)).safe = _
  rw [hm, forAll_settleBank_safe _ (by rw [he]), he]

/-- What SAFE tells after a fuse-load failure. -/
theorem fuseFails_answer {s : State} (hc : s.dev.inReset domCore = true) (ha : s.safe.active = false) :
    let t := settle { s with dev := Dev.fuseFails { s.dev with drive := [] } }
    t.safe.active = true ∧ t.safe.cls = 3 ∧ t.safe.bank = 15 := by
  have hr : ⟨bMgt, 59, false⟩ ∈ (Dev.fuseFails { s.dev with drive := [] }).raised :=
    List.mem_append_right s.dev.raised (List.mem_singleton_self _)
  have h := settle_fuseFails (s := { s with dev := Dev.fuseFails { s.dev with drive := [] } }) hc ha hr
  dsimp only
  rw [h]
  exact ⟨rfl, rfl, rfl⟩

/-! ### The fuse load -/

theorem Dev.startPower_on {d : Dev} (h : d.inReset domTref = false) : d.startPower = d :=
  if_neg (by simp [h])

/-- The effect of an edge of FUSE_ACK while the fuses load. -/
def Dev.acksFuse (d : Dev) (level : Bool) (w : Word32) : Dev :=
  if level && d.mgt.fuseReq then d.fuseWord w
  else if !level && !d.mgt.fuseReq then
    let i := d.mgt.fuseIdx + 1
    let d := { d with mgt.fuseIdx := i }
    if i < 22 then { d with mgt.fuseReq := true, mgt.fuseAt := d.mgt.tref }.emit (.fuse true (i % 11)) else d
  else d

theorem fuseAck_next {s : State} {level : Bool} {w : Word32} (hp : s.dev.mgt.phase = .fuse) (hu : s.dev.up domTref = true)
    (hi : s.dev.mgt.fuseIdx < 22) :
    exec (.fuseAck level w) s = .next (settle { s with dev := Dev.acksFuse { s.dev with drive := [] } level w }) := by
  refine (exec_fuseAck level w s).trans (act_eq ?_)
  have hstart : Dev.startPower { s.dev with drive := [] } = { s.dev with drive := [] } := Dev.startPower_on (Dev.of_up hu).1
  rw [hstart]
  have h : ¬(({ s.dev with drive := [] } : Dev).mgt.phase != .fuse || !({ s.dev with drive := [] } : Dev).up domTref ||
      decide (22 ≤ ({ s.dev with drive := [] } : Dev).mgt.fuseIdx)) = true := by
    rw [show ({ s.dev with drive := [] } : Dev).up domTref = true from hu]
    simp [hp, hi]
  rw [if_neg h]
  rfl

/-- A word of the first reading is kept, and the request falls. -/
theorem Dev.acksFuse_word {d : Dev} {w : Word32} (hreq : d.mgt.fuseReq = true) (hi : d.mgt.fuseIdx < 11) : (d.acksFuse true
    w).mgt =
    { d.mgt with fuseFirst := d.mgt.fuseFirst ++ [w], fuseReq := false, fuseAt := d.mgt.tref } ∧
      .fuse false d.mgt.fuseIdx ∈ (d.acksFuse true w).drive := by
  rw [Dev.acksFuse, if_pos (by simp [hreq]), Dev.fuseWord]
  dsimp only
  rw [if_neg (by simp [Nat.not_le.mpr hi]), if_pos hi, Nat.mod_eq_of_lt hi]
  exact ⟨rfl, Dev.mem_drive_emit _ _⟩

/-- The fall of the acknowledgement asks for the next word. -/
theorem Dev.acksFuse_next {d : Dev} (w : Word32) (hreq : d.mgt.fuseReq = false) (hi : d.mgt.fuseIdx < 21) : (d.acksFuse false
    w).mgt =
    { d.mgt with fuseIdx := d.mgt.fuseIdx + 1, fuseReq := true, fuseAt := d.mgt.tref } ∧
      .fuse true ((d.mgt.fuseIdx + 1) % 11) ∈ (d.acksFuse false w).drive := by
  rw [Dev.acksFuse, if_neg (by simp), if_pos (by simp [hreq])]
  dsimp only
  rw [if_pos (Nat.succ_lt_succ hi)]
  exact ⟨rfl, Dev.mem_drive_emit _ _⟩

/-- A word that differs in the second reading is a failure. -/
theorem Dev.acksFuse_differs {d : Dev} {w : Word32} (hreq : d.mgt.fuseReq = true) (hi : 11 ≤ d.mgt.fuseIdx)
    (hne : d.mgt.fuseFirst.getD (d.mgt.fuseIdx - 11) 0 ≠ w) : d.acksFuse true w = d.fuseFails := by
  rw [Dev.acksFuse, if_pos (by simp [hreq]), Dev.fuseWord]
  exact if_pos (by rw [Bool.and_eq_true]; exact ⟨decide_eq_true hi, decide_eq_true hne⟩)

theorem fuseLoadFailure_next {s : State} (hp : s.dev.mgt.phase = .fuse) (hu : s.dev.up domTref = true)
    (hi : s.dev.mgt.fuseIdx < 22) (hpass : s.dev.passed s.dev.mgt.fuseAt 2 = true) :
    exec .fuseLoadFailure s = .next (settle { s with dev := Dev.fuseFails { s.dev with drive := [] } }) := by
  refine (exec_fuseLoadFailure s).trans (act_eq ?_)
  have hstart : Dev.startPower { s.dev with drive := [] } = { s.dev with drive := [] } := Dev.startPower_on (Dev.of_up hu).1
  rw [hstart]
  refine if_pos ?_
  rw [Bool.and_eq_true, Bool.and_eq_true, Bool.and_eq_true]
  exact ⟨⟨⟨beq_iff_eq.mpr hp, hu⟩, decide_eq_true hi⟩, hpass⟩

end Machine
end Sys2Proof

section
open Sys2Proof Sys2Proof.Machine Sys2Proof.Laws
set_option Elab.async false

/-- Settles O47: by what a lost clock leaves in MGT, the conditions that a bank makes live, and the failure that reaches
Squall directly. -/
theorem clocksAndFuses : Obligations.ClocksAndFuses := by
  unfold Obligations.ClocksAndFuses
  refine ⟨fun k s hcan h58 hup => ?_, fun k f s hcan hr ht => ⟨fun hf => ?_, fun hf h58 => ?_⟩,
    fun w s hcan hp hu => ⟨fun hreq hi => ?_, fun hreq hi => ?_, fun hreq h11 hi hne hc ha => ?_⟩, fun s hcan hp hu hi hpass hc
      ha => ?_⟩
  · refine ⟨_, (exec_clockLoss k s).trans (act_eq rfl), ?_⟩
    obtain ⟨hr, hl⟩ := Dev.of_up hup
    obtain ⟨hok, hmeas, hreset⟩ := (Dev.clockLost_marks (d := { s.dev with drive := [] }) s.safe.active h58 hr hl).clocks
    dsimp only
    refine ⟨?_, ?_, fun hk hcore hne => ?_⟩
    · rw [Dev.clocked, settle_mgt, hok]
      exact Dev.marksLost_clocked _ k.isLt
    · rw [settle_mgt, hmeas, Dev.marksLost_get]
    · refine settle_live (by decide) ((congrArg (·.getLsbD domCore) hreset).trans (Dev.core_of_up hcore)) ?_
      show k.val ∈ (Tab.which _ fun m : ClkMeas => m.lost).map fun k => if k = 59 then 58 else k
      refine List.mem_map.mpr ⟨k, mem_which rfl ?_, if_neg (by omega)⟩
      dsimp only
      rw [hmeas, Dev.marksLost_get]
  · refine ⟨_, clockMeasurement_next hr ht, ?_⟩
    dsimp only
    rw [settle_mgt, Dev.measures, if_neg (Nat.not_lt.mpr hf), Dev.measured_get, (Dev.measured_kept _ _ _).1]
    exact ⟨rfl, rfl⟩
  · refine ⟨_, clockMeasurement_next hr ht, ?_⟩
    obtain ⟨hok, hres⟩ := Dev.measured_kept { s.dev with drive := [] } k f
    have hget := Dev.measured_get { s.dev with drive := [] } k f
    dsimp only
    rw [settle_mgt, Dev.measures, if_pos hf]
    generalize Dev.measured { s.dev with drive := [] } k f = e at hok hres hget
    have hr' : e.inReset k = false := (congrArg (·.getLsbD k) hres).trans hr
    have hlost : e.clockLostAt k = (s.dev.mgt.clkMeas.get k).lost := congrArg (·.lost) hget
    by_cases hl : (s.dev.mgt.clkMeas.get k).lost = true
    · have hsame : e.clockLost k s.safe.active = e := if_pos (by simp [hlost, hl])
      rw [hsame, hget]
      refine ⟨?_, fun h => absurd hl ((Bool.not_eq_true _).mpr h)⟩
      show (⟨true, (s.dev.mgt.clkMeas.get k).lost, f⟩ : ClkMeas) = ⟨true, true, f⟩
      rw [hl]
    · rw [Bool.not_eq_true] at hl
      obtain ⟨hok', hmeas, -⟩ := (Dev.clockLost_marks (d := e) s.safe.active h58 hr' (hlost.trans hl)).clocks
      refine ⟨?_, fun _ => ?_⟩
      · rw [hmeas, Dev.marksLost_get, hget]
      · rw [Dev.clocked, settle_mgt]
        exact (congrArg (·.getLsbD k) hok').trans (Dev.marksLost_clocked e k.isLt)
  · refine ⟨_, fuseAck_next hp hu (by omega), ?_⟩
    obtain ⟨h1, h2⟩ := Dev.acksFuse_word (d := { s.dev with drive := [] }) (w := w) hreq hi
    exact ⟨(settle_mgt _).trans h1, settle_drive h2⟩
  · refine ⟨_, fuseAck_next hp hu (by omega), ?_⟩
    obtain ⟨h1, h2⟩ := Dev.acksFuse_next (d := { s.dev with drive := [] }) w hreq hi
    exact ⟨(settle_mgt _).trans h1, settle_drive h2⟩
  · refine ⟨_, fuseAck_next hp hu hi, ?_⟩
    rw [Dev.acksFuse_differs (d := { s.dev with drive := [] }) hreq h11 hne]
    exact fuseFails_answer hc ha
  · exact ⟨_, fuseLoadFailure_next hp hu hi hpass, fuseFails_answer hc ha⟩

end

namespace Sys2Proof
namespace Machine

open Laws

-- each proof is small and there are many: elaborated one after the other they need one thread
set_option Elab.async false

/-! O50. The safe state: how an FT source enters it, what its end of zeroisation leaves, and that it stands. -/

/-! ### Banks with nothing to register -/

/-- A bank with nothing to register leaves SAFE, the raised occurrences and the other banks alone. -/
structure Idle (s t : State) : Prop where
  settled : Settled s t
  safe : t.safe = s.safe
  raised : t.dev.raised = s.dev.raised
  first : s.flt.banks.wf = true → ∀ i, (t.flt.banks.get i).first = (s.flt.banks.get i).first

theorem settleBank_idle {s : State} {b : Nat} (hserved : ¬s.bankHeld b) (hocc : ∀ r ∈ s.dev.raised, r.bank ≠ b)
    (hh : ∀ k ∈ s.dev.holding b, k ∈ (s.flt.banks.get b).live) : Idle s (settleBank b s) := by
  have hnone : s.dev.occs b = [] := by
    rw [Dev.occs, List.filter_eq_nil_iff.mpr fun r hr => by simpa using hocc r hr]
    rfl
  obtain ⟨hfirst, -, hreal, hdrills⟩ := Bank.register_nothing (b := b) (now := s.dev.stamp) (drill := s.drillOn) hh
  have hreg : s.registered b = (s.flt.banks.get b).register b s.dev.stamp [] (s.dev.holding b) s.drillOn := by
    rw [State.registered, hnone]
  obtain ⟨d, -, hr, he⟩ := settleBank_served hserved
  have hfull : s.dev.raised.filter (fun r => r.bank ≠ b) = s.dev.raised :=
    List.filter_eq_self.mpr fun r hr => by simpa using hocc r hr
  have h1 : settleBank b s = { s with dev := d, flt.banks := s.flt.banks.put b (s.registered b).bank } := by
    rw [he, show (s.registered b).real = none by rw [hreg, hreal], show (s.registered b).drills = [] by rw [hreg, hdrills]]
    rfl
  refine ⟨settleBank_settled b s, by rw [h1], by rw [h1]; exact hr.trans hfull, fun hw i => ?_⟩
  by_cases hi : i = b
  · rw [hi, settleBank_get_self hw hserved, hreg, hfirst]
  · rw [settleBank_get_other hi]

/-- The same for banks one after the other. -/
theorem forAll_idle {bs : List Nat} (hn : bs.Nodup) {s : State} (hc : s.dev.mgt.domReset.getLsbD domCore = false)
    (hocc : ∀ b ∈ bs, ∀ r ∈ s.dev.raised, r.bank ≠ b) (hh : ∀ b ∈ bs, ∀ k ∈ s.dev.holding b, k ∈ (s.flt.banks.get b).live) :
    Idle s (forAll bs settleBank s) := by
  unfold forAll
  induction bs generalizing s with
  | nil => exact ⟨.refl s, rfl, rfl, fun _ _ => rfl⟩
  | cons b r ih =>
    obtain ⟨hb, hr⟩ := List.nodup_cons.mp hn
    obtain ⟨h1, h2, h3, h4⟩ := settleBank_idle (by simp [State.bankHeld, hc]) (hocc b List.mem_cons_self) (hh b
      List.mem_cons_self)
    obtain ⟨k1, k2, k3, k4⟩ := ih hr (s := settleBank b s) ((congrArg (·.domReset.getLsbD domCore) h1.dev.mgt).trans hc)
      (fun i hi => h3 ▸ hocc i (List.mem_cons_of_mem _ hi)) fun i hi => by
        have hne : i ≠ b := fun h => hb (h ▸ hi)
        rw [settleBank_get_other hne, h1.dev.holding]
        exact hh i (List.mem_cons_of_mem _ hi)
    exact ⟨h1.trans k1, k2.trans h2, k3.trans h3, fun hw i => (k4 (h1.banks hw).1 i).trans (h4 hw i)⟩

/-! ### An FT source enters the safe state -/

/-- What SAFE tells of the first cause (spec/15 R422). -/
structure Entered (s t : State) (b k : Nat) (fuse : Bool) : Prop where
  active : t.safe.active = true
  cls : t.safe.cls = if b = bFlt then 2 else if fuse then 3 else 1
  bank : t.safe.bank = if fuse then 15 else b
  src : t.safe.src = k
  time : t.safe.time = BitVec.ofNat 48 s.dev.mgt.tref

theorem enterSquall_entered {s : State} {b k : Nat} {fuse : Bool} (h : s.safe.active = false) : Entered s (enterSquall b k fuse
    s) b k fuse := by
  rw [enterSquall, if_neg (by simp [h])]
  exact ⟨rfl, rfl, rfl, rfl, rfl⟩

theorem Entered.of_safe {s t u : State} {b k : Nat} {fuse : Bool} (h : Entered s t b k fuse) (hu : u.safe = t.safe) : Entered s
    u b k fuse := by
  obtain ⟨h1, h2, h3, h4, h5⟩ := h
  exact ⟨hu ▸ h1, hu ▸ h2, hu ▸ h3, hu ▸ h4, hu ▸ h5⟩

/-- A bank with one FT occurrence, its own, enters the safe state. -/
theorem settleBank_enters {s : State} {b k : Nat} (hc : s.dev.mgt.domReset.getLsbD domCore = false) (ha : s.safe.active = false)
    (hr : s.dev.raised = [⟨b, k, false⟩]) (hh : ∀ k ∈ s.dev.holding b, k ∈ (s.flt.banks.get b).live)
    (hcls : (s.flt.banks.get b).cls b k = 3) (hl : k ∉ (s.flt.banks.get b).live) :
    Entered s (settleBank b s) b k (b == bMgt && k == 59) := by
  have hserved : ¬s.bankHeld b := by simp [State.bankHeld, hc]
  have hocc : s.dev.occs b = [⟨k, true, false⟩] := by simp [Dev.occs, hr]
  obtain ⟨-, hreal, -⟩ := Bank.register_one (b := b) (now := s.dev.stamp) (o := ⟨k, true, false⟩) (drill := s.drillOn) hh hl
  have hreg : (s.registered b).real = some k := by
    rw [State.registered, hocc, hreal]
    simp [hcls]
  obtain ⟨d, hd, -, he⟩ := settleBank_served hserved
  rw [he, hreg]
  dsimp only
  have h := enterSquall_entered (s := { s with dev := d, flt.banks := s.flt.banks.put b (s.registered b).bank }) (b := b) (k :=
      k)
    (fuse := b == bMgt && k == 59 && (s.dev.raised.filter fun r => r.bank = b).any fun r => r.src == 59 && !r.forced) ha
  have hf : (b == bMgt && k == 59 && (s.dev.raised.filter fun r => r.bank = b).any fun r => r.src == 59 && !r.forced) =
      (b == bMgt && k == 59) := by
    rw [hr]
    by_cases h59 : k = 59 <;> simp [h59]
  rw [hf] at h ⊢
  obtain ⟨h1, h2, h3, h4, h5⟩ := h
  exact ⟨h1, h2, h3, h4, h5.trans (congrArg (fun m : Mgt => BitVec.ofNat 48 m.tref) hd.mgt)⟩

/-- With CORE in service the only occurrence of a step, of an FT source, enters the safe state. -/
theorem settle_enters {s : State} {b : Fin 14} {k : Nat} (hc : s.dev.mgt.domReset.getLsbD domCore = false) (ha : s.safe.active =
    false)
    (hr : s.dev.raised = [⟨b, k, false⟩]) (hh : ∀ n, ∀ k ∈ s.dev.holding n, k ∈ (s.flt.banks.get n).live)
    (hcls : (s.flt.banks.get b).cls b k = 3) (hl : k ∉ (s.flt.banks.get b).live) :
    Entered s (settle s) b k (b.val == bMgt && k == 59) := by
  have hb : b.val ∈ coreBanks ++ [11] := (by decide : ∀ b : Fin 14, b.val ∈ coreBanks ++ [11]) b
  obtain ⟨l, r, he⟩ := List.append_of_mem hb
  have hn : (l ++ b.val :: r).Nodup := he ▸ (by decide : (coreBanks ++ [11]).Nodup)
  obtain ⟨hln, -, hd⟩ := List.nodup_append.mp hn
  have hnl : b.val ∉ l := fun h => hd _ h _ (by simp) rfl
  obtain ⟨h1, h2, h3, -⟩ := forAll_idle hln hc (fun i hi x hx hbi => by
    rw [hr, List.mem_singleton] at hx
    have hib : i = b.val := hbi.symm.trans (congrArg (·.bank) hx)
    exact hnl (hib ▸ hi)) fun i _ => hh i
  have hs : settle s = forAll (r ++ [11]) settleBank (settleBank b (forAll l settleBank s)) := by
    rw [settle_eq, show coreBanks ++ [11, 11] = (coreBanks ++ [11]) ++ [11] by simp, he, List.append_assoc, forAll_append]
    rfl
  have hget := forAll_get_other hnl s
  generalize forAll l settleBank s = u at h1 h2 h3 hs hget
  obtain ⟨k1, k2, k3, k4, k5⟩ := settleBank_enters (s := u) (b := b) (k := k) ((congrArg (·.domReset.getLsbD domCore)
    h1.dev.mgt).trans hc)
    (h2 ▸ ha) (h3.trans hr) (by rw [hget, h1.dev.holding]; exact hh b) (hget ▸ hcls) (hget ▸ hl)
  have hsafe : (settle s).safe = (settleBank b u).safe := hs ▸ forAll_settleBank_safe _ k1
  exact .of_safe ⟨k1, k2, k3, k4, k5.trans (congrArg (fun m : Mgt => BitVec.ofNat 48 m.tref) h1.dev.mgt)⟩ hsafe

/-! ### SQUALL_ENTRY and ZEROISATION_DONE -/

/-- The test of SQUALL_ENTRY. -/
abbrev EntersSquall (b : Fin 14) (k : Nat) (s : State) : Prop :=
  k < sources b ∧ (s.flt.banks.get b).cls b k = 3 ∧ ¬(b.val = bMgt ∧ k < 59) ∧
    (b.val = bMgt ∧ k = 59 → s.dev.mgt.phase = .fuse ∧ s.dev.up domTref = true)

theorem squallEntry_next {b : Fin 14} {src : BitVec 10} {s : State} (h : EntersSquall b src.toNat s) :
    exec (.squallEntry b src) s = .next (settle { s with dev := Dev.raise { s.dev with drive := [] } b src.toNat }) := by
  refine (exec_squallEntry b src s).trans (act_eq (if_pos ?_))
  obtain ⟨hk, hc, hm, hf⟩ := h
  have hup : ∀ d : List Transfer, ({ s.dev with drive := d } : Dev).up domTref = s.dev.up domTref := fun _ => rfl
  simp only [Bool.and_eq_true, Bool.or_eq_true, Bool.not_eq_true', decide_eq_true_eq, beq_iff_eq, hup]
  refine ⟨⟨⟨hk, hc⟩, by simpa using hm⟩, ?_⟩
  by_cases hx : b.val = bMgt ∧ src.toNat = 59
  · exact .inr (hf hx)
  · exact .inl (by simpa using hx)

/-- The loss of a clock has its own row. -/
theorem squallEntry_clock {src : BitVec 10} {s : State} (h : src.toNat < 59) :
    exec (.squallEntry 13 src) s = .next (settle { s with dev := { s.dev with drive := [] } }) := by
  refine (exec_squallEntry 13 src s).trans (act_eq (if_neg ?_))
  simp [h, bMgt]

theorem zeroisationDone_next {s : State} (h : s.safe.active = true) (hz : s.safe.zeroised = false) :
    exec .zeroisationDone s = .next (settle
      { s with dev := Dev.zeroise { s.dev with drive := [] }, safe.zeroised := true }) := by
  refine (exec_zeroisationDone s).trans ?_
  unfold execZeroisationDone State.whole
  dsimp only
  rw [if_neg (by simp [h, hz])]

/-! ### What the end of zeroisation leaves -/

theorem Access.outOfLane_stage (a : Access) : a.outOfLane.stage ≠ .lane ∧ a.outOfLane.linkKey = none ∧ a.outOfLane.winKey =
    none := by
  unfold Access.outOfLane
  dsimp only
  split
  · exact ⟨by simp, rfl, rfl⟩
  next h => exact ⟨by simpa using h, rfl, rfl⟩

theorem mem_mapAll {α : Type} [Inhabited α] [DecidableEq α] {t : Tab α} {f : Nat → α → α} {p : Nat × α} (h : p ∈ t.mapAll f) :
    ∃ x, p.2 = f p.1 x := by
  obtain ⟨q, -, rfl⟩ := List.mem_map.mp (List.mem_filter.mp h).1
  exact ⟨q.2, rfl⟩

theorem Dev.zeroise_zones {d : Dev} : ∀ p ∈ d.zeroise.frs.zones, p.2.key = none ∧ p.2.drawn = none := fun p h => by
  obtain ⟨x, hx⟩ := mem_mapAll (t := d.frs.zones) (f := fun _ (z : Zone) => { z with key := none, drawn := none }) h
  rw [hx]
  exact ⟨rfl, rfl⟩

theorem Dev.zeroise_lanes {d : Dev} : ∀ p ∈ d.zeroise.lan.lanes, p.2.slots = [] ∧ p.2.regs = [] ∧ p.2.katRun = false := fun p h
    => by
  obtain ⟨x, hx⟩ := mem_mapAll (t := d.lan.lanes)
    (f := fun _ (l : Lane) => { l with slots := [], regs := [], katRun := false, katHold := false }) h
  rw [hx]
  exact ⟨rfl, rfl, rfl⟩

theorem Dev.zeroise_kBusy (d : Dev) : d.zeroise.tap.kBusy = false := by
  show (Tap.katLost _).kBusy = false
  unfold Tap.katLost
  split
  · rfl
  next h => simpa using h

theorem Dev.zeroise_accs {d : Dev} : ∀ a ∈ d.zeroise.fab.accs, a.stage ≠ .lane ∧ a.linkKey = none ∧ a.winKey = none := fun a h
    => by
  obtain ⟨x, -, rfl⟩ := List.mem_map.mp h
  exact x.outOfLane_stage

theorem Session.untagged_tags (x : Session) : (∀ w ∈ x.untagged.rwins, w.tk = default) ∧ (∀ w ∈ x.untagged.wdone, w.tk =
    default) ∧
    ∀ w, x.untagged.wwin = some w → w.tk = default := by
  refine ⟨fun w h => ?_, fun w h => ?_, fun w h => ?_⟩
  · obtain ⟨v, -, rfl⟩ := List.mem_map.mp h
    rfl
  · obtain ⟨v, -, rfl⟩ := List.mem_map.mp h
    rfl
  · obtain ⟨v, -, rfl⟩ := Option.map_eq_some_iff.mp h
    rfl

theorem Dev.zeroise_sessions {d : Dev} : ∀ p ∈ d.zeroise.fab.sessions, (∀ w ∈ p.2.rwins, w.tk = default) ∧
    (∀ w ∈ p.2.wdone, w.tk = default) ∧ ∀ w, p.2.wwin = some w → w.tk = default := fun p h => by
  obtain ⟨x, hx⟩ := mem_mapAll (t := d.fab.sessions) (f := fun _ (x : Session) => x.untagged) h
  rw [hx]
  exact x.untagged_tags

end Machine
end Sys2Proof

section
open Sys2Proof Sys2Proof.Machine Sys2Proof.Laws
set_option Elab.async false

/-- Settles O50: the banks before the source's have nothing to register, its own enters the safe state, and no command but the
power cycle ends it (`exec_row`). -/
theorem safeState : Obligations.SafeState := by
  unfold Obligations.SafeState
  refine ⟨⟨fun b src fuse s ha hq hfuse hcore hk hcls hl h59 hf => ?_, fun src s h => ?_, fun s ha hz => ?_⟩, fun c s t ha hc he
    => ?_⟩
  · have hfuse' : fuse = true ↔ b.val = bMgt ∧ src.toNat = 59 := by
      rw [hfuse]
      exact decide_eq_true_iff
    refine ⟨_, squallEntry_next ⟨hk, hcls, fun h => absurd (h59 h.1) (by omega), fun h => hf (hfuse'.mpr h)⟩, ?_⟩
    have hraised : (Dev.raise { s.dev with drive := [] } b src.toNat).raised = [⟨b, src.toNat, false⟩] := by
      show s.dev.raised ++ _ = _
      rw [(hq 0).1]
      rfl
    by_cases hcore' : s.dev.mgt.domReset.getLsbD domCore = false
    · obtain ⟨h1, h2, h3, h4, h5⟩ := settle_enters (s := { s with dev := Dev.raise { s.dev with drive := [] } b src.toNat }) (b
        := b) hcore' ha
        hraised (fun n => (hq n).2) hcls hl
      have hff : (b.val == bMgt && src.toNat == 59) = fuse := by
        rw [hfuse, Bool.eq_iff_iff, Bool.and_eq_true, beq_iff_eq, beq_iff_eq, decide_eq_true_iff]
        rfl
      rw [hff] at h2 h3
      exact ⟨h1, h3, h4, h5, h2⟩
    · obtain ⟨hb, hs⟩ := hfuse'.mp (hcore.resolve_left hcore')
      have h := settle_fuseFails (s := { s with dev := Dev.raise { s.dev with drive := [] } b src.toNat })
          (by simpa using hcore') ha
        (by rw [hraised, hb, hs]; exact List.mem_singleton_self _)
      have hff := hcore.resolve_left hcore'
      have hb11 : ¬b.val = 11 := fun h => absurd (hb.symm.trans h) (by decide)
      dsimp only
      rw [if_pos hff, if_pos hff, if_neg hb11, h, hs]
      exact ⟨rfl, rfl, rfl, rfl, rfl⟩
  · exact ⟨_, squallEntry_clock h, onlyChanges_settle (onlyChanges_undriven s)⟩
  · refine ⟨_, zeroisationDone_next ha hz, ?_⟩
    have hsafe := settle_safe_active (s := { s with dev := Dev.zeroise { s.dev with drive := [] }, safe.zeroised := true }) ha
    simp only [settle_key, settle_frs, settle_lan, settle_tap, settle_fab, hsafe]
    exact ⟨trivial, rfl, rfl, rfl, rfl, rfl, rfl, rfl, rfl, Dev.zeroise_zones, Dev.zeroise_lanes, Dev.zeroise_kBusy _,
      Dev.zeroise_accs,
      Dev.zeroise_sessions⟩
  · exact (exec_next he).cause hc ha

end

namespace Sys2Proof
namespace Machine

open Laws

-- each proof is small and there are many: elaborated one after the other they need one thread
set_option Elab.async false

/-! O45. The losses of power and the resets by SYS_RST_N. -/

/-! ### Registering while CORE is in reset -/

/-- With CORE in reset only the direct causes of MGT and the bank of FLT are reached. -/
theorem settle_of_core_reset {s : State} (hc : s.dev.mgt.domReset.getLsbD domCore = true) :
    settle s = settleBank bFlt (settleBank bFlt (settleBank bMgt s)) := by
  rw [settle_eq, show coreBanks ++ [11, 11] = [0, 1, 2, 3, 4, 5, 6, 7, 8, 9, 10, 12] ++ [bMgt, bFlt, bFlt] from rfl,
    forAll_append,
    forAll_held hc (by decide)]
  rfl

/-- A registration that reaches no link and no event queue. -/
structure Silent (d e : Dev) : Prop where
  qmg : { e.qmg with vecs := [] } = { d.qmg with vecs := [] }
  del : e.del = d.del

theorem Silent.refl (d : Dev) : Silent d d := ⟨rfl, rfl⟩

theorem Silent.trans {a b c : Dev} (h : Silent a b) (k : Silent b c) : Silent a c :=
  ⟨k.qmg.trans h.qmg, k.del.trans h.del⟩

theorem sendSafe_of_out {d : Dev} (h : d.del.inPool = false) : d.sendSafe = d := by
  unfold Dev.sendSafe Dev.broadcast
  exact if_pos (by simp [h])

theorem enterSquall_silent {b k : Nat} {fuse : Bool} {s : State} (h : s.dev.del.inPool = false) :
    Silent s.dev (enterSquall b k fuse s).dev := by
  unfold enterSquall
  split
  · exact .refl _
  · show Silent s.dev s.dev.sendSafe
    rw [sendSafe_of_out h]
    exact .refl _

theorem countItem_silent (d : Dev) (v n : Nat) : Silent d (d.countItem v n) := by
  unfold Dev.countItem
  split
  · exact .refl d
  · exact ⟨rfl, rfl⟩

theorem post_of_invalid {d : Dev} {r : Rec} (h : d.qmg.fltEvq.valid = false) : d.post .flt r = d := by
  unfold Dev.post
  exact if_pos (by simp [Dev.evq, h])

theorem settleBank_silent {s : State} (b : Nat) (hp : s.dev.del.inPool = false) (he : s.dev.qmg.fltEvq.valid = false) :
    Silent s.dev (settleBank b s).dev := by
  unfold settleBank
  split
  · split
    · exact .refl _
    · split
      · exact enterSquall_silent hp
      · split
        · exact enterSquall_silent hp
        · exact .refl _
  · extract_lets mine occs x r _ d1 d2 d3 s1
    have h2 : Silent s.dev d2 := by
      unfold d2
      split
      · exact (⟨rfl, rfl⟩ : Silent s.dev d1).trans (countItem_silent ..)
      · exact ⟨rfl, rfl⟩
    have h3 : Silent s.dev d3 := by
      unfold d3
      split
      · rw [post_of_invalid ((congrArg (·.fltEvq.valid) h2.qmg).trans he)]
        exact h2
      · exact h2
    split
    · exact h3.trans (enterSquall_silent (s := { s with dev := d3, flt.banks := s.flt.banks.put b r.bank })
        ((congrArg (·.inPool) h3.del).trans hp))
    · split
      · exact h3
      · exact h3.trans ⟨rfl, rfl⟩

/-- With CORE in reset, nothing raised and TREF's clock running, a registration leaves SAFE and the first-error records. -/
theorem settle_nothing {u : State} (hc : u.dev.mgt.domReset.getLsbD domCore = true) (hr : u.dev.raised = [])
    (hl : u.dev.clockLostAt domTref = false) (hw : u.flt.banks.wf = true) :
    (settle u).safe = u.safe ∧ ∀ b, ((settle u).flt.banks.get b).first = (u.flt.banks.get b).first := by
  have hm : settleBank bMgt u = u := by
    rw [settleBank_of_held (by simp [State.bankHeld, hc, bMgt, bFlt]), if_neg (by decide), if_neg (by simp [hr]), if_neg
      (by simp [hl])]
  have hserved : ∀ v : State, ¬v.bankHeld bFlt := fun v => by simp [State.bankHeld]
  have hholds : ∀ d : Dev, d.holding bFlt = [] := fun _ => rfl
  obtain ⟨h1, h2, h3, h4⟩ := settleBank_idle (hserved u) (by simp [hr]) (by simp [hholds])
  obtain ⟨-, k2, -, k4⟩ := settleBank_idle (hserved (settleBank bFlt u)) (by simp [h3, hr]) (by simp [hholds])
  rw [settle_of_core_reset hc, hm]
  exact ⟨k2.trans h2, fun b => (k4 (h1.banks hw).1 b).trans (h4 hw b)⟩

/-! ### What a reset leaves -/

/-- Registering leaves what a reset has cleared, with CORE in reset. -/
theorem Cleared.settle {u : State} (h : Cleared u) (hc : u.dev.mgt.domReset.getLsbD domCore = true) : Cleared (settle u) := by
  have hp : u.dev.del.inPool = false := (congrArg (·.inPool) h.del : _)
  have he : u.dev.qmg.fltEvq.valid = false := (congrArg (·.fltEvq.valid) h.qmg : _)
  have h1 := settleBank_silent bMgt hp he
  have h2 := settleBank_silent (s := settleBank bMgt u) bFlt ((congrArg (·.inPool) h1.del).trans hp)
    ((congrArg (·.fltEvq.valid) h1.qmg).trans he)
  have h12 := h1.trans h2
  have h3 := settleBank_silent (s := settleBank bFlt (settleBank bMgt u)) bFlt ((congrArg (·.inPool) h12.del).trans hp)
    ((congrArg (·.fltEvq.valid) h12.qmg).trans he)
  have hs : Silent u.dev (Machine.settle u).dev := settle_of_core_reset hc ▸ h12.trans h3
  have hbanks : ∀ b, b ≠ bFlt → (Machine.settle u).flt.banks.get b = u.flt.banks.get b := fun b hb => by
    rw [settle_of_core_reset hc, settleBank_get_other hb, settleBank_get_other hb]
    rcases settleBank_flt u bMgt with ⟨hk, -⟩ | ⟨-, hk⟩
    · rw [hk]
    · exact absurd (by simp [State.bankHeld, hc, bMgt, bFlt]) hk
  obtain ⟨x1, x2, x3, x4, x5, x6, x7, x8, x9, x10, x11, x12, x13, x14, x15, x16, x17, x18, x19, x20, x21, x22⟩ := h
  refine ⟨?_, ?_, ?_, ?_, ?_, ?_, ?_, ?_, ?_, ?_, hs.qmg.trans x11, fun v => (settle_settings u v).trans (x12 v),
    (by rw [hs.del]; exact x13), fun n => (settle_link u n).symm ▸ x14 n, ?_, ?_, ?_, ?_, ?_, ?_, ?_, fun b hb => (hbanks b
      hb).trans (x22 b hb)⟩
  all_goals simpa only [settle_fab, settle_stl, settle_rmp, settle_lan, settle_frs, settle_can, settle_med, settle_key,
    settle_svc, settle_per,
    settle_mgt]

/-- A link as its domain's reset leaves it. -/
def Link.cleared (l : Link) : Link := { (default : Link) with up := l.up }

theorem Dev.sysReset_links {d : Dev} (hc : Canonical d) (n : Nat) : d.sysReset.link n = (d.link n).cleared :=
  get_mapAll hc.links (f := fun _ (l : Link) => l.cleared) rfl

/-- MGT as every reset leaves it. -/
structure Mgt.Blank (m : Mgt) : Prop where
  ready : m.ready = false
  phase : m.phase = .fuse
  pfw : m.pfw = .none
  suspended : m.suspended = false
  tref : m.tref = 0
  clusters : m.clusterGate = 0 ∧ m.clusterIdle = 0
  held : m.loHeld = [] ∧ m.hiHeld = []

theorem Dev.sysReset_blank (d : Dev) : d.sysReset.mgt.Blank := ⟨rfl, rfl, rfl, rfl, rfl, ⟨rfl, rfl⟩, ⟨rfl, rfl⟩⟩

/-- The parts outside MGT and the test access port. -/
abbrev Dev.rest (d : Dev) : Dev := { d with mgt := Mgt.reset, tap := Tap.reset, raised := [], drive := [] }

/-- A block that a reset has cleared, with at most the first-error record of FLT. -/
theorem cleared_of_rest {u : State} {d : Dev} (hc : Canonical d) (hd : u.dev.rest = d.sysReset.rest) (hm : u.dev.mgt.Blank)
    (hb : ∀ b, b ≠ bFlt → u.flt.banks.get b = default) : Cleared u where
  fab := (congrArg Dev.fab hd : _)
  stl := (congrArg Dev.stl hd : _)
  rmp := (congrArg Dev.rmp hd : _)
  lan := (congrArg Dev.lan hd : _)
  frs := (congrArg Dev.frs hd : _)
  can := (congrArg Dev.can hd : _)
  med := (congrArg Dev.med hd : _)
  key := (congrArg Dev.key hd : _)
  svc := (congrArg Dev.svc hd : _)
  per := (congrArg Dev.per hd : _)
  qmg := (congrArg (fun d : Dev => { d.qmg with vecs := [] }) hd : _)
  vecs v := (congrArg (fun d : Dev => (d.qmg.vecs.get v).settings) hd : _)
  del := (congrArg (fun d : Dev => { d.del with links := [] }) hd : _)
  links n := by
    have h : u.dev.link n = d.sysReset.link n := (congrArg (fun d : Dev => d.link n) hd : _)
    rw [h, Dev.sysReset_links hc]
    rfl
  ready := hm.ready
  phase := hm.phase
  pfw := hm.pfw
  suspended := hm.suspended
  tref := hm.tref
  clusters := hm.clusters
  held := hm.held
  banks := hb

theorem get_onlyFlt (t : Tab Bank) {b : Nat} (h : b ≠ bFlt) : Tab.get (t.filter fun p => p.1 = bFlt) b = default := by
  rw [get_filter_key (fun k => decide (k = bFlt)), if_neg (by simpa using h)]

theorem Dev.sysReset_core (d : Dev) : d.sysReset.mgt.domReset.getLsbD domCore = true := by
  show ((Mgt.reset.domReset &&& ~~~ domBit domDbg) ||| (d.mgt.domReset &&& domBit domDbg)).getLsbD domCore = true
  rw [BitVec.getLsbD_or, show (Mgt.reset.domReset &&& ~~~ domBit domDbg).getLsbD domCore = true by decide, Bool.true_or]

/-- What a reset leaves is there after the step as well. -/
theorem cleared_settle {u : State} {d : Dev} (hc : Canonical d) (hd : u.dev = d.sysReset)
    (hb : ∀ b, b ≠ bFlt → u.flt.banks.get b = default) : Cleared (settle u) :=
  (cleared_of_rest hc (congrArg Dev.rest hd) (hd ▸ d.sysReset_blank) hb).settle (hd ▸ d.sysReset_core)

/-! ### The rows -/

/-- The memories are lost with the power, and SYS_RST_N that waits takes effect. -/
def State.powerLost (s : State) : State :=
  if s.dev.mgt.rstDeferred then { s with dev.mgt.pwrGood := false }.sysReset
  else { s with dev := Dev.sysReset { s.dev with mgt.pwrGood := false }, flt.banks := s.flt.banks.filter fun p => p.1 = bFlt }

theorem powerLoss_next {s : State} (h : s.dev.mgt.pwrGood = true) :
    exec .powerLoss s = .next (settle (State.powerLost { s with dev.drive := [] })) := by
  refine (exec_powerLoss s).trans ?_
  unfold execPowerLoss State.whole
  dsimp only
  rw [if_neg (by simp [h])]
  rfl

theorem State.powerLost_dev (s : State) : s.powerLost.dev = Dev.sysReset { s.dev with mgt.pwrGood := false } ∧
    s.powerLost.flt.banks = s.flt.banks.filter fun p => p.1 = bFlt := by
  unfold State.powerLost
  split <;> exact ⟨rfl, rfl⟩

/-- The block after a power cycle, before the fuse load begins. -/
def Dev.repowered (d : Dev) : Dev :=
  let e := { d.sysReset with
    mgt := { d.sysReset.mgt with pwrGood := true, fuse := [], domReset := Mgt.reset.domReset, clkOk := Mgt.reset.clkOk, clkMeas := [] }
    tap := { Tap.reset with trstN := d.tap.trstN }, raised := [] }
  if d.tap.trstN then e.outOfReset domDbg else e

theorem powerCycle_next {s : State} (h : s.dev.mgt.pwrGood = false) : exec .powerCycle s = .next (settle { s with
    dev := (Dev.repowered { s.dev with drive := [] }).startPower, flt := Flt.reset, safe := Safe.reset }) := by
  refine (exec_powerCycle s).trans ?_
  unfold execPowerCycle State.whole
  dsimp only
  rw [if_neg (by simp [h])]
  rfl

/-- What the start of the fuse load leaves alone. -/
theorem Dev.startPower_kept (d : Dev) : d.startPower.rest = d.rest ∧ (d.mgt.Blank → d.startPower.mgt.Blank) ∧
    d.startPower.tap = d.tap ∧ d.startPower.raised = d.raised ∧ d.startPower.mgt.clkMeas = d.mgt.clkMeas ∧
    d.startPower.mgt.pwrGood = d.mgt.pwrGood ∧ d.startPower.mgt.fuse = d.mgt.fuse ∧ d.startPower.inReset domCore = d.inReset
      domCore := by
  unfold Dev.startPower
  split
  · exact ⟨rfl, fun ⟨h1, h2, h3, h4, h5, h6, h7⟩ => ⟨h1, h2, h3, h4, h5, h6, h7⟩, rfl, rfl, rfl, rfl, rfl,
      Dev.inReset_outOfReset_other (j := domCore) (k := domTref) d (by decide) (by decide)⟩
  · exact ⟨rfl, id, rfl, rfl, rfl, rfl, rfl, rfl⟩

/-- The start of the fuse load, where power is good. -/
theorem Dev.startPower_starts {d : Dev} (hp : d.mgt.pwrGood = true) (hs : d.mgt.sysRstN = true) (hf : d.mgt.phase = .fuse)
    (hr : d.inReset domTref = true) : d.startPower.mgt.fuseReq = true ∧ d.startPower.inReset domTref = false ∧
      d.startPower.mgt.sysRstN = true ∧ .fuse true 0 ∈ d.startPower.drive := by
  rw [Dev.startPower, if_pos (by simp [hp, hs, hf, hr])]
  exact ⟨rfl, Dev.inReset_outOfReset d (by decide), hs, Dev.mem_drive_emit _ _⟩

theorem Dev.repowered_blank (d : Dev) : d.repowered.rest = d.sysReset.rest ∧ d.repowered.mgt.Blank ∧
    d.repowered.tap = { Tap.reset with trstN := d.tap.trstN } ∧ d.repowered.raised = [] ∧ d.repowered.mgt.clkMeas = [] ∧
    d.repowered.mgt.pwrGood = true ∧ d.repowered.mgt.fuse = [] ∧ d.repowered.mgt.fuseReq = false ∧
    d.repowered.mgt.sysRstN = d.mgt.sysRstN := by
  unfold Dev.repowered
  dsimp only
  split <;> exact ⟨rfl, ⟨rfl, rfl, rfl, rfl, rfl, ⟨rfl, rfl⟩, ⟨rfl, rfl⟩⟩, rfl, rfl, rfl, rfl, rfl, rfl, rfl⟩

/-- Every domain but DBG is in reset after a power cycle. -/
theorem Dev.repowered_inReset (d : Dev) : d.repowered.inReset domCore = true ∧ d.repowered.inReset domTref = true := by
  have hcore : Mgt.reset.domReset.getLsbD domCore = true := by decide
  have htref : Mgt.reset.domReset.getLsbD domTref = true := by decide
  unfold Dev.repowered
  dsimp only
  split
  · exact ⟨(Dev.inReset_outOfReset_other (j := domCore) (k := domDbg) _ (by decide) (by decide)).trans hcore,
      (Dev.inReset_outOfReset_other (j := domTref) (k := domDbg) _ (by decide) (by decide)).trans htref⟩
  · exact ⟨hcore, htref⟩

theorem sysRstNAssert_next {s : State} (h : s.dev.mgt.sysRstN = true) (hd : s.defers = false) : exec .sysRstNAssert s =
    .next (settle (State.sysReset { s with dev := { s.dev with drive := [], mgt.sysRstN := false } })) := by
  refine (exec_sysRstNAssert s).trans ?_
  unfold execSysRstNAssert State.whole
  dsimp only
  rw [if_neg (by simp [h])]
  exact congrArg (fun u => Host.Outcome.next (settle u)) (if_neg ((Bool.not_eq_true _).mpr hd))

/-- SYS_RST_N that the power-fail flush holds back. -/
def State.deferred (s : State) : State :=
  { s with dev.mgt.sysRstN := false, dev.mgt.rstDeferred := true, safe.resetCause := s.safe.resetCause ||| 1 }

theorem sysRstNAssert_deferred {s : State} (h : s.dev.mgt.sysRstN = true) (hd : s.defers = true) : exec .sysRstNAssert s =
    .next (settle (State.deferred { s with dev.drive := [] })) := by
  refine (exec_sysRstNAssert s).trans ?_
  unfold execSysRstNAssert State.whole
  dsimp only
  rw [if_neg (by simp [h])]
  exact congrArg (fun u => Host.Outcome.next (settle u)) (if_pos hd)

theorem overdueReset_of_none {s : State} (h : s.dev.mgt.rstDeferred = false) : s.overdueReset = s :=
  if_neg (by simp [h])

theorem sysRstNRelease_next {s : State} (hs : s.dev.mgt.sysRstN = false) (hd : s.dev.mgt.rstDeferred = false) (h0 : s.dev.tap.ir
    ≠ 0)
    (h3 : s.dev.tap.ir ≠ 3) : exec .sysRstNRelease s =
    .next (settle { s with dev := Dev.startPower { s.dev with drive := [], mgt.sysRstN := true } }) := by
  refine (exec_sysRstNRelease s).trans ?_
  unfold execSysRstNRelease State.whole
  rw [if_neg (not_or.mpr ⟨h0, h3⟩)]
  dsimp only
  rw [overdueReset_of_none (s := { s with dev.drive := [] }) hd]
  dsimp only
  rw [if_neg (by simp [hs]), if_neg (by simp [hd])]

end Machine
end Sys2Proof

section
open Sys2Proof Sys2Proof.Machine Sys2Proof.Laws
set_option Elab.async false

/-- Settles O45: what `Dev.sysReset` leaves, which a registration with CORE in reset keeps. -/
theorem powerAndReset : Obligations.PowerAndReset := by
  unfold Obligations.PowerAndReset
  refine ⟨fun s hc hp => ?_, fun s hc hp => ?_, fun s hc hs => ⟨fun hd => ?_, fun hd => ?_⟩, fun s hc hs hd h0 h3 hp hf ht =>
    ?_⟩
  · obtain ⟨hdev, hflt⟩ := State.powerLost_dev { s with dev.drive := [] }
    refine ⟨_, powerLoss_next hp, cleared_settle (d := { s.dev with drive := [], mgt.pwrGood := false }) ?_ hdev fun b hb => ?_,
      ?_, fun ha => ?_⟩
    · exact { hc with }
    · rw [hflt]
      exact get_onlyFlt _ hb
    · rw [settle_mgt, hdev]
      rfl
    · exact ((exec_next (powerLoss_next hp)).cause (by simp) ha).1
  · refine ⟨_, powerCycle_next hp, ?_⟩
    obtain ⟨r1, r2, r3, r4, r5, r6, r7, r8, r9⟩ := Dev.repowered_blank { s.dev with drive := [] }
    obtain ⟨hcore, htref⟩ := Dev.repowered_inReset { s.dev with drive := [] }
    generalize Dev.repowered { s.dev with drive := [] } = e at r1 r2 r3 r4 r5 r6 r7 r8 r9 hcore htref
    obtain ⟨k1, k2, k3, k4, k5, k6, k7, k8⟩ := e.startPower_kept
    have hreq : e.startPower.mgt.fuseReq = e.mgt.sysRstN := by
      cases hs : e.mgt.sysRstN
      · rw [Dev.startPower, if_neg (by simp [hs]), r8]
      · exact (Dev.startPower_starts r6 hs r2.phase htref).1
    have hnew : ({ s with dev := e.startPower, flt := Flt.reset, safe := Safe.reset } : State).flt.banks.wf = true := rfl
    obtain ⟨hsafe, hfirst⟩ := settle_nothing (u := { s with dev := e.startPower, flt := Flt.reset, safe := Safe.reset })
      (k8.trans hcore)
      (k4.trans r4) (by rw [Dev.clockLostAt, k5, r5]; rfl) hnew
    have hbanks := (settle_settled { s with dev := e.startPower, flt := Flt.reset, safe := Safe.reset }).banks hnew
    refine ⟨(cleared_of_rest (d := { s.dev with drive := [] }) { hc with } (k1.trans r1) (k2 r2) fun _ _ => rfl).settle
      (k8.trans hcore),
      ?_, hsafe, ?_, ?_, ?_, fun b => ⟨hfirst b, (hbanks.2 b).1, (hbanks.2 b).2.1⟩⟩
    · exact (congrArg Mgt.pwrGood (settle_mgt _)).trans (k6.trans r6)
    · exact (settle_tap _).trans (k3.trans r3)
    · exact (congrArg Mgt.fuse (settle_mgt _)).trans (k7.trans r7)
    · exact (congrArg Mgt.fuseReq (settle_mgt _)).trans (hreq.trans r9)
  · refine ⟨_, sysRstNAssert_next hs hd, cleared_settle (d := { s.dev with drive := [], mgt.sysRstN := false }) { hc with } rfl
      fun b hb => get_onlyFlt _ hb, ?_, settle_resetCause _, settle_drillEn _, ?_, ?_, ?_⟩
    · exact congrArg Mgt.sysRstN (settle_mgt _)
    · refine (congrArg Tap.ir (settle_tap _)).trans ?_
      show (Tap.katLost s.dev.tap).ir = s.dev.tap.ir
      unfold Tap.katLost
      split <;> rfl
    · exact (congrArg Mgt.fuse (settle_mgt _)).trans rfl
    · exact (congrArg Mgt.pfWarn (settle_mgt _)).trans rfl
  · refine ⟨_, sysRstNAssert_deferred hs hd, settle_mgt _, settle_resetCause _, onlyChanges_settle fun p hp => ?_⟩
    cases p
    case mgt | safeRegs => exact absurd hp (by decide)
    all_goals simp [Same, State.deferred]
  · refine ⟨_, sysRstNRelease_next hs hd h0 h3, ?_⟩
    obtain ⟨h1, h2, h3, h4⟩ := Dev.startPower_starts (d := { s.dev with drive := [], mgt.sysRstN := true }) hp rfl hf ht
    exact ⟨(congrArg Mgt.sysRstN (settle_mgt _)).trans h3, (settle_inReset _ _).trans h2, (congrArg Mgt.fuseReq
      (settle_mgt _)).trans h1,
      settle_drive h4⟩

end

namespace Sys2Proof
namespace Machine

open Laws

-- each proof is small and there are many: elaborated one after the other they need one thread
set_option Elab.async false

/-! O49. PF_WARN, the power-fail flush, and the return to normal work. -/

theorem completes_of {c : Instr} {s t : State} {P : State → Prop} (h : exec c s = .next t) (hp : P t) : Completes c s P := ⟨t,
    h, hp⟩

/-! ### Requests that are not admitted end -/

/-- The outcome of an access is not decided otherwise than ACCESS_ERROR. -/
def EndsAccessError (d : Dev) (id : Nat) : Prop := ∃ a, d.acc id = some a ∧ (a.stage = .done → a.status = .accessError)

/-- One request that is not admitted ends. -/
def Dev.stopsRequest (x : Nat × BitVec 16 × BitVec 16) (e : Dev) : Dev := (e.outcome x.1 .accessError).syncFilter x.2.1 x.2.2

theorem Dev.stopsRequest_touches (x : Nat × BitVec 16 × BitVec 16) (e : Dev) : Touches [.accs, .stl] e (e.stopsRequest x) :=
  .after (Dev.syncFilter_touches ..) (.mono (Dev.outcome_touches ..))

theorem Dev.stopsRequest_acc (x : Nat × BitVec 16 × BitVec 16) (e : Dev) (id : Nat) :
    (e.stopsRequest x).acc id = (e.outcome x.1 .accessError).acc id := by
  have h : (e.stopsRequest x).fab.accs = (e.outcome x.1 .accessError).fab.accs :=
    (Dev.syncFilter_touches (e.outcome x.1 .accessError) x.2.1 x.2.2).keeps .accs
  rw [Dev.acc, h]
  rfl

theorem Dev.stopsRequest_self {x : Nat × BitVec 16 × BitVec 16} {e : Dev} (h : EndsAccessError e x.1) :
    Decided (e.stopsRequest x).fab.accs x.1 .accessError := by
  obtain ⟨a, ha, hs⟩ := h
  have hd : a.stage = .done ∧ a.status = .accessError ∨ a.stage ≠ .done ∧ Status.accessError = .accessError := by
    by_cases hdone : a.stage = .done
    · exact .inl ⟨hdone, hs hdone⟩
    · exact .inr ⟨hdone, rfl⟩
  obtain ⟨b, hb, h1, h2⟩ := Dev.outcome_decides .accessError ha hd
  exact ⟨b, (e.stopsRequest_acc x x.1).trans hb, h1, h2⟩

theorem Dev.stopsRequest_other {x : Nat × BitVec 16 × BitVec 16} {e : Dev} {id : Nat} (h : EndsAccessError e id) :
    EndsAccessError (e.stopsRequest x) id := by
  by_cases hx : x.1 = id
  · obtain ⟨b, hb, -, hs⟩ := Dev.stopsRequest_self (x := x) (e := e) (hx ▸ h)
    exact ⟨b, hx ▸ hb, fun _ => hs⟩
  · obtain ⟨a, ha, hs⟩ := h
    exact ⟨a, ((e.stopsRequest_acc x id).trans (Dev.acc_outcome_other _ (Ne.symm hx))).trans ha, hs⟩

/-- Every request of a list ends ACCESS_ERROR. -/
theorem stopsRequests_decide {xs : List (Nat × BitVec 16 × BitVec 16)} {d : Dev} {x : Nat × BitVec 16 × BitVec 16} (hx : x ∈ xs)
    (h : EndsAccessError d x.1) : Decided (forAll xs Dev.stopsRequest d).fab.accs x.1 .accessError := by
  obtain ⟨l, r, rfl⟩ := List.append_of_mem hx
  have hl : EndsAccessError (forAll l Dev.stopsRequest d) x.1 := by
    clear hx
    unfold forAll
    induction l generalizing d with
    | nil => exact h
    | cons y l ih => exact ih (Dev.stopsRequest_other h)
  rw [forAll_append]
  have ht : Touches [.accs, .stl] ((forAll l Dev.stopsRequest d).stopsRequest x)
      (forAll r Dev.stopsRequest ((forAll l Dev.stopsRequest d).stopsRequest x)) :=
    .forAllAfter (fun y e => Dev.stopsRequest_touches y e) (.refl _)
  have hk : Kept _ _ .decided := ht.keeps .decided
  exact hk _ _ (Dev.stopsRequest_self hl)

/-- The requests that are not admitted. -/
def Dev.unadmitted (d : Dev) : List (Nat × BitVec 16 × BitVec 16) :=
  (d.fab.accs.filter Access.unadmitted).map fun a => (a.id, a.sid, a.kid)

/-- The windows end, and with them the writes that wait for one. -/
def Dev.stopWindows (d : Dev) : Dev :=
  let d := forAll (List.range 256) (fun g e =>
    let e := e.updSession g fun s => { s with wdone := s.wdone.map fun (w : WWin) =>
      if w.forced.isNone then { w with forced := some .sessionFailed } else w }
    if (e.session g).wwin.isSome then e.endWindow g .sessionFailed else Dev.flushForced (e.session g).wdone.length g e) d
  forAll ((d.fab.accs.filter fun a => a.stage == .waitWindow).map (·.id)) (fun id e => e.outcome id .linkError) d

theorem Dev.stopAdmission_eq (d : Dev) : d.stopAdmission = (forAll d.unadmitted Dev.stopsRequest d).stopWindows := by
  unfold Dev.stopAdmission Dev.stopWindows Dev.unadmitted
  have h : Dev.stopsRequest = fun x e => (e.outcome x.1 .accessError).syncFilter x.2.1 x.2.2 := rfl
  rw [h]

theorem Dev.stopWindows_touches (d : Dev) : Touches [.accs, .sessions, .ports] d d.stopWindows := by
  unfold Dev.stopWindows
  exact .forAllAfter (fun _ _ => .mono (Dev.outcome_touches ..)) (.forAllAfter (fun _ _ => .ite
    (.after (Dev.endWindow_touches ..) (.mono (Dev.updSession_touches ..)))
    (.after (Dev.flushForced_touches ..) (.mono (Dev.updSession_touches ..)))) (.refl _))

/-- A parked request ends ACCESS_ERROR when admission stops. -/
theorem Dev.stopAdmission_parked {d : Dev} {id : Nat} {a : Access} (h : d.acc id = some a) (hp : a.stage = .parked) :
    Decided d.stopAdmission.fab.accs id .accessError := by
  have hid : a.id = id := Dev.id_of_acc h
  have hm : (a.id, a.sid, a.kid) ∈ d.unadmitted :=
    List.mem_map.mpr ⟨a, List.mem_filter.mpr ⟨List.mem_of_find?_eq_some h, by simp [Access.unadmitted, hp]⟩, rfl⟩
  have hd := stopsRequests_decide hm ⟨a, hid ▸ h, by simp [hp]⟩
  rw [Dev.stopAdmission_eq]
  have hk : Kept _ _ .decided := (Dev.stopWindows_touches (forAll d.unadmitted Dev.stopsRequest d)).keeps .decided
  exact hk _ _ (hid ▸ hd)

/-! ### The flush begins -/

/-- What the flush does after admission has stopped. -/
def Dev.flushWork (d : Dev) : Dev :=
  let d := d.ckptFail 3
  let d := { d with per := { d.per with waiting := [] } }.finishAll d.per.waiting (Cpl.aborted 3)
  d.stopEntries

theorem Dev.flushBegins_eq (d : Dev) : d.flushBegins = (Dev.stopAdmission { d with mgt.pfw := .flushing }).flushWork := by
  unfold Dev.flushBegins Dev.flushWork
  generalize Dev.stopAdmission _ = e
  rfl

theorem Dev.flushWork_touches (d : Dev) :
    Touches [.queues, .hdma, .per, .svc, .frs, .key, .del, .med, .record] d d.flushWork [.can, .adopt, .accs] :=
  .after (Dev.stopEntries_touches ..) (.after (Dev.finishAll_touches ..) (.after (Touches.setPer) (.mono (Dev.ckptFail_touches
    ..))))

/-- The flush begins, and parked requests end. -/
theorem Dev.flushBegins_ends (d : Dev) : d.flushBegins.mgt = { d.mgt with pfw := .flushing } ∧
    ∀ id a, d.acc id = some a → a.stage = .parked → Decided d.flushBegins.fab.accs id .accessError := by
  rw [Dev.flushBegins_eq]
  have hadm := Dev.stopAdmission_touches { d with mgt.pfw := .flushing }
  have hdec : ∀ id a, d.acc id = some a → a.stage = .parked → Decided (Dev.stopAdmission
      { d with mgt.pfw := .flushing }).fab.accs id .accessError :=
    fun id a hacc hp => Dev.stopAdmission_parked (d := { d with mgt.pfw := .flushing }) hacc hp
  generalize Dev.stopAdmission { d with mgt.pfw := .flushing } = e at hadm hdec
  have hk : Kept e e.flushWork .decided := (Dev.flushWork_touches e).keeps .decided
  exact ⟨Kept.trans (hadm.keeps .mgt) ((Dev.flushWork_touches e).keeps .mgt), fun id a hacc hp => hk _ _ (hdec id a hacc hp)⟩

/-- PF_WARN is recognised. -/
def Dev.warned (d : Dev) : Dev := { d with mgt.pfWarn := true }.raise bMgt 62

theorem pfWarn_next {s : State} (ha : s.safe.active = false) (hw : s.dev.mgt.pfWarn = false) (hu : s.dev.up domTref = true) :
    exec .pfWarn s = .next (settle { s with dev :=
      if s.dev.mgt.ready then (Dev.warned { s.dev with drive := [] }).flushBegins else Dev.warned { s.dev with drive := [] }
        }) := by
  refine (exec_pfWarn s).trans (act_eq ?_)
  have hstart : Dev.startPower { s.dev with drive := [] } = { s.dev with drive := [] } := Dev.startPower_on (Dev.of_up hu).1
  dsimp only
  rw [hstart, if_neg]
  · rfl
  · rw [show ({ s.dev with drive := [] } : Dev).up domTref = true from hu]
    simp [ha, hw]

/-! ### The flush ends -/

/-- The flush has ended, with no SYS_RST_N that waits. -/
def Dev.flushOver (d : Dev) : Dev :=
  let e := { d with per.pfwDone := true, mgt.pfw := .done }.raise bPer 6
  { e with mgt.rstDeferred := false }

theorem pfwDone_next {s : State} (ha : s.safe.active = false) (he : s.dev.flushEnded = true) (hr : s.dev.mgt.rstDeferred =
    false) :
    exec .pfwDone s = .next (settle { s with dev := Dev.flushOver { s.dev with drive := [] } }) := by
  refine (exec_pfwDone s).trans ?_
  unfold execPfwDone State.whole
  dsimp only
  rw [if_neg (by simp [ha]), if_neg]
  · rw [if_neg]
    · rfl
    · show ¬(s.dev.mgt.rstDeferred && _) = true
      simp [hr]
  · rw [show ({ s.dev with drive := [] } : Dev).flushEnded = true from he]
    simp

/-- The block to which a SYS_RST_N that has waited for a flush applies. -/
def Dev.atReset (d : Dev) (squall : Bool) : Dev :=
  if squall then d else { d with per.pfwDone := true, mgt.pfw := .done }.raise bPer 6

theorem pfwDone_reset {s : State} (hr : s.dev.mgt.rstDeferred = true) (hs : s.dev.mgt.sysRstN = false)
    (he : s.safe.active = true ∨ s.dev.flushEnded = true) :
    exec .pfwDone s = .next (settle (State.sysReset
      { s with dev := Dev.atReset { s.dev with drive := [] } s.safe.active })) := by
  refine (exec_pfwDone s).trans ?_
  unfold execPfwDone State.whole Dev.atReset
  dsimp only
  by_cases ha : s.safe.active = true
  · rw [if_pos ha, if_pos ha]
    exact congrArg (fun u => Host.Outcome.next (settle u)) (if_pos (by simp [ha, hr, hs]))
  · have hf : ({ s.dev with drive := [] } : Dev).flushEnded = true := he.resolve_left ha
    rw [if_neg ha, if_neg ha, hf, if_neg (by simp), if_pos]
    show (s.dev.mgt.rstDeferred && !s.dev.mgt.sysRstN) = true
    simp [hr, hs]

/-! ### Normal work again -/

/-- PF_WARN is gone after a flush. -/
def Dev.warnOver (d : Dev) : Dev :=
  { d with mgt := { d.mgt with pfWarn := false, suspended := false, pfw := .none }, per := { d.per with pfwDone := false, pfCut := false } }

/-- What goes on once PF_WARN is gone. -/
def Dev.goesOn (d : Dev) : Dev :=
  (forAll (List.range Config.ports) (fun p e => e.initialCredits p) d).retryReceived.ckptNext.pumpAdopt

theorem Dev.goesOn_touches (d : Dev) : Touches [.ports, .accs, .fabRest, .stl, .decided, .per, .del] d d.goesOn
    [.key, .frs, .can, .med, .adopt, .queues, .hdma, .svc] :=
  .after (Dev.pumpAdopt_touches _) (.after (Dev.ckptNext_touches _) (.after (Dev.retryReceived_touches _)
    (.forAllAfter (fun _ _ => .mono (Dev.initialCredits_touches ..)) (.refl d))))

theorem pfWarnClear_next {s : State} (ha : s.safe.active = false) (hw : s.dev.mgt.pfWarn = true) (hf : s.dev.mgt.pfw = .done) :
    exec .pfWarnClear s = .next (settle { s with dev := (Dev.warnOver { s.dev with drive := [] }).goesOn }) := by
  refine (exec_pfWarnClear s).trans (act_eq ?_)
  dsimp only
  rw [if_neg (by simp [ha, hw, hf]), if_neg (by simp [hf])]
  rfl

end Machine
end Sys2Proof

section
open Sys2Proof Sys2Proof.Machine Sys2Proof.Laws
set_option Elab.async false

/-- Settles O49: what stops admission decides every parked request, and nothing that follows undecides it. -/
theorem powerFailRows : Obligations.PowerFailRows := by
  unfold Obligations.PowerFailRows
  refine ⟨fun s hc ha hw hu => ⟨fun hr => ?_, fun hr => ?_⟩, fun s hc ha he hr => ?_, fun s hc hr hs he => ?_, fun s hc ha hw hf
    => ?_⟩
  · refine completes_of (pfWarn_next ha hw hu) ?_
    obtain ⟨hm, hd⟩ := Dev.flushBegins_ends (Dev.warned { s.dev with drive := [] })
    rw [if_pos hr]
    generalize (Dev.warned { s.dev with drive := [] }).flushBegins = e at hm hd ⊢
    rw [settle_mgt, hm]
    refine ⟨rfl, rfl, fun id a p hacc hp _ => ?_⟩
    obtain ⟨b, hb, h1, h2⟩ := hd id a hacc hp
    exact ⟨b, (settle_acc _ id).trans hb, h1, h2⟩
  · refine completes_of (pfWarn_next ha hw hu) ?_
    rw [if_neg (by simp [hr])]
    refine ⟨settle_mgt _, onlyChanges_settle ((onlyChanges_undriven s).trans ?_)⟩
    exact .of_touches (s := { s with dev.drive := [] }) (as := [.mgt, .mgtRest]) (bs := []) (.after (Dev.raise_touches ..)
      (.mono Touches.setMgt))
  · refine ⟨_, pfwDone_next ha he hr, congrArg Mgt.pfw (settle_mgt _), congrArg Per.pfwDone (settle_per _)⟩
  · refine ⟨_, pfwDone_reset hr hs he, cleared_settle (d := Dev.atReset { s.dev with drive := [] } s.safe.active) ?_ rfl
      fun b hb => get_onlyFlt _ hb, settle_resetCause _⟩
    unfold Dev.atReset
    split <;> exact { hc with }
  · refine completes_of (pfWarnClear_next ha hw hf) ?_
    have ht := Dev.goesOn_touches (Dev.warnOver { s.dev with drive := [] })
    have hm := (settle_mgt { s with dev := (Dev.warnOver { s.dev with drive := [] }).goesOn }).trans (ht.keeps .mgt)
    have hp : (Dev.goesOn (Dev.warnOver { s.dev with drive := [] })).per.record = _ := ht.keeps .record
    rw [hm, settle_per]
    exact ⟨rfl, rfl, congrArg (fun r => r.1.2.1) hp⟩

end

namespace Sys2Proof
namespace Machine

open Laws

-- each proof is small and there are many: elaborated one after the other they need one thread
set_option Elab.async false

/-! O48. The phases of power-up and READY. -/

/-! ### What a loop reaches and keeps -/

theorem forAll_holds {α σ : Type} {P : σ → Prop} {f : α → σ → σ} {xs : List α} {s : σ} (h : ∀ x ∈ xs, ∀ e, P e → P (f x e)) (hs
    : P s) :
    P (forAll xs f s) := by
  unfold forAll
  induction xs generalizing s with
  | nil => exact hs
  | cons x r ih => exact ih (fun y hy => h y (List.mem_cons_of_mem _ hy)) (h x List.mem_cons_self s hs)

/-- What the round of one element brings about, and every other round keeps. -/
theorem forAll_reaches {α σ : Type} {P : σ → Prop} {f : α → σ → σ} {xs : List α} {x : α} (hx : x ∈ xs) {s : σ} (hf : ∀ e, P (f x
    e))
    (h : ∀ y ∈ xs, ∀ e, P e → P (f y e)) : P (forAll xs f s) := by
  obtain ⟨l, r, rfl⟩ := List.append_of_mem hx
  rw [forAll_append, forAll_cons]
  exact forAll_holds (fun y hy => h y (List.mem_append_right _ (List.mem_cons_of_mem _ hy))) (hf _)

/-! ### States of lanes -/

/-- A lane in a state other than OFF is listed, whatever the others are. -/
theorem Dev.updLane_st {d : Dev} {i j : Nat} {f : Lane → Lane} {st : LaneSt} (hst : st ≠ .off)
    (h : j = i ∧ (f (d.lane i)).st = st ∨ j ≠ i ∧ (d.lane j).st = st) : ((d.updLane i f).lane j).st = st := by
  rcases h with ⟨rfl, h⟩ | ⟨hj, h⟩
  · have hne : f (d.lane j) ≠ default := fun hd => hst (by rw [← h, hd]; rfl)
    have hg : (d.updLane j f).lane j = f (d.lane j) := Tab.get_put_listed j hne
    rw [hg, h]
  · rw [Dev.lane_updLane_other f hj, h]

/-- A change of a lane that keeps states keeps every state but OFF. -/
theorem Dev.updLane_keeps_st {d : Dev} {i j : Nat} {f : Lane → Lane} {st : LaneSt} (hst : st ≠ .off) (hf : ∀ l, (f l).st = l.st)
    (h : (d.lane j).st = st) : ((d.updLane i f).lane j).st = st := by
  by_cases hj : j = i
  · exact Dev.updLane_st hst (.inl ⟨hj, by rw [hf, ← hj, h]⟩)
  · exact Dev.updLane_st hst (.inr ⟨hj, h⟩)

theorem Dev.seedLanes_keeps_st {d : Dev} {j : Nat} {st : LaneSt} (ws : List Word32) (hst : st ≠ .off) (h : (d.lane j).st = st) :
    ((d.seedLanes ws).lane j).st = st := by
  unfold Dev.seedLanes
  exact forAll_holds (P := fun e : Dev => (e.lane j).st = st) (fun i _ e he => Dev.updLane_keeps_st hst (fun _ => rfl) he) h

/-! ### A phase ends, or is suspended -/

theorem Dev.phaseEnds_suspended {d : Dev} {p : Phase} {done squall : Bool} {f : Dev → Dev} (hp : d.mgt.phase = p) (ht :
    d.inReset domTref = false)
    (hd : done = true) (hw : d.mgt.pfWarn = true) (ha : squall = false) : d.phaseEnds p done squall f =
      { d with mgt.suspended := true } := by
  rw [Dev.phaseEnds, if_neg (by simp [hp, ht, hd]), if_pos (by simp [hw, ha])]

/-! ### FUSE -/

/-- The block when the fuse words are held, before the lanes are looked at. -/
def Dev.fuseHeld (d : Dev) : Dev :=
  let d := ({ d with mgt.fuse := d.mgt.fuseFirst, mgt.phase := .sramInit }.outOfReset domReg).outOfReset domCore
  if d.dbgDisabled then { d with tap.sibReg := false, tap.sibKat := false } else d

/-- The fused lanes are disabled. -/
def Dev.disablesFused (d : Dev) : Dev :=
  forAll (List.range Config.lanes) (fun i e => if laneFused d.mgt.fuse i then e.updLane i fun l => { l with st := .disabled }
    else e) d

/-- A seed of zero is found. -/
def Dev.checksSeed (d : Dev) : Dev :=
  if d.seed = 0 && d.lifecycle ≠ 0 then { d with key.seedZero := true }.raise bKey 3 else d

theorem fusePhaseDone_act (s : State) : exec .fusePhaseDone s =
    s.act fun d => d.phaseEnds .fuse (decide (d.mgt.fuseIdx = 22)) s.safe.active fun d =>
      d.fuseHeld.disablesFused.checksSeed := by
  rw [exec_fusePhaseDone]
  unfold execFusePhaseDone Dev.disablesFused Dev.checksSeed Dev.fuseHeld
  rfl

theorem Dev.fuseHeld_mgt (d : Dev) : d.fuseHeld.mgt.fuse = d.mgt.fuseFirst ∧ d.fuseHeld.mgt.phase = .sramInit ∧
    d.fuseHeld.inReset domReg = false ∧ d.fuseHeld.inReset domCore = false ∧
    (bit (d.mgt.fuseFirst.getD 8 0) 0 = true → d.fuseHeld.tap.sibReg = false ∧ d.fuseHeld.tap.sibKat = false) := by
  have hreg : (({ d with mgt.fuse := d.mgt.fuseFirst, mgt.phase := .sramInit }.outOfReset domReg).outOfReset domCore).inReset
      domReg = false :=
    (Dev.inReset_outOfReset_other (j := domReg) (k := domCore) _ (by decide) (by decide)).trans (Dev.inReset_outOfReset _
      (by decide))
  have hcore := Dev.inReset_outOfReset (k := domCore) ({ d with mgt.fuse := d.mgt.fuseFirst, mgt.phase := .sramInit }.outOfReset
      domReg) (by decide)
  unfold Dev.fuseHeld
  dsimp only
  split
  · exact ⟨rfl, rfl, hreg, hcore, fun _ => ⟨rfl, rfl⟩⟩
  next h => exact ⟨rfl, rfl, hreg, hcore, fun hb => absurd hb h⟩

theorem Dev.disablesFused_touches (d : Dev) : Touches [.lan] d d.disablesFused :=
  .forAllAfter (fun _ _ => .ite (.mono (Dev.updLane_touches ..)) (.refl _)) (.refl d)

theorem Dev.disablesFused_st {d : Dev} {i : Nat} (hi : i < 36) (hf : laneFused d.mgt.fuse i = true) : (d.disablesFused.lane
    i).st = .disabled := by
  unfold Dev.disablesFused
  refine forAll_reaches (P := fun x : Dev => (x.lane i).st = .disabled) (List.mem_range.mpr hi) (fun x => ?_) fun j _ x hx => ?_
  · rw [if_pos hf]
    exact Dev.updLane_st (by decide) (.inl ⟨rfl, rfl⟩)
  · split
    · by_cases hj : i = j
      · exact Dev.updLane_st (by decide) (.inl ⟨hj, rfl⟩)
      · exact Dev.updLane_st (by decide) (.inr ⟨hj, hx⟩)
    · exact hx

theorem Dev.checksSeed_touches (d : Dev) : Touches [.key] d d.checksSeed :=
  .ite (.after (Dev.raise_touches ..) (.mono Touches.setKey)) (.refl d)

/-! ### SRAM_INIT -/

/-- The domains of step 5 that leave reset before the ports. -/
def Dev.initsCore (d : Dev) : Dev :=
  let d := { d with mgt.phase := .selftest }
  let d := forAll (List.range 9) (fun k e => if e.clusterEnabled k then e.outOfReset k else e) d
  let d := forAll (List.range 8) (fun n (e : Dev) =>
    let e := e.outOfReset (domEnt n)
    if e.key.entEn.getLsbD n then e.setEnt n { e.ent n with st := .startup } else e) d
  d.outOfReset domAnv

def Dev.portsOut (d : Dev) (m : Mgt) : Dev :=
  forAll (List.range 8) (fun p (e : Dev) =>
    (e.stepFiveOut (domFrx p) (m.fpRst.getLsbD p)).stepFiveOut (domFtx p) (m.fpRst.getLsbD p)) d

def Dev.chansOut (d : Dev) (m : Mgt) : Dev := forAll (List.range 16) (fun c e => e.stepFiveOut (domMch c) (m.mcRst.getLsbD c)) d

def Dev.linksOut (d : Dev) (m : Mgt) : Dev := forAll (List.range 4) (fun n e => e.stepFiveOut (domPel n) (m.pelRst.getLsbD n)) d

/-- HDMA leaves reset, and the doorbell port gets its credits. -/
def Dev.hostOut (d : Dev) (m : Mgt) (squall : Bool) : Dev :=
  let d := d.stepFiveOut domHdma m.hdmaRst
  if m.hdmaRst || squall then d else d.dbCredits

theorem sramInitDone_act (s : State) : exec .sramInitDone s = s.act fun d => d.phaseEnds .sramInit true s.safe.active fun d =>
    let e := (((d.initsCore.portsOut d.mgt).chansOut d.mgt).linksOut d.mgt).hostOut d.mgt s.safe.active
    { e with key.drbg := { e.key.drbg with st := .testing } } := by
  rw [exec_sramInitDone]
  unfold execSramInitDone Dev.initsCore Dev.portsOut Dev.chansOut Dev.linksOut Dev.hostOut
  rfl

/-- A domain is out of reset, and the phase is SELFTEST. -/
def OutAt (k : Nat) (d : Dev) : Prop := d.inReset k = false

theorem OutAt.of_mgt {k : Nat} {d e : Dev} (h : OutAt k d) (hm : e.mgt = d.mgt) : OutAt k e :=
  (congrArg (fun m : Mgt => m.domReset.getLsbD k) hm : _).trans h

theorem OutAt.outOfReset {k j : Nat} (hk : k < 60) {d : Dev} (h : OutAt k d) : OutAt k (d.outOfReset j) := by
  by_cases hj : k = j
  · exact hj ▸ Dev.inReset_outOfReset d hk
  · exact (Dev.inReset_outOfReset_other d hj hk).trans h

theorem OutAt.stepFiveOut {k j : Nat} (hk : k < 60) {d : Dev} {held : Bool} (h : OutAt k d) : OutAt k (d.stepFiveOut j
    held) := by
  unfold Dev.stepFiveOut
  split
  · exact h
  · exact h.outOfReset hk

theorem outAt_stepFiveOut {k : Nat} (hk : k < 60) {d : Dev} {held : Bool} (h : held = false) : OutAt k (d.stepFiveOut k
    held) := by
  rw [Dev.stepFiveOut, if_neg (by simp [h])]
  exact Dev.inReset_outOfReset d hk

theorem OutAt.portsOut {k : Nat} (hk : k < 60) {d : Dev} {m : Mgt} (h : OutAt k d) : OutAt k (d.portsOut m) :=
  forAll_holds (fun _ _ _ he => (he.stepFiveOut hk).stepFiveOut hk) h

theorem OutAt.chansOut {k : Nat} (hk : k < 60) {d : Dev} {m : Mgt} (h : OutAt k d) : OutAt k (d.chansOut m) :=
  forAll_holds (fun _ _ _ he => he.stepFiveOut hk) h

theorem OutAt.linksOut {k : Nat} (hk : k < 60) {d : Dev} {m : Mgt} (h : OutAt k d) : OutAt k (d.linksOut m) :=
  forAll_holds (fun _ _ _ he => he.stepFiveOut hk) h

theorem OutAt.hostOut {k : Nat} (hk : k < 60) {d : Dev} {m : Mgt} {squall : Bool} (h : OutAt k d) : OutAt k (d.hostOut m
    squall) := by
  unfold Dev.hostOut
  have h1 : OutAt k (d.stepFiveOut domHdma m.hdmaRst) := h.stepFiveOut hk
  dsimp only
  split
  · exact h1
  · exact h1.of_mgt ((Dev.dbCredits_touches _).keeps .mgt)

theorem outAt_portsOut {p : Nat} (hp : p < 8) (d : Dev) {m : Mgt} (h : m.fpRst.getLsbD p = false) :
    OutAt (domFrx p) (d.portsOut m) ∧ OutAt (domFtx p) (d.portsOut m) := by
  have hr : domFrx p < 60 := by unfold domFrx; omega
  have ht : domFtx p < 60 := by unfold domFtx; omega
  exact ⟨forAll_reaches (List.mem_range.mpr hp) (fun _ => (outAt_stepFiveOut hr h).stepFiveOut hr) fun _ _ _ he =>
    (he.stepFiveOut hr).stepFiveOut hr,
    forAll_reaches (List.mem_range.mpr hp) (fun _ => outAt_stepFiveOut ht h) fun _ _ _ he => (he.stepFiveOut ht).stepFiveOut ht⟩

theorem outAt_chansOut {c : Nat} (hc : c < 16) (d : Dev) {m : Mgt} (h : m.mcRst.getLsbD c = false) : OutAt (domMch c)
    (d.chansOut m) := by
  have hk : domMch c < 60 := by unfold domMch; omega
  exact forAll_reaches (List.mem_range.mpr hc) (fun _ => outAt_stepFiveOut hk h) fun _ _ _ he => he.stepFiveOut hk

theorem outAt_linksOut {n : Nat} (hn : n < 4) (d : Dev) {m : Mgt} (h : m.pelRst.getLsbD n = false) : OutAt (domPel n)
    (d.linksOut m) := by
  have hk : domPel n < 60 := by unfold domPel; omega
  exact forAll_reaches (List.mem_range.mpr hn) (fun _ => outAt_stepFiveOut hk h) fun _ _ _ he => he.stepFiveOut hk

theorem Dev.hostOut_goes (d : Dev) {m : Mgt} (h : m.hdmaRst = false) (squall : Bool) : OutAt domHdma (d.hostOut m squall) ∧
    (squall = false → .dbCredit ∈ (d.hostOut m squall).drive) := by
  have h1 : OutAt domHdma (d.stepFiveOut domHdma m.hdmaRst) := outAt_stepFiveOut (by decide) h
  unfold Dev.hostOut
  dsimp only
  split
  next hs =>
    refine ⟨h1, fun ha => ?_⟩
    simp [h, ha] at hs
  · exact ⟨h1.of_mgt ((Dev.dbCredits_touches _).keeps .mgt), fun _ => Dev.dbCredits_go _⟩

/-- The rounds of step 5 leave the phase alone. -/
theorem phase_stepFive (d : Dev) (squall : Bool) :
    ((((d.initsCore.portsOut d.mgt).chansOut d.mgt).linksOut d.mgt).hostOut d.mgt squall).mgt.phase = .selftest := by
  have hstep : ∀ (e : Dev) (k : Nat) (held : Bool), e.mgt.phase = .selftest → (e.stepFiveOut k held).mgt.phase = .selftest :=
      fun e k held h => by
    unfold Dev.stepFiveOut
    split <;> exact h
  have h0 : d.initsCore.mgt.phase = .selftest := by
    unfold Dev.initsCore
    refine forAll_holds (P := fun e : Dev => e.mgt.phase = .selftest) (fun n _ e he => ?_)
      (forAll_holds (P := fun e : Dev => e.mgt.phase = .selftest) (fun k _ e he => ?_) rfl)
    · dsimp only
      split <;> exact he
    · split <;> exact he
  have h1 : (d.initsCore.portsOut d.mgt).mgt.phase = .selftest :=
    forAll_holds (P := fun e : Dev => e.mgt.phase = .selftest) (fun _ _ _ he => hstep _ _ _ (hstep _ _ _ he)) h0
  have h2 : ((d.initsCore.portsOut d.mgt).chansOut d.mgt).mgt.phase = .selftest :=
    forAll_holds (P := fun e : Dev => e.mgt.phase = .selftest) (fun _ _ _ he => hstep _ _ _ he) h1
  have h3 : (((d.initsCore.portsOut d.mgt).chansOut d.mgt).linksOut d.mgt).mgt.phase = .selftest :=
    forAll_holds (P := fun e : Dev => e.mgt.phase = .selftest) (fun _ _ _ he => hstep _ _ _ he) h2
  unfold Dev.hostOut
  dsimp only
  split
  · exact hstep _ _ _ h3
  · exact (congrArg Mgt.phase ((Dev.dbCredits_touches _).keeps .mgt)).trans (hstep _ _ _ h3)

/-! ### SELFTEST -/

/-- A lane that fails its set at power-up is retired (spec/07 R170). -/
theorem Dev.laneRoles_retires {d : Dev} {results : List (List Bytes)} {i : Nat} (hi : i < 36) (ho : (d.lane i).st = .off)
    (hf : katPassed (results.getD i []) = false) : ((d.laneRoles results).lane i).st = .retired := by
  have hoff : i ∈ d.lanesIn fun s => s == .off := List.mem_filter.mpr ⟨List.mem_range.mpr hi, by simp [ho]⟩
  have hgood : ∀ l, l ⊆ ((d.lanesIn fun s => s == .off).filter fun i => katPassed (results.getD i [])) → i ∉ l := fun l hl hm
      => by
    exact absurd ((List.mem_filter.mp (hl hm)).2.symm.trans hf) (by decide)
  have hloop : ∀ (st : LaneSt) (l : List Nat) (e : Dev), i ∉ l → (e.lane i).st = .retired →
      ((forAll l (fun i e => e.updLane i fun l => { l with st := st }) e).lane i).st = .retired := fun st l e hn h =>
    forAll_holds (P := fun x : Dev => (x.lane i).st = .retired)
      (fun j hj x hx => Dev.updLane_st (by decide) (.inr ⟨fun hij => hn (hij ▸ hj), hx⟩)) h
  unfold Dev.laneRoles
  extract_lets off pass good d1 d2 d3 d4 d5
  have hnot : ¬pass i = true := (Bool.not_eq_true _).mpr hf
  have h1 : (d1.lane i).st = .retired := by
    refine forAll_reaches (P := fun x : Dev => (x.lane i).st = .retired) hoff (fun x => ?_) fun j _ x hx => ?_
    · exact Dev.updLane_st (by decide) (.inl ⟨rfl, by rw [if_neg hnot]⟩)
    · by_cases hj : i = j
      · exact Dev.updLane_st (by decide) (.inl ⟨hj, by rw [← hj, if_neg hnot]⟩)
      · exact Dev.updLane_st (by decide) (.inr ⟨hj, hx⟩)
  have h2 : (d2.lane i).st = .retired := hloop _ _ _ (hgood _ (List.take_subset _ _)) h1
  have h3 : (d3.lane i).st = .retired := hloop _ _ _ (hgood _ (List.drop_subset _ _)) h2
  have h4 : (d4.lane i).st = .retired := by
    have hd := hgood _ (List.drop_subset 32 _)
    unfold d4
    split
    next j l hjl =>
      have hne : i ≠ j := fun h => hd (by rw [hjl, h]; exact List.mem_cons_self)
      exact Dev.updLane_st (by decide) (.inr ⟨hne, h3⟩)
    · exact h3
  split
  · exact h4
  · split <;> exact h4

/-- The DRBG begins to instantiate, or has no source. -/
def Dev.withDrbg (d : Dev) (st : DrbgSt) : Dev := { d with key.drbg.st := st }

def Dev.startsDrbg (d : Dev) : Dev :=
  if d.deriveAll.sourceOk then d.deriveAll.withDrbg .instantiating else (d.deriveAll.withDrbg .error).fallbackSeeds

theorem Dev.laneRoles_phase (d : Dev) (results : List (List Bytes)) : (d.laneRoles results).mgt.phase = d.mgt.phase := by
  have hloop : ∀ (f : Lane → Lane) (l : List Nat) (e : Dev), Touches [.lan] e (forAll l (fun i e => e.updLane i f) e) := fun f l
      e =>
    .forAllAfter (fun _ _ => .mono (Dev.updLane_touches ..)) (.refl e)
  unfold Dev.laneRoles
  extract_lets off pass good d1 d2 d3 d4 d5
  have h1 : Touches [.lan] d d1 := .forAllAfter (fun _ _ => .mono (Dev.updLane_touches ..)) (.refl d)
  have h3 : Touches [.lan] d d3 := (h1.trans (hloop ..)).trans (hloop ..)
  have h4 : Touches [.lan] d d4 := by
    unfold d4
    split
    · exact .after (Dev.updLane_touches ..) h3
    · exact h3
  have hm : d4.mgt.phase = d.mgt.phase := congrArg Mgt.phase (h4.keeps .mgt)
  split
  · exact hm
  · split <;> exact hm

theorem selftestDone_act (results : List (List Bytes)) (k : Bool) (s : State) : exec (.selftestDone results k) s =
    s.act fun d => d.phaseEnds .selftest (!d.key.ent.any fun p => p.2.st == .startup) s.safe.active fun d =>
      let d := Dev.laneRoles { d with mgt.phase := .drbg } results
      if !k then d.raise bKey 13 else if s.safe.active then d else d.startsDrbg := by
  rw [exec_selftestDone]
  unfold execSelftestDone Dev.startsDrbg Dev.withDrbg
  rfl

/-- No source is in its start-up test. -/
theorem startup_over {d : Dev} (h : ∀ p ∈ d.key.ent, p.2.st ≠ .startup) : (!d.key.ent.any fun p => p.2.st == .startup) =
    true := by
  rw [Bool.not_eq_true', List.any_eq_false]
  exact fun p hp => by simpa using h p hp

theorem Dev.fallbackSeeds_spec (d : Dev) : d.fallbackSeeds.mgt = d.mgt ∧ d.fallbackSeeds.key = d.key ∧
    ∀ i, (d.lane i).st = .retired → (d.fallbackSeeds.lane i).st = .retired :=
  have ht := Dev.fallbackSeeds_touches d
  ⟨ht.keeps .mgt, ht.keeps .key, fun i h => by
    unfold Dev.fallbackSeeds
    dsimp only
    generalize d.derive "DN512 LFSR" [] 272 = b
    have hl : (d.loadLfsrs b).lan = d.lan := (Dev.loadLfsrs_touches d b).keeps .lan
    refine Dev.seedLanes_keeps_st _ (by decide) ?_
    rw [Dev.lane, hl]
    exact h⟩

theorem Dev.startsDrbg_spec (d : Dev) : d.startsDrbg.mgt = d.mgt ∧ d.startsDrbg.key.derived.isSome = true ∧
    (d.sourceOk = true → d.startsDrbg.key.drbg.st = .instantiating) ∧ (d.sourceOk = false → d.startsDrbg.key.drbg.st = .error) ∧
    ∀ i, (d.lane i).st = .retired → (d.startsDrbg.lane i).st = .retired := by
  have hs : d.deriveAll.sourceOk = d.sourceOk := rfl
  unfold Dev.startsDrbg
  rw [hs]
  by_cases h : d.sourceOk = true
  · rw [if_pos h]
    exact ⟨rfl, rfl, fun _ => rfl, fun hn => by simp [h] at hn, fun _ => id⟩
  · rw [if_neg h]
    obtain ⟨h1, h2, h3⟩ := Dev.fallbackSeeds_spec (d.deriveAll.withDrbg .error)
    generalize (d.deriveAll.withDrbg .error).fallbackSeeds = e at h1 h2 h3 ⊢
    exact ⟨h1, by rw [h2]; rfl, fun hn => absurd hn h, fun _ => by rw [h2]; rfl, h3⟩

/-! ### READY -/

/-- The effect of READY. -/
def Dev.readyMarks (d : Dev) : Dev :=
  let t := d.mgt.tref
  { d with mgt.phase := .done, mgt.ready := true, stl.ageAt := t, svc.accruedAt := t, per.timerAt := t }

def Dev.becomesReady (d : Dev) : Dev :=
  let t := d.mgt.tref
  let d := forAll (List.range Config.lanes) (fun i e => e.updLane i fun l => if l.st.tested then { l with katAt := t } else l)
    d.readyMarks
  (forAll (d.lanesIn fun x => x == .active) (fun i e => e.drawAudit i) d).raise bMgt 61

theorem ready_act (s : State) : exec .ready s = s.act fun d => d.phaseEnds .drbg (!s.safe.active && (d.key.drbg.st == .ready ||
    d.key.drbg.st == .error) && d.key.derived.isSome && decide (0 < d.activeLanes)) s.safe.active Dev.becomesReady := by
  rw [exec_ready]
  unfold execReady Dev.becomesReady Dev.readyMarks
  rfl

/-- The work of the last phase is done. -/
theorem ready_done {s : State} (ha : s.safe.active = false) (hd : s.dev.key.drbg.st = .ready ∨ s.dev.key.drbg.st = .error)
    (hk : s.dev.key.derived.isSome = true) (hl : s.dev.activeLanes ≠ 0) : (!s.safe.active && (s.dev.key.drbg.st == .ready ||
      s.dev.key.drbg.st == .error) && s.dev.key.derived.isSome && decide (0 < s.dev.activeLanes)) = true := by
  have hpos := Nat.pos_of_ne_zero hl
  rcases hd with hd | hd <;> simp [ha, hd, hk, hpos]

theorem Dev.becomesReady_mgt (d : Dev) : d.becomesReady.mgt = { d.mgt with phase := .done, ready := true } := by
  have h : Touches [.lan] d.readyMarks d.becomesReady :=
    .after (Dev.raise_touches ..) (.forAllAfter (fun _ _ => .mono (Dev.drawAudit_touches ..))
      (.forAllAfter (fun _ _ => .mono (Dev.updLane_touches ..)) (.refl _)))
  exact h.keeps .mgt

end Machine
end Sys2Proof

section
open Sys2Proof Sys2Proof.Machine Sys2Proof.Laws
set_option Elab.async false

/-- Settles O48: each phase by what its end leaves; with PF_WARN at 1 every one of them is suspended alike. -/
theorem powerUpPhases : Obligations.PowerUpPhases := by
  unfold Obligations.PowerUpPhases
  refine ⟨fun s hc hp ht hw hi => ?_, fun s hc hp ht hw => ?_, fun results s hc hp ht hw ha he => ?_, fun s hc hp ht hw ha hd hk
    hl => ?_,
    fun results k c s hc ht hw ha h => ?_⟩
  · refine completes_of ((fusePhaseDone_act s).trans (act_eq (Dev.phaseEnds_acts hp ht (decide_eq_true hi) hw))) ?_
    obtain ⟨h1, h2, h3, h4, h5⟩ := Dev.fuseHeld_mgt { s.dev with drive := [] }
    generalize Dev.fuseHeld { s.dev with drive := [] } = e at h1 h2 h3 h4 h5 ⊢
    have hm : e.disablesFused.checksSeed.mgt = e.mgt :=
      Eq.trans ((Dev.checksSeed_touches _).keeps .mgt) ((Dev.disablesFused_touches e).keeps .mgt)
    have htap : e.disablesFused.checksSeed.tap = e.tap :=
      Eq.trans ((Dev.checksSeed_touches _).keeps .tap) ((Dev.disablesFused_touches e).keeps .tap)
    have hlan : e.disablesFused.checksSeed.lan = e.disablesFused.lan := (Dev.checksSeed_touches _).keeps .lan
    rw [settle_inReset, settle_inReset, settle_mgt, settle_tap, hm, htap]
    refine ⟨h2, h1, OutAt.of_mgt h3 hm, OutAt.of_mgt h4 hm, h5, fun i hi' hf => ?_⟩
    rw [settle_lane, Dev.lane, hlan]
    exact Dev.disablesFused_st hi' (h1 ▸ hf)
  · refine completes_of ((sramInitDone_act s).trans (act_eq (Dev.phaseEnds_acts hp ht rfl hw))) ?_
    have hphase := phase_stepFive { s.dev with drive := [] } s.safe.active
    have hanv : OutAt domAnv (Dev.initsCore { s.dev with drive := [] }) := Dev.inReset_outOfReset _ (by decide)
    have hfp := fun p (hp : p < 8) h => outAt_portsOut hp (Dev.initsCore { s.dev with drive := [] }) (m := s.dev.mgt) h
    dsimp only at hphase ⊢
    generalize Dev.initsCore { s.dev with drive := [] } = e at hphase hanv hfp ⊢
    have hmc := fun c (hc : c < 16) h => outAt_chansOut hc (e.portsOut s.dev.mgt) (m := s.dev.mgt) h
    have hpel := fun n (hn : n < 4) h => outAt_linksOut hn ((e.portsOut s.dev.mgt).chansOut s.dev.mgt) (m := s.dev.mgt) h
    have hhost := fun h => Dev.hostOut_goes (((e.portsOut s.dev.mgt).chansOut s.dev.mgt).linksOut s.dev.mgt) (m := s.dev.mgt) h
        s.safe.active
    refine ⟨(congrArg Mgt.phase (settle_mgt _)).trans hphase, congrArg (fun k : Key => k.drbg.st) (settle_key _), fun p hp hr =>
      ?_,
      fun c hc hr => ?_, fun n hn hr => ?_, fun hr => ?_, ?_⟩
    · have hr' : domFrx p < 60 := by unfold domFrx; omega
      have ht' : domFtx p < 60 := by unfold domFtx; omega
      obtain ⟨h1, h2⟩ := hfp p hp hr
      exact ⟨(settle_inReset _ _).trans (((h1.chansOut hr').linksOut hr').hostOut hr'), (settle_inReset _ _).trans
        (((h2.chansOut ht').linksOut ht').hostOut ht')⟩
    · have hk : domMch c < 60 := by unfold domMch; omega
      exact (settle_inReset _ _).trans (((hmc c hc hr).linksOut hk).hostOut hk)
    · have hk : domPel n < 60 := by unfold domPel; omega
      exact (settle_inReset _ _).trans ((hpel n hn hr).hostOut hk)
    · obtain ⟨h1, h2⟩ := hhost hr
      exact ⟨(settle_inReset _ _).trans h1, fun ha => settle_drive (h2 ha)⟩
    · exact (settle_inReset _ _).trans ((((hanv.portsOut (by decide)).chansOut (by decide)).linksOut (by decide)).hostOut
        (by decide))
  · have hdone : (!({ s.dev with drive := [] } : Dev).key.ent.any fun p => p.2.st == .startup) = true := startup_over he
    refine completes_of ((selftestDone_act results true s).trans (act_eq (Dev.phaseEnds_acts hp ht hdone hw))) ?_
    rw [if_neg (by simp), if_neg (by simp [ha])]
    have hm : (Dev.laneRoles { s.dev with drive := [], mgt.phase := .drbg } results).key = s.dev.key := (Dev.laneRoles_touches
        _ _).keeps .key
    have hsrc : (Dev.laneRoles { s.dev with drive := [], mgt.phase := .drbg } results).sourceOk = s.dev.sourceOk := by
      rw [Dev.sourceOk, hm]
      rfl
    have hret := fun i (hi : i < 36) ho hf => Dev.laneRoles_retires (d := { s.dev with drive := [], mgt.phase := .drbg })
        (results := results) hi ho hf
    have hph := Dev.laneRoles_phase { s.dev with drive := [], mgt.phase := .drbg } results
    generalize Dev.laneRoles { s.dev with drive := [], mgt.phase := .drbg } results = e at hm hsrc hret hph ⊢
    obtain ⟨h1, h2, h3, h4, h5⟩ := Dev.startsDrbg_spec e
    generalize e.startsDrbg = x at h1 h2 h3 h4 h5 ⊢
    rw [settle_mgt, settle_key, h1]
    refine ⟨hph, h2, fun h => h3 (hsrc.trans h), fun h => h4 (hsrc.trans h), fun i hi ho hf => ?_⟩
    rw [settle_lane]
    exact h5 i (hret i hi ho (by simpa [katPassed] using hf))
  · refine completes_of ((ready_act s).trans (act_eq (Dev.phaseEnds_acts hp ht (ready_done ha hd hk hl) hw))) ?_
    rw [settle_mgt, Dev.becomesReady_mgt]
    exact ⟨rfl, rfl⟩
  · have hsusp : ∀ {c : Instr} {p : Phase} {done : Dev → Bool} {f : Dev → Dev}, exec c s = s.act (fun d => d.phaseEnds p (done
      d) s.safe.active f) →
        s.dev.mgt.phase = p → done { s.dev with drive := [] } = true →
        Completes c s fun t => t.dev.mgt = { s.dev.mgt with suspended := true } ∧ OnlyChanges [.mgt] s t := fun he hp hd => by
      refine completes_of (he.trans (act_eq (Dev.phaseEnds_suspended hp ht hd hw ha))) ?_
      refine ⟨settle_mgt _, onlyChanges_settle ((onlyChanges_undriven s).trans ?_)⟩
      exact .of_touches (s := { s with dev.drive := [] }) (as := [.mgt, .mgtRest]) (bs := []) Touches.setMgt
    rcases h with ⟨hp, hi, rfl⟩ | ⟨hp, rfl⟩ | ⟨hp, he, rfl⟩ | ⟨hp, hd, hk, hl, rfl⟩
    · exact hsusp (fusePhaseDone_act s) hp (decide_eq_true hi)
    · exact hsusp (done := fun _ => true) (sramInitDone_act s) hp rfl
    · exact hsusp (selftestDone_act results k s) hp (startup_over he)
    · exact hsusp (ready_act s) hp (ready_done ha hd hk hl)

end

namespace Sys2Proof
namespace Machine

open Laws

-- each proof is small and there are many: elaborated one after the other they need one thread
set_option Elab.async false

/-! O16. Parked requests that time out or are released, ageing, and the retirement and the bucket of a channel. -/

/-! ### PARKING_TIMEOUT -/

/-- A filter entry comes and goes without the counters. -/
theorem Dev.syncFilter_timeouts (d : Dev) (sid kid : BitVec 16) : (d.syncFilter sid kid).stl.timeoutCnt = d.stl.timeoutCnt := by
  unfold Dev.syncFilter
  extract_lets n
  split
  · generalize hd : ({ d with stl.filter := d.stl.filter.filter fun f => !(f.sid == sid && f.kid == kid) } : Dev) = e
    have hk : (e.unpost .stl (isLearn sid kid)).stl = e.stl := (Dev.unpost_touches ..).keeps .stl
    exact (congrArg Stl.timeoutCnt hk).trans (hd ▸ rfl)
  · rfl

theorem Dev.syncFilter_acc (d : Dev) (sid kid : BitVec 16) (id : Nat) : (d.syncFilter sid kid).acc id = d.acc id :=
  Dev.acc_congr ((Dev.syncFilter_touches d sid kid).keeps .accs) id

/-- A parked request that ends: its port counts it. -/
def Dev.parkingEnds (d : Dev) (a : Access) (p : Nat) (err : Bool) : Dev :=
  let d := if err then d.raise bStl 2 else d
  (({ d with stl.timeoutCnt := d.stl.timeoutCnt.upd p fun n => satAdd 0xFFFFFFFF n 1 }).expire a).syncFilter a.sid a.kid

theorem parkingTimeout_next {id p : Nat} {err : Bool} {s : State} {a : Access} (hs : InService s) (ha : s.dev.acc id = some a)
    (hst : a.stage = .parked) (ho : a.origin = .port p)
    (h : err = true ∨ a.released = false ∧ s.dev.passed a.parkedAt s.dev.stl.parkTimeout = true) :
    exec (.parkingTimeout id err) s = .next (settle { s with dev := Dev.parkingEnds { s.dev with drive := [] } a p err }) := by
  refine (exec_parkingTimeout id err s).trans ((serve_acts hs).trans (act_eq ?_))
  dsimp only
  rw [show ({ s.dev with drive := [] } : Dev).acc id = some a from ha]
  dsimp only
  rw [if_pos ⟨hst, h⟩, ho]
  rfl

/-- What an occurrence of a bank that is noted leaves of the block. -/
theorem Dev.noted_stl (d : Dev) (c : Bool) (b k : Nat) : (if c then d.raise b k else d).stl = d.stl ∧
    ∀ id, (if c then d.raise b k else d).acc id = d.acc id := by
  cases c <;> exact ⟨rfl, fun _ => rfl⟩

theorem Dev.parkingEnds_counts {d : Dev} (h : Tab.rising d.stl.timeoutCnt) (a : Access) (p : Nat) (err : Bool) :
    (d.parkingEnds a p err).stl.timeoutCnt.get p = min 0xFFFFFFFF (d.stl.timeoutCnt.get p + 1) := by
  unfold Dev.parkingEnds
  extract_lets e
  have he : e.stl = d.stl := (d.noted_stl err bStl 2).1
  rw [Dev.syncFilter_timeouts]
  have hk : ({ e with stl.timeoutCnt := e.stl.timeoutCnt.upd p fun n => satAdd 0xFFFFFFFF n 1 }.expire a).stl =
      { e.stl with timeoutCnt := e.stl.timeoutCnt.upd p fun n => satAdd 0xFFFFFFFF n 1 } :=
    (Dev.expire_touches _ a).keeps .stl
  rw [hk, he]
  exact get_put_self_rising p _ h

theorem Dev.parkingEnds_acc (d : Dev) (a : Access) (p : Nat) (err : Bool) (id : Nat) :
    (d.parkingEnds a p err).acc id = (d.expire a).acc id := by
  unfold Dev.parkingEnds
  extract_lets e
  have he : e.fab.accs = d.fab.accs := by unfold e; cases err <;> rfl
  rw [Dev.syncFilter_acc]
  unfold Dev.expire
  split <;> exact congrArg (fun l : List Access => (l.map _).find? _) he

theorem Dev.expire_decides {d : Dev} {id : Nat} {a : Access} (ha : d.acc id = some a) (hst : a.stage = .parked)
    (h : a.isWrite = false ∨ a.win = .passed ∨ a.win = .failed) :
    ∃ b, (d.expire a).acc id = some b ∧ b.stage = .done ∧ b.status = .accessError := by
  have hid : a.id = id := Dev.id_of_acc ha
  unfold Dev.expire
  rw [if_neg (by rcases h with h | h | h <;> simp [h]), hid]
  exact Dev.outcome_decides .accessError ha (.inr ⟨by rw [hst]; exact nofun, rfl⟩)

theorem Dev.expire_waits {d : Dev} {id : Nat} {a : Access} (ha : d.acc id = some a) (hw : a.isWrite = true) (hp : a.win ≠
    .passed)
    (hf : a.win ≠ .failed) : (d.expire a).acc id = some { a with stage := .expired } := by
  have hid : a.id = id := Dev.id_of_acc ha
  unfold Dev.expire
  subst hid
  rw [if_pos (by simp [hw, hp, hf])]
  exact Dev.acc_updAcc (f := fun x => { x with stage := .expired }) (fun _ => rfl) ha

/-! ### PARKED_RELEASE -/

/-- No request waits for its admission. -/
def Dev.NoneReceived (d : Dev) : Prop := ∀ b ∈ d.fab.accs, b.stage ≠ .received

theorem Dev.retryReceived_none {d : Dev} (h : d.NoneReceived) : d.retryReceived = d := by
  have hf : d.fab.accs.filter (fun a => a.stage == .received) = [] :=
    List.filter_eq_nil_iff.mpr fun b hb => by simpa using h b hb
  unfold Dev.retryReceived
  rw [hf]
  rfl

theorem Dev.noneReceived_updAcc {d : Dev} (h : d.NoneReceived) {id : Nat} {f : Access → Access}
    (hf : ∀ x : Access, x.stage ≠ .received → (f x).stage ≠ .received) : (d.updAcc id f).NoneReceived := by
  intro b hb
  obtain ⟨x, hx, rfl⟩ := List.mem_map.mp hb
  split
  · exact hf x (h x hx)
  · exact h x hx

theorem Dev.noneReceived_congr {d e : Dev} (h : d.NoneReceived) (he : e.fab.accs = d.fab.accs) : e.NoneReceived :=
  fun b hb => h b (he ▸ hb)

/-- A released read that passes the checks takes its place at the line gate. -/
theorem Dev.recheck_gates {d : Dev} {a : Access} {p i : Nat} {e : SEntry} {r : RegionCfg} (ha : d.acc a.id = some a)
    (ho : a.origin = .port p) (hw : a.isWrite = false) (hwin : a.win = .none) (hr : d.NoneReceived)
    (h : Passes d p a.sid a.kid a.line e i r) : (d.recheck a []).NoneReceived ∧
    ∃ b, (d.recheck a []).acc a.id = some b ∧ b.stage = .gated ∧ b.inFlight = true ∧ b.gen = d.rmp.gen ∧ b.kslot = e.kslot := by
  obtain ⟨x, hx⟩ := Dev.admission_pass (first := a.parkedAt) ha ho h
  have hk : (d.recheck a []).fab.accs = (d.admission a.id [] a.parkedAt).fab.accs := by
    unfold Dev.recheck
    rw [if_neg (by rw [hwin]; exact nofun)]
    exact Eq.trans ((Dev.noteHold_touches _).keeps .accs) ((Dev.syncFilter_touches _ a.sid a.kid).keeps .accs)
  dsimp only at hx
  rw [if_neg (by simp [hw])] at hx
  have hput : (d.putSlot d.activeSet x (some { e with age := 0 })).fab.accs = d.fab.accs := (Dev.putSlot_touches ..).keeps .accs
  constructor
  · refine Dev.noneReceived_congr ?_ hk
    rw [hx]
    refine Dev.noneReceived_congr (Dev.noneReceived_updAcc (f := fun a => { a with stage := .gated, place := some _ })
      (Dev.noneReceived_updAcc (Dev.noneReceived_congr hr hput) ?_) (fun _ _ => nofun)) rfl
    intro y hy
    dsimp only
    split
    · exact nofun
    · exact hy
  · rw [Dev.acc_congr hk, hx]
    refine ⟨_, Dev.acc_updAcc (fun _ => rfl) (Dev.acc_updAcc (fun _ => rfl) ((Dev.acc_congr hput a.id).trans ha)), rfl, rfl,
      rfl, rfl⟩

theorem parkedRelease_next {s : State} {a : Access} (hs : InService s) (hp : s.dev.parked.filter (fun a => a.released) = [a])
    (hfull : s.dev.full a.isWrite = false) : exec (.parkedRelease []) s =
      .next (settle { s with dev := (Dev.recheck a [] { s.dev with drive := [] }).retryReceived }) := by
  refine (exec_parkedRelease [] s).trans ((serve_acts hs).trans (act_eq ?_))
  rw [show ({ s.dev with drive := [] } : Dev).parked.filter (fun a => a.released) = [a] from hp]
  refine congrArg Dev.retryReceived ?_
  show (if _ then _ else _) = _
  rw [if_neg (by simp), if_neg (by rw [show ({ s.dev with drive := [] } : Dev).full a.isWrite = false from hfull]; exact nofun)]
  rfl

/-! ### AGEING_TICK -/

theorem ageingTick_next {s : State} (hs : InService s) (h : s.dev.passed s.dev.stl.ageAt s.dev.stl.agePeriod = true) :
    ∃ e : Dev, exec .ageingTick s = .next (settle { s with dev := e }) ∧ e.stl.ageAt = s.dev.mgt.tref ∧
      e.stlSet s.dev.activeSet = { s.dev.stlSet s.dev.activeSet with
        tab := (s.dev.stlSet s.dev.activeSet).tab.mapAll fun _ e => e.map fun x => { x with age := min 255 (x.age + 1) } } := by
  refine ⟨_, (exec_ageingTick s).trans ((serve_acts hs).trans (act_eq (if_pos h))), rfl, ?_⟩
  exact Dev.stlSet_putStlSet ..

/-! ### Channels -/

/-- A channel that is retired is a condition of the MED bank. -/
theorem retired_holds {d : Dev} {n : Nat} (h : (d.chan n).retired = true) : 64 + n ∈ d.holding bMed := by
  show 64 + n ∈ (Tab.which d.med.ch fun c => c.retired).map (64 + ·)
  exact List.mem_map_of_mem (mem_which rfl h)

/-- A channel that fails is retired, in the safe state too. -/
def Dev.chanFails (d : Dev) (n : Nat) (squall : Bool) : Dev := if squall then d.retireSafe n 1 else d.retireChannel n 1

theorem mcnFail_next {ch : Fin 16} {s : State} (hup : s.dev.up domCore = true) : exec (.mcnFail ch) s =
    .next (settle { s with dev := Dev.chanFails { s.dev with drive := [] } ch s.safe.active }) := by
  refine (exec_mcnFail ch s).trans (act_eq ?_)
  rw [if_neg (by rw [show ({ s.dev with drive := [] } : Dev).up domCore = true from hup]; exact nofun)]
  rfl

/-- What the two retirements of a channel have in common. -/
theorem Dev.failed_retires {d : Dev} {n : Nat} (squall : Bool) (h : (d.chan n).retired = false) :
    ((d.chanFails n squall).chan n).retired = true ∧ ((d.chanFails n squall).chan n).cause = 1 ∧ (d.chanFails n squall).mgt =
      d.mgt := by
  cases squall
  · obtain ⟨h1, h2⟩ := Dev.retireChannel_retires n 1 h
    exact ⟨h1, h2, (Dev.retireChannel_touches d n 1).keeps .mgt⟩
  · obtain ⟨h1, h2⟩ := Dev.retireSafe_retires n 1 h
    exact ⟨h1, h2, (Dev.retireSafe_touches d n 1).keeps .mgt⟩

/-- A channel whose bucket falls by 1. -/
def Dev.leaks (d : Dev) (n : Nat) : Channel :=
  { d.chan n with bucket := min ((d.chan n).bucket - 1) (d.med.threshold + 1), leakAt := d.mgt.tref, oldThreshold := none }

theorem transientBucketLeak_next {ch : Fin 16} {s : State} (hup : s.dev.up domCore = true) (hb : (s.dev.chan ch).bucket ≠ 0)
    (hr : (s.dev.chan ch).retired = false) (hp : s.dev.passed (s.dev.chan ch).leakAt (1000000 / s.dev.thresholdOf ch) = true) :
    exec (.transientBucketLeak ch) s = .next (settle
      { s with dev := Dev.setChan { s.dev with drive := [] } ch (s.dev.leaks ch) }) := by
  refine (exec_transientBucketLeak ch s).trans (act_eq (if_neg ?_))
  have h1 : ({ s.dev with drive := [] } : Dev).up domCore = true := hup
  have h2 : (({ s.dev with drive := [] } : Dev).chan ch).bucket ≠ 0 := hb
  have h3 : (({ s.dev with drive := [] } : Dev).chan ch).retired = false := hr
  have h4 : ({ s.dev with drive := [] } : Dev).passed (({ s.dev with drive := [] } : Dev).chan ch).leakAt
      (1000000 / ({ s.dev with drive := [] } : Dev).thresholdOf ch) = true := hp
  simp [h1, h2, h3, h4]

end Machine
end Sys2Proof

section
open Sys2Proof Sys2Proof.Machine Sys2Proof.Laws
set_option Elab.async false

/-- Settles O16, row by row: the access, the table or the channel that each row changes. -/
theorem parkingAndChannels : Obligations.ParkingAndChannels := by
  refine ⟨⟨?_, ?_, ?_⟩, ?_, ?_⟩
  · intro id err s a p hcan hs ha hst ho h
    refine completes_of (parkingTimeout_next hs ha hst ho h) ?_
    rw [settle_stl, settle_acc]
    dsimp only
    rw [Dev.parkingEnds_acc]
    exact ⟨Dev.expire_decides (d := { s.dev with drive := [] }) ha hst, Dev.expire_waits (d := { s.dev with drive := [] }) ha,
      Dev.parkingEnds_counts (d := { s.dev with drive := [] }) hcan.timeouts a p err⟩
  · intro s a p e i r hcan hs hp ha ho hw hwin hfull hrec hpass
    refine completes_of (parkedRelease_next hs hp (hw ▸ hfull)) ?_
    obtain ⟨hnone, hb⟩ := Dev.recheck_gates (d := { s.dev with drive := [] }) ha ho hw hwin hrec
      ⟨hpass.stream, hpass.port, hpass.region, hpass.kid, hpass.key, hpass.zone⟩
    rw [settle_acc]
    dsimp only
    rw [Dev.retryReceived_none hnone]
    exact hb
  · intro s hcan hs h
    obtain ⟨e, he, hat, hset⟩ := ageingTick_next hs h
    refine completes_of he ?_
    rw [settle_stlSet, settle_stl]
    refine ⟨hat, fun i x hx => ?_⟩
    rw [hset]
    exact (get_mapAll (hcan.stlTab s.dev.activeSet) (f := fun _ e => e.map fun x : SEntry =>
      { x with age := min 255 (x.age + 1) }) rfl).trans (congrArg _ hx)
  · intro ch s hcan hup hr
    obtain ⟨h1, h2, h3⟩ := Dev.failed_retires (d := { s.dev with drive := [] }) s.safe.active hr
    refine completes_of (mcnFail_next hup) ?_
    rw [settle_chan]
    refine ⟨h1, h2, settle_live (by decide) ?_ (retired_holds h1)⟩
    exact (congrArg (fun m : Mgt => m.domReset.getLsbD domCore) h3).trans (Dev.of_up hup).1
  · intro ch s hcan hup hb hr hp
    refine completes_of (transientBucketLeak_next hup hb hr hp) ?_
    have hch : (Dev.setChan { s.dev with drive := [] } ch (s.dev.leaks ch)).chan ch = s.dev.leaks ch :=
      chan_setChan _ _ _ hcan.channels
    unfold Dev.thresholdOf
    rw [settle_chan, settle_med]
    dsimp only
    rw [hch]
    exact ⟨rfl, rfl, rfl⟩

end

namespace Sys2Proof
namespace Machine

open Laws

-- each proof is small and there are many: elaborated one after the other they need one thread
set_option Elab.async false

/-! O56. LINK_UP_CHANGE and the timers of links and members. -/

/-! ### What stays of the pool and of the peers -/

theorem Kept.member {d e : Dev} (h : Kept d e .peers) (p : Nat) : e.memberOf p = d.memberOf p :=
  congrArg (fun x : (Bool × BitVec 6 × Option (BitVec 4) × BitVec 4 × BitVec 64) × (Nat × Nat × Nat × Nat) × Tab Member × (Nat →
    Link) =>
    x.2.2.1.get p) h

theorem Kept.identity {d e : Dev} (h : Kept d e .peers) : e.del.inPool = d.del.inPool ∧ e.del.poolId = d.del.poolId ∧
    e.del.group = d.del.group ∧ e.del.linksUse = d.del.linksUse ∧ e.del.ident = d.del.ident := by
  have h1 : (e.del.inPool, e.del.poolId, e.del.group, e.del.linksUse, e.del.ident) =
    (d.del.inPool, d.del.poolId, d.del.group, d.del.linksUse, d.del.ident) := congrArg (·.1) h
  simpa using h1

theorem Kept.timers {d e : Dev} (h : Kept d e .peers) : e.del.hbPeriod = d.del.hbPeriod ∧ e.del.hbTimeout = d.del.hbTimeout ∧
    e.del.txnTimeout = d.del.txnTimeout ∧ e.del.hbAt = d.del.hbAt := by
  have h1 : (e.del.hbPeriod, e.del.hbTimeout, e.del.txnTimeout, e.del.hbAt) =
    (d.del.hbPeriod, d.del.hbTimeout, d.del.txnTimeout, d.del.hbAt) := congrArg (·.2.1) h
  simpa using h1

/-- A link but for the frames not acknowledged. -/
def Link.bare (l : Link) : Link := { l with unacked := [] }

theorem Kept.bare {d e : Dev} (h : Kept d e .peers) (n : Nat) : (e.link n).bare = (d.link n).bare :=
  congrArg (fun x : (Bool × BitVec 6 × Option (BitVec 4) × BitVec 4 × BitVec 64) × (Nat × Nat × Nat × Nat) × Tab Member × (Nat →
    Link) =>
    x.2.2.2 n) h

theorem Kept.link {d e : Dev} (h : Kept d e .peers) (n : Nat) : (e.link n).up = (d.link n).up ∧ (e.link n).st = (d.link n).st ∧
    (e.link n).version = (d.link n).version ∧ (e.link n).peer = (d.link n).peer ∧ (e.link n).heard = (d.link n).heard ∧
    (e.link n).helloAt = (d.link n).helloAt := by
  have hb {α : Type} (g : Link → α) : g (e.link n).bare = g (d.link n).bare := congrArg g (h.bare n)
  exact ⟨hb Link.up, hb Link.st, hb Link.version, hb Link.peer, hb Link.heard, hb Link.helloAt⟩

theorem Kept.linkUsable {d e : Dev} (h : Kept d e .peers) (hm : Kept d e .mgt) (n : Nat) : e.linkUsable n = d.linkUsable n := by
  have hup : e.up (domPel n) = d.up (domPel n) := Dev.up_congr hm _
  unfold Dev.linkUsable
  rw [hup, (h.link n).1]

theorem Kept.linkNamed {d e : Dev} (h : Kept d e .peers) (hm : Kept d e .mgt) (n : Nat) : e.linkNamed n = d.linkNamed n := by
  obtain ⟨hin, -, -, huse, -⟩ := h.identity
  unfold Dev.linkNamed
  rw [h.linkUsable hm, hin, huse]

theorem settle_peers (s : State) : Kept s.dev (settle s).dev .peers := (settle_touches s).keeps .peers

theorem settle_gstate (s : State) : (settle s).dev.del.gstate = s.dev.del.gstate := by
  have h : { (settle s).dev.del with evtLost := false, oseq := 0 } = { s.dev.del with evtLost := false, oseq := 0 } :=
    (settle_touches s).keeps .del
  exact (congrArg Del.gstate h : ({ (settle s).dev.del with evtLost := false, oseq := 0 } : Del).gstate = _)

theorem Dev.memberOf_setMember {d : Dev} (h : Tab.rising d.del.members) (p : Nat) (m : Member) : (d.setMember p m).memberOf p =
    m :=
  get_put_self_rising p m h

/-! ### Frames that go out -/

theorem Dev.transmit_sends {d : Dev} {n : Nat} (h : d.linkUsable n = true) (typ : Nat) (f : Frame) :
    .frame n (frameWords (d.link n).version typ f) ∈ (d.transmit n typ f).drive := by
  unfold Dev.transmit
  rw [if_neg (by simp [h])]
  dsimp only
  split <;> exact List.mem_append_right _ (List.mem_singleton_self _)

/-- A frame goes out on every link that is UP. -/
theorem Dev.flood_sends {d : Dev} {n : Nat} (hn : n < 4) (hst : (d.link n).st = .up) (hu : d.linkUsable n = true) (typ : Nat)
    (f : Frame) : .frame n (frameWords (d.link n).version typ f) ∈ (d.flood none typ f).drive := by
  have hround : ∀ (k : Nat) (e : Dev), Touches [.del] e (if (e.link k).st == .up && decide ((none : Option Nat) ≠ some k) then
      e.transmit k typ f else e) := fun k e => .ite (.mono (Dev.transmit_touches ..)) (.refl _)
  obtain ⟨l, r, hl⟩ := List.append_of_mem (List.mem_range.mpr hn)
  unfold Dev.flood
  rw [hl, forAll_append]
  have h1 := Touches.forAllAfter (xs := l) hround (.refl d)
  generalize forAll l _ d = e at h1
  have hp : Kept d e .peers := h1.keeps .peers
  obtain ⟨-, hest, hver, -⟩ := hp.link n
  have hsent := Dev.transmit_sends ((hp.linkUsable (h1.keeps .mgt) n).trans hu) typ f
  rw [hver] at hsent
  have h2 := Touches.forAllAfter (xs := r) hround (.refl (e.transmit n typ f))
  show _ ∈ (forAll r _ (if (e.link n).st == .up && decide ((none : Option Nat) ≠ some n) then e.transmit n typ f else e)).drive
  rw [if_pos (by rw [hest, hst]; rfl)]
  exact h2.drive.subset hsent

theorem Dev.broadcast_sends {d : Dev} {n : Nat} (hp : d.del.inPool = true) (hn : n < 4) (hst : (d.link n).st = .up)
    (hu : d.linkUsable n = true) (typ : Nat) (pl : List Word32) :
    .frame n (frameWords (d.link n).version typ ⟨true, d.del.poolId, 0, 63, d.del.oseq, pl⟩) ∈ (d.broadcast typ pl).drive := by
  unfold Dev.broadcast
  rw [if_neg (by simp [hp])]
  have hd : ∀ e : Dev, e.nextOseq.drive = e.drive := fun _ => rfl
  rw [hd]
  exact Dev.flood_sends hn hst hu typ (d.newFrame true 0 63 pl)

/-! ### The timers of a link -/

/-- A link that is UP goes DOWN, or back to HELLO. -/
def Dev.linkFalls (d : Dev) (n : Nat) : Dev := if (d.link n).st == .up then d.linkDown n else d

/-- A link on which nothing has arrived. -/
def Dev.linkSilent (d : Dev) (n : Nat) : Dev :=
  (d.linkFalls n).setLink n { (d.linkFalls n).link n with lastAt := (d.link n).lastAt, silent := true }

theorem linkTimeout_next {n : Fin 4} {s : State} (hs : InService s) (hn : s.dev.linkNamed n = true)
    (hp : s.dev.passed (s.dev.link n).lastAt s.dev.del.hbTimeout = true) :
    exec (.linkTimeout n) s = .next (settle { s with dev := Dev.linkSilent { s.dev with drive := [] } n }) := by
  refine (exec_linkTimeout n s).trans ((serve_acts hs).trans (act_eq ?_))
  dsimp only
  have h1 : ({ s.dev with drive := [] } : Dev).linkNamed n.val = true := hn
  have h2 : ({ s.dev with drive := [] } : Dev).passed (({ s.dev with drive := [] } : Dev).link n.val).lastAt
    ({ s.dev with drive := [] } : Dev).del.hbTimeout = true := hp
  rw [if_neg (by simp [h1, h2])]
  rfl

theorem Dev.linkSilent_link {d : Dev} (h : Tab.rising d.del.links) (n : Nat) : ((d.linkSilent n).link n).silent = true ∧
    ((d.link n).st = .up → d.linkNamed n = true → ((d.linkSilent n).link n).st = .hello ∧ ((d.linkSilent n).link n).heard =
      false ∧
      ((d.linkSilent n).link n).unacked = []) := by
  have he : Tab.rising (d.linkFalls n).del.links := by
    unfold Dev.linkFalls
    split
    · exact put_rising _ _ h
    · exact h
  have hset : (d.linkSilent n).link n = _ := Dev.link_setLink he n _
  rw [hset]
  refine ⟨rfl, fun hst hn => ?_⟩
  have hl : (d.linkFalls n).link n = _ := (congrArg (Dev.link · n) (if_pos (by rw [hst]; rfl))).trans (Dev.link_linkDown h n)
  dsimp only
  rw [hl]
  exact ⟨if_pos hn, rfl, rfl⟩

theorem helloTimer_next {n : Fin 4} {s : State} (hs : InService s) (hn : s.dev.linkNamed n = true) (hst : (s.dev.link n).st =
    .hello)
    (hp : s.dev.passed (s.dev.link n).helloAt 10 = true) : exec (.helloTimer n) s = .next (settle { s with
      dev := (Dev.setLink { s.dev with drive := [] } n { s.dev.link n with helloAt := s.dev.mgt.tref }).sendHello n }) := by
  refine (exec_helloTimer n s).trans ((serve_acts hs).trans (act_eq (if_pos ?_)))
  have h1 : ({ s.dev with drive := [] } : Dev).linkNamed n.val = true := hn
  have h2 : ({ s.dev with drive := [] } : Dev).passed (({ s.dev with drive := [] } : Dev).link n.val).helloAt 10 = true := hp
  have h3 : (({ s.dev with drive := [] } : Dev).link n.val).st = .hello := hst
  simp [h1, h2, h3]

/-- HELLO goes out with three words. -/
theorem Dev.sendHello_sends {d : Dev} {n : Nat} (h : d.linkUsable n = true) : ∃ f : Frame, f.origin = d.del.poolId ∧ f.ttl = 0 ∧
    f.payload.length = 3 ∧ .frame n (frameWords (d.link n).version tHello f) ∈ (d.sendHello n).drive :=
  ⟨_, rfl, rfl, rfl, Dev.transmit_sends h tHello _⟩

/-- The frames of a link that are sent again, and what is kept of those not acknowledged. -/
def Dev.sentAgain (d : Dev) (n : Nat) : List Unacked := (d.link n).unacked.filter fun u => d.passed u.sentAt 20 && decide
    (u.tries < 3)
def Dev.keptUnacked (d : Dev) (n : Nat) : List Unacked := (d.link n).unacked.filterMap fun u =>
  if !d.passed u.sentAt 20 then some u else if u.tries < 3 then some { u with sentAt := d.mgt.tref, tries := u.tries + 1 } else
    none
def Dev.resend (d : Dev) (n : Nat) : Dev :=
  forAll (d.sentAgain n) (fun u e => e.emit (.frame n (frameWords (d.link n).version u.typ u.frame)))
    (d.setLink n { d.link n with unacked := d.keptUnacked n })

theorem retransmitTimer_next {n : Fin 4} {s : State} (hs : InService s) (hu : s.dev.linkUsable n = true) :
    exec (.retransmitTimer n) s = .next (settle { s with dev := Dev.resend { s.dev with drive := [] } n }) := by
  refine (exec_retransmitTimer n s).trans ((serve_acts hs).trans (act_eq (if_neg ?_)))
  have h1 : ({ s.dev with drive := [] } : Dev).linkUsable n.val = true := hu
  simp [h1]

theorem forAll_emit_del {α : Type} (g : α → Transfer) (xs : List α) (d : Dev) : (forAll xs (fun u e => e.emit (g u)) d).del =
    d.del := by
  unfold forAll
  induction xs generalizing d with
  | nil => rfl
  | cons x r ih => exact ih (d.emit (g x))

theorem forAll_emit_mem {α : Type} (g : α → Transfer) {xs : List α} {u : α} (h : u ∈ xs) (d : Dev) :
    g u ∈ (forAll xs (fun u e => e.emit (g u)) d).drive := by
  obtain ⟨l, r, rfl⟩ := List.append_of_mem h
  rw [forAll_append]
  have hk : Touches [] ((forAll l (fun u e => e.emit (g u)) d).emit (g u))
      (forAll r (fun u e => e.emit (g u)) ((forAll l (fun u e => e.emit (g u)) d).emit (g u))) :=
    .forAllAfter (fun _ _ => Dev.emit_touches ..) (.refl _)
  exact hk.drive.subset (List.mem_append_right _ (List.mem_singleton_self _))

/-- A frame not acknowledged for 20 µs goes out again, and one more try is noted. -/
theorem Dev.resend_sends {d : Dev} (h : Tab.rising d.del.links) {n : Nat} {u : Unacked} (hu : u ∈ (d.link n).unacked)
    (hp : d.passed u.sentAt 20 = true) (ht : u.tries < 3) :
    .frame n (frameWords (d.link n).version u.typ u.frame) ∈ (d.resend n).drive ∧
      { u with sentAt := d.mgt.tref, tries := u.tries + 1 } ∈ ((d.resend n).link n).unacked := by
  refine ⟨forAll_emit_mem (fun u : Unacked => Transfer.frame n (frameWords (d.link n).version u.typ u.frame))
    (List.mem_filter.mpr ⟨hu, by simp [hp, ht]⟩) _, ?_⟩
  have hl : (d.resend n).link n = { d.link n with unacked := d.keptUnacked n } := by
    unfold Dev.resend Dev.link
    rw [forAll_emit_del]
    exact Dev.link_setLink h n _
  rw [hl]
  exact List.mem_filterMap.mpr ⟨u, hu, by simp [hp, ht]⟩

/-! ### Members -/

/-- A running checkpoint of the pool that has not cut is a local one after a split. -/
def cutsOff (c : Ckpt) : Ckpt :=
  if c.pck.isSome && (c.phase == .preFlush || c.phase == .hold) then { c with localCut := true } else c

/-- The change of a split itself, before what it ends. -/
def Dev.splitOff (d : Dev) : Dev :=
  { d with del.gstate := .split, del.reports := [], del.reconReq := false, del.ckreq := false, del.txn := none, del.prepared := none, per.ckpt := d.per.ckpt.map cutsOff }

/-- A POOL_RECONCILE that waits ends in a split, unless a checkpoint that runs decides it. -/
def Dev.splitEnds (d : Dev) : Dev :=
  if d.per.ckpt.any fun c => c.pck.any fun q => !d.del.reconSkip.contains q then d else d.reconEnds .split

theorem Dev.split_eq (d : Dev) : d.split = (d.splitOff.poolState 2).splitEnds.cutDue.ckptNext := rfl

/-- A split leaves the group split, with no pool checkpoint under way. -/
theorem Dev.split_parted (d : Dev) : d.split.del.parted := by
  have h1 : Kept _ _ .parted := (Dev.poolState_touches d.splitOff 2).keeps .parted
  have hends : Touches [.queues, .hdma, .del] (d.splitOff.poolState 2) (d.splitOff.poolState 2).splitEnds :=
    .ite (.refl _) (Dev.reconEnds_touches ..)
  have h2 : Kept _ _ .parted := hends.keeps .parted
  have h3 : Kept _ _ .parted := (Dev.cutDue_touches (d.splitOff.poolState 2).splitEnds).keeps .parted
  have h4 : Kept _ _ .parted := (Dev.ckptNext_touches (d.splitOff.poolState 2).splitEnds.cutDue).keeps .parted
  rw [Dev.split_eq]
  exact h4 (h3 (h2 (h1 ⟨rfl, rfl, rfl⟩)))

/-- With a silent member of its group the engine's group is split. -/
theorem Dev.regroup_split {d : Dev} (hg : d.del.group.isSome = true) (h : d.someSilent = true) : d.regroup.del.gstate =
    .split := by
  obtain ⟨g, hg⟩ := Option.isSome_iff_exists.mp hg
  unfold Dev.regroup
  rw [hg]
  dsimp only
  rw [if_pos h]
  split
  · rename_i hs
    exact eq_of_beq hs
  · exact d.split_parted.1

theorem memberTimeout_next {m : BitVec 6} {s : State} (hs : InService s) (hst : (s.dev.memberOf m.toNat).st = .member)
    (hp : s.dev.passed (s.dev.memberOf m.toNat).lastAt s.dev.del.hbTimeout = true) : exec (.memberTimeout m) s =
      .next (settle { s with dev := (Dev.memberTo { s.dev with drive := [] } m.toNat .silent).regroup }) := by
  refine (exec_memberTimeout m s).trans ((serve_acts hs).trans (act_eq (if_pos ?_)))
  have h1 : (({ s.dev with drive := [] } : Dev).memberOf m.toNat).st = .member := hst
  have h2 : ({ s.dev with drive := [] } : Dev).passed (({ s.dev with drive := [] } : Dev).memberOf m.toNat).lastAt
    ({ s.dev with drive := [] } : Dev).del.hbTimeout = true := hp
  simp [h1, h2]

theorem Dev.memberTo_changes {d : Dev} {p : Nat} {st : MemSt} (h : (d.memberOf p).st ≠ st) :
    (d.memberTo p st).del = (d.setMember p { d.memberOf p with st := st }).del := by
  unfold Dev.memberTo
  rw [if_neg h]
  rfl

theorem Dev.someSilent_of_member {d : Dev} {m : BitVec 6} (hm : m ≠ d.del.poolId) (hg : (d.memberOf m.toNat).group =
    d.del.group)
    (hst : (d.memberOf m.toNat).st = .silent) : d.someSilent = true := by
  have hne : m.toNat ≠ d.del.poolId.toNat := fun h => hm (BitVec.eq_of_toNat_eq h)
  refine List.any_eq_true.mpr ⟨m.toNat, List.mem_filter.mpr ⟨List.mem_range.mpr m.isLt, ?_⟩, ?_⟩
  · rw [hst, hg]
    simp
  · simp [hne, hst]

/-! ### The heartbeat -/

/-- What HB says of the engine. -/
def Dev.hbWords (d : Dev) : List Word32 :=
  [pk [(0, d.groupWord), (4, flag d.del.group.isSome), (5, d.del.gstate.code)], d.del.pck.extractLsb' 0 32,
    d.del.pck.extractLsb' 32 32]

theorem heartbeatTimer_next {s : State} (hin : s.dev.del.inPool = true) (hp : s.dev.passed s.dev.del.hbAt s.dev.del.hbPeriod =
    true) :
    ∃ typ pl, (s.safe.active = false → typ = tHb) ∧ (s.safe.active = true → typ = tSafe ∧ pl = []) ∧
      exec .heartbeatTimer s = .next (settle
        { s with dev := Dev.broadcast { s.dev with drive := [], del.hbAt := s.dev.mgt.tref } typ pl }) := by
  have h2 : ({ s.dev with drive := [] } : Dev).passed ({ s.dev with drive := [] } : Dev).del.hbAt
    ({ s.dev with drive := [] } : Dev).del.hbPeriod = true := hp
  cases ha : s.safe.active
  · refine ⟨tHb, Dev.hbWords s.dev, fun _ => rfl, nofun, (exec_heartbeatTimer s).trans (act_eq ?_)⟩
    rw [if_neg (by simp [hin, h2])]
    dsimp only
    exact if_neg (by rw [ha]; exact nofun)
  · refine ⟨tSafe, [], nofun, fun _ => ⟨rfl, rfl⟩, (exec_heartbeatTimer s).trans (act_eq ?_)⟩
    rw [if_neg (by simp [hin, h2])]
    dsimp only
    exact if_pos ha

theorem linkUpChange_next {n : Fin 4} {up : Bool} {s : State} (h : (s.dev.link n).up ≠ up) : exec (.linkUpChange n up) s =
    .next (settle { s with dev := (Dev.setLink { s.dev with drive := [] } n { s.dev.link n with up := up }).linkDown n }) :=
  (exec_linkUpChange n up s).trans (act_eq (if_neg h))

end Machine
end Sys2Proof

section
open Sys2Proof Sys2Proof.Machine Sys2Proof.Laws
set_option Elab.async false

/-- Settles O56, timer by timer. -/
theorem linkTimers : Obligations.LinkTimers := by
  refine ⟨fun n s hcan => ⟨?_, ?_⟩, fun n s hcan hs hn => ⟨?_, ?_, ?_, ?_⟩, ?_, ?_⟩
  · intro hup hin huse hdom
    refine completes_of (linkUpChange_next (by rw [hup]; exact nofun)) ?_
    have hset := Dev.link_setLink (d := { s.dev with drive := [] }) hcan.links n { s.dev.link n with up := true }
    rw [settle_link, Dev.link_linkDown (put_rising _ _ hcan.links), hset, if_pos]
    · exact ⟨rfl, rfl⟩
    · unfold Dev.linkNamed Dev.linkUsable
      rw [hset]
      exact Bool.and_eq_true_iff.mpr ⟨Bool.and_eq_true_iff.mpr ⟨hin, huse⟩, hdom⟩
  · intro hup
    refine completes_of (linkUpChange_next (by rw [hup]; exact nofun)) ?_
    have hset := Dev.link_setLink (d := { s.dev with drive := [] }) hcan.links n { s.dev.link n with up := false }
    rw [settle_link, Dev.link_linkDown (put_rising _ _ hcan.links), hset, if_neg]
    · exact ⟨rfl, rfl, rfl⟩
    · unfold Dev.linkNamed Dev.linkUsable
      rw [hset]
      simp
  · intro hst hp
    refine completes_of (linkTimeout_next hs hn hp) ?_
    rw [settle_link]
    exact (Dev.linkSilent_link (d := { s.dev with drive := [] }) hcan.links n).2 hst hn
  · intro hp
    refine completes_of (linkTimeout_next hs hn hp) ?_
    rw [settle_link]
    exact (Dev.linkSilent_link (d := { s.dev with drive := [] }) hcan.links n).1
  · intro hst hp
    refine completes_of (helloTimer_next hs hn hst hp) ?_
    have hset := Dev.link_setLink (d := { s.dev with drive := [] }) hcan.links n { s.dev.link n with helloAt := s.dev.mgt.tref }
    have huse : (Dev.setLink { s.dev with drive := [] } n { s.dev.link n with helloAt := s.dev.mgt.tref }).linkUsable n =
        true := by
      unfold Dev.linkUsable
      rw [hset]
      exact (Bool.and_eq_true_iff.mp hn).2
    obtain ⟨f, hf1, hf2, hf3, hf4⟩ := Dev.sendHello_sends huse
    rw [hset] at hf4
    refine ⟨?_, f, hf1, hf2, hf3, settle_drive hf4⟩
    have hk : Kept _ _ .peers := (Dev.sendHello_touches
      (Dev.setLink { s.dev with drive := [] } n { s.dev.link n with helloAt := s.dev.mgt.tref }) n).keeps .peers
    obtain ⟨-, -, -, -, -, hat⟩ := hk.link n
    rw [settle_link]
    dsimp only
    rw [hat, hset]
  · intro u hu hp ht
    obtain ⟨h1, h2⟩ := Dev.resend_sends (d := { s.dev with drive := [] }) hcan.links hu hp ht
    refine completes_of (retransmitTimer_next hs (Bool.and_eq_true_iff.mp hn).2) ⟨settle_drive h1, ?_⟩
    rw [settle_link]
    exact h2
  · intro m s hcan hs hst hp
    refine completes_of (memberTimeout_next hs hst hp) ?_
    have hdel := Dev.memberTo_changes (d := { s.dev with drive := [] }) (p := m.toNat) (st := .silent) (by
      rw [show (({ s.dev with drive := [] } : Dev).memberOf m.toNat).st = .member from hst]; exact nofun)
    have hmem : (Dev.memberTo { s.dev with drive := [] } m.toNat .silent).memberOf m.toNat =
        { s.dev.memberOf m.toNat with st := .silent } :=
      (congrArg (fun x : Del => x.members.get m.toNat) hdel).trans (Dev.memberOf_setMember hcan.members _ _)
    generalize Dev.memberTo { s.dev with drive := [] } m.toNat .silent = e at hdel hmem
    have hreg : Kept e e.regroup .peers := (Dev.regroup_touches e).keeps .peers
    have hpeers : Kept e (settle { s with dev := e.regroup }).dev .peers := hreg.trans (settle_peers _)
    refine ⟨?_, fun hne hgr hsome => ?_⟩
    · rw [hpeers.member, hmem]
    · rw [settle_gstate]
      refine Dev.regroup_split ?_ (Dev.someSilent_of_member (m := m) ?_ ?_ ?_)
      · rw [hdel]; exact hsome
      · rw [hdel]; exact hne
      · rw [hdel, hmem]; exact hgr
      · rw [hmem]
  · intro s hcan hin hp
    obtain ⟨typ, pl, h1, h2, hnext⟩ := heartbeatTimer_next hin hp
    refine completes_of hnext ⟨?_, fun n hn hst hu => ?_⟩
    · have hk : Kept _ _ .peers := (Dev.broadcast_touches { s.dev with drive := [], del.hbAt := s.dev.mgt.tref } typ pl).keeps
        .peers
      obtain ⟨-, -, -, hat⟩ := (hk.trans (settle_peers { s with
        dev := Dev.broadcast { s.dev with drive := [], del.hbAt := s.dev.mgt.tref } typ pl })).timers
      exact hat
    · have hsent := settle_drive (s :=
        { s with dev := Dev.broadcast { s.dev with drive := [], del.hbAt := s.dev.mgt.tref } typ pl })
        (Dev.broadcast_sends (d := { s.dev with drive := [], del.hbAt := s.dev.mgt.tref }) hin hn hst hu typ pl)
      refine ⟨fun ha => ⟨pl, h1 ha ▸ hsent⟩, fun ha => ?_⟩
      obtain ⟨ht, hpl⟩ := h2 ha
      rw [ht, hpl] at hsent ⊢
      exact hsent

end

namespace Sys2Proof
namespace Machine

open Laws

-- each proof is small and there are many: elaborated one after the other they need one thread
set_option Elab.async false

/-! O55. Frames as words, HELLO and ACK, and what the frames of a member say of it. -/

/-! ### Receiving -/

/-- A frame that is no link frame reaches a link that is UP. -/
theorem Dev.receive_takes {d : Dev} {n typ : Nat} {f : Frame} (hn : d.linkNamed n = true) (hst : (d.link n).st = .up)
    (hlen : f.payload.length ≤ maxLen (d.link n).version) (ht : typ ∈ frameTypes) (hh : typ ≠ tHello) (ha : typ ≠ tAck) :
    d.receive n typ f = (d.linkHeard n).takeFrame n typ f := by
  unfold Dev.receive
  rw [if_neg (by simp [hn]), if_neg hh, if_neg (by simp [ht, Nat.not_lt.mpr hlen]), if_neg (by simp [hst]), if_neg ha]

theorem Dev.receive_ack {d : Dev} {n : Nat} {f : Frame} (hn : d.linkNamed n = true) (hst : (d.link n).st = .up)
    (hlen : f.payload.length ≤ maxLen (d.link n).version) : d.receive n tAck f = (d.linkHeard n).takeAck n f := by
  unfold Dev.receive
  rw [if_neg (by simp [hn]), if_neg (by decide), if_neg (by simp [Nat.not_lt.mpr hlen]; decide), if_neg (by simp [hst]), if_pos
    rfl]

theorem Dev.receive_hello {d : Dev} {n : Nat} {f : Frame} (hn : d.linkNamed n = true) (hi : fWord f 2 ++ fWord f 1 =
    d.del.ident)
    (hlen : f.payload.length ≤ maxLen (d.link n).version) : d.receive n tHello f = (d.linkHeard n).takeHello n f := by
  unfold Dev.receive
  rw [if_neg (by simp [hn]), if_pos rfl, if_neg (by simp [hi, Nat.not_lt.mpr hlen])]

theorem Dev.receive_fails {d : Dev} {n typ : Nat} {f : Frame} (hn : d.linkNamed n = true)
    (h : typ ∉ frameTypes ∨ maxLen (d.link n).version < f.payload.length ∨ typ = tHello ∧ fWord f 2 ++ fWord f 1 ≠ d.del.ident)
      :
    d.receive n typ f = d.frameFails n := by
  unfold Dev.receive
  rw [if_neg (by simp [hn])]
  split
  · rename_i ht
    have hin : typ ∈ frameTypes := ht ▸ by decide
    rcases h with h | h | ⟨-, h⟩
    · exact absurd hin h
    · exact if_pos (by simp [h])
    · exact if_pos (by simp [h])
  · rename_i ht
    rcases h with h | h | ⟨h, -⟩
    · exact if_pos (by simp [h])
    · exact if_pos (by simp [h])
    · exact absurd h ht

theorem Dev.link_frameFails {d : Dev} (h : Tab.rising d.del.links) (n : Nat) :
    (d.frameFails n).link n = { d.link n with errs := min 0xFFFF ((d.link n).errs + 1) } :=
  Dev.link_setLink h n _

theorem Dev.link_linkHeard {d : Dev} (h : Tab.rising d.del.links) (n : Nat) :
    (d.linkHeard n).link n = { d.link n with lastAt := d.mgt.tref, silent := false } :=
  Dev.link_setLink h n _

/-- A row of a frame receives it. -/
theorem received_next {n : Nat} {typ : Nat} {f : Frame} {s : State} {c : Instr} (hc : exec c s = s.serve fun d => d.receive n
    typ f)
    (hs : InService s) : exec c s = .next (settle { s with dev := Dev.receive { s.dev with drive := [] } n typ f }) :=
  hc.trans ((serve_acts hs).trans (act_eq rfl))

theorem frameReceived_next {n : Fin 4} {ws : List Word32} {s : State} {d : Dev} (hs : InService s) (hn : s.dev.linkNamed n =
    true)
    (h : (match parseFrame (s.dev.link n).version ws with
      | some (typ, f) => Dev.receive { s.dev with drive := [] } n typ f
      | none => Dev.frameFails { s.dev with drive := [] } n) = d) :
    exec (.frameReceived n ws) s = .next (settle { s with dev := d }) := by
  refine (exec_frameReceived n ws s).trans ((serve_acts hs).trans (act_eq ?_))
  refine (if_neg ?_).trans (Eq.trans ?_ h)
  · rw [show ({ s.dev with drive := [] } : Dev).linkNamed n.val = true from hn]
    exact nofun
  · rfl

theorem frameReceived_parsed {n : Fin 4} {ws : List Word32} {s : State} {typ : Nat} {f : Frame} (hs : InService s)
    (hn : s.dev.linkNamed n = true) (h : parseFrame (s.dev.link n).version ws = some (typ, f)) :
    exec (.frameReceived n ws) s = .next (settle { s with dev := Dev.receive { s.dev with drive := [] } n typ f }) :=
  frameReceived_next hs hn (by rw [h])

theorem frameReceived_broken {n : Fin 4} {ws : List Word32} {s : State} (hs : InService s) (hn : s.dev.linkNamed n = true)
    (h : parseFrame (s.dev.link n).version ws = none) :
    exec (.frameReceived n ws) s = .next (settle { s with dev := Dev.frameFails { s.dev with drive := [] } n }) :=
  frameReceived_next hs hn (by rw [h])

/-- The row of each frame receives it under its type. -/
theorem exec_frame (n : Fin 4) (f : Frame) (s : State) (typ : Nat) (c : Instr)
    (h : (typ, c) ∈ [(tHello, .hello n f), (tHb, .hb n f), (tMember, .member n f), (tSafe, .safe n f), (tAck, .ack n f),
        (tPrepare, .prepare n f), (tHeld, .held n f), (tCut, .cutFrame n f), (tDone, .done n f), (tAbort, .abort n f),
        (tCkreq, .ckreq n f), (tReport, .report n f), (tRetire, .retire n f), (tRecon, .recon n f),
        (tReconDone, .reconDone n f)]) : exec c s = s.serve fun d => d.receive n typ f := by
  simp only [List.mem_cons, Prod.mk.injEq, List.not_mem_nil, or_false] at h
  rcases h with ⟨rfl, rfl⟩ | ⟨rfl, rfl⟩ | ⟨rfl, rfl⟩ | ⟨rfl, rfl⟩ | ⟨rfl, rfl⟩ | ⟨rfl, rfl⟩ | ⟨rfl, rfl⟩ | ⟨rfl, rfl⟩ | ⟨rfl,
    rfl⟩ |
    ⟨rfl, rfl⟩ | ⟨rfl, rfl⟩ | ⟨rfl, rfl⟩ | ⟨rfl, rfl⟩ | ⟨rfl, rfl⟩ | ⟨rfl, rfl⟩ <;> rfl

/-! ### HELLO -/

/-- The version of a link: the highest that both ends have. -/
def helloVersion (v : Nat) : Nat := if 4 ≤ v then 3 else if 2 ≤ v then 2 else 1

/-- What HELLO tells of a link. -/
def Link.hears (l : Link) (f : Frame) : Link := { l with heard := true, peer := (fWord f 0).extractLsb' 8 6 }

theorem Dev.takeHello_noVersion {d : Dev} {n : Nat} {f : Frame} (h : (d.link n).st = .noVersion) :
    d.takeHello n f = d.setLink n ((d.link n).hears f) :=
  if_pos (by rw [h]; rfl)

theorem Dev.takeHello_none {d : Dev} {n : Nat} {f : Frame} (h : (d.link n).st = .hello) (hv : bits (fWord f 0) 2 0 = 0) :
    d.takeHello n f = (d.setLink n { (d.link n).hears f with st := .noVersion, version := 0, unacked := [] }).raise bDel (8 + n)
      :=
  (if_neg (by rw [h]; exact nofun)).trans (if_pos hv)

theorem Dev.takeHello_echo {d : Dev} {n : Nat} {f : Frame} (h : (d.link n).st = .hello) (hv : bits (fWord f 0) 2 0 ≠ 0)
    (he : bit (fWord f 0) 3 = true) : d.takeHello n f =
      ((d.setLink n { (d.link n).hears f with st := .up, version := helloVersion (bits (fWord f 0) 2 0) }).raise bDel (33 +
        n)).sendMember false :=
  (if_neg (by rw [h]; exact nofun)).trans ((if_neg hv).trans ((if_neg (by rw [h]; exact nofun)).trans (if_pos he)))

theorem Dev.takeHello_first {d : Dev} {n : Nat} {f : Frame} (h : (d.link n).st = .hello) (hv : bits (fWord f 0) 2 0 ≠ 0)
    (he : bit (fWord f 0) 3 = false) : d.takeHello n f = d.setLink n ((d.link n).hears f) :=
  (if_neg (by rw [h]; exact nofun)).trans ((if_neg hv).trans ((if_neg (by rw [h]; exact nofun)).trans
    (if_neg (by rw [he]; exact nofun))))

theorem hello_next {n : Fin 4} {f : Frame} {s : State} (hs : InService s) (hn : s.dev.linkNamed n = true)
    (hi : fWord f 2 ++ fWord f 1 = s.dev.del.ident) (hlen : f.payload.length ≤ maxLen (s.dev.link n).version) :
    exec (.hello n f) s = .next (settle { s with dev := (Dev.linkHeard { s.dev with drive := [] } n).takeHello n f }) := by
  rw [received_next (n := n.val) (typ := tHello) (f := f) rfl hs]
  exact congrArg (fun d : Dev => Host.Outcome.next (settle { s with dev := d })) (Dev.receive_hello hn hi hlen)

/-! ### What a frame says of its origin -/

/-- The entry of a member from which a frame has come. -/
def Member.heardNow (m : Member) (oseq : Word32) (reset : Bool) (now : Nat) : Member :=
    { m.accept oseq reset with lastAt := now }

theorem Member.accept_keeps (m : Member) (oseq : Word32) (reset : Bool) :
    (m.accept oseq reset).st = m.st ∧ (m.accept oseq reset).group = m.group ∧ (m.accept oseq reset).pck = m.pck := by
  unfold Member.accept
  split
  · exact ⟨rfl, rfl, rfl⟩
  · split <;> exact ⟨rfl, rfl, rfl⟩

/-- The state that a frame gives its origin. -/
def frameState (typ : Nat) (f : Frame) : MemSt := if typ = tSafe || (typ = tMember && fLeave f) then .absent else .member

/-- A link acknowledges a frame. -/
def Dev.acks (d : Dev) (n typ : Nat) (f : Frame) : Dev :=
  if (d.link n).version = 3 && typ ≠ tHb && typ ≠ tSafe then d.sendLink n tAck [f.origin.setWidth 32, f.oseq] else d

theorem Dev.acks_touches (d : Dev) (n typ : Nat) (f : Frame) : Touches [.del] d (d.acks n typ f) :=
  .ite (.mono (Dev.sendLink_touches ..)) (.refl _)

/-- The member table takes a frame. -/
def Dev.notesMember (d : Dev) (typ : Nat) (f : Frame) : Dev :=
  let o := f.origin.toNat
  ((d.setMember o ((d.memberOf o).heardNow f.oseq (typ = tMember && !fLeave f) d.mgt.tref)).memberTo o (frameState typ
    f)).regroup

/-- A frame for this engine acts; one for others goes on. -/
def Dev.actedOn (d : Dev) (n typ : Nat) (f : Frame) : Dev := if f.bcast || f.dest = d.del.poolId then d.actOn n typ f else d
def Dev.forwards (d : Dev) (n typ : Nat) (f : Frame) : Dev :=
  if (f.bcast || f.dest ≠ d.del.poolId) && f.ttl ≠ 0 then d.flood (some n) typ { f with ttl := f.ttl - 1 } else d

theorem Dev.takeFrame_eq (d : Dev) (n typ : Nat) (f : Frame) : d.takeFrame n typ f =
    if f.origin = (d.acks n typ f).del.poolId || (!(decide (typ = tMember) && !fLeave f) &&
      ((d.acks n typ f).memberOf f.origin.toNat).duplicate f.oseq) then d.acks n typ f
    else (((d.acks n typ f).notesMember typ f).actedOn n typ f).forwards n typ f := by
  unfold Dev.takeFrame Dev.forwards Dev.actedOn Dev.notesMember Dev.acks Member.heardNow frameState
  rfl

/-- A frame for this engine that is no duplicate acts. -/
theorem Dev.takeFrame_acts {d : Dev} {n typ : Nat} {f : Frame} (ho : f.origin ≠ (d.acks n typ f).del.poolId)
    (hdup : ((d.acks n typ f).memberOf f.origin.toNat).duplicate f.oseq = false)
    (hdest : f.bcast = true ∨ f.dest = ((d.acks n typ f).notesMember typ f).del.poolId) :
    d.takeFrame n typ f = (((d.acks n typ f).notesMember typ f).actOn n typ f).forwards n typ f := by
  rw [Dev.takeFrame_eq, if_neg (by simp [ho, hdup])]
  exact congrArg (Dev.forwards · n typ f) (if_pos (by simpa using hdest))

/-- What the frame leaves of pool and members: the links of the flood stay. -/
theorem Dev.takeFrame_peers {d : Dev} {n typ : Nat} {f : Frame} (ho : f.origin ≠ d.del.poolId)
    (hdup : (d.memberOf f.origin.toNat).duplicate f.oseq = false) (hdest : f.bcast = true ∨ f.dest = d.del.poolId) :
    Kept (((d.acks n typ f).notesMember typ f).actOn n typ f) (d.takeFrame n typ f) .peers := by
  have hack : Kept d (d.acks n typ f) .peers := (Dev.acks_touches d n typ f).keeps .peers
  have hpool : (d.acks n typ f).del.poolId = d.del.poolId := hack.identity.2.1
  have hnotes : ((d.acks n typ f).notesMember typ f).del.poolId = d.del.poolId := by
    refine Eq.trans ?_ hpool
    have hreg : Kept _ _ .peers := (Dev.regroup_touches (((d.acks n typ f).setMember f.origin.toNat
      (((d.acks n typ f).memberOf f.origin.toNat).heardNow f.oseq (typ = tMember && !fLeave f) (d.acks n typ
        f).mgt.tref)).memberTo
        f.origin.toNat (frameState typ f))).keeps .peers
    refine hreg.identity.2.1.trans ?_
    unfold Dev.memberTo
    dsimp only
    split <;> rfl
  rw [Dev.takeFrame_acts (by rw [hpool]; exact ho) (by rw [hack.member]; exact hdup) (by rw [hnotes]; exact hdest)]
  unfold Dev.forwards
  split
  · exact (Dev.flood_touches ..).keeps .peers
  · exact .refl _ _

theorem Dev.memberOf_memberTo {d : Dev} (h : Tab.rising d.del.members) (p : Nat) (st : MemSt) :
    (d.memberTo p st).memberOf p = { d.memberOf p with st := st } := by
  unfold Dev.memberTo
  dsimp only
  split
  · rename_i hst
    rw [← hst]
  · exact Dev.memberOf_setMember h p _

/-- The origin's entry once the member table has taken the frame. -/
theorem Dev.notesMember_origin {d : Dev} (h : Tab.rising d.del.members) (typ : Nat) (f : Frame) :
    (d.notesMember typ f).memberOf f.origin.toNat =
      { (d.memberOf f.origin.toNat).heardNow f.oseq (typ = tMember && !fLeave f) d.mgt.tref with
      st := frameState typ f } := by
  unfold Dev.notesMember
  dsimp only
  have hreg : Kept _ _ .peers := (Dev.regroup_touches ((d.setMember f.origin.toNat ((d.memberOf f.origin.toNat).heardNow f.oseq
    (typ = tMember && !fLeave f) d.mgt.tref)).memberTo f.origin.toNat (frameState typ f))).keeps .peers
  rw [hreg.member, Dev.memberOf_memberTo (put_rising _ _ h), Dev.memberOf_setMember h]

theorem Dev.notesMember_tables {d : Dev} (h : Canonical d) (typ : Nat) (f : Frame) : Tab.rising (d.notesMember typ
    f).del.members := by
  unfold Dev.notesMember
  exact ((Dev.regroup_touches _).tables ((Dev.memberTo_touches ..).tables ((Dev.setMember_touches ..).tables h))).members

/-- HB, MEMBER and SAFE change the entry of their origin, and the group follows. -/
theorem Dev.actOn_entry {d : Dev} (h : Tab.rising d.del.members) (n typ : Nat) (f : Frame) :
    (typ = tHb → (d.actOn n typ f).memberOf f.origin.toNat =
      { d.memberOf f.origin.toNat with group := fGroupOpt f, pck := fPck f }) ∧
    (typ = tMember → (d.actOn n typ f).memberOf f.origin.toNat =
      { d.memberOf f.origin.toNat with group := if fLeave f then none else fGroupOpt f }) ∧
    (typ = tSafe → (d.actOn n typ f).memberOf f.origin.toNat = { d.memberOf f.origin.toNat with group := none }) := by
  have hput (m : Member) : (d.setMember f.origin.toNat m).regroup.memberOf f.origin.toNat = m := by
    have hreg : Kept _ _ .peers := (Dev.regroup_touches (d.setMember f.origin.toNat m)).keeps .peers
    rw [hreg.member, Dev.memberOf_setMember h]
  refine ⟨?_, ?_, ?_⟩
  · rintro rfl
    exact hput _
  · rintro rfl
    unfold Dev.actOn
    rw [if_neg (by decide), if_pos rfl]
    split <;> exact hput _
  · rintro rfl
    have hreg : Kept _ _ .peers := (Dev.regroup_touches ((d.setMember f.origin.toNat
      { d.memberOf f.origin.toNat with group := none }).raise bDel (28 + n))).keeps .peers
    unfold Dev.actOn
    rw [if_neg (by decide), if_neg (by decide), if_pos rfl, hreg.member]
    exact Dev.memberOf_setMember h _ _

/-- The origin's entry after a frame of HB, MEMBER or SAFE. -/
theorem Dev.takeFrame_entry {d : Dev} (h : Canonical d) {n typ : Nat} {f : Frame} (ho : f.origin ≠ d.del.poolId)
    (hdup : (d.memberOf f.origin.toNat).duplicate f.oseq = false) (hdest : f.bcast = true ∨ f.dest = d.del.poolId) :
    ((d.takeFrame n typ f).memberOf f.origin.toNat) = (((d.acks n typ f).notesMember typ f).actOn n typ f).memberOf
      f.origin.toNat ∧
      Tab.rising ((d.acks n typ f).notesMember typ f).del.members ∧
      ((d.acks n typ f).notesMember typ f).memberOf f.origin.toNat =
        { (d.memberOf f.origin.toNat).heardNow f.oseq (typ = tMember && !fLeave f) d.mgt.tref with st := frameState typ f } := by
  have hack := Dev.acks_touches d n typ f
  have hpeers : Kept d (d.acks n typ f) .peers := hack.keeps .peers
  have hmgt : (d.acks n typ f).mgt = d.mgt := hack.keeps .mgt
  refine ⟨(Dev.takeFrame_peers ho hdup hdest).member _, Dev.notesMember_tables (hack.tables h) typ f, ?_⟩
  rw [Dev.notesMember_origin (hack.tables h).members, hpeers.member, hmgt]

/-- A frame row of a member that the engine acts on takes the frame. -/
theorem acts_next {n : Fin 4} {typ : Nat} {f : Frame} {s : State} {c : Instr} (hc : exec c s = s.serve fun d => d.receive n typ
    f)
    (h : Acts n f s) (ht : typ ∈ frameTypes) (hh : typ ≠ tHello) (ha : typ ≠ tAck) : exec c s =
      .next (settle { s with dev := (Dev.linkHeard { s.dev with drive := [] } n).takeFrame n typ f }) := by
  obtain ⟨hs, hn, hst, hlen, -⟩ := h
  rw [received_next hc hs]
  exact congrArg (fun d : Dev => Host.Outcome.next (settle { s with dev := d })) (Dev.receive_takes hn hst hlen ht hh ha)

/-- The origin's entry after the row of a frame of HB, MEMBER or SAFE. -/
theorem acts_entry {n : Fin 4} {typ : Nat} {f : Frame} {s : State} {c : Instr} (hc : exec c s = s.serve fun d => d.receive n typ
    f)
    (hcan : Canonical s.dev) (h : Acts n f s) (ht : typ ∈ frameTypes) (hh : typ ≠ tHello) (ha : typ ≠ tAck) :
    ∃ (t : State) (d : Dev) (m : Member), exec c s = .next t ∧ Tab.rising d.del.members ∧
      t.dev.memberOf f.origin.toNat = (d.actOn n typ f).memberOf f.origin.toNat ∧ d.memberOf f.origin.toNat = m ∧
      m.st = frameState typ f ∧ m.lastAt = s.dev.mgt.tref := by
  have hnext := acts_next hc h ht hh ha
  obtain ⟨-, -, -, -, ho, hdup, hdest, -⟩ := h
  have hheard : Canonical (Dev.linkHeard { s.dev with drive := [] } n) := (Dev.linkHeard_touches ..).tables { hcan with }
  obtain ⟨h1, h2, h3⟩ := Dev.takeFrame_entry (n := n.val) (typ := typ) hheard ho hdup hdest
  refine ⟨_, _, _, hnext, h2, ?_, h3, rfl, rfl⟩
  rw [(settle_peers _).member]
  exact h1

theorem ack_next {n : Fin 4} {f : Frame} {s : State} (hs : InService s) (hn : s.dev.linkNamed n = true) (hst : (s.dev.link n).st
    = .up)
    (hlen : f.payload.length ≤ maxLen (s.dev.link n).version) :
    exec (.ack n f) s = .next (settle { s with dev := (Dev.linkHeard { s.dev with drive := [] } n).takeAck n f }) := by
  rw [received_next (n := n.val) (typ := tAck) (f := f) rfl hs]
  exact congrArg (fun d : Dev => Host.Outcome.next (settle { s with dev := d })) (Dev.receive_ack hn hst hlen)

end Machine
end Sys2Proof

section
open Sys2Proof Sys2Proof.Machine Sys2Proof.Laws
set_option Elab.async false

/-- Settles O55: HELLO, the frames of a member, ACK, and frames as words. -/
theorem linkFrames : Obligations.LinkFrames := by
  refine ⟨fun n f s hcan hs hn hi hlen => ?_, fun n f s hcan h => ?_, fun n f s hcan hs hn hst hlen => ?_, fun n ws s hcan hs hn
    => ⟨?_, ?_⟩⟩
  · have hheard := Dev.link_linkHeard (d := { s.dev with drive := [] }) hcan.links n
    have hrise : Tab.rising (Dev.linkHeard { s.dev with drive := [] } n).del.links := put_rising _ _ hcan.links
    have hst : ((Dev.linkHeard { s.dev with drive := [] } n).link n).st = (s.dev.link n).st := by rw [hheard]; rfl
    have hver : ((Dev.linkHeard { s.dev with drive := [] } n).link n).version = (s.dev.link n).version := by rw [hheard]; rfl
    have hnext := hello_next hs hn hi hlen
    generalize Dev.linkHeard { s.dev with drive := [] } n = d at hrise hst hver hnext
    refine ⟨fun h he hv => ?_, fun h he hv => ?_, fun h hv => ?_, fun h => ?_⟩
    · rw [Dev.takeHello_echo (hst.trans h) hv he] at hnext
      refine completes_of hnext ?_
      have hk : Kept _ _ .peers := (Dev.sendMember_touches ((d.setLink n { (d.link n).hears f with
        st := .up, version := helloVersion (bits (fWord f 0) 2 0) }).raise bDel (33 + n)) false).keeps .peers
      obtain ⟨-, h1, h2, h3, h4, -⟩ := hk.link n
      have hset := Dev.link_setLink hrise n
          { (d.link n).hears f with st := .up, version := helloVersion (bits (fWord f 0) 2 0) }
      rw [settle_link]
      refine ⟨h1.trans ?_, h4.trans ?_, h3.trans ?_, h2.trans ?_⟩
      · exact congrArg Link.st hset
      · exact congrArg Link.heard hset
      · exact congrArg Link.peer hset
      · exact congrArg Link.version hset
    · rw [Dev.takeHello_first (hst.trans h) hv he] at hnext
      refine completes_of hnext ?_
      rw [settle_link]
      dsimp only
      rw [Dev.link_setLink hrise]
      exact ⟨hst.trans h, rfl, rfl, hver⟩
    · rw [Dev.takeHello_none (hst.trans h) hv] at hnext
      refine completes_of hnext ?_
      rw [settle_link]
      exact congrArg Link.st (Dev.link_setLink hrise n
        { (d.link n).hears f with st := .noVersion, version := 0, unacked := [] })
    · rw [Dev.takeHello_noVersion (hst.trans h)] at hnext
      refine completes_of hnext ?_
      rw [settle_link]
      dsimp only
      rw [Dev.link_setLink hrise]
      exact hst.trans h
  · refine ⟨?_, ?_, ?_, ?_⟩
    · obtain ⟨t, d, m, hnext, hrise, ht, hm, hst, hat⟩ := acts_entry (typ := tHb) (c := .hb n f) rfl hcan h (by decide)
        (by decide) (by decide)
      refine completes_of hnext ?_
      rw [ht, (Dev.actOn_entry hrise n tHb f).1 rfl, hm]
      exact ⟨hst, rfl, rfl, hat⟩
    · intro hl
      obtain ⟨t, d, m, hnext, hrise, ht, hm, hst, hat⟩ := acts_entry (typ := tMember) (c := .member n f) rfl hcan h (by decide)
        (by decide) (by decide)
      refine completes_of hnext ?_
      rw [ht, (Dev.actOn_entry hrise n tMember f).2.1 rfl, hm, hl]
      refine ⟨hst.trans ?_, rfl⟩
      unfold frameState
      rw [hl]
      rfl
    · intro hl
      obtain ⟨t, d, m, hnext, hrise, ht, hm, hst, hat⟩ := acts_entry (typ := tMember) (c := .member n f) rfl hcan h (by decide)
        (by decide) (by decide)
      refine completes_of hnext ?_
      rw [ht, (Dev.actOn_entry hrise n tMember f).2.1 rfl, hm]
      refine hst.trans ?_
      unfold frameState
      rw [hl]
      rfl
    · obtain ⟨t, d, m, hnext, hrise, ht, hm, hst, hat⟩ := acts_entry (typ := tSafe) (c := .safe n f) rfl hcan h (by decide)
        (by decide) (by decide)
      refine completes_of hnext ?_
      rw [ht, (Dev.actOn_entry hrise n tSafe f).2.2 rfl, hm]
      exact hst
  · refine completes_of (ack_next hs hn hst hlen) ?_
    rw [settle_link]
    have hrise : Tab.rising (Dev.linkHeard { s.dev with drive := [] } n).del.links := put_rising _ _ hcan.links
    have hheard := Dev.link_linkHeard (d := { s.dev with drive := [] }) hcan.links n
    refine (congrArg Link.unacked (Dev.link_setLink hrise n _)).trans ?_
    dsimp only
    rw [hheard]
    rfl
  · intro h
    have hfail : exec (.frameReceived n ws) s = .next (settle
        { s with dev := Dev.frameFails { s.dev with drive := [] } n }) := by
      rcases h with h | ⟨typ, f, hparse, h⟩
      · exact frameReceived_broken hs hn h
      · exact (frameReceived_parsed hs hn hparse).trans
          (congrArg (fun d : Dev => Host.Outcome.next (settle { s with dev := d })) (Dev.receive_fails (d :=
            { s.dev with drive := [] }) hn h))
    refine completes_of hfail ?_
    rw [settle_link]
    exact Dev.link_frameFails (d := { s.dev with drive := [] }) hcan.links n
  · intro typ f c hparse hc
    rw [frameReceived_parsed hs hn hparse, received_next (exec_frame n f s typ c hc) hs]

end

namespace Sys2Proof
namespace Machine

open Laws

-- each proof is small and there are many: elaborated one after the other they need one thread
set_option Elab.async false

/-! O44. Known-answer sets, quarantine, probation and cluster gating. -/

/-- The block as a row finds it: nothing is driven yet. -/
def State.start (s : State) : Dev := { s.dev with drive := [] }

theorem act_next {s : State} {f : Dev → Dev} {d : Dev} (h : f s.start = d) : s.act f = .next (settle { s with dev := d }) :=
    act_eq h

theorem serve_next {s : State} {f : Dev → Dev} {d : Dev} (hs : InService s) (h : f s.start = d) :
    s.serve f = .next (settle { s with dev := d }) := (serve_acts hs).trans (act_next h)

theorem State.start_canonical {s : State} (h : Canonical s.dev) : Canonical s.start := { h with }

/-! ### Sets -/

/-- A change of one lane keeps the table in order. -/
theorem Dev.lanes_updated {d e : Dev} {i : Nat} {f : Lane → Lane} (h : Tab.rising d.lan.lanes) (he : e.lan = (d.updLane i
    f).lan) :
    Tab.rising e.lan.lanes := he ▸ upd_rising i f h

/-- The lane on which a set starts. -/
def Lane.startsKat (l : Lane) : Lane := { l with katRun := true, vec := katVec }

theorem Dev.lane_startsKat {d : Dev} (h : Tab.rising d.lan.lanes) (i : Nat) : (d.startKat i).lane i = (d.lane i).startsKat :=
  Dev.lane_updLane h i _

theorem katPeriodExpiry_next {l : Fin 36} {s : State} (hs : InService s) (ht : (s.dev.lane l).st.tested = true)
    (hp : s.dev.passed (s.dev.lane l).katAt (s.dev.lan.katPeriod - 2) = true) : exec (.katPeriodExpiry l) s =
      .next (settle { s with dev := (s.start.startKat l).updLane l fun l => { l with katHold := true } }) :=
  (exec_katPeriodExpiry l s).trans (serve_next hs (if_pos (Bool.and_eq_true_iff.mpr ⟨ht, hp⟩)))

/-- The lane whose set has ended. -/
def Dev.endsKat (d : Dev) (i : Nat) (pass : Bool) : Dev :=
  (d.updLane i fun l => { l with katRun := false, katHold := false, katAt := d.mgt.tref, vec := katVec }).tapKatDone i pass

def Lane.endedKat (l : Lane) (now : Nat) : Lane := { l with katRun := false, katHold := false, katAt := now, vec := katVec }

theorem Dev.endsKat_lan (d : Dev) (i : Nat) (pass : Bool) :
    (d.endsKat i pass).lan = (d.updLane i fun l => l.endedKat d.mgt.tref).lan := by
  unfold Dev.endsKat Dev.tapKatDone
  split <;> rfl

theorem Dev.endsKat_mgt (d : Dev) (i : Nat) (pass : Bool) : (d.endsKat i pass).mgt = d.mgt := by
  unfold Dev.endsKat Dev.tapKatDone
  split <;> rfl

theorem Dev.lane_endsKat {d : Dev} (h : Tab.rising d.lan.lanes) (i : Nat) (pass : Bool) :
    (d.endsKat i pass).lane i = (d.lane i).endedKat d.mgt.tref := by
  rw [Dev.lane, Dev.endsKat_lan]
  exact Dev.lane_updLane h i _

theorem Dev.endsKat_rising {d : Dev} (h : Tab.rising d.lan.lanes) (i : Nat) (pass : Bool) : Tab.rising (d.endsKat i
    pass).lan.lanes :=
  Dev.lanes_updated h (d.endsKat_lan i pass)

/-- A lane whose set has failed. -/
def Dev.katFailed (d : Dev) (i : Nat) (squall : Bool) : Dev :=
  let d := d.updLane i fun l => { l with katFails := satAdd 255 l.katFails 1 }
  (if d.mgt.phase == .done then d.raise bLan (36 + i) else d).laneFailed i squall

/-- What follows the end of a set. -/
def Dev.afterKat (d : Dev) (i : Nat) (pass squall : Bool) : Dev :=
  if pass then (if (d.lane i).st == .quarantined then d.quarantinePassed i else d) else d.katFailed i squall

theorem katSetDone_next {l : Fin 36} {results : List Bytes} {s : State} (hm : s.dev.katMayEnd l s.safe.active = true) :
    exec (.katSetDone l results) s = .next (settle { s with
      dev := (s.start.endsKat l (katPassed results)).afterKat l (katPassed results) s.safe.active }) := by
  refine (exec_katSetDone l results s).trans (act_next ((if_neg ?_).trans rfl))
  rw [show s.start.katMayEnd l.val s.safe.active = true from hm]
  exact nofun

theorem katPassed_expected : katPassed (katExpected katVec) = true := by
  unfold katPassed
  generalize katExpected katVec = e
  exact beq_self_eq_true e

theorem katPassed_other {results : List Bytes} (h : results ≠ katExpected katVec) : katPassed results = false := by
  unfold katPassed
  generalize katExpected katVec = e at h ⊢
  exact beq_eq_false_iff_ne.mpr h

/-! ### Quarantine -/

/-- A change of lane states leaves the lanes that it gives. -/
theorem Dev.lane_lanesChange (d : Dev) (f : Dev → Dev) (i : Nat) : (d.lanesChange f).lane i = (f d).lane i := by
  unfold Dev.lanesChange
  dsimp only
  split <;> split <;> rfl

theorem Dev.lane_congr {d e : Dev} (h : e.lan = d.lan) (i : Nat) : e.lane i = d.lane i := by
  rw [Dev.lane, h, Dev.lane]

/-- A lane that leaves service holds no key. -/
theorem Dev.lane_takeOut {d : Dev} (h : Tab.rising d.lan.lanes) (i : Nat) (st : LaneSt) (squall : Bool) :
    (d.takeOut i st squall).lane i = { d.lane i with slots := [], regs := [], katHold := false, st := st } ∧
      Tab.rising (d.takeOut i st squall).lan.lanes := by
  have hclear : (d.clearKeys i).lane i = { d.lane i with slots := [], regs := [], katHold := false } := Dev.lane_updLane h i _
  have hrise : Tab.rising (d.clearKeys i).lan.lanes := Dev.lanes_updated h rfl
  have hset : ((d.clearKeys i).updLane i fun l => { l with st := st }).lane i =
      { d.lane i with slots := [], regs := [], katHold := false, st := st } := by
    rw [Dev.lane_updLane hrise, hclear]
  have hkeep : (d.takeOut i st squall).lan = ((d.clearKeys i).updLane i fun l => { l with st := st }).lan := by
    unfold Dev.takeOut
    dsimp only
    split
    · rfl
    · exact (Dev.endLaneWindows_touches ..).keeps .lan
  exact ⟨(Dev.lane_congr hkeep i).trans hset, Dev.lanes_updated hrise hkeep⟩

theorem Dev.replacement_ne {d : Dev} {i j : Nat} (h : d.replacement i = some j) : j ≠ i := by
  have hfind {l : List Nat} (hl : l.find? (· ≠ i) = some j) : j ≠ i := by simpa using List.find?_some hl
  unfold Dev.replacement at h
  rcases h1 : (d.lanesIn fun s => s == .standby).find? (· ≠ i) with _ | k
  · rw [h1] at h
    exact hfind h
  · rw [h1] at h
    exact hfind (h1.trans h)

theorem Dev.lane_activate_other {d : Dev} {i j : Nat} (h : i ≠ j) : (d.activate j).lane i = d.lane i :=
  (Dev.lane_updLane_other _ h).trans (Dev.lane_updLane_other _ h)

/-- The first steps of a quarantine. -/
def Dev.quarantines (d : Dev) (i : Nat) (squall : Bool) : Dev :=
  (((d.takeOut i .quarantined squall).startKat i).updLane i fun l =>
    { l with failedAt := some d.mgt.tref, wasStandby := (d.lane i).st.spare, standIn := none }).wake (clusterOf i)

def Lane.quarantined (l : Lane) (now : Nat) (spare : Bool) : Lane :=
  { l with slots := [], regs := [], katHold := false, st := .quarantined, katRun := true, vec := katVec, failedAt := some now, wasStandby := spare, standIn := none }

theorem Dev.lane_quarantines {d : Dev} (h : Tab.rising d.lan.lanes) (i : Nat) (squall : Bool) :
    (d.quarantines i squall).lane i = (d.lane i).quarantined d.mgt.tref (d.lane i).st.spare ∧
      Tab.rising (d.quarantines i squall).lan.lanes := by
  obtain ⟨h1, hr1⟩ := Dev.lane_takeOut h i .quarantined squall
  have h2 := Dev.lane_startsKat hr1 i
  have hr2 : Tab.rising ((d.takeOut i .quarantined squall).startKat i).lan.lanes := Dev.lanes_updated hr1 rfl
  refine ⟨(Dev.lane_updLane hr2 i _).trans ?_, Dev.lanes_updated hr2 rfl⟩
  rw [h2, h1]
  rfl

/-- An ACTIVE lane that fails is quarantined, and another stands in for it. -/
theorem Dev.lane_laneFailed {d : Dev} (h : Tab.rising d.lan.lanes) {i : Nat} (hst : (d.lane i).st = .active) (squall : Bool) :
    ∃ p, (d.laneFailed i squall).lane i = { (d.lane i).quarantined d.mgt.tref false with standIn := p } := by
  obtain ⟨hq, hr⟩ := Dev.lane_quarantines h i squall
  rw [hst] at hq
  unfold Dev.laneFailed
  dsimp only
  rw [if_neg (by rw [hst]; exact nofun)]
  unfold Dev.quarantineLane
  rw [Dev.lane_lanesChange]
  show ∃ p, (if (d.lane i).st == .auditor then (d.quarantines i squall).newAuditor i
    else if (d.lane i).st.spare then d.quarantines i squall
    else match (d.quarantines i squall).replacement i with
      | some j => ((d.quarantines i squall).updLane i fun x =>
        { x with standIn := some (j, ((d.quarantines i squall).lane j).st) }).activate j
      | none => d.quarantines i squall).lane i = _
  rw [if_neg (by rw [hst]; decide), if_neg (by rw [hst]; decide)]
  rcases hrep : (d.quarantines i squall).replacement i with _ | j
  · exact ⟨none, hq⟩
  · refine ⟨some (j, ((d.quarantines i squall).lane j).st), ?_⟩
    dsimp only
    rw [Dev.lane_activate_other (Ne.symm (Dev.replacement_ne hrep)), Dev.lane_updLane hr, hq]
    rfl

/-! ### A stand-in that is not needed any more -/

theorem Dev.updLane_katAt {d : Dev} (h : Tab.rising d.lan.lanes) (i j : Nat) {f : Lane → Lane} (hf : ∀ l, (f l).katAt = l.katAt)
    :
    ((d.updLane i f).lane j).katAt = (d.lane j).katAt := by
  by_cases hj : j = i
  · subst hj
    rw [Dev.lane_updLane h, hf]
  · rw [Dev.lane_updLane_other _ hj]

theorem Dev.formerState_katAt {d : Dev} (h : Tab.rising d.lan.lanes) (i j : Nat) (st : LaneSt) :
    ((d.formerState i st).lane j).katAt = (d.lane j).katAt ∧ Tab.rising (d.formerState i st).lan.lanes := by
  unfold Dev.formerState
  split
  · exact ⟨Dev.updLane_katAt h i j fun _ => rfl, Dev.lanes_updated h rfl⟩
  · split
    · exact ⟨Dev.updLane_katAt (f := fun l => { l with st := .auditor }) h i j fun _ => rfl, Dev.lanes_updated h rfl⟩
    · exact ⟨Dev.updLane_katAt h i j fun _ => rfl, Dev.lanes_updated h rfl⟩

theorem Dev.standDown_katAt (n : Nat) (p : Nat × LaneSt) {d : Dev} (h : Tab.rising d.lan.lanes) (j : Nat) :
    ((Dev.standDown n p d).lane j).katAt = (d.lane j).katAt ∧ Tab.rising (Dev.standDown n p d).lan.lanes := by
  induction n generalizing p d with
  | zero => exact ⟨rfl, h⟩
  | succ n ih =>
    obtain ⟨k, st⟩ := p
    unfold Dev.standDown
    split
    · exact Dev.formerState_katAt h k j st
    · exact ⟨Dev.updLane_katAt h k j fun _ => rfl, Dev.lanes_updated h rfl⟩
    · dsimp only
      split
      · obtain ⟨h1, h2⟩ := ih ‹_› (d := d.updLane k fun l => { l with wasStandby := true, standIn := none }) (Dev.lanes_updated
          h rfl)
        exact ⟨h1.trans (Dev.updLane_katAt h k j fun _ => rfl), h2⟩
      · exact ⟨Dev.updLane_katAt h k j fun _ => rfl, Dev.lanes_updated h rfl⟩
    · exact ⟨rfl, h⟩

/-- What a stand-in gives up when the lane it stood in for passes. -/
def Dev.standsDown (d : Dev) (i : Nat) : Dev :=
  match (d.lane i).standIn with
  | some p => Dev.standDown Config.lanes p d
  | none => d

theorem Dev.lane_quarantinePassed {d : Dev} (h : Tab.rising d.lan.lanes) {i : Nat} (hw : (d.lane i).wasStandby = false) :
    ((d.quarantinePassed i).lane i).st = .probation ∧ ((d.quarantinePassed i).lane i).katAt = (d.lane i).katAt := by
  have hdown : ((d.standsDown i).lane i).katAt = (d.lane i).katAt ∧ Tab.rising (d.standsDown i).lan.lanes := by
    unfold Dev.standsDown
    split
    · exact Dev.standDown_katAt _ _ h i
    · exact ⟨rfl, h⟩
  unfold Dev.quarantinePassed
  rw [Dev.lane_lanesChange]
  dsimp only
  rw [if_neg (by rw [hw]; exact nofun)]
  show (((d.standsDown i).updLane i fun l => { l with st := .probation, standIn := none }).lane i).st = _ ∧
    (((d.standsDown i).updLane i fun l => { l with st := .probation, standIn := none }).lane i).katAt = _
  rw [Dev.lane_updLane hdown.2]
  exact ⟨rfl, hdown.1⟩

/-! ### The other rows -/

theorem probationEnd_next {l : Fin 36} {s : State} (hs : InService s) (hst : (s.dev.lane l).st = .probation)
    (hr : s.dev.recentFailure l = false) : exec (.probationEnd l) s =
      .next (settle { s with dev := (s.start.lanesChange fun d => d.activate l).raise bLan (112 + l) }) := by
  refine (exec_probationEnd l s).trans (serve_next hs (if_pos ?_))
  rw [show (s.start.lane l.val).st = .probation from hst, show s.start.recentFailure l.val = false from hr]
  rfl

theorem Dev.lane_activate {d : Dev} (h : Tab.rising d.lan.lanes) (i : Nat) : ((d.activate i).lane i).st = .active := by
  have hset : (d.updLane i fun l => { l with st := .active }).lane i = { d.lane i with st := .active } := Dev.lane_updLane h i _
  have hrise : Tab.rising (d.updLane i fun l => { l with st := .active }).lan.lanes := Dev.lanes_updated h rfl
  refine (congrArg Lane.st (Dev.lane_updLane hrise i _)).trans ?_
  exact congrArg Lane.st hset

theorem standbyKatRepeat_next {l : Fin 36} {s : State} (hs : InService s) (hst : (s.dev.lane l).st = .standby)
    (hr : s.dev.recentFailure l = true) (hp : s.dev.passed (s.dev.lane l).katAt 100 = true) :
    exec (.standbyKatRepeat l) s = .next (settle { s with dev := s.start.startKat l }) := by
  refine (exec_standbyKatRepeat l s).trans (serve_next hs (if_pos ?_))
  rw [show (s.start.lane l.val).st = .standby from hst, show s.start.recentFailure l.val = true from hr,
    show s.start.passed (s.start.lane l.val).katAt 100 = true from hp]
  rfl

/-- A cluster gated for idleness. -/
def Dev.idles (d : Dev) (k : Nat) : Dev := { d with mgt.clusterIdle := d.mgt.clusterIdle ||| BitVec.ofNat 9 (2 ^ k) }

theorem clusterIdleGate_next {k : Fin 9} {s : State} (hg : s.dev.mgt.clusterGate.getLsbD k = true) (hup : s.dev.up k = true)
    (hh : s.dev.clusterHolds k = false) (hl : ∀ j, j < 4 → (s.dev.lane (4 * k + j)).katRun = false ∧
      (s.dev.lane (4 * k + j)).st ≠ .auditor ∧ (s.dev.lane (4 * k + j)).st ≠ .off) :
    exec (.clusterIdleGate k) s = .next (settle { s with dev := s.start.idles k }) := by
  refine (exec_clusterIdleGate k s).trans (act_next (if_pos ?_))
  have hall : (((List.range 4).map fun j => s.start.lane (4 * k.val + j)).all fun l => !l.katRun && l.st != .auditor && l.st !=
      .off) = true := by
    refine List.all_eq_true.mpr fun l hm => ?_
    obtain ⟨j, hj, rfl⟩ := List.mem_map.mp hm
    obtain ⟨h1, h2, h3⟩ := hl j (List.mem_range.mp hj)
    rw [show (s.start.lane (4 * k.val + j)).katRun = false from h1]
    simp [show (s.start.lane (4 * k.val + j)).st ≠ .auditor from h2, show (s.start.lane (4 * k.val + j)).st ≠ .off from h3]
  rw [show s.start.mgt.clusterGate.getLsbD k.val = true from hg, show s.start.up k.val = true from hup,
    show s.start.clusterHolds k.val = false from hh, hall]
  rfl

theorem clusterBit_self (k : Fin 9) : (BitVec.ofNat 9 (2 ^ k.val)).getLsbD k = true := by
  decide +revert

end Machine
end Sys2Proof

section
open Sys2Proof Sys2Proof.Machine Sys2Proof.Laws
set_option Elab.async false

/-- Settles O44, row by row. -/
theorem laneRows : Obligations.LaneRows := by
  refine ⟨?_, ?_, ?_, ?_, ?_⟩
  · intro l s hcan hs ht hp
    refine completes_of (katPeriodExpiry_next hs ht hp) ?_
    rw [settle_lane]
    refine (Dev.lane_updLane (Dev.lanes_updated hcan.lanes rfl : Tab.rising (s.start.startKat l).lan.lanes) l _).trans ?_
    rw [Dev.lane_startsKat (d := s.start) hcan.lanes]
    rfl
  · intro l results s hcan hs hup
    have hends := Dev.lane_endsKat (d := s.start) hcan.lanes l
    refine ⟨fun hst => ?_, fun hst hw hres => ?_⟩
    · have hmay : s.dev.katMayEnd l s.safe.active = true := by
        unfold Dev.katMayEnd
        rw [hst, hup, hs.1, hs.2]
        rfl
      refine ⟨fun hres => ?_, fun hres => ?_⟩
      · refine completes_of (katSetDone_next hmay) ?_
        rw [settle_lane]
        unfold Dev.afterKat
        rw [hres, katPassed_expected, if_pos rfl, if_neg, hends]
        · rfl
        · rw [hends]
          show ¬ (((s.dev.lane l).st == .quarantined) = true)
          rw [hst]
          exact nofun
      · refine completes_of (katSetDone_next hmay) ?_
        rw [settle_lane]
        unfold Dev.afterKat
        rw [katPassed_other hres, if_neg Bool.false_ne_true]
        have hl := hends false
        have hm := Dev.endsKat_mgt s.start l false
        have hr := Dev.endsKat_rising (d := s.start) hcan.lanes l false
        generalize s.start.endsKat l false = d at hl hm hr
        have hset : (d.updLane l fun l => { l with katFails := satAdd 255 l.katFails 1 }).lane l =
          { (s.dev.lane l).endedKat s.dev.mgt.tref with katFails := satAdd 255 (s.dev.lane l).katFails 1 } := by
          rw [Dev.lane_updLane hr, hl]
          rfl
        have hrise : Tab.rising (d.updLane l fun l => { l with katFails := satAdd 255 l.katFails 1 }).lan.lanes :=
            Dev.lanes_updated hr rfl
        have hact : ((s.dev.lane l).endedKat s.dev.mgt.tref).st = .active := hst
        have hmgt : (d.updLane l fun l => { l with katFails := satAdd 255 l.katFails 1 }).mgt = s.dev.mgt := hm
        unfold Dev.katFailed
        dsimp only
        generalize (d.updLane l fun l => { l with katFails := satAdd 255 l.katFails 1 }) = e at hset hrise hmgt ⊢
        obtain ⟨p, hp⟩ := Dev.lane_laneFailed (d := if e.mgt.phase == .done then e.raise bLan (36 + l) else e) (i := l)
          (by split <;> exact hrise) (by rw [Dev.lane_congr (by split <;> rfl : _ = e.lan), hset]; exact hact) s.safe.active
        rw [hp, Dev.lane_congr (by split <;> rfl : _ = e.lan), hset, show (if e.mgt.phase == .done then e.raise bLan (36 + l)
          else e).mgt =
          s.dev.mgt from Eq.trans (by split <;> rfl) hmgt]
        exact ⟨rfl, rfl, rfl, rfl, rfl, rfl⟩
    · have hmay : s.dev.katMayEnd l s.safe.active = true := by
        unfold Dev.katMayEnd
        rw [hst, hup, hs.1, hs.2]
        rfl
      refine completes_of (katSetDone_next hmay) ?_
      rw [settle_lane]
      unfold Dev.afterKat
      rw [hres, katPassed_expected, if_pos rfl, if_pos]
      · obtain ⟨h1, h2⟩ := Dev.lane_quarantinePassed (Dev.endsKat_rising (d := s.start) hcan.lanes l true) (i := l)
          (by rw [hends]; exact hw)
        rw [h2, hends]
        exact ⟨h1, rfl⟩
      · rw [hends]
        show ((s.dev.lane l).st == .quarantined) = true
        rw [hst]
        rfl
  · intro l s hcan hsq hup hst hrun
    have hends := Dev.lane_endsKat (d := s.start) hcan.lanes l true
    have hmay : s.dev.katMayEnd l s.safe.active = true := by
      unfold Dev.katMayEnd
      rw [hst, hup, hrun]
      simp [LaneSt.tested]
    have hpass := katPassed_expected
    generalize katExpected katVec = results at hpass ⊢
    have hnext := katSetDone_next (results := results) hmay
    unfold Dev.afterKat at hnext
    rw [hpass, if_pos rfl, if_neg] at hnext
    · refine completes_of hnext ?_
      rw [settle_lane, settle_tap]
      refine ⟨hends, fun hb hk => ?_⟩
      exact congrArg Dev.tap (if_pos (Bool.and_eq_true_iff.mpr ⟨hb, decide_eq_true hk⟩))
    · rw [hends]
      show ¬ (((s.dev.lane l).st == .quarantined) = true)
      rw [hst]
      exact nofun
  · intro l s hcan hs
    refine ⟨fun hst hr => ?_, fun hst hr hp => ?_⟩
    · refine completes_of (probationEnd_next hs hst hr) ?_
      have hl := Dev.lane_activate (d := s.start) hcan.lanes l
      rw [← Dev.lane_lanesChange s.start (fun d => d.activate l) l] at hl
      rw [settle_lane]
      exact hl
    · refine completes_of (standbyKatRepeat_next hs hst hr hp) ?_
      rw [settle_lane]
      exact Dev.lane_startsKat (d := s.start) hcan.lanes l
  · intro k s hcan hg hup hh hl
    refine completes_of (clusterIdleGate_next hg hup hh hl) ?_
    rw [settle_mgt]
    show (s.dev.mgt.clusterIdle ||| BitVec.ofNat 9 (2 ^ k.val)).getLsbD k = true
    rw [BitVec.getLsbD_or, clusterBit_self, Bool.or_true]

end

namespace Sys2Proof
namespace Machine

open Laws

-- each proof is small and there are many: elaborated one after the other they need one thread
set_option Elab.async false

/-! O52. POOL_JOIN, POOL_LEAVE and POOL_RECONCILE. -/

/-! ### An entry in hand stays in hand while other commands end -/

/-- The entry at a position is in execution, and its completion has not been discarded. -/
def Queue.inHand (x : Queue) (pos : QPos) : Prop := ∃ y, x.find pos = some y ∧ y.discard = false

def Dev.inHand (d : Dev) (q : Nat) (pos : QPos) : Prop := (d.queue q).inHand pos

theorem Dev.queue_setQueue {d : Dev} (h : Tab.rising d.qmg.queues) (q : Nat) (x : Queue) : (d.setQueue q x).queue q = x :=
  get_put_self_rising q x h

theorem Dev.queue_setQueue_other {d : Dev} {q k : Nat} (x : Queue) (h : k ≠ q) : (d.setQueue q x).queue k = d.queue k :=
  Tab.get_put_other x h

theorem Dev.inHand_updQueue {d : Dev} (hr : Tab.rising d.qmg.queues) {q k : Nat} {pos : QPos} {f : Queue → Queue}
    (hf : q = k → (f (d.queue k)).inHand pos) (h : d.inHand q pos) : (d.updQueue k f).inHand q pos := by
  unfold Dev.inHand Dev.updQueue
  by_cases hq : q = k
  · subst hq
    rw [Dev.queue_setQueue hr]
    exact hf rfl
  · rw [Dev.queue_setQueue_other _ hq]
    exact h

theorem Dev.updQueue_rising {d : Dev} (hr : Tab.rising d.qmg.queues) (k : Nat) (f : Queue → Queue) :
    Tab.rising (d.updQueue k f).qmg.queues := put_rising _ _ hr

/-- A change of entries that keeps their positions and what is discarded of them. -/
theorem Queue.inHand_map {x : Queue} {pos : QPos} (h : x.inHand pos) {f : Exec → Exec} (hp : ∀ y, (f y).pos = y.pos)
    (hd : ∀ y, (f y).discard = y.discard) : ({ x with exec := x.exec.map f } : Queue).inHand pos := by
  obtain ⟨y, hy, hyd⟩ := h
  refine ⟨f y, ?_, (hd y).trans hyd⟩
  have hc : ((fun z : Exec => z.pos == pos) ∘ f) = fun z => z.pos == pos := funext fun z => by simp [hp]
  show (x.exec.map f).find? _ = _
  rw [List.find?_map, hc]
  exact congrArg (Option.map f) hy

theorem Dev.inHand_updExec {d : Dev} (hr : Tab.rising d.qmg.queues) {q k : Nat} {pos p : QPos} {f : Exec → Exec}
    (hp : ∀ y, (f y).pos = y.pos) (hd : ∀ y, (f y).discard = y.discard) (h : d.inHand q pos) : (d.updExec k p f).inHand q
      pos := by
  refine Dev.inHand_updQueue hr (fun hq => ?_) h
  subst hq
  exact Queue.inHand_map (f := fun y => if y.pos = p then f y else y) h (fun y => by split <;> simp [hp])
    fun y => by split <;> simp [hd]

theorem Dev.inHand_congr {d e : Dev} {q : Nat} {pos : QPos} (he : e.qmg.queues = d.qmg.queues) (h : d.inHand q pos) : e.inHand q
    pos := by
  unfold Dev.inHand Dev.queue
  rw [he]
  exact h

theorem Dev.inHand_hostWrite {d : Dev} (hr : Tab.rising d.qmg.queues) (a : Nat) (b : Bytes) (k : Nat) (w : WrWhy) {q : Nat}
    {pos : QPos}
    (h : d.inHand q pos) : (d.hostWrite a b k w).inHand q pos := by
  obtain ⟨y, hy, hd⟩ := h
  exact ⟨y, (hostWrite_exec1 a b k w q pos hr).trans hy, hd⟩

theorem Dev.inHand_issueCpl {d : Dev} (hr : Tab.rising d.qmg.queues) (k : Nat) (p : QPos) {q : Nat} {pos : QPos}
    (h : d.inHand q pos) : (d.issueCpl k p).inHand q pos := by
  unfold Dev.issueCpl
  split
  · exact h
  · exact Dev.inHand_hostWrite (Dev.updQueue_rising hr _ _) _ _ _ _ (Dev.inHand_updExec hr (by intro; rfl) (by intro; rfl) h)

/-- An entry whose completion is discarded leaves; one in hand is another. -/
theorem Dev.inHand_dropExec {d : Dev} (hr : Tab.rising d.qmg.queues) {k : Nat} {p : QPos} {y : Exec} (hy : d.exec1 k p = some y)
    (hd : y.discard = true) {q : Nat} {pos : QPos} (h : d.inHand q pos) : (d.dropExec k p).inHand q pos := by
  refine Dev.inHand_updQueue hr (fun hq => ?_) h
  subst hq
  obtain ⟨z, hz, hzd⟩ := h
  have hne : pos ≠ p := by
    rintro rfl
    have : z = y := Option.some_inj.mp (hz.symm.trans hy)
    rw [this, hd] at hzd
    exact Bool.noConfusion hzd
  refine ⟨z, ?_, hzd⟩
  show ((d.queue q).exec.filter fun e => e.pos ≠ p).find? (fun e => e.pos == pos) = some z
  rw [List.find?_filter]
  refine Eq.trans (congrArg (fun g => List.find? g (d.queue q).exec) (funext fun e => ?_)) hz
  by_cases he : e.pos = pos
  · simp [he, hne]
  · simp [he]

/-- A queue without entries has none in hand. -/
theorem Queue.inHand_exec {x : Queue} {pos : QPos} (h : x.inHand pos) : x.exec.isEmpty = false := by
  obtain ⟨y, hy, -⟩ := h
  unfold Queue.find at hy
  cases hx : x.exec with
  | nil => rw [hx] at hy; cases hy
  | cons _ _ => rfl

theorem Dev.inHand_leaveRing {d : Dev} (hr : Tab.rising d.qmg.queues) (k : Nat) {q : Nat} {pos : QPos} (h : d.inHand q pos) :
    (d.leaveRing k).inHand q pos := by
  have hreads : (d.dropReads k).inHand q pos := Dev.inHand_congr (d := d) rfl h
  have hwrites := Dev.inHand_updQueue (d := d.dropReads k) hr (k := k)
    (f := fun x =>
      { x with recWr := x.recWr - ((d.dropReads k).qmg.wrWait.filter fun w => w.why.recordOf.any fun r => r.1 == k && (none : Option QPos).all fun p => r.2 == p).length })
    (fun hq => hq ▸ hreads) hreads
  exact Dev.inHand_congr rfl hwrites

theorem Dev.leaveRing_rising {d : Dev} (hr : Tab.rising d.qmg.queues) (k : Nat) : Tab.rising (d.leaveRing k).qmg.queues :=
  put_rising _ _ hr

/-- A queue that turns NONE has no entry in hand. -/
theorem Dev.inHand_removeQueue {d : Dev} (hr : Tab.rising d.qmg.queues) {k : Nat} (he : (d.queue k).exec.isEmpty = true)
    {q : Nat}
    {pos : QPos} (h : d.inHand q pos) : (d.removeQueue k).inHand q pos := by
  have hne : q ≠ k := fun hq => by
    have hx := Queue.inHand_exec h
    rw [hq, he] at hx
    exact Bool.noConfusion hx
  show ((((d.leaveRing k).detach k).setQueue k default).queue q).inHand pos
  rw [Dev.queue_setQueue_other _ hne]
  exact Dev.inHand_leaveRing hr k h

theorem Dev.inHand_adminCheck {d : Dev} (hr : Tab.rising d.qmg.queues) {q : Nat} {pos : QPos} (h : d.inHand q pos) :
    d.adminCheck.inHand q pos := by
  unfold Dev.adminCheck
  dsimp only
  split
  · rename_i hc
    exact Dev.inHand_removeQueue hr (Bool.and_eq_true_iff.mp hc).2 h
  · exact h

theorem Dev.inHand_resetDone {d : Dev} (hr : Tab.rising d.qmg.queues) (c : Nat × QPos) {q : Nat} {pos : QPos} (h : d.inHand q
    pos) :
    (Dev.resetDone c d).inHand q pos := by
  have hupd : (d.updExec c.1 c.2 fun y => { y with cpl := some (Cpl.ok 0), st := .writing }).inHand q pos :=
    Dev.inHand_updExec hr (by intro; rfl) (by intro; rfl) h
  have hrise : Tab.rising (d.updExec c.1 c.2 fun y => { y with cpl := some (Cpl.ok 0), st := .writing }).qmg.queues :=
      updExec_rising _ _ _ hr
  unfold Dev.resetDone
  dsimp only
  generalize (d.updExec c.1 c.2 fun y => { y with cpl := some (Cpl.ok 0), st := .writing }) = e at hupd hrise
  split
  · exact hupd
  · rename_i y hy
    split
    · rename_i hd
      exact Dev.inHand_adminCheck (Dev.updQueue_rising hrise _ _) (Dev.inHand_dropExec hrise hy hd hupd)
    · exact Dev.inHand_issueCpl hrise _ _ hupd

theorem Dev.inHand_endReset {d : Dev} (hc : Canonical d) (k : Nat) {q : Nat} {pos : QPos} (h : d.inHand q pos) :
    (d.endReset k).inHand q pos := by
  unfold Dev.endReset
  dsimp only
  split
  · exact h
  · rename_i hn
    have hempty : (d.queue k).exec.isEmpty = true := by
      cases he : (d.queue k).exec.isEmpty
      · exact absurd (by simp [he]) hn
      · rfl
    split
    · exact Dev.inHand_removeQueue hc.queues hempty h
    · have hclear : (((d.leaveRing k).updQueue k Queue.cleared)).inHand q pos := by
        refine Dev.inHand_updQueue (Dev.leaveRing_rising hc.queues k) (fun hq => ?_) (Dev.inHand_leaveRing hc.queues k h)
        have hx := Queue.inHand_exec h
        rw [hq, hempty] at hx
        exact Bool.noConfusion hx
      have hcan : Canonical ((d.leaveRing k).updQueue k Queue.cleared) :=
        (Dev.updQueue_touches ..).tables ((Dev.leaveRing_touches ..).tables hc)
      exact (forAll_holds (P := fun e => Canonical e ∧ e.inHand q pos)
        (fun c _ e he => ⟨(Dev.resetDone_touches c e).tables he.1, Dev.inHand_resetDone he.1.queues c he.2⟩) ⟨hcan, hclear⟩).2

/-- The end of a command leaves an entry in hand in hand. -/
theorem Dev.inHand_finishWith {d : Dev} (hc : Canonical d) (k : Nat) (p : QPos) (c : Cpl) (ws : List (Nat × Bytes)) {q : Nat}
    {pos : QPos}
    (h : d.inHand q pos) : (d.finishWith k p c ws).inHand q pos := by
  have hnote : (d.noteBulk k p).inHand q pos := Dev.inHand_congr (by rw [noteBulk_qmg]) h
  have hcan : Canonical (d.noteBulk k p) := (Dev.noteBulk_touches ..).tables hc
  unfold Dev.finishWith
  extract_lets pieces e
  have hupd : e.inHand q pos := Dev.inHand_updExec hcan.queues (by intro; rfl) (by intro; rfl) hnote
  have hecan : Canonical e := (Dev.updExec_touches ..).tables hcan
  clear_value e
  split
  · unfold Dev.writeCpl
    split
    · exact hupd
    · rename_i y hy
      split
      · rename_i hd
        exact Dev.inHand_endReset ((Dev.dropExec_touches ..).tables hecan) k (Dev.inHand_dropExec hecan.queues hy hd hupd)
      · exact Dev.inHand_issueCpl hecan.queues _ _ hupd
  · exact (forAll_holds (P := fun e => Canonical e ∧ e.inHand q pos)
      (fun w _ e he => ⟨(Dev.hostWrite_touches ..).tables he.1, Dev.inHand_hostWrite he.1.queues _ _ _ _ he.2⟩) ⟨hecan, hupd⟩).2

/-- An adoption that goes on or ends leaves an entry in hand in hand. -/
theorem Dev.inHand_adoptEnds {d : Dev} (hc : Canonical d) (ok : Bool) {q : Nat} {pos : QPos} (h : d.inHand q pos) :
    (d.adoptEnds ok).inHand q pos := by
  unfold Dev.adoptEnds
  split
  · exact h
  · rename_i a _
    split
    · exact Dev.inHand_congr (d := d) rfl h
    · have hz := Dev.zoneTo_touches { d with per.adopt := none } a.zone .online cAdoptZone
      have hz1 : (Dev.zoneTo { d with per.adopt := none } a.zone .online cAdoptZone).inHand q pos :=
        Dev.inHand_congr (hz.keeps .queues) (Dev.inHand_congr (d := d) rfl h)
      have hz2 : Canonical (Dev.zoneTo { d with per.adopt := none } a.zone .online cAdoptZone) := hz.tables { hc with }
      split
      · exact Dev.inHand_finishWith hz2 _ _ _ _ hz1
      · exact Dev.inHand_finishWith hz2 _ _ _ _ hz1

/-- An adoption goes on to its closing checkpoint once its walk has ended. -/
def Dev.adoptGoesOn (d : Dev) : Dev :=
  match d.per.adopt with
  | some a => if a.closing && d.per.ckpt.isNone && !d.mgt.pfWarn && d.mgt.pfw == .none then d.adoptCloses a else d
  | none => d

theorem Dev.pumpAdopt_eq (d : Dev) : d.pumpAdopt = match d.per.adopt with
    | none => d
    | some a =>
      if a.outcome.isSome then d.adoptEnds (a.outcome == some true)
      else if d.ckptHold then d
      else (Dev.walkOn 200 (if !a.started then d.adoptFlush a else d)).adoptGoesOn := rfl

theorem Dev.adoptGoesOn_touches (d : Dev) : Touches [.per, .adopt, .key, .frs] d d.adoptGoesOn := by
  unfold Dev.adoptGoesOn
  split
  · exact .ite (.mono (Dev.adoptCloses_touches ..)) (.refl _)
  · exact .refl _

/-- What a walk of an adoption touches. -/
theorem Dev.adoptWalk_touches (d : Dev) (a : Adopt) :
    Touches [.can, .med, .per, .adopt, .frs, .accs, .key] d (Dev.walkOn 200 (if !a.started then d.adoptFlush a else
      d)).adoptGoesOn :=
  .after (Dev.adoptGoesOn_touches ..) (.after (Dev.walkOn_touches ..) (.mono (.ite (Dev.adoptFlush_touches ..) (.refl _))))

theorem Dev.inHand_pumpAdopt {d : Dev} (hc : Canonical d) {q : Nat} {pos : QPos} (h : d.inHand q pos) : d.pumpAdopt.inHand q
    pos := by
  rw [Dev.pumpAdopt_eq]
  split
  · exact h
  · split
    · exact Dev.inHand_adoptEnds hc _ h
    · split
      · exact h
      · exact Dev.inHand_congr ((Dev.adoptWalk_touches ..).keeps .queues) h

theorem Kept.retire {d e : Dev} (h : Kept d e .svc) : e.svc.retire = d.svc.retire :=
  (congrArg Svc.retire h : ({ e.svc with evtLost := false } : Svc).retire = _)

theorem Dev.zoneTo_retire (d : Dev) (z : Nat) (st : ZoneSt) (c : Nat) : (d.zoneTo z st c).svc.retire = d.svc.retire := by
  unfold Dev.zoneTo
  dsimp only
  split
  · rfl
  · have ht (e : Dev) (fs : List (Nat × Nat × Nat)) (u : Zone → Zone) : Touches [.frs] e (((e.updZone z u).event .frs 0x0012
      bFrs (.zone z) fs).raise bFrs 5) :=
      .after (Dev.raise_touches ..) (.after (Dev.event_touches ..) (.mono (Dev.updZone_touches ..)))
    have hk (e : Dev) (fs : List (Nat × Nat × Nat)) (u : Zone → Zone) : Kept e (((e.updZone z u).event .frs 0x0012 bFrs (.zone
        z) fs).raise bFrs 5) .svc :=
      (ht e fs u).keeps .svc
    exact (hk _ _ _).retire.trans rfl

/-- The retirement list does not change while an adoption goes on or ends. -/
theorem Dev.pumpAdopt_retire (d : Dev) : d.pumpAdopt.svc.retire = d.svc.retire := by
  have hfinish (e : Dev) (k : Nat) (p : QPos) (c : Cpl) (ws : List (Nat × Bytes)) : (e.finishWith k p c ws).svc.retire =
      e.svc.retire :=
    Kept.retire ((Dev.finishWith_touches e k p c ws).keeps .svc)
  have hends (ok : Bool) : (d.adoptEnds ok).svc.retire = d.svc.retire := by
    unfold Dev.adoptEnds
    split
    · rfl
    · split
      · rfl
      · dsimp only
        split
        · exact (hfinish ..).trans (Dev.zoneTo_retire ..)
        · exact (hfinish ..).trans (Dev.zoneTo_retire ..)
  rw [Dev.pumpAdopt_eq]
  split
  · rfl
  · split
    · exact hends _
    · split
      · rfl
      · exact Kept.retire ((Dev.adoptWalk_touches d _).keeps .svc)

/-- The start that is next when no PREPARE waits. -/
def Dev.ckptBegins (d : Dev) : Dev :=
  if d.del.reconReq && d.per.armed && d.isCoord && d.poolAdmits && d.del.txn.isNone then d.startPool 4 true
  else if d.poolWhole then
    if d.isCoord && d.del.txn.isNone && (d.del.ckreq || !d.per.waiting.isEmpty) then d.startPool 4 false else d
  else if d.per.waiting.isEmpty then d
  else { d with per.waiting := [] }.startCkpt 0 d.per.waiting none

/-- The start that follows the end of a checkpoint. -/
def Dev.ckptStarts (d : Dev) : Dev :=
  if !d.ckptFree then d else
    match d.del.prepared.filter fun _ => d.poolAdmits with
    | some q => d.joinPool 4 q
    | none => { d with del.prepared := none }.ckptBegins

/-- With no PREPARE that waits. -/
theorem Dev.ckptStarts_unprepared {d : Dev} (h : d.del.prepared = none) : d.ckptStarts = if d.ckptFree then d.ckptBegins else
    d := by
  have hset : ({ d with del.prepared := none } : Dev) = d := by
    rw [← h]
  unfold Dev.ckptStarts
  rw [show d.del.prepared.filter (fun _ => d.poolAdmits) = none by rw [h]; rfl]
  cases d.ckptFree
  · rfl
  · exact congrArg Dev.ckptBegins hset

theorem Dev.ckptNext_eq (d : Dev) : d.ckptNext = d.pumpAdopt.ckptStarts := by
  unfold Dev.ckptNext Dev.ckptStarts Dev.ckptBegins
  rfl

theorem Dev.ckptBegins_touches (d : Dev) : Touches [.per, .del, .parted] d d.ckptBegins :=
  .ite (.mono (Dev.startPool_touches ..)) (.ite (.ite (.mono (Dev.startPool_touches ..)) (.refl _))
    (.ite (.refl _) (.after (Dev.startCkpt_touches ..) (.mono Touches.setPer))))

theorem Dev.ckptStarts_touches (d : Dev) : Touches [.per, .del, .parted] d d.ckptStarts := by
  unfold Dev.ckptStarts
  refine .ite (.refl _) ?_
  split
  · exact .mono (Dev.joinPool_touches ..)
  · exact .after (Dev.ckptBegins_touches _) (.mono Touches.setDel)

theorem Dev.inHand_ckptNext {d : Dev} (hc : Canonical d) {q : Nat} {pos : QPos} (h : d.inHand q pos) : d.ckptNext.inHand q
    pos := by
  rw [Dev.ckptNext_eq]
  exact Dev.inHand_congr ((Dev.ckptStarts_touches _).keeps .queues) (Dev.inHand_pumpAdopt hc h)

/-! ### What the frames of a pool leave of DEL -/

/-- DEL but for the links, the number of the next frame and EVT_LOST. -/
def Del.apart (x : Del) : Del := { x with links := [], oseq := 0, evtLost := false }

theorem Dev.transmit_apart (d : Dev) (n typ : Nat) (f : Frame) : (d.transmit n typ f).del.apart = d.del.apart := by
  unfold Dev.transmit
  dsimp only
  split
  · rfl
  · split <;> rfl

theorem Dev.flood_apart (d : Dev) (but : Option Nat) (typ : Nat) (f : Frame) : (d.flood but typ f).del.apart = d.del.apart := by
  refine forAll_holds (P := fun e : Dev => e.del.apart = d.del.apart) (fun n _ e he => ?_) rfl
  split
  · exact (Dev.transmit_apart ..).trans he
  · exact he

theorem Dev.broadcast_apart (d : Dev) (typ : Nat) (pl : List Word32) : (d.broadcast typ pl).del.apart = d.del.apart := by
  unfold Dev.broadcast
  split
  · rfl
  · have hd : ∀ e : Dev, e.nextOseq.del.apart = e.del.apart := fun _ => rfl
    rw [hd]
    exact d.flood_apart none typ _

theorem Dev.sendTo_apart (d : Dev) (dest : BitVec 6) (typ : Nat) (pl : List Word32) : (d.sendTo dest typ pl).del.apart =
    d.del.apart := by
  unfold Dev.sendTo
  split
  · rfl
  · have hd : ∀ e : Dev, e.nextOseq.del.apart = e.del.apart := fun _ => rfl
    rw [hd]
    exact d.flood_apart none typ _

/-- What keeps DEL keeps it apart from links and EVT_LOST. -/
theorem Kept.apart {d e : Dev} (h : Kept d e .del) : e.del.apart = d.del.apart :=
  (congrArg Del.apart h : ({ e.del with evtLost := false, oseq := 0 } : Del).apart = _)

theorem settle_apart (s : State) : (settle s).dev.del.apart = s.dev.del.apart :=
  Kept.apart ((settle_touches s).keeps .del)

/-- A POOL_RECONCILE that waits goes on waiting while checkpoints start. -/
theorem Dev.ckptNext_recon (d : Dev) : d.ckptNext.del.recon = d.del.recon := by
  have hp : d.pumpAdopt.del.recon = d.del.recon :=
    (congrArg Del.recon (Kept.apart ((Dev.pumpAdopt_touches d).keeps .del)) : d.pumpAdopt.del.apart.recon = _)
  have hpool (e : Dev) (r : Bool) : (e.startPool 4 r).del.recon = e.del.recon := by
    unfold Dev.startPool
    exact (congrArg Del.recon (Dev.broadcast_apart _ tPrepare _) : (Dev.broadcast _ tPrepare _).del.apart.recon = _)
  rw [Dev.ckptNext_eq, ← hp]
  generalize d.pumpAdopt = e
  unfold Dev.ckptStarts
  split
  · rfl
  · split
    · rfl
    · unfold Dev.ckptBegins
      split
      · exact hpool _ _
      · split
        · split
          · exact hpool _ _
          · rfl
        · split <;> rfl

/-! ### POOL_JOIN -/

/-- The engine takes its identity. -/
def Dev.joins (d : Dev) (e : Line) : Dev :=
  let g : Option (BitVec 4) := if num e 9 1 = 0xFF then none else some (BitVec.ofNat 4 (num e 9 1))
  { d with del.inPool := true, del.poolId := BitVec.ofNat 6 (num e 8 1), del.group := g, del.linksUse := BitVec.ofNat 4 (num e 10 1), del.ident := BitVec.ofNat 64 (num e 16 8), del.gstate := if g.isSome then .whole else .none, del.hbAt := d.mgt.tref }

/-- Every link starts from HELLO or DOWN, but one without a common version. -/
def Dev.linksFall (d : Dev) (ns : List Nat) : Dev := forAll ns (fun n e => if (e.link n).st == .noVersion then e else e.linkDown
    n) d

/-- POOL_JOIN with its identity free. -/
def Dev.joined (d : Dev) (e : Line) : Dev := ((d.joins e).linksFall (List.range 4)).poolState 1

theorem Dev.linksFall_keeps (d : Dev) (ns : List Nat) : (d.linksFall ns).del.apart = d.del.apart ∧ (d.linksFall ns).qmg =
    d.qmg := by
  refine forAll_holds (P := fun e : Dev => e.del.apart = d.del.apart ∧ e.qmg = d.qmg) (fun n _ e he => ?_) ⟨rfl, rfl⟩
  split
  · exact he
  · exact he

theorem Dev.linksFall_down {d : Dev} (h : Tab.rising d.del.links) (ns : List Nat) {k : Nat} (hk : k ∈ ns ∨ (d.link k).st ≠ .up)
    :
    ((d.linksFall ns).link k).st ≠ .up := by
  induction ns generalizing d with
  | nil => exact hk.resolve_left nofun
  | cons n r ih =>
    have hround : Tab.rising (if (d.link n).st == .noVersion then d else d.linkDown n).del.links ∧
        (k = n ∨ (d.link k).st ≠ .up → ((if (d.link n).st == .noVersion then d else d.linkDown n).link k).st ≠ .up) := by
      split
      · rename_i hst
        refine ⟨h, fun hc => hc.elim (fun hkn => ?_) id⟩
        rw [hkn, eq_of_beq hst]
        exact nofun
      · refine ⟨put_rising _ _ h, fun hc => ?_⟩
        by_cases hkn : k = n
        · rw [hkn, Dev.link_linkDown h]
          dsimp only
          split <;> exact nofun
        · rw [show (d.linkDown n).link k = d.link k from Tab.get_put_other _ hkn]
          exact hc.resolve_left hkn
    refine ih hround.1 ?_
    rcases hk with hk | hk
    · rcases List.mem_cons.mp hk with hkn | hkr
      · exact .inr (hround.2 (.inl hkn))
      · exact .inl hkr
    · exact .inr (hround.2 (.inr hk))

theorem Dev.linksUp_none {d : Dev} (h : ∀ n, n < 4 → (d.link n).st ≠ .up) : d.linksUp = 0 := by
  have h0 := h 0 (by decide)
  have h1 := h 1 (by decide)
  have h2 := h 2 (by decide)
  have h3 := h 3 (by decide)
  simp [Dev.linksUp, List.range_succ, h0, h1, h2, h3]

theorem poolJoin_next {q : BitVec 14} {pos : BitVec 16} {s : State} {x : Exec} (h : Runs q pos cPoolJoin noRules x s)
    (hf : (s.dev.mgt.fuse.getD 8 0).getLsbD 3 = true) (hin : s.dev.del.inPool = false) : exec (.poolJoin q pos) s =
      .next (settle
        { s with dev := (s.start.joined x.entry).finish q.toNat pos (Cpl.ok (BitVec.ofNat 32 (s.start.joined x.entry).linksUp)) }) := by
  refine (exec_poolJoin q pos s).trans ((serve_command h).trans (congrArg (fun d : Dev => Host.Outcome.next (settle
    { s with dev := d })) ?_))
  refine (if_neg
    (by rw [show (({ s.dev with drive := [] } : Dev).mgt.fuse.getD 8 0).getLsbD 3 = true from hf]; exact nofun)).trans ?_
  exact if_neg (by rw [show ({ s.dev with drive := [] } : Dev).del.inPool = false from hin]; exact nofun)

theorem poolJoin_again {q : BitVec 14} {pos : BitVec 16} {s : State} {x : Exec} (h : Runs q pos cPoolJoin noRules x s)
    (hf : (s.dev.mgt.fuse.getD 8 0).getLsbD 3 = true) (hin : s.dev.del.inPool = true) : exec (.poolJoin q pos) s =
      .next (settle { s with dev := s.start.finish q.toNat pos .exists }) := by
  refine (exec_poolJoin q pos s).trans ((serve_command h).trans (congrArg (fun d : Dev => Host.Outcome.next (settle
    { s with dev := d })) ?_))
  refine (if_neg
    (by rw [show (({ s.dev with drive := [] } : Dev).mgt.fuse.getD 8 0).getLsbD 3 = true from hf]; exact nofun)).trans ?_
  exact if_pos hin

/-! ### POOL_LEAVE -/

/-- Every member is absent. -/
def Dev.membersLeave (d : Dev) : Dev := forAll (Tab.which d.del.members fun m => m.st != .absent) (fun p e => e.memberTo p
    .absent) d

/-- Pool, links and what was under way are forgotten. -/
def Dev.poolForgets (d : Dev) : Dev :=
  let links := d.del.links.mapAll fun _ (l : Link) =>
    { l with st := if l.st == .noVersion then .noVersion else .down, version := 0, heard := false, silent := false, unacked := [] }
  { d with del.links := links, svc.retire := [], del.members := [], del.reports := [], del.txn := none, del.prepared := none, del.ckreq := false, del.reconReq := false }.poolState 4

def Dev.poolIsLeft (d : Dev) : Dev :=
  { d with del.inPool := false, del.poolId := 0, del.group := none, del.linksUse := 0, del.ident := 0, del.gstate := .none }

/-- POOL_LEAVE of a member that may leave, before its answer. -/
def Dev.left (d : Dev) : Dev := ((((d.sendMember true).membersLeave.poolForgets.poolIsLeft).reconEnds .split).ckptNext)

theorem poolLeave_next {q : BitVec 14} {pos : BitVec 16} {s : State} {x : Exec} (h : Runs q pos cPoolLeave noRules x s)
    (hin : s.dev.del.inPool = true) (hck : s.dev.poolCkpt = false) (hst : s.dev.stripedRekey = false) : exec (.poolLeave q pos)
      s =
      .next (settle { s with dev := s.start.left.finish q.toNat pos (Cpl.ok 0) }) := by
  refine (exec_poolLeave q pos s).trans ((serve_command h).trans (congrArg (fun d : Dev => Host.Outcome.next (settle
    { s with dev := d })) ?_))
  refine (if_neg (by rw [show ({ s.dev with drive := [] } : Dev).del.inPool = true from hin]; exact nofun)).trans ?_
  refine (if_neg ?_).trans rfl
  rw [show ({ s.dev with drive := [] } : Dev).poolCkpt = false from hck, show ({ s.dev with drive := [] } : Dev).stripedRekey =
    false from hst]
  exact nofun

theorem poolLeave_outside {q : BitVec 14} {pos : BitVec 16} {s : State} {x : Exec} (h : Runs q pos cPoolLeave noRules x s)
    (hin : s.dev.del.inPool = false) : exec (.poolLeave q pos) s = .next (settle
      { s with dev := s.start.finish q.toNat pos .notFound }) := by
  refine (exec_poolLeave q pos s).trans ((serve_command h).trans (congrArg (fun d : Dev => Host.Outcome.next (settle
    { s with dev := d })) ?_))
  exact if_pos (by rw [show ({ s.dev with drive := [] } : Dev).del.inPool = false from hin]; rfl)

theorem Dev.membersLeave_touches (d : Dev) : Touches [.del, .peers] d d.membersLeave :=
  .forAllAfter (fun _ _ => Dev.memberTo_touches ..) (.refl _)

/-- What a pool that has been left leaves of the block. -/
theorem Dev.poolLeft_keeps {d : Dev} (hc : Canonical d) : Canonical d.poolForgets.poolIsLeft ∧
    d.poolForgets.poolIsLeft.qmg.queues = d.qmg.queues ∧ d.poolForgets.poolIsLeft.svc.retire = [] ∧
    d.poolForgets.poolIsLeft.del.recon = d.del.recon ∧ d.poolForgets.poolIsLeft.del.inPool = false ∧
    d.poolForgets.poolIsLeft.del.group = none ∧ d.poolForgets.poolIsLeft.del.members = [] ∧
    d.poolForgets.poolIsLeft.del.gstate = .none ∧ d.poolForgets.poolIsLeft.del.prepared = none ∧
    d.poolForgets.poolIsLeft.del.reconReq = false := by
  let e : Dev :=
    { d with del.links := d.del.links.mapAll fun _ (l : Link) => { l with st := if l.st == .noVersion then .noVersion else .down, version := 0, heard := false, silent := false, unacked := [] }, svc.retire := [], del.members := [], del.reports := [], del.txn := none, del.prepared := none, del.ckreq := false, del.reconReq := false }
  have hec : Canonical e := { hc with links := (map_rising _ hc.links).filter _, members := .nil }
  have ht : Touches [] e d.poolForgets := Dev.poolState_touches e 4
  have hsvc : Kept e d.poolForgets .svc := ht.keeps .svc
  have hdel := Kept.apart (ht.keeps .del)
  exact ⟨{ ht.tables hec with }, ht.keeps .queues,
    (congrArg Svc.retire hsvc : ({ d.poolForgets.svc with evtLost := false } : Svc).retire = _),
    (congrArg Del.recon hdel : d.poolForgets.del.apart.recon = _), rfl, rfl,
    (congrArg Del.members hdel : d.poolForgets.del.apart.members = _), rfl,
    (congrArg Del.prepared hdel : d.poolForgets.del.apart.prepared = _),
    (congrArg Del.reconReq hdel : d.poolForgets.del.apart.reconReq = _)⟩

/-- Outside a pool no checkpoint of one starts. -/
theorem Dev.ckptNext_outside {d : Dev} (hin : d.del.inPool = false) (hp : d.del.prepared = none) (hr : d.del.reconReq = false) :
    d.ckptNext.svc.retire = d.svc.retire ∧ d.ckptNext.del.apart = d.del.apart := by
  have hpump : d.pumpAdopt.del.apart = d.del.apart := Kept.apart ((Dev.pumpAdopt_touches d).keeps .del)
  have hin' : d.pumpAdopt.del.inPool = false := (congrArg Del.inPool hpump : d.pumpAdopt.del.apart.inPool = _).trans hin
  have hp' : d.pumpAdopt.del.prepared = none := (congrArg Del.prepared hpump : d.pumpAdopt.del.apart.prepared = _).trans hp
  have hr' : d.pumpAdopt.del.reconReq = false := (congrArg Del.reconReq hpump : d.pumpAdopt.del.apart.reconReq = _).trans hr
  rw [Dev.ckptNext_eq, ← d.pumpAdopt_retire, ← hpump]
  generalize d.pumpAdopt = e at hin' hp' hr'
  rw [Dev.ckptStarts_unprepared hp']
  split
  · unfold Dev.ckptBegins
    rw [if_neg (by rw [hr']; exact nofun), if_neg (by simp [Dev.poolWhole, hin'])]
    split <;> exact ⟨rfl, rfl⟩
  · exact ⟨rfl, rfl⟩

/-! ### The obligation -/

theorem Dev.reconEnds_none {d : Dev} (h : d.del.recon = none) (c : Cpl) : d.reconEnds c = d := by
  unfold Dev.reconEnds
  rw [h]

theorem Dev.sendMember_recon (d : Dev) (leave : Bool) : (d.sendMember leave).del.recon = d.del.recon :=
  (congrArg Del.recon (Dev.broadcast_apart ..) : (Dev.broadcast _ _ _).del.apart.recon = _)

theorem Dev.membersLeave_recon (d : Dev) : d.membersLeave.del.recon = d.del.recon := by
  refine forAll_holds (P := fun x : Dev => x.del.recon = d.del.recon) (fun p _ x hx => ?_) rfl
  unfold Dev.memberTo
  dsimp only
  split
  · exact hx
  · have hk : Kept _ _ .del := (Dev.raise_touches (x.setMember p { x.memberOf p with st := .absent }) bDel (53 + p)).keeps .del
    exact ((congrArg Del.recon hk.apart : (Dev.raise _ bDel _).del.apart.recon = _)).trans hx

/-- What POOL_LEAVE leaves of the pool, and the entry in hand. -/
theorem Dev.left_of {d : Dev} (hc : Canonical d) (hrec : d.del.recon = none) {q : Nat} {pos : QPos} (h : d.inHand q pos) :
    Canonical d.left ∧ d.left.inHand q pos ∧ d.left.svc.retire = [] ∧ d.left.del.inPool = false ∧ d.left.del.group = none ∧
      d.left.del.members = [] ∧ d.left.del.gstate = .none := by
  have hmem : Touches [.del, .peers] d (d.sendMember true).membersLeave :=
    .after (Dev.membersLeave_touches _) (.mono (Dev.sendMember_touches d true))
  have hrec' : (d.sendMember true).membersLeave.del.recon = none :=
    (Dev.membersLeave_recon _).trans ((Dev.sendMember_recon ..).trans hrec)
  unfold Dev.left
  generalize (d.sendMember true).membersLeave = e at hmem hrec'
  obtain ⟨hcan, hqueues, hretire, hrecon, hin, hgroup, hmembers, hgstate, hprepared, hreconReq⟩ := Dev.poolLeft_keeps
    (hmem.tables hc)
  rw [Dev.reconEnds_none (hrecon.trans hrec')]
  have hq : e.poolForgets.poolIsLeft.inHand q pos := Dev.inHand_congr (hqueues.trans (hmem.keeps .queues)) h
  obtain ⟨hr, ha⟩ := Dev.ckptNext_outside hin hprepared hreconReq
  refine ⟨(Dev.ckptNext_touches _).tables hcan, Dev.inHand_ckptNext hcan hq, hr.trans hretire, ?_, ?_, ?_, ?_⟩
  · exact (congrArg Del.inPool ha : (Dev.ckptNext _).del.apart.inPool = _).trans hin
  · exact (congrArg Del.group ha : (Dev.ckptNext _).del.apart.group = _).trans hgroup
  · exact (congrArg Del.members ha : (Dev.ckptNext _).del.apart.members = _).trans hmembers
  · exact (congrArg Del.gstate ha : (Dev.ckptNext _).del.apart.gstate = _).trans hgstate

/-- What a command that ends keeps apart from the links. -/
theorem finish_apart (s : State) (d : Dev) (q : Nat) (pos : QPos) (c : Cpl) :
    (settle { s with dev := d.finish q pos c }).dev.del.apart = d.del.apart :=
  (settle_apart _).trans (Kept.apart ((Dev.finish_touches d q pos c).keeps .del))

theorem finish_retire (s : State) (d : Dev) (q : Nat) (pos : QPos) (c : Cpl) :
    (settle { s with dev := d.finish q pos c }).dev.svc.retire = d.svc.retire :=
  (Kept.retire ((settle_touches _).keeps .svc)).trans (Kept.retire ((Dev.finish_touches d q pos c).keeps .svc))

/-- What POOL_JOIN leaves of DEL. -/
theorem Dev.joined_apart (d : Dev) (e : Line) : (d.joined e).del.apart = (d.joins e).del.apart :=
  (Kept.apart ((Dev.poolState_touches _ 1).keeps .del)).trans (Dev.linksFall_keeps _ _).1

theorem Dev.joined_queues (d : Dev) (e : Line) : (d.joined e).qmg.queues = d.qmg.queues := by
  have hl : ((d.joins e).linksFall (List.range 4)).qmg = d.qmg := (Dev.linksFall_keeps (d.joins e) (List.range 4)).2
  unfold Dev.joined
  generalize (d.joins e).linksFall (List.range 4) = f at hl
  have hq : Kept f (f.poolState 1) .queues := (Dev.poolState_touches f 1).keeps .queues
  exact Eq.trans hq (congrArg Qmg.queues hl)

/-- No link is UP when the engine has just joined. -/
theorem Dev.joined_links {d : Dev} (hc : Canonical d) (e : Line) : (d.joined e).linksUp = 0 := by
  refine Dev.linksUp_none fun n hn => ?_
  have hfall : (((d.joins e).linksFall (List.range 4)).link n).st ≠ .up :=
    Dev.linksFall_down (d := d.joins e) hc.links _ (.inl (List.mem_range.mpr hn))
  have hk : Kept ((d.joins e).linksFall (List.range 4)) (d.joined e) .del := (Dev.poolState_touches _ 1).keeps .del
  have hl : (d.joined e).del.links = ((d.joins e).linksFall (List.range 4)).del.links :=
    (congrArg Del.links hk : ({ (d.joined e).del with evtLost := false, oseq := 0 } : Del).links = _)
  unfold Dev.link
  rw [hl]
  exact hfall

theorem Runs.entry {q : BitVec 14} {pos : BitVec 16} {op : Nat} {more : Dev → Exec → List (Nat × Bool)} {x : Exec} {s : State}
    (h : Runs q pos op more x s) : s.dev.exec1 q.toNat pos = some x ∧ x.discard = false := ⟨readyEntry_exec1 h.1.2.2.1,
      h.1.2.2.2⟩

/-- A command whose effects leave the queues alone answers with the completion it ends with. -/
theorem Runs.answered {q : BitVec 14} {pos : BitVec 16} {op : Nat} {more : Dev → Exec → List (Nat × Bool)} {x : Exec}
    {s : State}
    (h : Runs q pos op more x s) (hc : Canonical s.dev) {d : Dev} (hq : d.qmg.queues = s.dev.qmg.queues) (c : Cpl) :
    Answered q pos c (settle { s with dev := d.finish q.toNat pos c }) := by
  refine answered_of_finish c d ?_ h.entry.2 (hq ▸ hc.queues)
  unfold Dev.exec1 Dev.queue
  rw [hq]
  exact h.entry.1

/-- What DEL says of the pool, apart from its links. -/
theorem Del.apart_identity {x y : Del} (h : x.apart = y.apart) : x.inPool = y.inPool ∧ x.poolId = y.poolId ∧ x.linksUse =
    y.linksUse ∧
    x.ident = y.ident ∧ x.group = y.group ∧ x.gstate = y.gstate ∧ x.members = y.members ∧ x.recon = y.recon :=
  ⟨(congrArg Del.inPool h : x.apart.inPool = _), (congrArg Del.poolId h : x.apart.poolId = _),
    (congrArg Del.linksUse h : x.apart.linksUse = _), (congrArg Del.ident h : x.apart.ident = _),
    (congrArg Del.group h : x.apart.group = _), (congrArg Del.gstate h : x.apart.gstate = _),
    (congrArg Del.members h : x.apart.members = _), (congrArg Del.recon h : x.apart.recon = _)⟩

/-! ### POOL_RECONCILE -/

/-- The command of POOL_RECONCILE waits for RECON_DONE. -/
def Dev.reconWaits (d : Dev) (q : Nat) (pos : QPos) : Dev :=
  { d.running q pos with del.recon := some (q, pos.toNat), del.reconSkip := (d.del.txn.map (·.pck)).toList ++ (d.per.ckpt.bind (·.pck)).toList ++ d.del.prepared.toList, del.reconAt := none }

/-- Its own part starts, or the coordinator is asked for it. -/
def Dev.reconAsks (d : Dev) : Dev := if d.isCoord then d.takeRecon else d.toCoord tRecon [pk [(0, d.groupWord)]]

theorem Dev.reconAsks_recon (d : Dev) : d.reconAsks.del.recon = d.del.recon := by
  unfold Dev.reconAsks Dev.takeRecon
  split
  · split
    · exact Dev.ckptNext_recon _
    · rfl
  · exact (congrArg Del.recon (Dev.sendTo_apart d _ tRecon _) : (Dev.sendTo d _ tRecon _).del.apart.recon = _)

theorem poolReconcile_next {q : BitVec 14} {pos : BitVec 16} {s : State} {x : Exec} (h : Runs q pos cPoolReconcile noRules x s)
    (hrec : s.dev.del.recon = none) : exec (.poolReconcile q pos) s =
      .next (settle
        { s with dev := if !s.dev.del.inPool then s.start.finish q.toNat pos .notFound else if s.dev.del.group ≠ some (BitVec.ofNat 4 (num x.entry 8 1)) then s.start.finish q.toNat pos (Cpl.invalid 0 8) else if s.dev.del.gstate == .split then s.start.finish q.toNat pos .split else (s.start.reconWaits q.toNat pos).reconAsks }) := by
  have hrow : exec (.poolReconcile q pos) s = s.serve fun d => d.command q.toNat pos cPoolReconcile noRules fun x d => if
      !d.del.inPool then d.finish q.toNat pos .notFound else if d.del.group ≠ some (BitVec.ofNat 4 (num x.entry 8 1)) then
      d.finish q.toNat pos (Cpl.invalid 0 8) else if d.del.gstate == .split then d.finish q.toNat pos .split else (d.reconWaits
      q.toNat pos).reconAsks := by
    refine (exec_poolReconcile q pos s).trans ?_
    unfold execPoolReconcile
    rw [serve_acts h.1.1, serve_acts h.1.1]
    exact congrArg (fun d : Dev => Host.Outcome.next (settle { s with dev := d })) (if_neg
      (by rw [show ({ s.dev with drive := [] } : Dev).del.recon = none from hrec]; exact nofun))
  exact hrow.trans (serve_command h)

end Machine
end Sys2Proof

section
open Sys2Proof Sys2Proof.Machine Sys2Proof.Laws
set_option Elab.async false

/-- Settles O52: POOL_JOIN gives the identity and takes every link DOWN first, so that it answers no link that is UP;
POOL_LEAVE forgets the pool before anything that waited for its checkpoint goes on, and its entry stays in hand meanwhile. -/
theorem poolCommands : Obligations.PoolCommands := by
  refine ⟨fun q pos s x hc hr hf => ⟨fun hin => ?_, fun hin => ?_⟩, fun q pos s x hc hr => ⟨fun hin hck hst hrec => ?_, fun hin
    => ?_⟩,
    fun q pos s x hc hr hrec hin hg => ⟨fun hs => ?_, fun hs => ?_⟩⟩
  · have hans := poolJoin_next hr hf hin
    rw [Dev.joined_links (State.start_canonical hc)] at hans
    rw [show Cpl.ok (BitVec.ofNat 32 0) = Cpl.ok 0 from rfl] at hans
    have hdel := (finish_apart s (s.start.joined x.entry) q.toNat pos (Cpl.ok 0)).trans (Dev.joined_apart ..)
    have hans' : Answered q pos (Cpl.ok 0) _ := hr.answered hc (Dev.joined_queues s.start x.entry) (Cpl.ok 0)
    refine completes_of hans ⟨hans', ?_⟩
    generalize (settle { s with dev := (s.start.joined x.entry).finish q.toNat pos (Cpl.ok 0) }) = t at hdel
    obtain ⟨hin', hid, huse, hident, hgroup, hgstate, -⟩ := Del.apart_identity hdel
    refine ⟨hin', hid, huse, hident, fun hg => ⟨hgroup.trans (if_pos hg), hgstate.trans ?_⟩, fun hg => ⟨hgroup.trans (if_neg
      hg), hgstate.trans ?_⟩⟩
    · simp [Dev.joins, hg]
    · simp [Dev.joins, hg]
  · exact completes_of (poolJoin_again hr hf hin) (hr.answered (d := s.start) hc rfl _)
  · obtain ⟨hcan, ⟨y, hy, hyd⟩, hretire, hin', hgroup', hmembers', hgstate'⟩ := Dev.left_of (State.start_canonical hc) hrec ⟨x,
      hr.entry⟩
    obtain ⟨hin2, -, -, -, hgroup2, hgstate2, hmembers2, -⟩ := Del.apart_identity (finish_apart s s.start.left q.toNat pos
      (Cpl.ok 0))
    exact completes_of (poolLeave_next hr hin hck hst) ⟨answered_of_finish _ _ hy hyd hcan.queues, hin2.trans hin',
      hgroup2.trans hgroup',
      hmembers2.trans hmembers', (finish_retire ..).trans hretire, hgstate2.trans hgstate'⟩
  · exact completes_of (poolLeave_outside hr hin) (hr.answered (d := s.start) hc rfl _)
  · have hnext := poolReconcile_next hr hrec
    rw [hin, if_neg (by decide), if_neg (not_not.mpr hg), if_neg (by simpa using hs)] at hnext
    refine completes_of hnext ?_
    obtain ⟨-, -, -, -, -, -, -, hrecon⟩ := Del.apart_identity (settle_apart
      { s with dev := (s.start.reconWaits q.toNat pos).reconAsks })
    exact hrecon.trans (Dev.reconAsks_recon _)
  · have hnext := poolReconcile_next hr hrec
    rw [hin, if_neg (by decide), if_neg (not_not.mpr hg), if_pos (by simp [hs])] at hnext
    exact completes_of hnext (hr.answered (d := s.start) hc rfl _)

end

namespace Sys2Proof
namespace Machine

open Laws

-- each proof is small and there are many: elaborated one after the other they need one thread
set_option Elab.async false

/-! O54. REPORT, RETIRE, RECON and RECON_DONE; with them what every frame of the group does before it acts. -/

/-! ### What the receipt of a frame leaves -/

/-- A block but for its links, its members, the number of its next frame and what it has driven. -/
def Dev.unheard (d : Dev) : Dev :=
  { d with del.links := [], del.members := [], del.oseq := 0, drive := [] }

/-- A block that has noted a frame: the windows of the members, the timers of the links and what was sent may differ. -/
structure Noted (d e : Dev) : Prop where
  rest : e.unheard = d.unheard
  member : ∀ p, (e.memberOf p).st = (d.memberOf p).st ∧ (e.memberOf p).group = (d.memberOf p).group
  link : ∀ k, (e.link k).st = (d.link k).st ∧ (e.link k).version = (d.link k).version ∧ (e.link k).up = (d.link k).up
  tables : Canonical d → Canonical e

namespace Noted

variable {d e f : Dev}

theorem refl (d : Dev) : Noted d d := ⟨rfl, fun _ => ⟨rfl, rfl⟩, fun _ => ⟨rfl, rfl, rfl⟩, id⟩

theorem trans (h : Noted d e) (k : Noted e f) : Noted d f where
  rest := k.rest.trans h.rest
  member p := ⟨(k.member p).1.trans (h.member p).1, (k.member p).2.trans (h.member p).2⟩
  link n := ⟨(k.link n).1.trans (h.link n).1, (k.link n).2.1.trans (h.link n).2.1, (k.link n).2.2.trans (h.link n).2.2⟩
  tables hc := k.tables (h.tables hc)

/-- What depends on nothing but the rest of the block is the same. -/
theorem same {α : Type} (h : Noted d e) (g : Dev → α) (hg : ∀ x : Dev, g x.unheard = g x := by intro; rfl) : g e = g d :=
  (hg e).symm.trans ((congrArg g h.rest).trans (hg d))

theorem groupMembers (h : Noted d e) : e.groupMembers = d.groupMembers := by
  unfold Dev.groupMembers
  rw [h.same fun x => x.del.poolId, h.same fun x => x.del.group]
  refine congrArg (fun p => List.filter p (List.range 64)) (funext fun p => ?_)
  rw [(h.member p).1, (h.member p).2]

theorem isCoord (h : Noted d e) : e.isCoord = d.isCoord := by
  unfold Dev.isCoord Dev.coord
  rw [h.same fun x => x.del.poolId, h.same fun x => x.del.group]
  refine congrArg (fun p => decide ((List.find? p (List.range 64)).getD d.del.poolId.toNat = d.del.poolId.toNat)) (funext fun p
    => ?_)
  rw [(h.member p).1, (h.member p).2]

theorem someSilent (h : Noted d e) : e.someSilent = d.someSilent := by
  unfold Dev.someSilent
  rw [h.groupMembers, h.same fun x => x.del.poolId]
  exact congrArg (fun p => d.groupMembers.any p) (funext fun p => by rw [(h.member p).1])

theorem linkUsable (h : Noted d e) (n : Nat) : e.linkUsable n = d.linkUsable n := by
  unfold Dev.linkUsable
  rw [(h.link n).2.2, h.same fun x => x.up (domPel n)]

end Noted

theorem Dev.noted_setMember {d : Dev} (hr : Tab.rising d.del.members) {p : Nat} {m : Member} (hst : m.st = (d.memberOf p).st)
    (hg : m.group = (d.memberOf p).group) : Noted d (d.setMember p m) where
  rest := rfl
  member k := by
    by_cases hk : k = p
    · subst hk
      rw [Dev.memberOf_setMember hr]
      exact ⟨hst, hg⟩
    · rw [show (d.setMember p m).memberOf k = d.memberOf k from Tab.get_put_other _ hk]
      exact ⟨rfl, rfl⟩
  link _ := ⟨rfl, rfl, rfl⟩
  tables := (Dev.setMember_touches ..).tables

theorem Dev.noted_setLink {d : Dev} (hr : Tab.rising d.del.links) {n : Nat} {l : Link} (hst : l.st = (d.link n).st)
    (hv : l.version = (d.link n).version) (hu : l.up = (d.link n).up) : Noted d (d.setLink n l) where
  rest := rfl
  member _ := ⟨rfl, rfl⟩
  link k := by
    by_cases hk : k = n
    · subst hk
      rw [Dev.link_setLink hr]
      exact ⟨hst, hv, hu⟩
    · rw [show (d.setLink n l).link k = d.link k from Tab.get_put_other _ hk]
      exact ⟨rfl, rfl, rfl⟩
  tables := (Dev.setLink_touches ..).tables

theorem Dev.noted_linkHeard {d : Dev} (hr : Tab.rising d.del.links) (n : Nat) : Noted d (d.linkHeard n) :=
  Dev.noted_setLink hr rfl rfl rfl

theorem Dev.noted_acks (d : Dev) (n typ : Nat) (f : Frame) : Noted d (d.acks n typ f) := by
  unfold Dev.acks
  split
  · unfold Dev.sendLink Dev.transmit
    dsimp only
    split
    · exact ⟨rfl, fun _ => ⟨rfl, rfl⟩, fun _ => ⟨rfl, rfl, rfl⟩, fun h => { h with }⟩
    · rw [if_neg (by simp)]
      exact ⟨rfl, fun _ => ⟨rfl, rfl⟩, fun _ => ⟨rfl, rfl, rfl⟩, fun h => { h with }⟩
  · exact .refl d

/-! ### A steady group stays as it is -/

theorem Steady.heldAll {s : State} (h : Steady s) {e : Dev} (hn : Noted s.dev e) : e.heldAll = e := by
  unfold Dev.heldAll
  split
  · rfl
  · rename_i t ht
    refine if_neg fun hc => ?_
    rw [hn.same fun x => x.del.txn] at ht
    rw [hn.groupMembers] at hc
    obtain ⟨hcut, hall⟩ := Bool.and_eq_true_iff.mp hc
    rcases (h.txn t ht).1 with hk | ⟨m, hm, hmt⟩
    · rw [hk] at hcut
      exact Bool.noConfusion hcut
    · exact hmt (List.contains_iff_mem.mp (List.all_eq_true.mp hall m hm))

theorem Steady.doneAll {s : State} (h : Steady s) {e : Dev} (hn : Noted s.dev e) : e.doneAll = e := by
  unfold Dev.doneAll
  split
  · rfl
  · rename_i t ht
    refine if_neg fun hc => ?_
    rw [hn.same fun x => x.del.txn] at ht
    rw [hn.groupMembers] at hc
    obtain ⟨m, hm, hmt⟩ := (h.txn t ht).2
    exact hmt (List.contains_iff_mem.mp (List.all_eq_true.mp hc m hm))

theorem Noted.cutReady {d e : Dev} (h : Noted d e) : e.cutReady = d.cutReady := h.same fun x => x.cutReady

theorem Steady.cutDue {s : State} (h : Steady s) {e : Dev} (hn : Noted s.dev e) : e.cutDue = e := by
  unfold Dev.cutDue
  split
  · rename_i c hc
    refine if_neg fun hk => ?_
    rw [hn.same fun x => x.per.ckpt] at hc
    rw [hn.cutReady] at hk
    simp only [Bool.and_eq_true, beq_iff_eq] at hk
    obtain ⟨⟨hphase, hready⟩, hseen⟩ := hk
    obtain ⟨h1, h2⟩ := h.cut c hc hphase hready
    rw [h1, h2] at hseen
    exact Bool.noConfusion hseen
  · rfl

/-- A report that not every member has made is not tallied. -/
theorem Dev.tally_waits {d : Dev} {i : Nat} {old new : BitVec 16} {m : Nat} (hm : m ∈ d.groupMembers) (hr : d.reported i old m =
    false) :
    d.tally i old new = d := by
  refine if_neg fun hc => ?_
  rw [List.all_eq_true.mp hc m hm] at hr
  exact Bool.noConfusion hr

theorem Steady.tallyAll {s : State} (h : Steady s) {e : Dev} (hn : Noted s.dev e) : e.tallyAll = e := by
  unfold Dev.tallyAll
  refine ite_eq_left_iff.mpr fun _ => ?_
  rw [hn.same fun x => x.del.reports]
  refine forAll_holds (P := fun x => x = e) (fun r hr x hx => ?_) rfl
  subst hx
  refine ite_eq_right_iff.mpr fun _ => ?_
  obtain ⟨m, hm, hrep⟩ := h.reports r hr
  exact Dev.tally_waits (hn.groupMembers ▸ hm) ((hn.same fun x => x.reported r.1 r.2.1 m).trans hrep)

theorem Steady.pumpAdopt {s : State} (h : Steady s) {e : Dev} (ha : e.per.adopt = s.dev.per.adopt)
    (hk : s.dev.per.ckpt.isSome = true → e.per.ckpt.isSome = true) : e.pumpAdopt = e := by
  rw [Dev.pumpAdopt_eq, ha]
  split
  · rfl
  · rename_i a hs
    obtain ⟨hout, hstart, hclose, hhead⟩ := h.adopt a hs
    have hwalk : Dev.walkOn 200 e = e := by
      unfold Dev.walkOn
      rw [ha, hs]
      dsimp only
      split
      · rfl
      · rename_i hd rest hst
        refine if_pos ?_
        rw [hst] at hhead
        rcases hhead hd rfl with hr | hr <;> simp [hr]
    rw [if_neg (by rw [hout]; exact nofun), hstart]
    split
    · rfl
    · rw [if_neg nofun, hwalk]
      unfold Dev.adoptGoesOn
      rw [ha, hs]
      refine if_neg fun hc => ?_
      simp only [Bool.and_eq_true] at hc
      have hsome := hk (hclose hc.1.1.1)
      rw [Option.isNone_iff_eq_none.mp hc.1.1.2] at hsome
      exact Bool.noConfusion hsome

theorem Noted.ckptFree {d e : Dev} (h : Noted d e) : e.ckptFree = d.ckptFree := h.same fun x => x.ckptFree

theorem Steady.ckptNext {s : State} (h : Steady s) {e : Dev} (hn : Noted s.dev e) : e.ckptNext = e := by
  rw [Dev.ckptNext_eq, h.pumpAdopt (hn.same fun x => x.per.adopt) fun hk => (hn.same fun x => x.per.ckpt) ▸ hk]
  have hp (hf : s.dev.ckptFree = true) : e.del.prepared = none := (hn.same fun x => x.del.prepared).trans (h.starts hf).1
  cases hf : s.dev.ckptFree
  · exact if_pos (by rw [hn.ckptFree, hf]; rfl)
  · rw [Dev.ckptStarts_unprepared (hp hf), hn.ckptFree, if_pos hf]
    obtain ⟨-, hr, hw, hco⟩ := h.starts hf
    unfold Dev.ckptBegins
    rw [hn.isCoord, hn.same fun x => x.del.txn, hn.same fun x => x.del.ckreq, hn.same fun x => x.per.waiting,
      show e.poolWhole = s.dev.poolWhole from hn.same fun x => x.poolWhole,
      if_neg (by rw [(hn.same fun x => x.del.reconReq).trans hr]; exact nofun)]
    split
    · refine if_neg fun hc => ?_
      simp only [Bool.and_eq_true, Option.isNone_iff_eq_none] at hc
      obtain ⟨⟨hcoord, htxn⟩, hdue⟩ := hc
      obtain ⟨h1, h2⟩ := hco hcoord htxn
      rw [h1, h2] at hdue
      exact Bool.noConfusion hdue
    · rename_i hwhole
      exact if_pos (by rw [hw (by simpa using hwhole)]; rfl)

/-- A steady group follows no change of its members. -/
theorem Steady.regroup {s : State} (h : Steady s) {e : Dev} (hn : Noted s.dev e) (hsil : s.dev.someSilent = false)
    (hg : s.dev.del.gstate ≠ .split) : e.regroup = e := by
  unfold Dev.regroup
  split
  · rfl
  · rw [if_neg (by rw [hn.someSilent, hsil]; exact nofun), if_neg (by rw [hn.same fun x => x.del.gstate]; simpa using hg)]
    unfold Dev.membersChanged
    rw [h.heldAll hn, h.cutDue hn, h.doneAll hn, h.tallyAll hn, h.ckptNext hn]

/-! ### What a frame of the group does -/

/-- The member table takes a frame of a member, and nothing of the group follows. -/
theorem Steady.notesMember {s : State} (h : Steady s) {d : Dev} (hn : Noted s.dev d) (hc : Canonical s.dev) {typ : Nat}
    {f : Frame}
    (ht : frameState typ f = .member) (hst : (s.dev.memberOf f.origin.toNat).st = .member) (hsil : s.dev.someSilent = false)
    (hg : s.dev.del.gstate ≠ .split) : Noted s.dev (d.notesMember typ f) := by
  obtain ⟨h1, h2, -⟩ := Member.accept_keeps (d.memberOf f.origin.toNat) f.oseq (typ = tMember && !fLeave f)
  have hset : Noted s.dev (d.setMember f.origin.toNat ((d.memberOf f.origin.toNat).heardNow f.oseq (typ = tMember && !fLeave f)
      d.mgt.tref)) :=
    hn.trans (Dev.noted_setMember (hn.tables hc).members h1 h2)
  unfold Dev.notesMember
  dsimp only
  generalize d.setMember f.origin.toNat ((d.memberOf f.origin.toNat).heardNow f.oseq (typ = tMember && !fLeave f) d.mgt.tref) =
    e at hset
  have hmem : e.memberTo f.origin.toNat (frameState typ f) = e := by
    unfold Dev.memberTo
    exact if_pos (by rw [(hset.member _).1, hst, ht])
  rw [hmem, h.regroup hset hsil hg]
  exact hset

/-- What is left of a row once its frame has acted: forwarding and the end of the step. -/
structure Follows (e : Dev) (t : State) : Prop where
  apart : t.dev.del.apart = e.del.apart
  per : Kept e t.dev .per
  svc : Kept e t.dev .svc
  queues : Kept e t.dev .queues
  drive : ∀ x ∈ e.drive, x ∈ t.dev.drive

theorem Follows.of_touches {e d : Dev} {s : State} (h : Touches [.del] e d) (ha : d.del.apart = e.del.apart) :
    Follows e (settle { s with dev := d }) := by
  have hset : Touches [] d (settle { s with dev := d }).dev := settle_touches { s with dev := d }
  have hall : Touches [.del] e (settle { s with dev := d }).dev := .after hset h
  refine ⟨(settle_apart _).trans ha, hall.keeps .per, hall.keeps .svc, hall.keeps .queues,
    fun x hx => settle_drive (h.drive.subset hx)⟩

/-- A frame of a member that the engine acts on, while nothing of the group is due. -/
theorem acts_steady {n : Fin 4} {typ : Nat} {f : Frame} {s : State} {c : Instr} (hc : exec c s = s.serve fun d => d.receive n
    typ f)
    (hcan : Canonical s.dev) (h : Acts n f s) (hs : Steady s) (ht : typ ∈ frameTypes) (hh : typ ≠ tHello) (ha : typ ≠ tAck)
    (hfs : frameState typ f = .member) : ∃ e t, exec c s = .next t ∧ Noted s.dev e ∧ Follows (e.actOn n typ f) t := by
  have hnext := acts_next hc h ht hh ha
  obtain ⟨-, -, -, -, ho, hdup, hdest, hst, hsil, hg⟩ := h
  have hstart : Noted s.dev s.start := ⟨rfl, fun _ => ⟨rfl, rfl⟩, fun _ => ⟨rfl, rfl, rfl⟩, State.start_canonical⟩
  have hheard : Noted s.dev (s.start.linkHeard n) := hstart.trans (Dev.noted_linkHeard (d := s.start) hcan.links n)
  have hack : Noted s.dev ((s.start.linkHeard n).acks n typ f) := hheard.trans (Dev.noted_acks ..)
  have hpeers : Kept (s.start.linkHeard n) ((s.start.linkHeard n).acks n typ f) .peers := (Dev.acks_touches ..).keeps .peers
  have hnotes := hs.notesMember hack hcan hfs hst hsil hg
  have htake : (s.start.linkHeard n).takeFrame n typ f =
      (((((s.start.linkHeard n).acks n typ f).notesMember typ f).actOn n typ f)).forwards n typ f := by
    refine Dev.takeFrame_acts ?_ ?_ ?_
    · rw [hack.same fun x => x.del.poolId]
      exact ho
    · rw [hpeers.member]
      exact hdup
    · rw [hnotes.same fun x => x.del.poolId]
      exact hdest
  refine ⟨_, _, hnext, hnotes, ?_⟩
  rw [show Dev.linkHeard { s.dev with drive := [] } n = s.start.linkHeard n from rfl, htake]
  generalize (((s.start.linkHeard n).acks n typ f).notesMember typ f).actOn n typ f = e
  refine .of_touches (.ite (.mono (Dev.flood_touches ..)) (.refl _)) ?_
  unfold Dev.forwards
  split
  · exact Dev.flood_apart ..
  · rfl

/-- What a frame does that names the group of the engine. -/
theorem Dev.actOn_own {d : Dev} {n typ : Nat} {f : Frame} (hg : d.ofGroup f = true) (ht : typ ∉ [tHb, tMember, tSafe]) : d.actOn
    n typ f =
    if typ = tPrepare then d.takePrepare (fPck f)
    else if typ = tHeld then (d.takeHeld f.origin.toNat (fPck f)).cutDue
    else if typ = tCut then d.takeCut (fPck f)
    else if typ = tDone then (d.takeDone f.origin.toNat (fPck f) (bit (fWord f 0) 8)).ckptNext
    else if typ = tAbort then d.takeAbort (fPck f)
    else if typ = tCkreq then d.takeCkreq
    else if typ = tReport then
      if d.isCoord then d.takeReport f.origin.toNat (bits (fWord f 0) 27 16) ((fWord f 1).extractLsb' 0 16) ((fWord f
        1).extractLsb' 16 16)
      else d
    else if typ = tRetire then d.retireEntry (bits (fWord f 0) 27 16) ((fWord f 1).extractLsb' 0 16)
    else if typ = tRecon then d.takeRecon
    else if typ = tReconDone then d.takeReconDone (fPck f)
    else d := by
  simp only [List.mem_cons, List.not_mem_nil, or_false, not_or] at ht
  obtain ⟨h1, h2, h3⟩ := ht
  unfold Dev.actOn
  rw [if_neg h1, if_neg h2, if_neg h3, if_neg (by rw [hg]; exact nofun)]

theorem Noted.ofGroup {d e : Dev} (h : Noted d e) (f : Frame) : e.ofGroup f = d.ofGroup f := h.same fun x => x.ofGroup f

/-- The row of a frame of the group: what is left of it is what its type does to a block that has noted it. -/
theorem acts_own {n : Fin 4} {typ : Nat} {f : Frame} {s : State} {c : Instr} {act : Dev → Dev}
    (hrow : exec c s = s.serve fun d => d.receive n typ f) (hact : ∀ d : Dev, d.ofGroup f = true → d.actOn n typ f = act d)
    (hc : Canonical s.dev) (h : Acts n f s) (hs : Steady s) (hof : s.dev.ofGroup f = true)
    (ht : typ ∈ [tPrepare, tHeld, tCut, tDone, tAbort, tCkreq, tReport, tRetire, tRecon, tReconDone]) :
    ∃ e t, exec c s = .next t ∧ Noted s.dev e ∧ Follows (act e) t := by
  have hfs : ∀ typ ∈ [tPrepare, tHeld, tCut, tDone, tAbort, tCkreq, tReport, tRetire, tRecon, tReconDone],
      typ ∈ frameTypes ∧ typ ≠ tHello ∧ typ ≠ tAck ∧ typ ≠ tSafe ∧ typ ≠ tMember := by decide
  obtain ⟨h1, h2, h3, h4, h5⟩ := hfs typ ht
  obtain ⟨e, t, hnext, hn, hf⟩ := acts_steady hrow hc h hs h1 h2 h3 (by simp [frameState, h4, h5])
  exact ⟨e, t, hnext, hn, hact e ((hn.ofGroup f).trans hof) ▸ hf⟩

section Own

variable {d : Dev} {n : Nat} {f : Frame} (hg : d.ofGroup f = true)
include hg

theorem Dev.actOn_prepare : d.actOn n tPrepare f = d.takePrepare (fPck f) := Dev.actOn_own hg (by decide)
theorem Dev.actOn_held : d.actOn n tHeld f = (d.takeHeld f.origin.toNat (fPck f)).cutDue := Dev.actOn_own hg (by decide)
theorem Dev.actOn_cut : d.actOn n tCut f = d.takeCut (fPck f) := Dev.actOn_own hg (by decide)
theorem Dev.actOn_done : d.actOn n tDone f = (d.takeDone f.origin.toNat (fPck f) (bit (fWord f 0) 8)).ckptNext := Dev.actOn_own
    hg (by decide)
theorem Dev.actOn_abort : d.actOn n tAbort f = d.takeAbort (fPck f) := Dev.actOn_own hg (by decide)
theorem Dev.actOn_ckreq : d.actOn n tCkreq f = d.takeCkreq := Dev.actOn_own hg (by decide)
theorem Dev.actOn_report : d.actOn n tReport f = if d.isCoord then
    d.takeReport f.origin.toNat (bits (fWord f 0) 27 16) ((fWord f 1).extractLsb' 0 16) ((fWord f 1).extractLsb' 16 16) else d
      :=
  Dev.actOn_own hg (by decide)
theorem Dev.actOn_retire : d.actOn n tRetire f = d.retireEntry (bits (fWord f 0) 27 16) ((fWord f 1).extractLsb' 0 16) :=
  Dev.actOn_own hg (by decide)
theorem Dev.actOn_recon : d.actOn n tRecon f = d.takeRecon := Dev.actOn_own hg (by decide)
theorem Dev.actOn_reconDone : d.actOn n tReconDone f = d.takeReconDone (fPck f) := Dev.actOn_own hg (by decide)

end Own

theorem Kept.fronts {d e : Dev} (h : Kept d e .per) : e.per.ckpt = d.per.ckpt ∧ e.per.waiting = d.per.waiting ∧ e.per.armed =
    d.per.armed :=
  ⟨(congrArg Per.ckpt h : ({ e.per with evtLost := false } : Per).ckpt = _), (congrArg Per.waiting h :
    ({ e.per with evtLost := false } : Per).waiting = _),
    (congrArg Per.armed h : ({ e.per with evtLost := false } : Per).armed = _)⟩

/-! ### REPORT and RETIRE -/

/-- The report of a member is kept, once. -/
def Dev.keepsReport (d : Dev) (p i : Nat) (old new : BitVec 16) : Dev :=
  { d with del.reports := if d.reported i old p then d.del.reports else d.del.reports ++ [(i, old, new, p)] }

theorem Dev.keepsReport_reported (d : Dev) (p i : Nat) (old new : BitVec 16) (m : Nat) :
    (d.keepsReport p i old new).reported i old m = (d.reported i old m || decide (m = p)) := by
  unfold Dev.keepsReport Dev.reported
  dsimp only
  split
  · rename_i h
    by_cases hm : m = p
    · subst hm
      simpa using h
    · simp [hm]
  · by_cases hm : m = p
    · subst hm
      simp
    · simp [hm, Ne.symm hm]

/-- Another member's report is missing. -/
theorem Dev.takeReport_waits {d : Dev} {p i m : Nat} {old new : BitVec 16} (hg : d.del.gstate = .whole) (hm : m ∈
    d.groupMembers)
    (hp : m ≠ p) (hr : d.reported i old m = false) : d.takeReport p i old new = d.keepsReport p i old new := by
  refine (if_neg (by rw [hg]; exact nofun)).trans (Dev.tally_waits (d := d.keepsReport p i old new) (m := m) hm ?_)
  rw [Dev.keepsReport_reported, hr]
  simpa using hp

/-- RETIRE is due. -/
def Dev.retires (d : Dev) (i : Nat) (old new : BitVec 16) : Dev :=
  ({ d with del.reports := d.del.reports.filter fun x => !(decide (x.1 = i) && x.2.1 == old) }.broadcast tRetire
    (reportWords d.groupWord i old.toNat new.toNat)).retireEntry i old

theorem Dev.takeReport_last {d : Dev} {p i : Nat} {old new : BitVec 16} (hg : d.del.gstate = .whole)
    (hall : ∀ m ∈ d.groupMembers, m = p ∨ d.reported i old m = true) : d.takeReport p i old new = (d.keepsReport p i old
      new).retires i old new := by
  refine (if_neg (by rw [hg]; exact nofun)).trans (if_pos (List.all_eq_true.mpr fun m hm => ?_))
  refine (Dev.keepsReport_reported ..).trans ?_
  rcases hall m hm with h | h <;> simp [h]

theorem Dev.retires_retire (d : Dev) (i : Nat) (old new : BitVec 16) :
    (d.retires i old new).svc.retire = d.svc.retire.filter fun r => !(decide (r.1 = i) && r.2.1 == old) := by
  have hb (e : Dev) (typ : Nat) (pl : List Word32) : (e.broadcast typ pl).svc.retire = e.svc.retire := ((Dev.broadcast_touches e
      typ pl).keeps .svc).retire
  exact congrArg (List.filter _) (hb _ _ _)

/-- A broadcast of a block that has noted a frame goes out on every link that was UP. -/
theorem Noted.broadcasts {s : State} {e : Dev} (h : Noted s.dev e) (hin : s.dev.del.inPool = true) (typ : Nat) (pl : List
    Word32) {n : Nat}
    (hn : n < 4) (hst : (s.dev.link n).st = .up) (hu : s.dev.linkUsable n = true) :
    .frame n (frameWords (s.dev.link n).version typ ⟨true, s.dev.del.poolId, 0, 63, e.del.oseq, pl⟩) ∈ (e.broadcast typ
      pl).drive := by
  have hsent := Dev.broadcast_sends (d := e) ((h.same fun x => x.del.inPool).trans hin) hn ((h.link n).1.trans hst)
      ((h.linkUsable n).trans hu) typ pl
  rw [(h.link n).2.1, h.same fun x => x.del.poolId] at hsent
  exact hsent

/-! ### RECON_DONE -/

theorem Dev.tally_pool (d : Dev) (i : Nat) (old new : BitVec 16) :
    (d.tally i old new).del.gstate = d.del.gstate ∧ (d.tally i old new).del.recon = d.del.recon := by
  unfold Dev.tally
  split
  · obtain ⟨-, -, -, -, -, hg, -, hr⟩ := Del.apart_identity (Dev.broadcast_apart
      { d with del.reports := d.del.reports.filter fun x => !(decide (x.1 = i) && x.2.1 == old) }
      tRetire (reportWords d.groupWord i old.toNat new.toNat))
    exact ⟨hg, hr⟩
  · exact ⟨rfl, rfl⟩

theorem Dev.sendReport_pool (d : Dev) (i : Nat) (old new : BitVec 16) :
    (d.sendReport i old new).del.gstate = d.del.gstate ∧ (d.sendReport i old new).del.recon = d.del.recon := by
  unfold Dev.sendReport Dev.takeReport
  split
  · exact ⟨rfl, rfl⟩
  · split
    · split
      · exact ⟨rfl, rfl⟩
      · exact Dev.tally_pool ..
    · obtain ⟨-, -, -, -, -, hg, -, hr⟩ := Del.apart_identity (Dev.sendTo_apart d (BitVec.ofNat 6 d.coord) tReport (reportWords
        d.groupWord i old.toNat new.toNat))
      exact ⟨hg, hr⟩

theorem Dev.reportAll_pool (d : Dev) : d.reportAll.del.gstate = d.del.gstate ∧ d.reportAll.del.recon = d.del.recon :=
  forAll_holds (P := fun e : Dev => e.del.gstate = d.del.gstate ∧ e.del.recon = d.del.recon)
    (fun _ _ _ he => ⟨(Dev.sendReport_pool ..).1.trans he.1, (Dev.sendReport_pool ..).2.trans he.2⟩) ⟨rfl, rfl⟩

theorem Dev.reconciled_pool (d : Dev) (q : BitVec 64) : (d.reconciled q).del.gstate = .whole ∧ (d.reconciled q).del.recon =
    none := by
  obtain ⟨hg, hr⟩ := Dev.reportAll_pool { d with del.gstate := .whole }
  have hends (e : Dev) (c : Cpl) : (e.reconEnds c).del.gstate = e.del.gstate ∧ (e.reconEnds c).del.recon = none := by
    unfold Dev.reconEnds
    split
    · rename_i h
      exact ⟨rfl, h⟩
    · rename_i k p h
      obtain ⟨-, -, -, -, -, hg, -, hr⟩ := Del.apart_identity (Kept.apart ((Dev.finish_touches
        { e with del.recon := none, del.reconSkip := [], del.reconAt := none } k (BitVec.ofNat 16 p) c).keeps .del))
      exact ⟨hg, hr⟩
  exact ⟨(hends _ _).1.trans hg, (hends _ _).2⟩

theorem Dev.exec1_congr {d e : Dev} {q : Nat} {pos : QPos} (h : e.qmg.queues = d.qmg.queues) : e.exec1 q pos = d.exec1 q
    pos := by
  unfold Dev.exec1 Dev.queue
  rw [h]

/-- The end of a POOL_RECONCILE that waits answers it. -/
theorem Dev.reconEnds_answers {d : Dev} {q : Nat} {pos : QPos} {x : Exec} (c : Cpl) (hq : Tab.rising d.qmg.queues)
    (hr : d.del.recon = some (q, pos.toNat)) (hx : d.exec1 q pos = some x) (hd : x.discard = false) :
    ∃ y, (d.reconEnds c).exec1 q pos = some y ∧ y.cpl = some c ∧ y.st = .completing := by
  unfold Dev.reconEnds
  rw [hr]
  dsimp only
  rw [BitVec.ofNat_toNat, BitVec.setWidth_eq]
  exact finish_answers (d := { d with del.recon := none, del.reconSkip := [], del.reconAt := none }) c hq hx hd

theorem Dev.reconciled_answers {d : Dev} {q : Nat} {pos : QPos} {x : Exec} (k : BitVec 64) (hq : Tab.rising d.qmg.queues)
    (hr : d.del.recon = some (q, pos.toNat)) (hx : d.exec1 q pos = some x) (hd : x.discard = false) :
    ∃ y, (d.reconciled k).exec1 q pos = some y ∧ y.cpl = some (Cpl.ok (k.extractLsb' 0 32)) ∧ y.st = .completing := by
  have hall : Kept _ _ .queues := (Dev.reportAll_touches { d with del.gstate := .whole }).keeps .queues
  have hrec := (Dev.reportAll_pool { d with del.gstate := .whole }).2
  unfold Dev.reconciled
  generalize ({ d with del.gstate := .whole } : Dev).reportAll = e at hall hrec
  exact Dev.reconEnds_answers _ (show Tab.rising e.qmg.queues from (show e.qmg.queues = d.qmg.queues from hall) ▸ hq)
    (hrec.trans hr)
    ((Dev.exec1_congr hall).trans hx) hd

/-- RETIRE goes out on every link that was UP. -/
theorem Noted.retires_sends {s : State} {e : Dev} (h : Noted s.dev e) (hin : s.dev.del.inPool = true) (p i : Nat) (old new :
    BitVec 16)
    {n : Nat} (hn : n < 4) (hst : (s.dev.link n).st = .up) (hu : s.dev.linkUsable n = true) :
    .frame n (frameWords (s.dev.link n).version tRetire ⟨true, s.dev.del.poolId, 0, 63, e.del.oseq,
      reportWords s.dev.groupWord i old.toNat new.toNat⟩) ∈ ((e.keepsReport p i old new).retires i old new).drive := by
  have hw : (e.keepsReport p i old new).groupWord = s.dev.groupWord := h.same fun x => x.groupWord
  have hsent := Dev.broadcast_sends (d :=
      { (e.keepsReport p i old new) with del.reports := (e.keepsReport p i old new).del.reports.filter fun x => !(decide (x.1 = i) && x.2.1 == old) })
    ((h.same fun x => x.del.inPool).trans hin) hn ((h.link n).1.trans hst) ((h.linkUsable n).trans hu) tRetire
    (reportWords (e.keepsReport p i old new).groupWord i old.toNat new.toNat)
  rw [hw] at hsent
  have hl := (h.link n).2.1
  have hp : e.del.poolId = s.dev.del.poolId := h.same fun x => x.del.poolId
  rw [← hl, ← hp, ← hw]
  rw [← hw] at hsent
  exact hsent

theorem Steady.takeRecon {s : State} (h : Steady s) {e : Dev} (hn : Noted s.dev e) (hco : s.dev.isCoord = true) (hadm :
    s.dev.poolAdmits = true)
    (harm : s.dev.per.armed = true) (hfree : s.dev.ckptFree = true) (htxn : s.dev.del.txn = none) :
    e.takeRecon = ({ e with del.reconReq := true } : Dev).startPool 4 true := by
  have hco' : e.isCoord = true := hn.isCoord.trans hco
  have hadm' : e.poolAdmits = true := (hn.same fun x => x.poolAdmits).trans hadm
  have hp : ({ e with del.reconReq := true } : Dev).pumpAdopt = { e with del.reconReq := true } :=
    h.pumpAdopt (e := { e with del.reconReq := true }) (hn.same fun x => x.per.adopt) fun hk => (hn.same fun x => x.per.ckpt) ▸
      hk
  refine (if_pos (by rw [hco', hadm']; rfl)).trans ?_
  rw [Dev.ckptNext_eq, hp, Dev.ckptStarts_unprepared (d := { e with del.reconReq := true }) ((hn.same fun x =>
    x.del.prepared).trans (h.starts hfree).1)]
  refine (if_pos (hn.ckptFree.trans hfree)).trans (if_pos ?_)
  have h1 : e.per.armed = true := (hn.same fun x => x.per.armed).trans harm
  have h2 : e.del.txn = none := (hn.same fun x => x.del.txn).trans htxn
  show (true && e.per.armed && e.isCoord && e.poolAdmits && e.del.txn.isNone) = true
  rw [h1, h2, hco', hadm']
  rfl

/-- The startup of a pool checkpoint by the coordinator. -/
theorem Dev.startPool_begins (d : Dev) (trigger : Nat) (recon : Bool) : ∃ (q : BitVec 64) (x : Txn) (c : Ckpt),
    (d.startPool trigger recon).del.txn = some x ∧ x.pck = q ∧ x.done = [] ∧ x.recon = recon ∧
      (d.startPool trigger recon).per.ckpt = some c ∧ c.pck = some q ∧ (d.startPool trigger recon).del.reconReq = false := by
  let top := d.groupMembers.foldl (fun m p => max m (d.memberOf p).pck.toNat) (max d.del.proposal.toNat d.del.pck.toNat)
  let q : BitVec 64 := BitVec.ofNat 64 (top + 1)
  have ha (e : Dev) (typ : Nat) (pl : List Word32) : (e.broadcast typ pl).del.txn = e.del.txn ∧ (e.broadcast typ
      pl).del.reconReq = e.del.reconReq :=
    ⟨(congrArg Del.txn (Dev.broadcast_apart e typ pl) : (e.broadcast typ pl).del.apart.txn = _),
      (congrArg Del.reconReq (Dev.broadcast_apart e typ pl) : (e.broadcast typ pl).del.apart.reconReq = _)⟩
  refine ⟨q, ⟨q, [], [], false, false, d.mgt.tref, recon⟩, _, (ha _ _ _).1, rfl, rfl, rfl, rfl, rfl, (ha _ _ _).2⟩

end Machine
end Sys2Proof

section
open Sys2Proof Sys2Proof.Machine Sys2Proof.Laws
set_option Elab.async false

/-- Settles O54: with nothing due the member table is passed by, and the frame does what its type says. -/
theorem poolRetirementFrames : Obligations.PoolRetirementFrames := by
  intro n f s hc h hs hof
  have hin : s.dev.del.inPool = true := (Bool.and_eq_true_iff.mp (Bool.and_eq_true_iff.mp h.2.1).1).1
  refine ⟨fun i old new hi hold hnew => ⟨fun hco hg => ⟨?_, fun hall => ?_⟩, ?_⟩, fun hco hadm harm hfree htxn => ?_, fun hadm
    => ⟨?_, fun q pos x hrec hx hd => ?_⟩⟩
  · rintro ⟨m, hm, hmo, hrep⟩
    obtain ⟨e, t, hnext, hn, hf⟩ := acts_own (c := .report n f) rfl (fun d hd => Dev.actOn_report hd) hc h hs hof (by decide)
    rw [← hi, ← hold, ← hnew, if_pos (hn.isCoord.trans hco), Dev.takeReport_waits ((hn.same fun x => x.del.gstate).trans hg)
      (hn.groupMembers ▸ hm) hmo ((hn.same fun x => x.reported i old m).trans hrep)] at hf
    refine completes_of hnext ⟨?_, hf.svc.retire.trans (hn.same fun x => x.svc.retire)⟩
    have hreports : t.dev.del.reports = (e.keepsReport f.origin.toNat i old new).del.reports :=
      (congrArg Del.reports hf.apart : t.dev.del.apart.reports = _)
    have hrep' := Dev.keepsReport_reported e f.origin.toNat i old new f.origin.toNat
    unfold Dev.reported at hrep' ⊢
    rw [hreports, hrep']
    simp
  · obtain ⟨e, t, hnext, hn, hf⟩ := acts_own (c := .report n f) rfl (fun d hd => Dev.actOn_report hd) hc h hs hof (by decide)
    rw [← hi, ← hold, ← hnew, if_pos (hn.isCoord.trans hco), Dev.takeReport_last ((hn.same fun x => x.del.gstate).trans hg) fun
      m hm =>
      (hall m (hn.groupMembers ▸ hm)).imp id (hn.same fun x => x.reported i old m).trans] at hf
    refine completes_of hnext ⟨hf.svc.retire.trans ((Dev.retires_retire ..).trans (congrArg (List.filter _) (hn.same fun x =>
      x.svc.retire))),
      fun k hk hst hu => ⟨e.del.oseq, hf.drive _ (hn.retires_sends hin f.origin.toNat i old new hk hst hu)⟩⟩
  · obtain ⟨e, t, hnext, hn, hf⟩ := acts_own (c := .retire n f) rfl (fun d hd => Dev.actOn_retire hd) hc h hs hof (by decide)
    rw [← hi, ← hold] at hf
    exact completes_of hnext (hf.svc.retire.trans (congrArg (List.filter _) (hn.same fun x => x.svc.retire)))
  · obtain ⟨e, t, hnext, hn, hf⟩ := acts_own (c := .recon n f) rfl (fun d hd => Dev.actOn_recon hd) hc h hs hof (by decide)
    rw [hs.takeRecon hn hco hadm harm hfree htxn] at hf
    obtain ⟨q, x, c, htx, -, -, hrec, -, -, hreq⟩ := Dev.startPool_begins { e with del.reconReq := true } 4 true
    exact completes_of hnext ⟨x, (congrArg Del.txn hf.apart : t.dev.del.apart.txn = _).trans htx, hrec,
      (congrArg Del.reconReq hf.apart : t.dev.del.apart.reconReq = _).trans hreq⟩
  · obtain ⟨e, t, hnext, hn, hf⟩ := acts_own (c := .reconDone n f) rfl (fun d hd => Dev.actOn_reconDone hd) hc h hs hof
      (by decide)
    rw [show e.takeReconDone (fPck f) = e.reconciled (fPck f) from if_pos ((hn.same fun x => x.poolAdmits).trans hadm)] at hf
    obtain ⟨hg, hr⟩ := e.reconciled_pool (fPck f)
    obtain ⟨-, -, -, -, -, hg', -, hr'⟩ := Del.apart_identity hf.apart
    exact completes_of hnext ⟨hg'.trans hg, hr'.trans hr⟩
  · obtain ⟨e, t, hnext, hn, hf⟩ := acts_own (c := .reconDone n f) rfl (fun d hd => Dev.actOn_reconDone hd) hc h hs hof
      (by decide)
    rw [show e.takeReconDone (fPck f) = e.reconciled (fPck f) from if_pos ((hn.same fun x => x.poolAdmits).trans hadm)] at hf
    obtain ⟨y, hy, hyc, hyst⟩ := e.reconciled_answers (fPck f) (hn.tables hc).queues ((hn.same fun x => x.del.recon).trans hrec)
      ((hn.same fun x => x.exec1 q.toNat pos).trans hx) hd
    exact completes_of hnext ⟨y, (Dev.exec1_congr hf.queues).trans hy, hyc, hyst⟩

end

namespace Sys2Proof
namespace Machine

open Laws

-- each proof is small and there are many: elaborated one after the other they need one thread
set_option Elab.async false

/-! O53. The frames of a pool checkpoint, and its timers. -/

/-! ### PREPARE and CKREQ -/

/-- PREPARE where a checkpoint may start. -/
theorem Dev.takePrepare_starts {d : Dev} {q : BitVec 64} (hadm : d.poolAdmits = true) (harm : d.per.armed = true) (hf :
    d.ckptFree = true) :
    ∃ c, (d.takePrepare q).per.ckpt = some c ∧ c.phase = .preFlush ∧ c.pck = some q ∧ c.cmds = d.per.waiting ∧
      (d.takePrepare q).per.waiting = [] := by
  rw [show d.takePrepare q = d.joinPool 4 q from (if_neg (by rw [hadm, harm]; exact nofun)).trans (if_pos hf)]
  exact ⟨_, rfl, rfl, rfl, rfl, rfl⟩

theorem Dev.takePrepare_waits {d : Dev} {q : BitVec 64} (hadm : d.poolAdmits = true) (harm : d.per.armed = true) (hf :
    d.ckptFree = false) :
    (d.takePrepare q).del.prepared = some q := by
  rw [show d.takePrepare q = { d with del.prepared := some q } from
    (if_neg (by rw [hadm, harm]; exact nofun)).trans (if_neg (by rw [hf]; exact nofun))]

/-- The start of a pool checkpoint that the coordinator has due. -/
theorem Dev.ckptNext_starts {d : Dev} (hp : d.pumpAdopt = d) (hf : d.ckptFree = true) (hprep : d.del.prepared = none)
    (hr : d.del.reconReq = false) (hw : d.poolWhole = true) (hco : d.isCoord = true) (htxn : d.del.txn = none)
    (hdue : d.del.ckreq = true ∨ d.per.waiting ≠ []) : d.ckptNext = d.startPool 4 false := by
  rw [Dev.ckptNext_eq, hp, Dev.ckptStarts_unprepared hprep, if_pos hf]
  refine (if_neg (by rw [hr]; exact nofun)).trans ((if_pos hw).trans (if_pos ?_))
  rw [hco, htxn]
  rcases hdue with h | h <;> simp [h]

/-! ### Transactions that go on while checkpoints start -/

/-- A pool checkpoint that is not complete stays while checkpoints start. -/
theorem Dev.ckptNext_txn {d : Dev} {x : Txn} (h : d.del.txn = some x) : d.ckptNext.del.txn = some x := by
  have hp : d.pumpAdopt.del.txn = some x :=
    ((congrArg Del.txn (Kept.apart ((Dev.pumpAdopt_touches d).keeps .del)) : d.pumpAdopt.del.apart.txn = _)).trans h
  rw [Dev.ckptNext_eq]
  generalize d.pumpAdopt = e at hp
  unfold Dev.ckptStarts
  split
  · exact hp
  · split
    · exact hp
    · unfold Dev.ckptBegins
      rw [if_neg (by rw [hp]; simp), hp]
      split
      · rw [if_neg (by simp)]
        exact hp
      · split
        · exact hp
        · exact hp

/-- Without anything due for the coordinator no pool checkpoint starts. -/
theorem Dev.ckptNext_none {d : Dev} (h : d.del.txn = none) (hr : d.del.reconReq = false) (hc : d.del.ckreq = false)
    (hw : d.pumpAdopt.per.waiting = []) : d.ckptNext.del.txn = none := by
  have ha := Kept.apart ((Dev.pumpAdopt_touches d).keeps .del)
  have hp : d.pumpAdopt.del.txn = none := ((congrArg Del.txn ha : d.pumpAdopt.del.apart.txn = _)).trans h
  have hr' : d.pumpAdopt.del.reconReq = false := ((congrArg Del.reconReq ha : d.pumpAdopt.del.apart.reconReq = _)).trans hr
  have hc' : d.pumpAdopt.del.ckreq = false := ((congrArg Del.ckreq ha : d.pumpAdopt.del.apart.ckreq = _)).trans hc
  rw [Dev.ckptNext_eq]
  generalize d.pumpAdopt = e at hp hr' hc' hw
  unfold Dev.ckptStarts
  split
  · exact hp
  · split
    · exact hp
    · unfold Dev.ckptBegins
      rw [if_neg (by rw [hr']; exact nofun), hc', hw]
      split
      · rw [if_neg (by simp)]
        exact hp
      · exact hp

/-! ### HELD, CUT and ABORT -/

theorem Dev.cutDue_unready {d : Dev} (h : d.cutReady = false) : d.cutDue = d := by
  unfold Dev.cutDue
  split
  · exact if_neg (by rw [h]; simp)
  · rfl

/-- A HELD that is not the last. -/
theorem Dev.takeHeld_waits {d : Dev} {p m : Nat} {x : Txn} (h : d.del.txn = some x) (hcut : x.cut = false) (hm : m ∈
    d.groupMembers)
    (hh : m ∉ insSorted p x.held) : d.takeHeld p x.pck = { d with del.txn := some { x with held := insSorted p x.held } } := by
  unfold Dev.takeHeld
  rw [h]
  refine (if_neg (by rw [hcut]; simp)).trans ?_
  unfold Dev.heldAll
  refine if_neg fun hc => ?_
  exact hh (List.contains_iff_mem.mp (List.all_eq_true.mp (Bool.and_eq_true_iff.mp hc).2 m hm))

/-- The last HELD: CUT goes out. -/
def Dev.cuts (d : Dev) (x : Txn) : Dev :=
  let d := { d with del.txn := some { x with cut := true } }.broadcast tCut (d.pckWords x.pck false)
  { d with per.ckpt := d.per.ckpt.map fun (c : Ckpt) => if c.pck = some x.pck then { c with cutSeen := true } else c }

theorem Dev.takeHeld_last {d : Dev} {p : Nat} {x : Txn} (h : d.del.txn = some x) (hcut : x.cut = false)
    (hall : ∀ m ∈ d.groupMembers, m ∈ insSorted p x.held) : d.takeHeld p x.pck =
      Dev.cuts { d with del.txn := some { x with held := insSorted p x.held } } { x with held := insSorted p x.held } := by
  unfold Dev.takeHeld
  rw [h]
  refine (if_neg (by rw [hcut]; simp)).trans ?_
  unfold Dev.heldAll
  refine if_pos (Bool.and_eq_true_iff.mpr ⟨by rw [hcut]; rfl, ?_⟩)
  exact List.all_eq_true.mpr fun m hm => List.contains_iff_mem.mpr (hall m hm)

theorem Dev.cutLocal_turns {d : Dev} {q : BitVec 64} {c : Ckpt} (h : d.per.ckpt = some c) (hp : c.pool = some q) (hs : c.cutSeen
    = false)
    (hph : c.phase = .preFlush ∨ c.phase = .hold) : d.cutLocal q = ({ d with per.ckpt := some { c with localCut := true } } :
      Dev).cutDue := by
  unfold Dev.cutLocal
  rw [h]
  refine if_pos ?_
  rcases hph with hph | hph <;> simp [hp, hs, hph]

/-! ### DONE -/

/-- A DONE that is not the last. -/
theorem Dev.takeDone_waits {d : Dev} {p m : Nat} {x : Txn} {fail : Bool} (h : d.del.txn = some x) (hm : m ∈ d.groupMembers)
    (hh : m ∉ insSorted p x.done) : d.takeDone p x.pck fail =
      { d with del.txn := some { x with done := insSorted p x.done, failed := x.failed || fail } } := by
  unfold Dev.takeDone
  rw [h]
  refine (if_neg (not_not.mpr rfl)).trans ?_
  unfold Dev.doneAll
  exact if_neg fun hc => hh (List.contains_iff_mem.mp (List.all_eq_true.mp hc m hm))

/-- The last DONE of a checkpoint that reconciles nothing. -/
theorem Dev.takeDone_last {d : Dev} {p : Nat} {x : Txn} {fail : Bool} (h : d.del.txn = some x) (hr : x.recon = false)
    (hall : ∀ m ∈ d.groupMembers, m ∈ insSorted p x.done) : d.takeDone p x.pck fail = { d with del.txn := none } := by
  unfold Dev.takeDone
  rw [h]
  refine (if_neg (not_not.mpr rfl)).trans ?_
  unfold Dev.doneAll
  refine (if_pos (List.all_eq_true.mpr fun m hm => List.contains_iff_mem.mpr (hall m hm))).trans ?_
  exact if_pos (by rw [hr]; rfl)

/-! ### What waits for a checkpoint goes on waiting while an adoption goes on -/

theorem Touches.waiting {as bs : List Aspect} {d e : Dev} (h : Touches as d e bs) (h1 : Aspect.per ∉ as := by decide)
    (h2 : Aspect.per ∉ bs := by decide) : e.per.waiting = d.per.waiting := (h.keeps .per h1 h2).fronts.2.1

theorem Dev.media_waiting (d : Dev) (op addr : Nat) (b : Beat) (w : MedWhy) : (d.media op addr b w).per.waiting = d.per.waiting
    :=
  (Dev.media_touches d op addr b w).waiting

theorem Dev.openZone_waiting (d : Dev) (z : Nat) : (d.openZone z).per.waiting = d.per.waiting := by
  unfold Dev.openZone
  dsimp only
  split
  · exact (Dev.raise_touches d bPer 2).waiting
  · rw [Dev.media_waiting]

theorem Dev.adoptRewrite_waiting (d : Dev) (a : Adopt) (h : AdNode) (rest : List AdNode) :
    (d.adoptRewrite a h rest).per.waiting = d.per.waiting := by
  unfold Dev.adoptRewrite
  dsimp only
  split
  · rw [Dev.media_waiting]
    rfl
  · split
    · rfl
    · split
      · rw [Dev.media_waiting]
        exact d.openZone_waiting a.zone
      · exact d.openZone_waiting a.zone

theorem Dev.adoptError_waiting (d : Dev) (a : Adopt) (x : NodeId) (cause : Nat) : (d.adoptError a x cause).1.per.waiting =
    d.per.waiting :=
  (Dev.adoptError_touches d a x cause).waiting

theorem Dev.adoptWalked_waiting (d : Dev) (a : Adopt) (root : Ctr) : (d.adoptWalked a root).per.waiting = d.per.waiting := rfl

theorem Dev.setAdopt_waiting (d : Dev) (a : Adopt) : (d.setAdopt a).per.waiting = d.per.waiting := rfl

theorem Dev.adoptReadNode_waiting {d e : Dev} {x : NodeId} (h : d.adoptReadNode x = some e) : e.per.waiting = d.per.waiting :=
  (Dev.adoptReadNode_touches h).waiting

theorem Dev.adoptFails_waiting (d : Dev) (a : Adopt) (cause : Nat) : (d.adoptFails a cause).per.waiting = d.per.waiting := by
  unfold Dev.adoptFails
  split
  · rfl
  · dsimp only
    split
    · rw [Dev.adoptWalked_waiting, Dev.adoptError_waiting]
    · rw [Dev.setAdopt_waiting, Dev.adoptError_waiting]

theorem Dev.walkOn_waiting (n : Nat) (d : Dev) : (Dev.walkOn n d).per.waiting = d.per.waiting := by
  induction n generalizing d with
  | zero => rfl
  | succ n ih =>
    unfold Dev.walkOn
    split
    · rfl
    · split
      · rfl
      · split
        · rfl
        · split
          · dsimp only
            split
            · split
              · rename_i e he
                exact (Dev.adoptReadNode_waiting he).trans (Dev.setAdopt_waiting ..)
              · rw [ih, Dev.adoptFails_waiting]
            · rw [ih, Dev.setAdopt_waiting]
          · split
            · rw [ih, Dev.adoptFails_waiting]
            · exact Dev.adoptRewrite_waiting ..

theorem Dev.adoptNoTop_waiting (d : Dev) (a : Adopt) (cause : Nat) : (d.adoptNoTop a cause).per.waiting = d.per.waiting := by
  unfold Dev.adoptNoTop
  dsimp only
  split
  · rfl
  · rw [Dev.adoptWalked_waiting, Dev.adoptError_waiting]

theorem Dev.adoptFlush_waiting (d : Dev) (a : Adopt) : (d.adoptFlush a).per.waiting = d.per.waiting := by
  have hd : (d.dropSubtree ⟨a.zone, 8, 0⟩).per.waiting = d.per.waiting := (Dev.dropSubtree_touches ..).waiting
  unfold Dev.adoptFlush
  dsimp only
  split
  · rfl
  · split
    · refine forAll_holds (P := fun e : Dev => e.per.waiting = d.per.waiting) (fun k _ e he => ?_) rfl
      split
      · exact (Dev.wantLine_touches e k).waiting.trans he
      · exact he
    · split
      · rename_i e he
        rw [Dev.adoptReadNode_waiting he, Dev.setAdopt_waiting, hd]
      · rw [Dev.adoptNoTop_waiting, hd]

theorem Dev.adoptEnds_waiting (d : Dev) (ok : Bool) : (d.adoptEnds ok).per.waiting = d.per.waiting := by
  unfold Dev.adoptEnds
  split
  · rfl
  · rename_i a _
    split
    · rfl
    · have hz := (Dev.zoneTo_touches { d with per.adopt := none } a.zone .online cAdoptZone).waiting
      dsimp only
      split
      · exact (Dev.finish_touches ..).waiting.trans hz
      · exact (Dev.finishWith_touches ..).waiting.trans hz

theorem Dev.adoptCloses_waiting (d : Dev) (a : Adopt) : (d.adoptCloses a).per.waiting = d.per.waiting := by
  have hd (x : Zone → Zone) : ((d.updZone a.zone x).dropDrawn a.q a.pos).per.waiting = d.per.waiting :=
    (Dev.dropDrawn_touches ..).waiting.trans (Dev.updZone_touches ..).waiting
  exact hd _

theorem Dev.pumpAdopt_waiting (d : Dev) : d.pumpAdopt.per.waiting = d.per.waiting := by
  rw [Dev.pumpAdopt_eq]
  split
  · rfl
  · rename_i a _
    split
    · exact Dev.adoptEnds_waiting ..
    · split
      · rfl
      · have hw : (Dev.walkOn 200 (if (!a.started) = true then d.adoptFlush a else d)).per.waiting = d.per.waiting := by
          rw [Dev.walkOn_waiting]
          split
          · exact Dev.adoptFlush_waiting ..
          · rfl
        generalize Dev.walkOn 200 (if (!a.started) = true then d.adoptFlush a else d) = e at hw
        unfold Dev.adoptGoesOn
        split
        · split
          · exact (Dev.adoptCloses_waiting ..).trans hw
          · exact hw
        · exact hw

/-! ### TXN_TIMEOUT -/

/-- A coordinator gives up. -/
def Dev.givesUp (d : Dev) (x : Txn) : Dev := ({ d with del.txn := none }.broadcast tAbort (d.pckWords x.pck false)).cutLocal
    x.pck

/-- A pool checkpoint that has waited too long for CUT turns local. -/
def Dev.heldLate (d : Dev) (late : Nat → Bool) : Dev :=
  match d.per.ckpt with
  | some c => (match c.pool with
    | some q => if c.held && late c.heldAt then d.cutLocal q else d
    | none => d)
  | none => d

/-- The end of a POOL_RECONCILE that has waited too long. -/
def Dev.reconLate (d : Dev) (late : Nat → Bool) : Dev :=
  (if d.del.txn.isNone && !d.del.reconReq && d.del.prepared.isNone && !d.poolCkpt && d.del.reconAt.any late then d.reconEnds
    .split else d).ckptNext

theorem exec_txnTimeout_eq (s : State) : exec .txnTimeout s = s.serve fun d => ((match d.del.txn with
      | some t => if !t.cut && d.passed t.since d.del.txnTimeout then d.givesUp t else d
      | none => d).heldLate fun t => d.passed t d.del.txnTimeout).reconLate fun t => d.passed t d.del.txnTimeout := rfl

theorem Dev.heldLate_none {d : Dev} (h : d.per.ckpt = none) (late : Nat → Bool) : d.heldLate late = d := by
  unfold Dev.heldLate
  rw [h]

theorem Dev.cutLocal_none {d : Dev} (h : d.per.ckpt = none) (q : BitVec 64) : d.cutLocal q = d := by
  unfold Dev.cutLocal
  rw [h]

/-- With no checkpoint of its own a coordinator that gives up sends ABORT. -/
theorem Dev.givesUp_sends {d : Dev} (h : d.per.ckpt = none) (x : Txn) : d.givesUp x = { d with del.txn := none }.broadcast
    tAbort (d.pckWords x.pck false) := by
  have hb : Kept _ _ .per := (Dev.broadcast_touches { d with del.txn := none } tAbort (d.pckWords x.pck false)).keeps .per
  exact Dev.cutLocal_none (hb.fronts.1.trans h) _

/-- What the end of a POOL_RECONCILE leaves of what is due. -/
theorem Dev.reconEnds_due (d : Dev) (c : Cpl) : (d.reconEnds c).del.txn = d.del.txn ∧ (d.reconEnds c).del.reconReq =
    d.del.reconReq ∧
    (d.reconEnds c).del.ckreq = d.del.ckreq ∧ (d.reconEnds c).per.waiting = d.per.waiting := by
  unfold Dev.reconEnds
  split
  · exact ⟨rfl, rfl, rfl, rfl⟩
  · rename_i k p _
    have hf := Dev.finish_touches { d with del.recon := none, del.reconSkip := [], del.reconAt := none } k (BitVec.ofNat 16 p) c
    have ha := Kept.apart (hf.keeps .del)
    exact ⟨(congrArg Del.txn ha : (Dev.finish _ _ _ _).del.apart.txn = _), (congrArg Del.reconReq ha : (Dev.finish _ _
      _ _).del.apart.reconReq = _),
      (congrArg Del.ckreq ha : (Dev.finish _ _ _ _).del.apart.ckreq = _), hf.waiting⟩

/-- ABORT of a checkpoint of its own that has not cut. -/
theorem Dev.takeAbort_turns {d : Dev} {q : BitVec 64} {c : Ckpt} (h : d.per.ckpt = some c) (hp : c.pool = some q) (hs :
    c.cutSeen = false)
    (hph : c.phase = .preFlush ∨ c.phase = .hold) (hready : d.cutReady = false) :
    (d.takeAbort q).per.ckpt = some { c with localCut := true } := by
  have hpck : c.pck = some q := by
    unfold Ckpt.pool at hp
    split at hp
    · cases hp
    · exact hp
  have hturn (e : Dev) (hk : e.per.ckpt = some c) (hr : e.cutReady = false) :
      (if e.per.ckpt.any fun c => c.pck = some q then e.cutLocal q else e.reconFails q .split).per.ckpt = some
        { c with localCut := true } := by
    rw [if_pos (by rw [hk]; simpa using hpck), Dev.cutLocal_turns hk hp hs hph,
      Dev.cutDue_unready (show ({ e with per.ckpt := some { c with localCut := true } } : Dev).cutReady = false from hr)]
  unfold Dev.takeAbort
  dsimp only
  split
  · exact hturn { d with del.prepared := none } h hready
  · exact hturn d h hready

/-! ### Broadcasts leave the rest of the block alone -/

theorem Dev.transmit_unheard (d : Dev) (n typ : Nat) (f : Frame) : (d.transmit n typ f).unheard = d.unheard := by
  unfold Dev.transmit
  dsimp only
  split
  · rfl
  · split <;> rfl

theorem Dev.broadcast_unheard (d : Dev) (typ : Nat) (pl : List Word32) : (d.broadcast typ pl).unheard = d.unheard := by
  unfold Dev.broadcast
  split
  · rfl
  · have hd : ∀ e : Dev, e.nextOseq.unheard = e.unheard := fun _ => rfl
    rw [hd]
    refine forAll_holds (P := fun e : Dev => e.unheard = d.unheard) (fun n _ e he => ?_) rfl
    split
    · exact (Dev.transmit_unheard ..).trans he
    · exact he

theorem Dev.cuts_unready {d : Dev} (h : d.cutReady = false) (x : Txn) : (d.cuts x).cutReady = false := by
  have hb := congrArg Dev.cutReady (Dev.broadcast_unheard { d with del.txn := some { x with cut := true } } tCut (d.pckWords
      x.pck false))
  exact Eq.trans (hb : Dev.cutReady (Dev.broadcast _ _ _) = d.cutReady) h

/-- CUT goes out on every link that was UP. -/
theorem Noted.cuts_sends {s : State} {e : Dev} (h : Noted s.dev e) (hin : s.dev.del.inPool = true) (y : Option Txn) (x : Txn)
    {n : Nat}
    (hn : n < 4) (hst : (s.dev.link n).st = .up) (hu : s.dev.linkUsable n = true) :
    .frame n (frameWords (s.dev.link n).version tCut ⟨true, s.dev.del.poolId, 0, 63, e.del.oseq, s.dev.pckWords x.pck false⟩) ∈
      (Dev.cuts { e with del.txn := y } x).drive := by
  have hsent := Dev.broadcast_sends (d := { e with del.txn := some { x with cut := true } }) ((h.same fun x =>
      x.del.inPool).trans hin) hn
    ((h.link n).1.trans hst) ((h.linkUsable n).trans hu) tCut (e.pckWords x.pck false)
  rw [← (h.link n).2.1, ← h.same fun x => x.del.poolId, ← h.same fun d => d.pckWords x.pck false]
  exact hsent

theorem Dev.cuts_txn (d : Dev) (x : Txn) : (d.cuts x).del.txn = some { x with cut := true } :=
  (congrArg Del.txn (Dev.broadcast_apart { d with del.txn := some { x with cut := true } } tCut (d.pckWords x.pck false)) :
    (Dev.broadcast _ _ _).del.apart.txn = _)

theorem Dev.cuts_ckpt {d : Dev} {x : Txn} {c : Ckpt} (h : d.per.ckpt = some c) (hp : c.pck = some x.pck) :
    (d.cuts x).per.ckpt = some { c with cutSeen := true } := by
  have hb : Kept _ _ .per := (Dev.broadcast_touches { d with del.txn := some { x with cut := true } } tCut (d.pckWords x.pck
      false)).keeps .per
  unfold Dev.cuts
  dsimp only
  rw [hb.fronts.1, h]
  exact congrArg some (if_pos hp)

/-! ### What TXN_TIMEOUT ends -/

theorem Dev.reconLate_none {d : Dev} (h : d.del.txn = none) (hr : d.del.reconReq = false) (hc : d.del.ckreq = false)
    (hw : d.per.waiting = []) (late : Nat → Bool) : (d.reconLate late).del.txn = none := by
  unfold Dev.reconLate
  split
  · obtain ⟨h1, h2, h3, h4⟩ := d.reconEnds_due .split
    exact Dev.ckptNext_none (h1.trans h) (h2.trans hr) (h3.trans hc) ((Dev.pumpAdopt_waiting _).trans (h4.trans hw))
  · exact Dev.ckptNext_none h hr hc ((Dev.pumpAdopt_waiting _).trans hw)

theorem Dev.reconLate_drive (d : Dev) (late : Nat → Bool) : d.drive <+: (d.reconLate late).drive := by
  have hends (e : Dev) (c : Cpl) : e.drive <+: (e.reconEnds c).ckptNext.drive :=
    List.IsPrefix.trans (Dev.reconEnds_touches e c).drive (Dev.ckptNext_touches _).drive
  unfold Dev.reconLate
  split
  · exact hends d .split
  · exact (Dev.ckptNext_touches d).drive

/-- ABORT, the transaction forgotten. -/
def Dev.aborts (d : Dev) (x : Txn) : Dev := { d with del.txn := none }.broadcast tAbort (d.pckWords x.pck false)

/-- A coordinator that has waited too long for HELD. -/
theorem txnTimeout_gives {s : State} {x : Txn} (hs : InService s) (htxn : s.dev.del.txn = some x) (hcut : x.cut = false)
    (hlate : s.dev.passed x.since s.dev.del.txnTimeout = true) (hck : s.dev.per.ckpt = none) (hc : s.dev.del.ckreq = false)
    (hr : s.dev.del.reconReq = false) (hw : s.dev.per.waiting = []) :
    ∃ e, exec .txnTimeout s = .next (settle { s with dev := e }) ∧ (s.start.aborts x).drive <+: e.drive ∧ e.del.txn = none := by
  have hper : Kept s.start (s.start.aborts x) .per := .trans (Touches.setDel_any (x := { s.start.del with txn := none }).keeps
      .per) ((Dev.broadcast_touches _ tAbort _).keeps .per)
  have hapart : (s.start.aborts x).del.apart = ({ s.start.del with txn := none } : Del).apart := Dev.broadcast_apart _ tAbort _
  have hgives : s.start.givesUp x = s.start.aborts x := Dev.givesUp_sends (d := s.start) hck x
  have hnext : exec .txnTimeout s = .next (settle
      { s with dev := (s.start.aborts x).reconLate fun t => s.dev.passed t s.dev.del.txnTimeout }) := by
    refine (exec_txnTimeout_eq s).trans (serve_next hs ?_)
    rw [show s.start.del.txn = some x from htxn]
    dsimp only
    rw [if_pos (by rw [hcut]; exact hlate), hgives, Dev.heldLate_none (hper.fronts.1.trans hck)]
    rfl
  generalize s.start.aborts x = b at hper hapart hnext
  refine ⟨_, hnext, Dev.reconLate_drive .., Dev.reconLate_none ?_ ?_ ?_ ?_ _⟩
  · exact (congrArg Del.txn hapart : b.del.apart.txn = _)
  · exact (congrArg Del.reconReq hapart : b.del.apart.reconReq = _).trans hr
  · exact (congrArg Del.ckreq hapart : b.del.apart.ckreq = _).trans hc
  · exact hper.fronts.2.1.trans hw

/-- A POOL_RECONCILE that has waited too long for RECON_DONE. -/
theorem txnTimeout_ends {s : State} {since : Nat} (hs : InService s) (htxn : s.dev.del.txn = none) (hr : s.dev.del.reconReq =
    false)
    (hp : s.dev.del.prepared = none) (hck : s.dev.per.ckpt = none) (hat : s.dev.del.reconAt = some since)
    (hlate : s.dev.passed since s.dev.del.txnTimeout = true) : exec .txnTimeout s = .next (settle
      { s with dev := (s.start.reconEnds .split).ckptNext }) := by
  refine (exec_txnTimeout_eq s).trans (serve_next hs ?_)
  rw [show s.start.del.txn = none from htxn]
  dsimp only
  rw [Dev.heldLate_none (d := s.start) hck]
  refine congrArg Dev.ckptNext (if_pos ?_)
  have h1 : s.start.del.txn = none := htxn
  have h2 : s.start.del.reconReq = false := hr
  have h3 : s.start.del.prepared = none := hp
  have h4 : s.start.poolCkpt = false := by
    unfold Dev.poolCkpt
    rw [h1, show s.start.per.ckpt = none from hck]
    rfl
  rw [h1, h2, h3, h4, show s.start.del.reconAt = some since from hat]
  exact hlate

end Machine
end Sys2Proof

section
open Sys2Proof Sys2Proof.Machine Sys2Proof.Laws
set_option Elab.async false

/-- Settles O53: with nothing due the member table is passed by, and each frame does what the checkpoint protocol says; the
timers act alone. -/
theorem poolCheckpointFrames : Obligations.PoolCheckpointFrames := by
  refine ⟨fun n f s hc h hs hof => ?_, fun s x hc hserv hin htxn hcut hlate hck hreq hrec hwait => ?_,
    fun q pos x since s hc hserv hrec htxn hreq hprep hck had hat hlate hx hd => ?_⟩
  · have hin : s.dev.del.inPool = true := (Bool.and_eq_true_iff.mp (Bool.and_eq_true_iff.mp h.2.1).1).1
    refine ⟨fun hadm harm => ⟨fun hfree => ?_, fun hfree => ?_⟩, fun x htxn hpck hcut hready => ⟨?_, fun hall => ?_⟩,
      fun c hck hpool hready => ⟨?_, fun hseen hph => ?_⟩, fun x htxn hpck => ⟨?_, fun hall hrec => ⟨fun hreq hwait hrr => ?_,
        fun hfree hco hwhole hdue => ?_⟩⟩,
      fun hco hwhole harm hfree htxn => ?_⟩
    · obtain ⟨e, t, hnext, hn, hf⟩ := acts_own (c := .prepare n f) rfl (fun d hd => Dev.actOn_prepare hd) hc h hs hof
        (by decide)
      obtain ⟨c, hck, hph, hpck, hcmds, hwait⟩ := Dev.takePrepare_starts (d := e) (q := fPck f) ((hn.same fun x =>
        x.poolAdmits).trans hadm)
        ((hn.same fun x => x.per.armed).trans harm) (hn.ckptFree.trans hfree)
      obtain ⟨h1, h2, -⟩ := hf.per.fronts
      exact completes_of hnext ⟨c, h1.trans hck, hph, hpck, hcmds.trans (hn.same fun x => x.per.waiting), h2.trans hwait⟩
    · obtain ⟨e, t, hnext, hn, hf⟩ := acts_own (c := .prepare n f) rfl (fun d hd => Dev.actOn_prepare hd) hc h hs hof
        (by decide)
      have hprep := Dev.takePrepare_waits (d := e) (q := fPck f) ((hn.same fun x => x.poolAdmits).trans hadm)
        ((hn.same fun x => x.per.armed).trans harm) (hn.ckptFree.trans hfree)
      exact completes_of hnext ((congrArg Del.prepared hf.apart : t.dev.del.apart.prepared = _).trans hprep)
    · intro m hm hmh
      obtain ⟨e, t, hnext, hn, hf⟩ := acts_own (c := .held n f) rfl (fun d hd => Dev.actOn_held hd) hc h hs hof (by decide)
      have hready' : ({ e with del.txn := some { x with held := insSorted f.origin.toNat x.held } } : Dev).cutReady = false :=
          hn.cutReady.trans hready
      rw [← hpck, Dev.takeHeld_waits ((hn.same fun x => x.del.txn).trans htxn) hcut (hn.groupMembers ▸ hm) hmh,
        Dev.cutDue_unready hready'] at hf
      exact completes_of hnext (congrArg Del.txn hf.apart : t.dev.del.apart.txn = _)
    · obtain ⟨e, t, hnext, hn, hf⟩ := acts_own (c := .held n f) rfl (fun d hd => Dev.actOn_held hd) hc h hs hof (by decide)
      have hunready : ({ e with del.txn := some { x with held := insSorted f.origin.toNat x.held } } : Dev).cutReady = false :=
          hn.cutReady.trans hready
      rw [← hpck, Dev.takeHeld_last ((hn.same fun x => x.del.txn).trans htxn) hcut fun m hm => hall m (hn.groupMembers ▸ hm),
        Dev.cutDue_unready (Dev.cuts_unready hunready _)] at hf
      refine completes_of hnext ⟨(congrArg Del.txn hf.apart : t.dev.del.apart.txn = _).trans (Dev.cuts_txn ..), fun c hck hcp =>
        ?_, fun k hk hst hu => ?_⟩
      · exact hf.per.fronts.1.trans (Dev.cuts_ckpt ((hn.same fun x => x.per.ckpt).trans hck) (hpck ▸ hcp))
      · refine ⟨e.del.oseq, hf.drive _ ?_⟩
        rw [← hpck]
        exact hn.cuts_sends hin _ { x with held := insSorted f.origin.toNat x.held } hk hst hu
    · obtain ⟨e, t, hnext, hn, hf⟩ := acts_own (c := .cutFrame n f) rfl (fun d hd => Dev.actOn_cut hd) hc h hs hof (by decide)
      have hready' : ({ e with per.ckpt := some { c with cutSeen := true } } : Dev).cutReady = false := hn.cutReady.trans hready
      have htake : e.takeCut (fPck f) = { e with per.ckpt := some { c with cutSeen := true } } := by
        unfold Dev.takeCut
        rw [(hn.same fun x => x.per.ckpt).trans hck]
        exact (if_pos hpool).trans (Dev.cutDue_unready hready')
      rw [htake] at hf
      exact completes_of hnext hf.per.fronts.1
    · obtain ⟨e, t, hnext, hn, hf⟩ := acts_own (c := .abort n f) rfl (fun d hd => Dev.actOn_abort hd) hc h hs hof (by decide)
      exact completes_of hnext (hf.per.fronts.1.trans
        (Dev.takeAbort_turns ((hn.same fun x => x.per.ckpt).trans hck) hpool hseen hph (hn.cutReady.trans hready)))
    · intro m hm hmh
      obtain ⟨e, t, hnext, hn, hf⟩ := acts_own (c := .done n f) rfl (fun d hd => Dev.actOn_done hd) hc h hs hof (by decide)
      rw [← hpck, Dev.takeDone_waits ((hn.same fun x => x.del.txn).trans htxn) (hn.groupMembers ▸ hm) hmh] at hf
      exact completes_of hnext ((congrArg Del.txn hf.apart : t.dev.del.apart.txn = _).trans (Dev.ckptNext_txn rfl))
    · obtain ⟨e, t, hnext, hn, hf⟩ := acts_own (c := .done n f) rfl (fun d hd => Dev.actOn_done hd) hc h hs hof (by decide)
      rw [← hpck, Dev.takeDone_last ((hn.same fun x => x.del.txn).trans htxn) hrec fun m hm => hall m (hn.groupMembers ▸
        hm)] at hf
      refine completes_of hnext ((congrArg Del.txn hf.apart : t.dev.del.apart.txn = _).trans (Dev.ckptNext_none rfl ?_ ?_ ?_))
      · exact (hn.same fun x => x.del.reconReq).trans hrr
      · exact (hn.same fun x => x.del.ckreq).trans hreq
      · exact (Dev.pumpAdopt_waiting _).trans ((hn.same fun x => x.per.waiting).trans hwait)
    · obtain ⟨e, t, hnext, hn, hf⟩ := acts_own (c := .done n f) rfl (fun d hd => Dev.actOn_done hd) hc h hs hof (by decide)
      rw [← hpck, Dev.takeDone_last ((hn.same fun x => x.del.txn).trans htxn) hrec fun m hm => hall m (hn.groupMembers ▸
        hm)] at hf
      obtain ⟨hprep, hrr, -, -⟩ := hs.starts hfree
      rw [Dev.ckptNext_starts (d := { e with del.txn := none }) (hs.pumpAdopt (hn.same fun x => x.per.adopt) fun hk => (hn.same
        fun x => x.per.ckpt) ▸ hk)
        (hn.ckptFree.trans hfree) ((hn.same fun x => x.del.prepared).trans hprep) ((hn.same fun x => x.del.reconReq).trans hrr)
        ((hn.same fun x => x.poolWhole).trans hwhole) (hn.isCoord.trans hco) rfl
        (hdue.imp (hn.same fun x => x.del.ckreq).trans fun hw => (hn.same fun x => x.per.waiting) ▸ hw)] at hf
      obtain ⟨q, y, c, hy, hyq, hdone, -, hc, hcq, -⟩ := Dev.startPool_begins { e with del.txn := none } 4 false
      exact completes_of hnext ⟨y, c, (congrArg Del.txn hf.apart : t.dev.del.apart.txn = _).trans hy, hdone,
        hf.per.fronts.1.trans hc, hyq ▸ hcq⟩
    · obtain ⟨e, t, hnext, hn, hf⟩ := acts_own (c := .ckreq n f) rfl (fun d hd => Dev.actOn_ckreq hd) hc h hs hof (by decide)
      obtain ⟨hprep, hrr, -, -⟩ := hs.starts hfree
      have htake : e.takeCkreq = ({ e with del.ckreq := true } : Dev).startPool 4 false := by
        refine (if_pos ?_).trans (Dev.ckptNext_starts (d := { e with del.ckreq := true })
          (hs.pumpAdopt (hn.same fun x => x.per.adopt) fun hk => (hn.same fun x => x.per.ckpt) ▸ hk) (hn.ckptFree.trans hfree)
          ((hn.same fun x => x.del.prepared).trans hprep) ((hn.same fun x => x.del.reconReq).trans hrr) ((hn.same fun x =>
            x.poolWhole).trans hwhole)
          (hn.isCoord.trans hco) ((hn.same fun x => x.del.txn).trans htxn) (.inl rfl))
        rw [hn.isCoord.trans hco, (hn.same fun x => x.poolWhole).trans hwhole, (hn.same fun x => x.per.armed).trans harm]
        rfl
      rw [htake] at hf
      obtain ⟨q, y, c, hy, hyq, -, -, hc, hcq, -⟩ := Dev.startPool_begins { e with del.ckreq := true } 4 false
      exact completes_of hnext ⟨y, c, (congrArg Del.txn hf.apart : t.dev.del.apart.txn = _).trans hy, hf.per.fronts.1.trans hc,
        hyq ▸ hcq⟩
  · obtain ⟨e, hnext, htouch, hnone⟩ := txnTimeout_gives hserv htxn hcut hlate hck hreq hrec hwait
    refine completes_of hnext ⟨?_, fun k hk hst hu => ⟨s.dev.del.oseq, settle_drive (htouch.subset ?_)⟩⟩
    · exact (congrArg Del.txn (settle_apart { s with dev := e }) : (settle { s with dev := e }).dev.del.apart.txn = _).trans
        hnone
    · exact Dev.broadcast_sends (d := { s.start with del.txn := none }) hin hk hst hu tAbort (s.start.pckWords x.pck false)
  · refine completes_of (txnTimeout_ends hserv htxn hreq hprep hck hat hlate) ?_
    obtain ⟨y, hy, hyc, hyst⟩ := Dev.reconEnds_answers (d := s.start) .split hc.queues hrec hx hd
    have hadopt : (s.start.reconEnds .split).per.adopt = none := ((Dev.reconEnds_touches s.start .split).keeps .adopt : Kept _
        _ _) had
    have hq : Kept _ _ .queues := (Dev.ckptNext_touches (s.start.reconEnds .split)).quiet hadopt (by decide) .queues (by decide)
    exact ⟨y, (settle_exec1 ..).trans ((Dev.exec1_congr hq).trans hy), hyc, hyst⟩

end
